-- ==== Sys2Proof/Word.lean ====
section
/-! DEFINITION. Bytes and words, and the plain types that the commands' operands use. -/

namespace Sys2Proof

abbrev Byte := BitVec 8

/-- A 32-bit postcode, the address of a place in the system (R29). -/
abbrev Postcode := BitVec 32

/-- How a self-test member ended (R85): the environment's finding, with the defects found. `mesh` marks a
failure that cuts a tile off, or a router error (R396). -/
inductive TestOutcome where
  | pass
  | repaired (entries : List (BitVec 64))
  | failed (mesh : Bool)
  deriving DecidableEq, Repr

/-- The outcome of one self-test member, named by its postcode die value (R82, R85). -/
structure TestResult where
  die : Nat
  outcome : TestOutcome
  deriving DecidableEq, Repr

/-- What the board and the power plate show when the management domains get their power (R72, R74, R89, R402): the supervisor's
check, whether the level at ENABLE stands above V_T+ (a level inside the hysteresis band does not), and whether a management
processor starts. -/
structure BoardStart where
  supervisorOk : Bool := true
  enableAbove : Bool := false
  processorStarts : Bool := true
  deriving DecidableEq, Repr

/-- The completion status of a read that the module issued to a host port (R108). -/
inductive CplStatus where
  | success
  | unsupportedRequest
  | completerAbort
  deriving DecidableEq, Repr

/-- The response code of a page request (R99). -/
inductive PageCode where
  | success
  | invalidRequest
  | responseFailure
  deriving DecidableEq, Repr

/-- The configuration-space registers of a function that R90–R106 give a meaning. -/
inductive CfgReg where
  | vendorId | deviceId | classCode
  | totalVfs | firstVfOffset | vfStride | vfDeviceId | numVfs | vfEnable
  | maxPayload | maxReadRequest | completionTimeout | relaxedOrdering
  | pasidEnable | priEnable | atsEnable | pageRequestCapacity
  | msixEnable | functionMask | msixTableSize
  | busMaster | powerState | noSoftReset | initiateFlr
  | idoRequest | extendedTag | tag10 | tag14
  | bar0Low | bar0High | bar2Low | bar2High | vfBar0Low | vfBar0High | vfBar2Low | vfBar2High
  deriving DecidableEq, Repr

/-- Which of the conditions that withhold a message is lifted (R96). -/
inductive Unmask where
  | vector (v : Nat)
  | functionMask
  | msixEnable
  | busMaster
  deriving DecidableEq, Repr

/-- The fields of an MSI-X table entry (R433). -/
inductive MsixField where
  | addressLow | addressHigh | data | control
  deriving DecidableEq, Repr

/-- What the scrub finds in a word (R384, R389). -/
inductive ScrubFinding where
  | good | correctable | uncorrectable
  deriving DecidableEq, Repr

/-- The stores whose parity the spec has checked on use (R172, R193, R271, R319, and the Faults tables). -/
inductive ParityKind where
  | lock | keySlot | routeTable | queueEntry | tlb | mirror | pin | spectralTable | runCount | holdBuffer | tally
  deriving DecidableEq, Repr

/-- One eye of EYE_SUMMARY as the receiver measures it (R224, R227). -/
structure EyeReading where
  heightMv : Nat
  width64 : Nat
  snrTenthDb : Nat
  deriving DecidableEq, Repr

/-- One junction sensor's reading (R401): the die, the sensor's index on it, and the temperature in tenths of
a degree, or `none` when the sensor is stale or cannot be read. -/
structure SensorReading where
  die : Nat
  index : Nat
  tenths : Option Int
  deriving DecidableEq, Repr

/-- A wire group of a link in one of its two directions (R21, R80): `inbound` for the wires that come into the end that is named. -/
structure WireGroup where
  index : Nat
  inbound : Bool := false
  deriving DecidableEq, Repr

/-- A port, and whether firmware holds it not ready (R242). -/
structure PortHold where
  port : Nat
  held : Bool := false
  deriving DecidableEq, Repr

/-- A letterbox whose command writes a record into MRAM, and whether that write verifies there (R127, R391). -/
structure MramWrite where
  lb : Nat
  ok : Bool := true
  deriving DecidableEq, Repr

/-- What a port receives, as PAYLOAD_FLIT_RECEIVE brings it (R229, R231): a flit as the receive chain hands it on, or 10-bit symbols as a lane
received them after its last marker, which the chain itself takes from there. -/
inductive Received where
  | flit (bytes : List Byte)
  | symbols (lane : Nat) (values : List Nat)
  deriving DecidableEq, Repr

end Sys2Proof
end

