-- ==== Sys2Proof/Syntax.lean ====
section
/-! DEFINITION. The commands the KW1 takes: one constructor per row of the spec's table of operations and
events, in the table's order. A row's operands are what arrives from outside the module with that event
(a register value, received bytes, a measured quantity, a self-test outcome) and the names of the unit it
happens at (a port, a ring, a letterbox, a packet). Each docstring names the table's row and its rule. -/

namespace Sys2Proof

/-- One command: a row of the table of operations and events. -/
inductive Instr where
  /-- `INPUT_POWER_UP` (R74). The 48 V inputs rise through 40 V and phase A runs: the power plate, the boot ROM image check, postmaster start and MCTP endpoint open, reaching P4. -/
  | inputPowerUp (inA : Bool) (inB : Bool) (board : BoardStart)
  /-- `INPUT_UNDERVOLTAGE` (R74). An input falls below 40 V: phase A returns to step A1, or above P4 the governor drops the module to P3. -/
  | inputUndervoltage (input : Nat)
  /-- `COLD_RESET` (R77). Both inputs stay below 40 V for 10 ms and are then restored; all volatile state is cleared and phases A–D rerun. -/
  | coldReset
  /-- `MCTP_WATCHDOG_EXPIRY` (R89). No management processor has opened the MCTP endpoint 100 ms after step A2, so ALERT is asserted. -/
  | mctpWatchdogExpiry
  /-- `HEARTBEAT_WATCHDOG_EXPIRY` (R133). Neither management processor has sent a heartbeat for 10 ms, so ALERT is asserted. -/
  | heartbeatWatchdogExpiry
  /-- `ENABLE_ASSERT` (R71). ENABLE stays above the threshold through its 1 ms filter and starts phase B of power-up. -/
  | enableAssert
  /-- `ENABLE_DEASSERT` (R73). ENABLE stays low through its 1 ms filter; the governor takes the module to P4, or self-test ends at the end of the current wave. -/
  | enableDeassert
  /-- `POWERUP_PHASE_B` (R74). With both inputs in range and ENABLE asserted, the edge dies are powered, edge-die repair entries are applied and wave 0 runs. -/
  | powerupPhaseB (result0 : TestOutcome) (result8 : TestOutcome)
  /-- `SELFTEST_WAVE` (R83). When the previous wave ends, the next self-test wave starts all of its members over paths of members that have passed. -/
  | selftestWave (results : List TestResult)
  /-- `SELFTEST_RETRY_PASS` (R84). After wave 9, members that were skipped are retested through any neighbour that passed. -/
  | selftestRetryPass (results : List TestResult)
  /-- `POWERUP_VERDICT` (R86). After phase C the repair map is written, SRAM is zeroed, the verdict is formed and P0 and ready are reached, or the safe state is entered. -/
  | powerupVerdict (mramOk : Bool)
  /-- `PHASE_C_TIMEOUT` (R86). Self-test exceeds its phase C bound by more than 8 ms, so the module enters the safe state with reason 0x05. -/
  | phaseCTimeout
  /-- `HOST_PORT_TRAINING` (R76). At the later of PERST# deassertion and a wave 0 pass of its edge die, a host port starts training. -/
  | hostPortTraining (port : Nat)
  /-- `PERST_ASSERT` (R104). PERST# on a HOST connector applies a host fundamental reset to every function of that port. -/
  | perstAssert (port : Nat)
  /-- `HOST_LINK_DOWN` (R104). A host port link goes down for any cause, and every function of that port is reset as by FLR. -/
  | hostLinkDown (port : Nat)
  /-- `CONFIG_REQUEST` (R76). The host sends a configuration request; before step D1 it receives Request Retry Status, and a request to a VF that is not enabled receives Unsupported Request. -/
  | configRequest (port : Nat) (fn : Nat) (write : Bool) (reg : CfgReg) (value : Nat)
  /-- `BUS_MASTER_ENABLE_CLEAR` (R100). The host clears Bus Master Enable; the function stops issuing requests and messages, and dependent descriptors complete "aborted by host". -/
  | busMasterEnableClear (port : Nat) (fn : Nat)
  /-- `BUS_MASTER_ENABLE_SET` (R101). The host sets Bus Master Enable again; held completion entries are written in ring order. -/
  | busMasterEnableSet (port : Nat) (fn : Nat)
  /-- `INITIATE_FLR` (R102). An Initiate FLR write starts the Function Level Reset sequence of a function. -/
  | initiateFlr (port : Nat) (fn : Nat)
  /-- `FLR_READS_DONE` (R102). The outstanding reads of a resetting function complete, or 90 ms pass, and the FLR continues with translation drop, release and reset. -/
  | flrReadsDone (port : Nat) (fn : Nat)
  /-- `VF_ENABLE_SET` (R92). The host sets VF Enable; the VFs become reachable and their letterboxes usable. -/
  | vfEnableSet (port : Nat)
  /-- `VF_ENABLE_CLEAR` (R92). The host clears VF Enable, which applies FLR to every enabled VF. -/
  | vfEnableClear (port : Nat)
  /-- `D3HOT_ENTRY` (R106). A function enters D3hot and acts as if Bus Master Enable were clear, with its BARs reading 0. -/
  | d3hotEntry (port : Nat) (fn : Nat)
  /-- `D0_RETURN` (R106). A function returns to D0 with its rings stopped. -/
  | d0Return (port : Nat) (fn : Nat)
  /-- `PRI_ENABLE_TOGGLE` (R99). PRI Enable is cleared and set again, restoring page requests after a Response Failure. -/
  | priEnableToggle (port : Nat) (fn : Nat)
  /-- `MSIX_UNMASK` (R96). A vector mask, the Function Mask, MSI-X Enable or Bus Master Enable is lifted, and pending messages are sent. -/
  | msixUnmask (port : Nat) (fn : Nat) (what : Unmask)
  /-- `BAD_SIZE_ACCESS` (R93). A BAR access that is not 4 or 8 bytes naturally aligned: a read completes Unsupported Request, and a write is dropped and logged. -/
  | badSizeAccess (port : Nat) (fn : Nat) (bar : Nat) (offset : Nat) (size : Nat) (write : Bool)
  /-- `REGISTER_WRITE` (R4). A write to a register field without a row of its own, such as a W1C clear, is applied under its access code. -/
  | registerWrite (port : Nat) (fn : Nat) (bar : Nat) (offset : Nat) (size : Nat) (value : Nat) (hwSet : Nat)
  /-- `HOST_READ_COMPLETION` (R456). A completion arrives for a read of host memory and its data goes to the requesting walk, fetch, copy or command. -/
  | hostReadCompletion (port : Nat) (tag : Nat) (status : CplStatus) (data : List Byte)
  /-- `COMPLETION_TIMEOUT` (R108). A host read has no completion within the Completion Timeout; AER is signalled and the descriptor completes "host bus error". -/
  | completionTimeout (port : Nat) (tag : Nat)
  /-- `POISONED_COMPLETION` (R108). A poisoned completion is received; its data is written with the poison syndrome and the descriptor completes "poisoned data". -/
  | poisonedCompletion (port : Nat) (tag : Nat) (data : List Byte)
  /-- `UNEXPECTED_COMPLETION` (R108). A completion arrives for no outstanding tag, for example after an FLR, and is dropped with an advisory AER. -/
  | unexpectedCompletion (port : Nat) (tag : Nat)
  /-- `MALFORMED_TLP` (R108). A malformed TLP is received; it is dropped and a fatal AER error is signalled. -/
  | malformedTlp (port : Nat)
  /-- `ATS_INVALIDATION_REQUEST` (R98). A host Invalidation Request arrives; the completion is returned after every unit has dropped the matching entries and the requests under them have left. -/
  | atsInvalidationRequest (port : Nat) (fn : Nat) (pasid : Nat) (va : Nat) (length : Nat)
  /-- `PAGE_RESPONSE` (R99). A PRI page response arrives: Success resumes the paused COPY; Invalid Request or Response Failure completes it "fault not resolved". -/
  | pageResponse (port : Nat) (fn : Nat) (index : Nat) (code : PageCode)
  /-- `PAGE_RESPONSE_TIMEOUT` (R99). A page request has no response after 100 ms, and its COPY completes "fault not resolved". -/
  | pageResponseTimeout (port : Nat) (fn : Nat) (index : Nat)
  /-- `DOE_OBJECT` (R109). A Data Object Exchange object, DOE Discovery or CMA-SPDM, is received on PF0 or the diagnostic PF. -/
  | doeObject (port : Nat) (type : Nat) (body : List Byte)
  /-- `LB_DOORBELL` (R111). A write of 1 to LB_DOORBELL submits the command frame in Idle, or is dropped as an overrun otherwise. -/
  | lbDoorbell (lb : Nat) (value : Nat)
  /-- `LB_ABORT` (R111). A write of 1 to LB_ABORT aborts an Accepted command, moves a resumable Running command to Aborting, or is ignored. -/
  | lbAbort (lb : Nat) (value : Nat)
  /-- `LB_RESULT_CLEAR` (R113). A write of 1 to LB_STATUS[0] clears result-ready and moves Done to Idle, unlocking the command frame. -/
  | lbResultClear (lb : Nat) (value : Nat) (hwSet : Bool)
  /-- `LB_FRAME_WRITE` (R112). A write to the command frame is stored in Idle, or is dropped outside Idle, setting overrun and counting it. -/
  | lbFrameWrite (lb : Nat) (offset : Nat) (size : Nat) (value : Nat)
  /-- `COMMAND_START` (R118). The postmaster starts an Accepted command once fewer than 16 run and the commands ahead on its object have ended. -/
  | commandStart (lb : Nat)
  /-- `NOP` (R123). Letterbox command 0x0001 does nothing and completes. -/
  | nop (lb : Nat)
  /-- `GET_VERSION` (R123). Returns the firmware version, active slot, tile-code revisions and interface version. -/
  | getVersion (lb : Nat)
  /-- `GET_MODULE_INFO` (R123). Returns the module number, verdict, power state, fronds, tiles and postmaster die. -/
  | getModuleInfo (lb : Nat)
  /-- `FN_SET_QUOTA` (R92). PF0 sets the ring, context and pigeonhole-claim quotas of a VF. -/
  | fnSetQuota (lb : Nat)
  /-- `FN_QUERY` (R123). Returns a function's quotas and their use. -/
  | fnQuery (lb : Nat)
  /-- `RING_ALLOC` (R135). Moves free rings to Allocated for the function. -/
  | ringAlloc (lb : Nat)
  /-- `RING_FREE` (R135). Returns a stopped ring to the Free pool with its state cleared. -/
  | ringFree (lb : Nat)
  /-- `RING_BIND` (R137). PF0 binds a ring to a function, a local slot and a vector. -/
  | ringBind (lb : Nat)
  /-- `RING_CONFIG` (R136). Sets a ring's translation mode, frank, sizes and bases, and moves it to Stopped with its counts at 0. -/
  | ringConfig (lb : Nat)
  /-- `RING_SET_PHYSICAL` (R39). PF0 enables or disables physical naming for a ring. -/
  | ringSetPhysical (lb : Nat)
  /-- `RING_START` (R135). Moves a ring from Stopped or Error to Running. -/
  | ringStart (lb : Nat)
  /-- `RING_STOP` (R135). Stops a ring at its next descriptor boundary and returns the first descriptor not executed. -/
  | ringStop (lb : Nat)
  /-- `RING_QUERY` (R134). Returns a ring's state, counts and registered packets held. -/
  | ringQuery (lb : Nat)
  /-- `RING_ACK_LOSS` (R155). Releases the registered packets held behind a loss mark for a destination and restarts the ring's accounting toward it. -/
  | ringAckLoss (lb : Nat)
  /-- `RING_MODERATE` (R160). Sets a ring's interrupt moderation count and time. -/
  | ringModerate (lb : Nat)
  /-- `CTX_CREATE` (R163). Registers a context ID with its page-table root. -/
  | ctxCreate (lb : Nat)
  /-- `CTX_DESTROY` (R163). Removes a context that no ring uses. -/
  | ctxDestroy (lb : Nat)
  /-- `CTX_SET_ROOT` (R164). Replaces a context's root, acting as TABLE_SYNC followed by invalidation of the whole context. -/
  | ctxSetRoot (lb : Nat)
  /-- `TLB_INVALIDATE` (R180). Invalidates a context range module-wide, refreshes pins and waits for walks and requests under the dropped translations. -/
  | tlbInvalidate (lb : Nat)
  /-- `TLB_INVALIDATE_BCAST` (R183). Invalidates locally, then sends INVALIDATE packets to target modules and waits up to 1.5 ms for their answers. -/
  | tlbInvalidateBcast (lb : Nat)
  /-- `TABLE_SYNC` (R181). Drops every mirror line of a context and waits for the walks that began earlier. -/
  | tableSync (lb : Nat)
  /-- `PIN_RANGE` (R172). Walks a range and copies its leaves into the pin store of every translation unit. -/
  | pinRange (lb : Nat)
  /-- `UNPIN_RANGE` (R172). Removes PIN_RANGE pins of a range, freeing an entry when its last pin goes. -/
  | unpinRange (lb : Nat)
  /-- `KEY_LOAD` (R193). PF0 loads or replaces an XTS or GCM key in a slot in every frond's crypto unit and zeroes the command frame. -/
  | keyLoad (lb : Nat)
  /-- `KEY_CLEAR` (R194). PF0 clears a key slot that is not bound. -/
  | keyClear (lb : Nat)
  /-- `HOTPAGE_CONFIG` (R200). Sets hot-page counting for a context with a window, a threshold and a report ring. -/
  | hotpageConfig (lb : Nat)
  /-- `IMAGE_LOAD` (R329). Loads and checks a placement image from the host or from a place and returns a handle. -/
  | imageLoad (lb : Nat)
  /-- `IMAGE_DROP` (R123). Drops a loaded image that no pigeonhole uses. -/
  | imageDrop (lb : Nat)
  /-- `IMAGE_QUERY` (R123). Returns an image's properties and the number of pigeonholes using it. -/
  | imageQuery (lb : Nat)
  /-- `PH_CREATE` (R339). Checks the budget, places the image, writes pins, locks, slots and steward cores, and starts the weight loads. -/
  | phCreate (lb : Nat)
  /-- `PH_CLAIM` (R337). Adds the function's claim on a pigeonhole. -/
  | phClaim (lb : Nat)
  /-- `PH_RELEASE` (R336). Releases a claim, and evicts the pigeonhole when it was the last claim. -/
  | phRelease (lb : Nat)
  /-- `PH_EVICT` (R347). PF0 evicts a pigeonhole. -/
  | phEvict (lb : Nat)
  /-- `PH_STOP` (R452). Sends PH_STOP control packets to the fronds of a pigeonhole, on this or another module, and collects the stop counts. -/
  | phStop (lb : Nat)
  /-- `PH_QUERY` (R335). Returns a pigeonhole's state, stamp, overflow, handle, tiles and claims. -/
  | phQuery (lb : Nat)
  /-- `FREE_MAP_READ` (R340). Returns the free-tile bitmaps of a range of fronds. -/
  | freeMapRead (lb : Nat)
  /-- `ROUTE_STAGE` (R271). PF0 writes entries into the staged bank of a route-table kind. -/
  | routeStage (lb : Nat)
  /-- `ROUTE_COMMIT` (R287). PF0 checks the staged tables and starts the drain, swap and resume of the route tables. -/
  | routeCommit (lb : Nat)
  /-- `ROUTE_READ` (R271). Reads entries of the active bank. -/
  | routeRead (lb : Nat)
  /-- `ROUTE_SET_DEFINE` (R286). PF0 defines the context IDs of a route set after check 1. -/
  | routeSetDefine (lb : Nat)
  /-- `DEFLECT_LIMIT` (R277). PF0 sets the module-wide deflection limit L. -/
  | deflectLimit (lb : Nat)
  /-- `PORT_QUERY` (R123). Returns a port's state, width, rate, reason and partner postcode. -/
  | portQuery (lb : Nat)
  /-- `PORT_SET_WIDTH` (R248). PF0 narrows a port live, or retrains it to allow a wider width. -/
  | portSetWidth (lb : Nat)
  /-- `PORT_SPARE` (R249). PF0 moves a failed optical port's logical number to a spare port and starts it in Detect. -/
  | portSpare (lb : Nat)
  /-- `PORT_DISABLE` (R209). PORT_ADMIN action 0 moves a port to Disabled. -/
  | portDisable (lb : Nat)
  /-- `PORT_ENABLE` (R209). PORT_ADMIN action 1 moves a Disabled or Diagnostic port to Detect. -/
  | portEnable (lb : Nat)
  /-- `PORT_RETRAIN` (R209). PORT_ADMIN action 2 sends a port to Detect with reason 0x0D and resets its failure count. -/
  | portRetrain (lb : Nat)
  /-- `STATUS` (R224). LANE_DIAG operation 0x00 returns a lane's state, lock, polarity, reason and equalizer settings. -/
  | status (lb : Nat)
  /-- `DIAG_ENTER` (R225). LANE_DIAG operation 0x01 puts a Disabled port into Diagnostic at a given rate. -/
  | diagEnter (lb : Nat)
  /-- `TX_TAPS_SET` (R224). LANE_DIAG operation 0x02 sets one transmit tap in Diagnostic. -/
  | txTapsSet (lb : Nat)
  /-- `PRBS_GEN` (R224). LANE_DIAG operation 0x03 starts a test-pattern generator. -/
  | prbsGen (lb : Nat)
  /-- `PRBS_CHECK` (R226). LANE_DIAG operation 0x04 starts a test-pattern checker. -/
  | prbsCheck (lb : Nat)
  /-- `PRBS_READ` (R226). LANE_DIAG operation 0x05 returns the checker's error and bit counts and its lock, and may clear them. -/
  | prbsRead (lb : Nat) (stream : Nat) (words : Nat) (bitLock : Bool)
  /-- `PATTERN_LOW` (R224). LANE_DIAG operation 0x06 loads bits [31:0] of the user pattern. -/
  | patternLow (lb : Nat)
  /-- `PATTERN_HIGH` (R224). LANE_DIAG operation 0x07 loads bits [63:32] of the user pattern. -/
  | patternHigh (lb : Nat)
  /-- `CAPTURE` (R224). LANE_DIAG operation 0x08 returns the last received 64-bit word. -/
  | capture (lb : Nat) (words : List (BitVec 64))
  /-- `BIT_SLIP` (R228). LANE_DIAG operation 0x09 discards n received bits once, moving the word boundary. -/
  | bitSlip (lb : Nat)
  /-- `LOOPBACK` (R225). LANE_DIAG operation 0x0A sets no loopback, near-end serial loopback or far-end loopback. -/
  | loopback (lb : Nat)
  /-- `EYE_SUMMARY` (R227). LANE_DIAG operation 0x0B returns eye height, width and SNR. -/
  | eyeSummary (lb : Nat) (eyes : List EyeReading)
  /-- `EYE_SCAN` (R227). LANE_DIAG operation 0x0C scans 64 phases by 128 voltages with the secondary slicer and returns a bitmap. -/
  | eyeScan (lb : Nat) (errors : List Nat)
  /-- `RATE_LIMIT` (R224). LANE_DIAG operation 0x0D limits the rate that the port advertises from the next Detect. -/
  | rateLimit (lb : Nat)
  /-- `DISCOVERY_START` (R373). PF0 starts a new discovery epoch at priority 0 and ends with the module's new number. -/
  | discoveryStart (lb : Nat)
  /-- `POWER_REQUEST` (R46). PF0 requests a power state from the governor, with a release flag and a wait limit. -/
  | powerRequest (lb : Nat)
  /-- `POWER_QUERY` (R123). Returns the state, pending target, pool and module input power. -/
  | powerQuery (lb : Nat)
  /-- `FROND_CLOCK_SET` (R59). PF0 sets the tile clock of one frond or of all fronds. -/
  | frondClockSet (lb : Nat)
  /-- `GOV_WEIGHT_SET` (R55). PF0 sets a frond's budget weight, applied at the next budget update. -/
  | govWeightSet (lb : Nat)
  /-- `RACK_TIME_SET` (R62). PF0 loads a seconds count into rack time at the first PPS edge at least 1 ms after acceptance. -/
  | rackTimeSet (lb : Nat)
  /-- `RACK_TIME_QUERY` (R123). Returns the current postmark. -/
  | rackTimeQuery (lb : Nat)
  /-- `SELFTEST_REPORT_READ` (R123). Returns a part of the self-test report. -/
  | selftestReportRead (lb : Nat)
  /-- `JOURNAL_READ` (R406). Returns journal records from a given index. -/
  | journalRead (lb : Nat)
  /-- `JOURNAL_APPEND` (R407). Appends a host text record to the journal. -/
  | journalAppend (lb : Nat)
  /-- `REPAIR_MAP_READ` (R80). REPAIR_MAP_EDIT operation 0 reads repair-map entries. -/
  | repairMapRead (lb : Nat)
  /-- `REPAIR_MAP_ADD` (R81). REPAIR_MAP_EDIT operation 1 adds an entry and writes a new map, in effect at the next reset. -/
  | repairMapAdd (lb : Nat) (mramOk : Bool)
  /-- `REPAIR_MAP_DELETE` (R81). REPAIR_MAP_EDIT operation 2 deletes an entry and writes a new map, in effect at the next reset. -/
  | repairMapDelete (lb : Nat) (mramOk : Bool)
  /-- `TILE_RETIRE` (R395). PF0 retires a tile, binding its spare and reloading the pigeonholes bound to it. -/
  | tileRetire (lb : Nat)
  /-- `FROND_FENCE` (R396). PF0 fences a frond: it is marked unreachable, its pigeonholes become Lost and its state is cleared. -/
  | frondFence (lb : Nat)
  /-- `FROND_RETEST` (R397). PF0 resets a fenced frond and runs its one-member self-test, returning it to service on a pass. -/
  | frondRetest (lb : Nat) (outcome : TestOutcome)
  /-- `COUNTERS_READ` (R418). Returns a range of counters of a group. -/
  | countersRead (lb : Nat)
  /-- `MODULE_RESET` (R77). Resets the module, rerunning phases B–D while the management domains and rack time are kept. -/
  | moduleReset (lb : Nat)
  /-- `FW_QUERY` (R123). Returns the version, security version and state of each firmware slot and the module floor. -/
  | fwQuery (lb : Nat)
  /-- `FW_STAGE` (R127). Writes a firmware image from host memory into the inactive slot on E0 and E8. -/
  | fwStage (lb : Nat) (mramOk : Bool)
  /-- `FW_VERIFY` (R127). Checks the staged image's format, digest, signature and security version, and marks it verified. -/
  | fwVerify (lb : Nat)
  /-- `FW_ACTIVATE_AT_RESET` (R127). FW_ACTIVATE mode 0 writes the boot selector and floor, taking effect at the next reset. -/
  | fwActivateAtReset (write : MramWrite)
  /-- `FW_ACTIVATE_LIVE` (R128). FW_ACTIVATE mode 1 runs the live activation through a planned handover to E8. -/
  | fwActivateLive (lb : Nat) (step2Ok : Bool) (step4Ok : Bool)
  /-- `AGENT_RELOAD` (R399). PF0 reloads the agent firmware of one edge die while its hardware keeps running. -/
  | agentReload (lb : Nat)
  /-- `FAILOVER` (R130). PF0 hands the postmaster role to the standby in a planned failover. -/
  | failover (lb : Nat)
  /-- `POSTMASTER_HEARTBEAT` (R129). Every 50 µs the postmaster sends a heartbeat to E8. -/
  | postmasterHeartbeat
  /-- `UNPLANNED_FAILOVER` (R131). No heartbeat for 200 µs, or a fatal error signal from E0: E8 fences E0, takes over and settles the running commands. -/
  | unplannedFailover
  /-- `E0_RESTART` (R132). After an unplanned failover E8 restarts the E0 management processor once, and E0 becomes standby if it passes. -/
  | e0Restart (passed : Bool)
  /-- `GOVERNOR_TRANSITION` (R49). The governor starts a state transition and runs the entry or exit steps that need no waiting. -/
  | governorTransition
  /-- `ENTRY_LAUNCHES_ENDED` (R49). Running launches have ended, so the governor gates the arrays and P1 is reached. -/
  | entryLaunchesEnded
  /-- `ENTRY_RINGS_STOPPED` (R49). Every ring has stopped at a descriptor boundary, so entry continues to the in-flight wait. -/
  | entryRingsStopped
  /-- `ENTRY_INFLIGHT_ZERO` (R49). The in-flight counters read zero; the ports go to Keep-alive, the fronds stop and P2, P3 or P4 is reached. -/
  | entryInflightZero
  /-- `WAIT_LIMIT_EXPIRY` (R49). Entry step 2 or 4 exceeds the wait limit; the request fails "busy" and the module returns to P0. -/
  | waitLimitExpiry
  /-- `EXIT_SEQUENCE` (R50). The module powers, trains, ungates and releases held launches on its way back to P0. -/
  | exitSequence
  /-- `BUDGET_UPDATE` (R55). Every 1 ms the governor trims the pool and sets each frond's budget. -/
  | budgetUpdate (input : Nat) (inputValid : Bool)
  /-- `GOVERNOR_TICK` (R56). Every 10 µs the governor compares each frond's power with its budget and steps the issue fraction. -/
  | governorTick (powers : List (Option Nat))
  /-- `FAST_GUARD` (R56). Module input above 34,000 W over 2 µs makes the hardware guard cap every frond at 32/64. -/
  | fastGuard (input : Nat)
  /-- `BUS_BAR_INPUT_FAIL` (R23). One bus-bar input fails above P4, and the governor drops the module to P3 within 1 ms. -/
  | busBarInputFail (input : Nat)
  /-- `POWER_MONITOR_FAIL` (R56). A frond power monitor or the input monitor fails, and the governor falls back to its safe setting. -/
  | powerMonitorFail (frond : Option Nat)
  /-- `PPS_EDGE` (R63). At a PPS edge the timebase checks the phase, applies a pending rack-time load and makes a due realignment. -/
  | ppsEdge
  /-- `PPS_MISSING` (R65). PPS is missing for 1.01 s, which is journalled while rack time counts on. -/
  | ppsMissing
  /-- `REFERENCE_LOSS` (R65). No REF edge for 64 ns, or a frequency departure beyond 200 ppm, starts holdover. -/
  | referenceLoss
  /-- `HOLDOVER_EXPIRY` (R65). After 10 ms without the reference, the free-running bit is set in every postmark. -/
  | holdoverExpiry
  /-- `REFERENCE_RETURN` (R66). The reference returns and the timebase relocks within 2 ms. -/
  | referenceReturn
  /-- `SLEW_END` (R66). A slew correction of rack time completes, and the free-running bit clears. -/
  | slewEnd
  /-- `TIMEBASE_FAILOVER` (R60). The timebase on E0 fails and E8 takes over within 1 tick. -/
  | timebaseFailover
  /-- `CONTROL_INJECT` (R68). In slot 0 an injection point injects up to 8 ready control packets into the mesh. -/
  | controlInject (point : Nat)
  /-- `CLOCK_LOCK_FAIL` (R59). A frond clock fails to lock after a change; one retry follows, and a further failure fences the frond. -/
  | clockLockFail (frond : Nat) (retryOk : Bool)
  /-- `BEACON` (R211). A valid beacon block is received in Detect, counting toward lane detection, Ready and the move to Pattern. -/
  | beacon (port : Nat) (lane : Nat) (word : BitVec 64)
  /-- `READY_TIMER` (R211). 1 ms after the first lane was detected, the port sets Ready with the lanes detected by then. -/
  | readyTimer (port : Nat)
  /-- `TRAINING_FRAME` (R213). A training frame is received in Pattern: a new tap request is applied and echoed, and Trained status is counted. -/
  | trainingFrame (port : Nat) (lane : Nat) (control : BitVec 32) (status : BitVec 32) (ownTrained : Bool)
  /-- `ALIGNMENT_MARKER` (R215). An alignment marker is received, giving symbol lock and deskew or following a change of lane mask. -/
  | alignmentMarker (port : Nat) (lane : Nat) (marker : BitVec 64)
  /-- `LOCK_FEC_WINDOW` (R215). 1 ms passes in Lock with no uncorrectable codeword, and with symbol lock and skew met the port enters Exchange. -/
  | lockFecWindow (port : Nat) (uncorrectable : Bool) (skewNs : Nat) (locked : Nat)
  /-- `TRAINING_TIMEOUT` (R217). A training state exceeds its timeout and the port falls back. -/
  | trainingTimeout (port : Nat)
  /-- `FALLBACK_IDLE_END` (R218). The 4 µs fallback idle ends and the port enters Detect, or Back-off after 8 failures. -/
  | fallbackIdleEnd (port : Nat)
  /-- `BACKOFF_ATTEMPT` (R219). Each second in Back-off the port starts one Detect attempt. -/
  | backoffAttempt (port : Nat)
  /-- `LOS_ASSERT` (R220). A lane's input falls below the LOS threshold for 200 ns, narrowing the port or making it fall back. -/
  | losAssert (port : Nat) (lane : Nat)
  /-- `LOS_CLEAR` (R219). LOS clears on a lane, starting a Detect attempt at once if the port is in Back-off. -/
  | losClear (port : Nat) (lane : Nat)
  /-- `LOSS_OF_LOCK` (R220). A lane loses lock, narrowing the port or making it fall back. -/
  | lossOfLock (port : Nat) (lane : Nat)
  /-- `KEEPALIVE_RETURN_CHECK` (R222). 15 µs after a return from Keep-alive, a lane without symbol lock makes the port fall back with reason 0x0C. -/
  | keepaliveReturnCheck (port : Nat) (bitLocked : Nat)
  /-- `FLIT_SEND` (R233). At each flit boundary the transmitter sends a replayed, link control, control, escape, data or idle flit, in priority order. -/
  | flitSend (port : Nat)
  /-- `PAYLOAD_FLIT_RECEIVE` (R237). A flit passes its checks; its Ack and escape credits are taken and a payload flit is accepted, discarded as missing or discarded as a duplicate. -/
  | payloadFlitReceive (port : Nat) (received : Received) (uncorrectable : Bool)
  /-- `REPLAY_TIMER_EXPIRY` (R239). The replay timer expires with flits unacknowledged, so the transmitter rewinds, falling back on the fourth consecutive rewind. -/
  | replayTimerExpiry (port : Nat)
  /-- `LINK_CONTROL_REPEAT` (R241). Every 1 µs an unanswered link control flit is repeated. -/
  | linkControlRepeat (port : PortHold)
  /-- `CAP` (R243). A CAP link control flit is received; its checks run, round-trip samples are taken and START may follow. -/
  | cap (port : Nat) (body : List Byte) (roundTripNs : Nat)
  /-- `START` (R243). The partner's START is received, so the port enters Active. -/
  | start (port : Nat)
  /-- `NARROW` (R247). A NARROW is received; the receiver regroups to the new mask, switches its transmit and answers NARROW_ACK. -/
  | narrow (port : Nat) (mask : Nat)
  /-- `NARROW_ACK` (R247). A NARROW_ACK is received; the detecting end regroups and replays from A. -/
  | narrowAck (port : Nat) (mask : Nat)
  /-- `NARROW_TIMEOUT` (R247). No NARROW_ACK arrives 20 µs after a narrowing starts, so the port falls back with reason 0x26. -/
  | narrowTimeout (port : Nat)
  /-- `LANE_ERROR_THRESHOLD` (R246). A lane's corrected symbols or uncorrectable codewords exceed their limit in 1 ms, so the port narrows or falls back. -/
  | laneErrorThreshold (port : Nat) (lane : Nat) (uncorrectable : Bool)
  /-- `KA_ENTER` (R251). A KA_ENTER is received; the port finishes packets in progress, sends KA_ACK and switches to Keep-alive. -/
  | kaEnter (port : Nat)
  /-- `KA_ACK` (R251). A KA_ACK is received, and the port switches its lanes to Keep-alive. -/
  | kaAck (port : Nat)
  /-- `KA_ENTER_TIMEOUT` (R251). 10 µs after the first KA_ENTER without KA_ACK, the port switches its lanes anyway. -/
  | kaEnterTimeout (port : Nat)
  /-- `KA_EXIT` (R251). A KA_EXIT is received; the port returns to full rate, or abandons a Keep-alive entry still in its handshake. -/
  | kaExit (port : Nat)
  /-- `ESCAPE_CREDIT_STALL` (R279). An escape sender holds zero credits for 1 ms, and the port is journalled. -/
  | escapeCreditStall (port : Nat)
  /-- `ROUTE_DECISION` (R275). At a train boundary a router finds each train's target and assigns outputs, deflecting the losers. -/
  | routeDecision (die : Nat) (router : Nat)
  /-- `INJECTION_START` (R276). An injection-class input starts a train on a free productive output after waiting. -/
  | injectionStart (die : Nat) (router : Nat) (pid : Nat)
  /-- `LANDING_WAIT_EXPIRY` (R276). A seam buffer or landing waits 1 µs, or a landing 4 µs, and may then deflect onto any free output or an off-module port. -/
  | landingWaitExpiry (pid : Nat) (fourMicros : Bool)
  /-- `SEAM_CROSSING` (R268). A seam crossing, edge-die link or rim link finishes moving a packet into the buffer at its receiving end. -/
  | seamCrossing (die : Nat) (output : Nat)
  /-- `ESCAPE_WAIT_EXPIRY` (R280). An escape buffer waits 1 µs for an output, and its die raises escape drain. -/
  | escapeWaitExpiry (pid : Nat)
  /-- `BANK_SWAP` (R287). After the drain every die swaps route-table banks at a frame start, and injection resumes. -/
  | bankSwap
  /-- `COMMIT_DRAIN_TIMEOUT` (R287). The commit drain exceeds 100 µs, so ROUTE_COMMIT ends "timeout" and injection resumes. -/
  | commitDrainTimeout
  /-- `DATA_PACKET_DELIVERY` (R293). A write packet at its destination is lock-checked, held for its run if registered, then written and counted in its tally. -/
  | dataPacketDelivery (pid : Nat)
  /-- `HOLD_DISCARD` (R299). A held registered packet waits 1 ms and is discarded without being written. -/
  | holdDiscard (die : Nat) (index : Nat)
  /-- `READ_REQUEST_PACKET` (R257). A read request at its target is checked and answered with read response data or a REFUSAL. -/
  | readRequestPacket (pid : Nat)
  /-- `READ_RESPONSE_PACKET` (R257). A read response reaches its requesting engine, or is discarded as late. -/
  | readResponsePacket (pid : Nat)
  /-- `ATOMIC_PACKET` (R301). The atomic unit performs an atomic, or refuses it, and sends an atomic response. -/
  | atomicPacket (pid : Nat)
  /-- `ATOMIC_RESPONSE_PACKET` (R153). An atomic response reaches the ring engine and settles its ATOMIC by status, or is counted as late. -/
  | atomicResponsePacket (pid : Nat)
  /-- `RECEIPT` (R154). A RECEIPT reaches the issuing ring and releases the registered packet it covers. -/
  | receipt (pid : Nat)
  /-- `REFUSAL` (R191). A REFUSAL reaches the issuing engine and completes its descriptor "frank refused", or is counted as late. -/
  | refusal (pid : Nat)
  /-- `TALLY_SET_PACKET` (R150). A TALLY_SET control packet at a die controller replaces both counts, is refused, or is dead-lettered. -/
  | tallySetPacket (pid : Nat)
  /-- `TALLY_SET_ACK` (R150). A TALLY_SET_ACK reaches the ring engine and completes the TALLY_SET descriptor ok. -/
  | tallySetAck (pid : Nat)
  /-- `PH_STOP_PACKET` (R452). A PH_STOP control packet at a frond controller closes the issue gates of the pigeonhole's tiles and stops its launches. -/
  | phStopPacket (pid : Nat)
  /-- `PH_STOP_DONE` (R255). A PH_STOP_DONE reaches the postmaster with a count of launches stopped. -/
  | phStopDone (pid : Nat)
  /-- `INVALIDATE` (R183). A broadcast INVALIDATE at the acting postmaster runs the local invalidation and answers INVALIDATE_DONE; the standby consumes it. -/
  | invalidate (pid : Nat)
  /-- `INVALIDATE_DONE` (R183). An INVALIDATE_DONE from a target module reaches the sender of the broadcast. -/
  | invalidateDone (pid : Nat)
  /-- `RELAY` (R285). A RELAY makes a copy engine read a chunk from the previous place, write it to its own place and relay onward. -/
  | relay (pid : Nat)
  /-- `RELAY_DONE` (R285). A RELAY_DONE completes a fan-out COPY with ok or a failure status. -/
  | relayDone (pid : Nat)
  /-- `STEWARD_IRQ` (R323). A STEWARD_IRQ packet raises a steward core's interrupt with its vector and payload. -/
  | stewardIrq (pid : Nat)
  /-- `PARTIAL_LIST_ARRIVAL` (R360). A partial-list packet at a select engine is checked, then merged into its context or parked. -/
  | partialListArrival (pid : Nat)
  /-- `PARK_EXPIRY` (R362). A list parked for 1 ms is discarded and counted. -/
  | parkExpiry (die : Nat) (engine : Nat) (index : Nat)
  /-- `MERGE_CONTEXT_EXPIRY` (R363). A merge context has not reached S sources 10 ms after its start, so it closes and its SELECT completes "return to sender". -/
  | mergeContextExpiry (die : Nat) (engine : Nat) (group : Nat)
  /-- `RING_DOORBELL` (R138). A write to RING_DOORBELL is checked and accepted as the new tail, or rejected as an overrun. -/
  | ringDoorbell (port : Nat) (fn : Nat) (page : Nat) (value : Nat)
  /-- `RING_CQ_CONSUMED` (R436). A write to RING_CQ_CONSUMED advances the consumed count, releasing a ring that is Completion full. -/
  | ringCqConsumed (port : Nat) (fn : Nat) (page : Nat) (value : Nat)
  /-- `INT_EVENT_VECTOR` (R432). A write to INT_EVENT_VECTOR sets the function event vector and enable, setting the bad-vector status when out of range. -/
  | intEventVector (port : Nat) (fn : Nat) (value : Nat)
  /-- `INT_SELECT` (R432). A write to INT_SELECT chooses the vector that INT_SOURCE describes. -/
  | intSelect (port : Nat) (fn : Nat) (value : Nat)
  /-- `MSIX_TABLE_WRITE` (R433). A write to an MSI-X table entry sets its address, data or mask; an unmask sends pending messages. -/
  | msixTableWrite (port : Nat) (fn : Nat) (vector : Nat) (field : MsixField) (value : Nat)
  /-- `DESCRIPTOR_FETCH` (R139). The ring engine reads up to 16 descriptors between RING_HEAD and the tail. -/
  | descriptorFetch (ring : Nat)
  /-- `DESCRIPTOR_START` (R152). In its round-robin turn the ring engine starts the next fetched descriptor once WAIT, the start limit and the registered limit allow. -/
  | descriptorStart (ring : Nat)
  /-- `DESCRIPTOR_SETTLE` (R156). A descriptor settles in count order and its completion entry is written, or suppressed under QUIET, with moderation applied. -/
  | descriptorSettle (ring : Nat)
  /-- `RING_ERROR` (R162). A fetch or completion write fails, or the ring's context or key is removed, and the ring enters Error. -/
  | ringError (ring : Nat) (reason : Nat)
  /-- `NOP_DESCRIPTOR` (R151). A NOP descriptor changes nothing and completes ok. -/
  | nopDescriptor (ring : Nat) (count : Nat)
  /-- `COPY` (R144). A copy engine moves Length bytes from source to destination, with tallies, REG, fan-out and faulting. -/
  | copy (ring : Nat) (count : Nat)
  /-- `ATOMIC` (R145). The ring engine injects an atomic to its target and settles it under R153. -/
  | atomic (ring : Nat) (count : Nat)
  /-- `SELECT` (R355). A select engine selects or merges the best k entries of a row or list, or opens a merge context. -/
  | select (ring : Nat) (count : Nat)
  /-- `SPECTRAL` (R320). The spectral front-end turns samples into features frame by frame. -/
  | spectral (ring : Nat) (count : Nat)
  /-- `LAUNCH` (R330). A LAUNCH descriptor is checked and queued for the tiles of a pigeonhole. -/
  | launch (ring : Nat) (count : Nat)
  /-- `TALLY_WAIT` (R149). The ring engine waits until a tally reaches its byte and packet thresholds. -/
  | tallyWait (ring : Nat) (count : Nat)
  /-- `TALLY_WAIT_TIMEOUT` (R149). A TALLY_WAIT reaches its timeout and completes "timeout" with the current counts. -/
  | tallyWaitTimeout (ring : Nat) (count : Nat)
  /-- `TALLY_SET` (R150). The ring engine sends a TALLY_SET control packet to the controller of the tally's die. -/
  | tallySet (ring : Nat) (count : Nat)
  /-- `TALLY_SET_TIMEOUT` (R150). No acknowledgement arrives 10 ms after a TALLY_SET, so it completes "return to sender". -/
  | tallySetTimeout (ring : Nat) (count : Nat)
  /-- `RECEIPT_TIMEOUT` (R154). A registered packet has no receipt, or a read or awaited atomic has no response, after 10 ms, so the descriptor completes "return to sender". -/
  | receiptTimeout (ring : Nat) (count : Nat)
  /-- `UNREACHABLE_TIMEOUT` (R154). 100 µs after a destination is marked unreachable, a waiting descriptor completes "return to sender". -/
  | unreachableTimeout (ring : Nat) (count : Nat)
  /-- `RELAY_TIMEOUT` (R285). No RELAY_DONE arrives within 10 ms + 1 ms per place, so the fan-out completes "return to sender". -/
  | relayTimeout (ring : Nat) (count : Nat)
  /-- `MODERATION_TIMER` (R160). The moderation time W elapses since the first entry not yet signalled, and one message is sent. -/
  | moderationTimer (ring : Nat)
  /-- `TABLE_WALK` (R175). A walker reads table entries from the mirror or host memory and installs a leaf, or reports a miss. -/
  | tableWalk (unit : Nat) (walk : Nat)
  /-- `HOTPAGE_WINDOW_END` (R201). At a window's end the postmaster sums the counts and writes hot-page report entries. -/
  | hotpageWindowEnd (port : Nat) (fn : Nat) (context : Nat)
  /-- `STEWARD_SUBMIT` (R323). A steward core submits a descriptor through its private queue, waiting when the queue is full. -/
  | stewardSubmit (core : Nat) (array : Nat) (descriptor : List Byte)
  /-- `LAUNCH_GRANT` (R331). When every tile in its range is idle, a launch's control areas are written and its tiles begin. -/
  | launchGrant (pigeonhole : Nat) (launch : Nat)
  /-- `STREAM_READ_TIMEOUT` (R345). A stream read has no response after 10 ms, so the LAUNCH completes "return to sender". -/
  | streamReadTimeout (launch : Nat)
  /-- `TILE_CORE_ACCESS` (R290). A tile core loads or stores its own scratchpad, faulting beyond its range or on poison. -/
  | tileCoreAccess (frond : Nat) (tile : Nat) (write : Bool) (offset : Nat) (bytes : List Byte)
  /-- `LAUNCH_END` (R332). Every tile of a launch has returned, and the LAUNCH settles once its writes are delivered or injected. -/
  | launchEnd (launch : Nat)
  /-- `TILE_FAULT` (R333). A tile of a launch faults; every tile stops within 2 µs and the LAUNCH completes "launch fault". -/
  | tileFault (launch : Nat) (tile : Nat) (code : Nat)
  /-- `ENTRY_TIME_LIMIT` (R333). A launch exceeds its entry's time limit and faults with code 0x0004. -/
  | entryTimeLimit (launch : Nat) (tile : Nat)
  /-- `RESIDENCY_TARGET_REACHED` (R342). The residency counters sum to the target, so the stamp is written, steward cores start and the pigeonhole becomes Resident. -/
  | residencyTargetReached (pigeonhole : Nat)
  /-- `PH_CREATE_TIMEOUT` (R343). A pigeonhole load reaches 100 ms and is cancelled with "timeout". -/
  | phCreateTimeout (pigeonhole : Nat)
  /-- `LOAD_CANCEL` (R344). After a cancellation, the outstanding load reads are answered or 10 ms pass, and the pigeonhole is evicted. -/
  | loadCancel (pigeonhole : Nat)
  /-- `LOAD_READ_TIMEOUT` (R344). A load read has no answer after 10 ms; one retry follows, then the load is cancelled. -/
  | loadReadTimeout (pigeonhole : Nat) (record : Nat)
  /-- `STAMP_ERROR` (R336). A residency counter or stamp error clears the stamp and starts a full reload. -/
  | stampError (pigeonhole : Nat)
  /-- `SRAM_SCRUB` (R389). The scrub reads a word in an idle cycle, correcting it or poisoning it. -/
  | sramScrub (die : Nat) (word : Nat) (found : ScrubFinding)
  /-- `ECC_THRESHOLD` (R390). Corrections exceed 1,000 in 1 s, or one word is corrected 3 times in 1 h, so 0xA002 is journalled and a PLDM event is raised. -/
  | eccThreshold (die : Nat)
  /-- `TILE_AUTO_RETIRE` (R394). A tile with three 0x0008 faults in 1 s, or repeated uncorrectable words, is retired by the postmaster itself. -/
  | tileAutoRetire (frond : Nat) (tile : Nat)
  /-- `EDGE_DIE_FAILURE` (R398). An edge die fails; it is marked unreachable, its rings are removed and 0x08 is recorded. -/
  | edgeDieFailure (edge : Nat)
  /-- `WIRE_FAILURE` (R21). A wire fails on a live link: the spare substitutes within 2 µs, or a second failure takes the link out of service. -/
  | wireFailure (die : Nat) (link : Nat) (group : WireGroup) (wire : Nat)
  /-- `CONTACT_IMBALANCE` (R24). A spring-contact group's current imbalance exceeds 25 %, so it is journalled and the die is fenced if out of limits. -/
  | contactImbalance (die : Nat) (withinLimits : Bool)
  /-- `CRYPTO_SELF_CHECK` (R193). The crypto unit runs its known-answer test every 1 s and fences the frond on failure. -/
  | cryptoSelfCheck (frond : Nat) (passed : Bool)
  /-- `LINK_KEY_PHASE_EXPIRY` (R195). 10 ms after a link-key switch, receivers stop accepting the previous phase. -/
  | linkKeyPhaseExpiry (slot : Nat)
  /-- `PARITY_ERROR` (R271). A parity error in a lock, key slot, route table or queue entry is detected and the entry is rewritten or dropped. -/
  | parityError (kind : ParityKind) (die : Nat) (index : Nat)
  /-- `JOURNAL_FLUSH` (R406). The current journal page fills, or 1 ms passes since its oldest unwritten record, and it is written to E0 and E8. -/
  | journalFlush (mramOk : Bool)
  /-- `THERMAL_SAMPLE` (R401). Every 10 µs the sensors are read; a stale or out-of-range sensor is treated as 105 °C. -/
  | thermalSample (readings : List SensorReading)
  /-- `THERMAL_LIMIT_DECREASE` (R401). Every 100 µs at or above 105 °C, a frond's thermal limit falls by 8/64. -/
  | thermalLimitDecrease (frond : Nat)
  /-- `THERMAL_LIMIT_INCREASE` (R401). Every 1 ms below 102 °C, a frond's thermal limit rises by 1/64. -/
  | thermalLimitIncrease (frond : Nat)
  /-- `THERMAL_TRIP` (R402). Two consecutive readings of 115 °C trip the supervisor: it latches the cause, asserts ALERT and stops the dies. -/
  | thermalTrip (die : Nat) (celsius : Nat)
  /-- `OVERVOLTAGE_TRIP` (R404). The input crosses the over-voltage threshold and the shutdown sequence runs with cause "over-voltage". -/
  | overvoltageTrip (input : Nat) (millivolts : Nat)
  /-- `SHUTDOWN_POWER_OFF` (R402). No page write remains in progress, or the 50 µs grant ends, so the supervisor switches every regulator group off. -/
  | shutdownPowerOff (grantEnded : Bool)
  /-- `COOLDOWN_EXPIRY` (R402). After 10 s off the supervisor restarts at step A2, and the latch is journalled. -/
  | cooldownExpiry (board : BoardStart)
  /-- `HELLO_SEND` (R369). Every 100 µs a HELLO is sent on every Active port. -/
  | helloSend
  /-- `HELLO` (R370). A HELLO is received and the root, parent and children are updated. -/
  | hello (port : Nat) (packet : List Byte)
  /-- `ELECTION_QUIET` (R371). 10 ms with no change ends the election, and REPORTs start. -/
  | electionQuiet
  /-- `REPORT` (R371). A REPORT is received and forwarded toward the root, or gathered there. -/
  | report (port : Nat) (packet : List Byte)
  /-- `ROOT_COMPUTE` (R372). When every subtree is complete, the root checks the graph, computes the numbers and sends ASSIGN or FAIL. -/
  | rootCompute
  /-- `ASSIGN` (R371). An ASSIGN is received, forwarded down, taken or refused, and answered with ASSIGN_ACK. -/
  | assign (port : Nat) (packet : List Byte)
  /-- `ASSIGN_ACK` (R371). An ASSIGN_ACK reaches the root, which sends COMMIT after the last one. -/
  | assignAck (port : Nat) (packet : List Byte)
  /-- `COMMIT` (R371). A COMMIT is received naming the rack time of adoption. -/
  | commit (port : Nat) (packet : List Byte)
  /-- `FAIL` (R372). A FAIL is received, and every participant keeps its previous number. -/
  | fail (port : Nat) (packet : List Byte)
  /-- `COMMIT_TIME` (R374). At the commit rack time each participant adopts its number and installs its tables. -/
  | commitTime
  /-- `DISCOVERY_STEP_TIMEOUT` (R371). A discovery step exceeds its bound, so the root sends FAIL with reason 0x05. -/
  | discoveryStepTimeout
  /-- `MCTP_SET_ENDPOINT_ID` (R410). MCTP control Set Endpoint ID assigns the module's EID. -/
  | mctpSetEndpointId (operation : Nat) (eid : Nat)
  /-- `MCTP_GET_ENDPOINT_ID` (R410). MCTP control Get Endpoint ID returns the EID. -/
  | mctpGetEndpointId (dest : Nat)
  /-- `MCTP_GET_ENDPOINT_UUID` (R410). MCTP control Get Endpoint UUID returns the UUID. -/
  | mctpGetEndpointUuid (dest : Nat)
  /-- `MCTP_GET_VERSION_SUPPORT` (R410). MCTP control Get MCTP Version Support returns the versions supported. -/
  | mctpGetVersionSupport (dest : Nat) (messageType : Nat)
  /-- `MCTP_GET_MESSAGE_TYPE_SUPPORT` (R410). MCTP control Get Message Type Support returns the message types accepted. -/
  | mctpGetMessageTypeSupport (dest : Nat)
  /-- `MCTP_GET_VENDOR_MSG_SUPPORT` (R410). MCTP control Get Vendor Defined Message Support returns the vendor message support. -/
  | mctpGetVendorMsgSupport (dest : Nat) (selector : Nat)
  /-- `VENDOR_DEFINED_MESSAGE` (R413). A type 0x7E message carries a command frame for one of the listed opcodes and returns its result frame. -/
  | vendorDefinedMessage (frame : List Byte) (mramOk : Bool)
  /-- `SETDASA` (R409). I3C SETDASA assigns a dynamic address, and the bus enters I3C mode. -/
  | setdasa (address : Nat)
  /-- `ENTDAA` (R409). I3C ENTDAA assigns a dynamic address, and the bus enters I3C mode. -/
  | entdaa (address : Nat)
  /-- `RSTDAA` (R409). I3C RSTDAA returns the bus to SMBus mode. -/
  | rstdaa
  /-- `BUS_HELD_LOW` (R409). The management bus is held low for 35 ms, so the front end releases it and resets its interface. -/
  | busHeldLow
  /-- `GET_PDR` (R414). PLDM GetPDR returns a record of the PDR repository. -/
  | getPdr (handle : Nat)
  /-- `GET_PDR_REPOSITORY_INFO` (R414). PLDM GetPDRRepositoryInfo returns repository information. -/
  | getPdrRepositoryInfo
  /-- `GET_SENSOR_READING` (R414). PLDM GetSensorReading returns a numeric sensor reading. -/
  | getSensorReading (sensor : Nat)
  /-- `SET_TID` (R414). PLDM SetTID sets the terminus ID. -/
  | setTid (tid : Nat)
  /-- `GET_STATE_SENSOR_READINGS` (R415). PLDM GetStateSensorReadings returns state sensor values. -/
  | getStateSensorReadings (sensor : Nat)
  /-- `POWER_STATE_EFFECTER` (R416). Setting effecter 0x0500 makes a governor power request with the default wait limit. -/
  | powerStateEffecter (value : Nat)
  /-- `RESET_EFFECTER` (R416). Setting effecter 0x0502 makes a module reset. -/
  | resetEffecter (value : Nat)
  /-- `SAFE_STATE_EFFECTER` (R416). Effecter 0x0503 arms or disarms entry to the safe state at the next reset. -/
  | safeStateEffecter (value : Nat)
  /-- `LATCH_CLEAR_EFFECTER` (R416). Effecter 0x0504 clears the shutdown latch when every sensor is below 102 °C, starting phase B if ENABLE is asserted. -/
  | latchClearEffecter (value : Nat)
  /-- `GET_STATE_EFFECTER_STATES` (R416). PLDM GetStateEffecterStates reads the effecters back. -/
  | getStateEffecterStates (effecter : Nat)
  /-- `SET_EVENT_RECEIVER` (R417). PLDM SetEventReceiver sets where events are sent. -/
  | setEventReceiver (enable : Bool) (eid : Nat)
  /-- `POLL_FOR_PLATFORM_EVENT_MESSAGE` (R417). PLDM PollForPlatformEventMessage returns a queued event. -/
  | pollForPlatformEventMessage
  /-- `QUERY_DEVICE_IDENTIFIERS` (R419). PLDM QueryDeviceIdentifiers returns the device identifiers. -/
  | queryDeviceIdentifiers
  /-- `GET_FIRMWARE_PARAMETERS` (R419). PLDM GetFirmwareParameters returns the component's parameters. -/
  | getFirmwareParameters
  /-- `REQUEST_UPDATE` (R420). PLDM RequestUpdate takes the firmware store, or answers RETRY_REQUEST_UPDATE. -/
  | requestUpdate
  /-- `PASS_COMPONENT_TABLE` (R419). PLDM PassComponentTable passes the component table. -/
  | passComponentTable (identifier : Nat)
  /-- `UPDATE_COMPONENT` (R419). PLDM UpdateComponent starts the transfer of the module bundle. -/
  | updateComponent (identifier : Nat) (length : Nat)
  /-- `REQUEST_FIRMWARE_DATA` (R419). A requested 1,024-byte piece of firmware data arrives and is staged into the inactive slot. -/
  | requestFirmwareData (data : List Byte) (mramOk : Bool)
  /-- `TRANSFER_COMPLETE` (R419). The transfer of the image ends and verification runs as FW_VERIFY does. -/
  | transferComplete
  /-- `VERIFY_COMPLETE` (R419). The verification outcome is reported. -/
  | verifyComplete
  /-- `APPLY_COMPLETE` (R419). The apply outcome is reported. -/
  | applyComplete
  /-- `ACTIVATE_FIRMWARE` (R419). PLDM ActivateFirmware activates live when a standby exists, or at the next reset otherwise. -/
  | activateFirmware (step2Ok : Bool) (step4Ok : Bool)
  /-- `GET_STATUS` (R419). PLDM GetStatus returns the state of the update. -/
  | getStatus
  /-- `CANCEL_UPDATE_COMPONENT` (R419). PLDM CancelUpdateComponent cancels the component transfer at its last safe point. -/
  | cancelUpdateComponent
  /-- `CANCEL_UPDATE` (R420). PLDM CancelUpdate ends the update and releases the firmware store. -/
  | cancelUpdate
  /-- `UPDATE_IDLE_TIMEOUT` (R419). No firmware data arrives for 60 s, so the update is cancelled at its last safe point. -/
  | updateIdleTimeout
  /-- `SPDM_GET_VERSION` (R421). SPDM GET_VERSION returns the supported version. -/
  | spdmGetVersion (transport : Nat)
  /-- `SPDM_GET_CAPABILITIES` (R421). SPDM GET_CAPABILITIES returns the CERT, CHAL and MEAS capabilities. -/
  | spdmGetCapabilities (transport : Nat)
  /-- `SPDM_NEGOTIATE_ALGORITHMS` (R421). SPDM NEGOTIATE_ALGORITHMS settles on ECDSA P-384 and SHA-384. -/
  | spdmNegotiateAlgorithms (transport : Nat) (ecdsaP384 : Bool) (sha384 : Bool)
  /-- `SPDM_GET_DIGESTS` (R421). SPDM GET_DIGESTS returns the digest of certificate slot 0. -/
  | spdmGetDigests (transport : Nat)
  /-- `SPDM_GET_CERTIFICATE` (R421). SPDM GET_CERTIFICATE returns the certificate chain of slot 0. -/
  | spdmGetCertificate (transport : Nat) (slot : Nat) (offset : Nat) (length : Nat)
  /-- `SPDM_CHALLENGE` (R421). SPDM CHALLENGE returns a signed challenge response. -/
  | spdmChallenge (transport : Nat) (slot : Nat) (nonce : List Byte)
  /-- `SPDM_GET_MEASUREMENTS` (R422). SPDM GET_MEASUREMENTS returns the signed measurements. -/
  | spdmGetMeasurements (transport : Nat) (index : Nat) (nonce : List Byte)
  /-- `SUPERVISOR_READ_BYTE` (R426). During a shutdown an SMBus read-byte at address 0x4C returns the cause, die or temperature. -/
  | supervisorReadByte (command : Nat)
  /-- `TEST_LOGIC_RESET` (R77). JTAG TRST, or five TCK cycles with TMS high, resets the TAP controllers. -/
  | testLogicReset
  /-- `IDCODE` (R424). TAP instruction 0x01 selects the IDCODE register. -/
  | idcode (tap : Nat)
  /-- `SAMPLE_PRELOAD` (R424). TAP instruction 0x02 samples and preloads the boundary register. -/
  | samplePreload (tap : Nat) (pins : BitVec 64) (preload : BitVec 64)
  /-- `EXTEST` (R425). TAP instruction 0x03 drives the boundary in P4, and acts as BYPASS otherwise. -/
  | extest (tap : Nat)
  /-- `EXTEST_PULSE` (R425). TAP instruction 0x04 runs the IEEE 1149.6 pulse test in P4. -/
  | extestPulse (tap : Nat)
  /-- `EXTEST_TRAIN` (R425). TAP instruction 0x05 runs the IEEE 1149.6 train test in P4. -/
  | extestTrain (tap : Nat)
  /-- `CLAMP` (R425). TAP instruction 0x06 clamps the outputs in P4. -/
  | clamp (tap : Nat)
  /-- `HIGHZ` (R425). TAP instruction 0x07 puts the outputs in high impedance in P4. -/
  | highz (tap : Nat)
  /-- `BYPASS` (R424). TAP instruction 0xFF, or any other value, selects the bypass register. -/
  | bypass (tap : Nat) (code : Nat)
  /-- `OPERATOR_LIBRARY_CALL` (R334). A tile of a running launch invokes an operator, which resolves its operands, waits on an input tally and dispatches engine reads and writes counted in operand tallies. -/
  | operatorLibraryCall (launch : Nat) (tile : Nat) (operand : Nat) (write : Bool) (bytes : List Byte)
  /-- `STEWARD_CORE_ACCESS` (R322). A steward core loads or stores a field-store region of its pigeonhole under the pigeonhole's frank, checked against the locks. -/
  | stewardCoreAccess (core : Nat) (write : Bool) (address : Nat) (bytes : List Byte)
  /-- `STEWARD_CORE_EXCEPTION` (R322). A steward core meets an exception that its code does not handle, is journalled and halts. -/
  | stewardCoreException (core : Nat)
  /-- `ENGINE_ERROR` (R396). A copy, select, atomic or spectral engine fails its self-check or a parity check, the error is journalled, and the frond is fenced. -/
  | engineError (frond : Nat) (unit : Nat)
  /-- `STANDBY_LOST` (R132). E0 misses the standby's heartbeat, journals "standby lost", raises a PLDM event and runs with no standby. -/
  | standbyLost
  /-- `BROADCAST_ANSWER_TIMEOUT` (R183). 1.5 ms after sending, TLB_INVALIDATE_BCAST completes and lists the modules that did not answer as "remote unreachable". -/
  | broadcastAnswerTimeout (lb : Nat)
  /-- `RACK_TIME_SET_TIMEOUT` (R62). No PPS edge arrives within 1.1 s of a RACK_TIME_SET, and the command ends "timeout". -/
  | rackTimeSetTimeout
  /-- `TRANSITION_TIMEOUT` (R49). A power transition step other than the wait-limited steps 2 and 4 exceeds its bound, so the request completes "timeout" and the module returns toward P0. -/
  | transitionTimeout
  /-- `SENSOR_UPDATE` (R414). Every 1 ms the sensor readings and the register mirror are updated, and each threshold crossing or state change raises a PLDM event. -/
  | sensorUpdate (readings : List (Nat × Int))
  /-- `CORRECTABLE_LINK_ERROR` (R108). A receiver error, replay timer timeout or replay number rollover on a host port is logged as a correctable AER error and journalled. -/
  | correctableLinkError (port : Nat) (kind : Nat)
  /-- `ESCAPE_DRAIN_ALARM` (R280). A die stays in escape drain for 10 ms without a break, which journals 0x7003 and raises a PLDM event. -/
  | escapeDrainAlarm (die : Nat)
  /-- `LASER_FAILURE` (R445). The optical power monitor finds a laser or optical driver failed or outside its ratings, journals it and raises a PLDM event, and the lane is excluded at the next Detect. -/
  | laserFailure (port : Nat) (lane : Nat)
  deriving DecidableEq, Repr

end Sys2Proof
end

