-- ==== Sys2Proof/Config.lean ====
section
/-! DEFINITION. What one module is built with and the spec does not state (identity, keys, certificates, boot
ROM), and the free values: constants with no body, so that no proof can see what they are. Each is named in the
assumption log (rows 3 and 4). -/

namespace Sys2Proof

/-- A value the spec leaves open, fresh for each use: the step applies it to the counter `State.free`. -/
opaque Config.freeNat : Nat → Nat

/-- The 64-bit device identity of MOD_ID and CAP byte 0x14 (R434, R242). -/
opaque Config.deviceIdentity : Nat

/-- The 16 bytes of the MCTP endpoint UUID (R410). -/
opaque Config.endpointUuid : Nat

/-- The certificate chain of SPDM slot 0, stored in MRAM (R421). -/
opaque Config.certificateChain : List Byte

/-- The boot ROM, the content of measurement 1 (R422). -/
opaque Config.bootRom : List Byte

/-- The firmware image that the module is built with, in slot A of both MRAMs (R126, R391). -/
opaque Config.factoryFirmware : List Byte

/-- Whether an ECDSA P-384 signature over the given bytes verifies with the Nolfalvo key (R126, R329). -/
opaque Config.signatureValid : List Byte → List Byte → Bool

/-- The device's ECDSA P-384 signature over the given bytes (R421). -/
opaque Config.sign : List Byte → List Byte

/-- A bit of the SSPRQ test pattern, which R224 takes from IEEE 802.3, by its place in the sequence. -/
opaque Config.ssprqBit : Nat → Bool

/-- A spectral bin: power or log-power of window, transform and mel bank as R320 describes, with the rounding
that R320 leaves to the implementation; applied to the frame's samples, the table record and the bin. -/
opaque Config.spectralBin : List Int → List Byte → Nat → Nat

/-- The bytes of the self-test report, whose format the spec does not give, over the members' result codes and the repair-map
entries found (R85, R123). -/
opaque Config.selftestReport : List Nat → List (BitVec 64) → List Byte

/-- The version that a module reports for its boot-ROM recovery firmware (R74 step A4). -/
opaque Config.recoveryVersion : Nat

/-- The module of a rack through which a tunnel reaches the rack's partners (R377): the spec does not say how a module learns
it. -/
opaque Config.rackModule : Nat → Nat

/-- The MCTP version entry reported for a message type (R410), which the spec does not state. -/
opaque Config.mctpVersion : Nat → Nat

/-- The random data of a SPDM challenge or measurement response (R421). -/
opaque Config.spdmNonce : Nat → List Byte

end Sys2Proof
end

