-- ==== Sys2Proof/Machine/Tab.lean ====
section
/-! DEFINITION. Sparse tables: the form in which the state holds every numbered collection (rings, ports,
letterboxes, locks, counters, memory bytes). A table lists its entries by strictly rising key; a key that is
not listed holds the collection's value after reset. -/

namespace Sys2Proof.Machine

/-- A table from numbers to values, listed by strictly rising key. -/
abbrev Tab (α : Type) := List (Nat × α)

/-- The value at a key, `d` where the key is not listed. -/
def tget {α : Type} (d : α) : Tab α → Nat → α
  | [], _ => d
  | (j, v) :: t, k => if j = k then v else tget d t k

/-- The value at a key, if it is listed. -/
def tfind {α : Type} : Tab α → Nat → Option α
  | [], _ => none
  | (j, v) :: t, k => if j = k then some v else tfind t k

/-- The table with the key's value replaced. -/
def tset {α : Type} : Tab α → Nat → α → Tab α
  | [], k, v => [(k, v)]
  | (j, w) :: t, k, v =>
    if k < j then (k, v) :: (j, w) :: t
    else if k = j then (k, v) :: t
    else (j, w) :: tset t k v

/-- The table without the key. -/
def terase {α : Type} : Tab α → Nat → Tab α
  | [], _ => []
  | (j, w) :: t, k => if j = k then terase t k else (j, w) :: terase t k

/-- The table with the key's value changed by `f`, from the value after reset where it is not listed. -/
def tmod {α : Type} (d : α) (t : Tab α) (k : Nat) (f : α → α) : Tab α :=
  tset t k (f (tget d t k))

/-- The table with the key set, listing nothing for the unlisted value: the canonical form of R384's stores. -/
def tput {α : Type} [DecidableEq α] (d : α) (t : Tab α) (k : Nat) (v : α) : Tab α :=
  if v = d then terase t k else tset t k v

/-- Every key of the table rises strictly. -/
def tsorted {α : Type} : Tab α → Bool
  | [] => true
  | [_] => true
  | (j, _) :: (k, w) :: t => decide (j < k) && tsorted ((k, w) :: t)

/-- Increase the counter at a key by `n`, modulo 2^64 (R289, R418). -/
def tcount (t : Tab Nat) (k n : Nat) : Tab Nat := tset t k ((tget 0 t k + n) % 2 ^ 64)

/-- The keys of the table that satisfy `p`. -/
def tkeys {α : Type} (p : α → Bool) (t : Tab α) : List Nat :=
  (t.filter fun e => p e.2).map Prod.fst

/-- Change every listed value. -/
def tmap {α β : Type} (f : Nat → α → β) (t : Tab α) : Tab β :=
  t.map fun e => (e.1, f e.1 e.2)

/-- The lowest number in `[lo, lo + n)` that the table does not list. -/
def tfree {α : Type} (t : Tab α) (lo : Nat) : Nat → Option Nat
  | 0 => none
  | n + 1 => if (tfind t lo).isNone then some lo else tfree t (lo + 1) n

end Sys2Proof.Machine
end

