-- ==== Sys2Proof/Machine/Bits.lean ====
section
/-! DEFINITION. Little-endian fields (R7), alignment of packed fields (R114), the checksums of R79 and R210,
and the small list helpers that the meanings share. -/

namespace Sys2Proof.Machine

/-- `n` bytes of a number, byte 0 holding bits [7:0] (R7). -/
def leBytes : Nat → Nat → List Byte
  | 0, _ => []
  | n + 1, v => BitVec.ofNat 8 (v % 256) :: leBytes n (v / 256)

/-- The number whose little-endian bytes are the list (R7). -/
def leNat : List Byte → Nat
  | [] => 0
  | b :: t => b.toNat + 256 * leNat t

/-- The little-endian field of `n` bytes at offset `off` of a byte list. -/
def field (bs : List Byte) (off n : Nat) : Nat := leNat ((bs.drop off).take n)

/-- Bits [hi:lo] of a number. -/
def bits (v hi lo : Nat) : Nat := v / 2 ^ lo % 2 ^ (hi + 1 - lo)

/-- Bit `n` of a number. -/
def bit (v n : Nat) : Bool := v / 2 ^ n % 2 == 1

/-- 1 for true and 0 for false. -/
def b2n (b : Bool) : Nat := if b then 1 else 0

/-- Set or clear bit `n` of a number. -/
def setBit (v n : Nat) (b : Bool) : Nat :=
  if bit v n == b then v else if b then v + 2 ^ n else v - 2 ^ n

/-- The byte list padded with 0 to `n` bytes, or cut there. -/
def padTo (n : Nat) (bs : List Byte) : List Byte := (bs ++ List.replicate (n - bs.length) 0).take n

/-- Round up to a multiple of `m`. -/
def roundUp (v m : Nat) : Nat := (v + m - 1) / m * m

/-- One field of an argument area, of a result area or of a journal payload, with its size in bytes (R114). -/
structure Fld where
  size : Nat
  value : Nat
  deriving DecidableEq, Repr

def u8 (v : Nat) : Fld := ⟨1, v⟩
def u16 (v : Nat) : Fld := ⟨2, v⟩
def u32 (v : Nat) : Fld := ⟨4, v⟩
def u64 (v : Nat) : Fld := ⟨8, v⟩

/-- Fields packed in order, each at the next offset aligned to the smaller of its size and 8 (R114). -/
def packFrom (at_ : Nat) : List Fld → List Byte
  | [] => []
  | f :: t =>
    let a := roundUp at_ (max 1 (min f.size 8))
    List.replicate (a - at_) 0 ++ leBytes f.size f.value ++ packFrom (a + f.size) t

def pack (fs : List Fld) : List Byte := packFrom 0 fs

/-- The offsets at which fields of the given sizes lie, with the end of the last (R114). -/
def layout (at_ : Nat) : List Nat → List Nat × Nat
  | [] => ([], at_)
  | n :: t =>
    let a := roundUp at_ (max 1 (min n 8))
    let r := layout (a + n) t
    (a :: r.1, r.2)

/-- The values of fields of the given sizes read from an argument area (R114). -/
def unpack (bs : List Byte) (sizes : List Nat) : List Nat :=
  ((layout 0 sizes).1.zip sizes).map fun p => field bs p.1 p.2

/-- The bytes an argument area of the given field sizes takes (R114). -/
def argBytes (sizes : List Nat) : Nat := (layout 0 sizes).2

/-- One bit of the reflected CRC-32 of IEEE 802.3, polynomial 0x04C1_1DB7 (R79, R231). -/
def crc32Bit (c : Nat) : Nat := if c % 2 == 1 then (c / 2) ^^^ 0xEDB88320 else c / 2

def iterate {α : Type} (f : α → α) : Nat → α → α
  | 0, a => a
  | n + 1, a => iterate f n (f a)

/-- The CRC-32 of IEEE 802.3 over bytes (R79, R231). -/
def crc32 (bs : List Byte) : Nat :=
  (bs.foldl (fun c b => iterate crc32Bit 8 (c ^^^ b.toNat)) 0xFFFFFFFF) ^^^ 0xFFFFFFFF

/-! ### The repair map in MRAM (R79) -/

/-- Repair-map entries as they stand in MRAM (R80). -/
def mapBytes (es : List (BitVec 64)) : List Byte := es.flatMap fun e => leBytes 8 e.toNat

/-- Bytes 0x00–0x1B of a repair-map header, over which its CRC is taken. -/
def mapHead (seq : Nat) (es : List (BitVec 64)) : List Byte :=
  leBytes 4 0x4B524D50 ++ leBytes 2 1 ++ leBytes 2 0 ++ leBytes 4 seq ++ leBytes 4 es.length
    ++ leBytes 4 (crc32 (mapBytes es)) ++ leBytes 8 0

/-- The 32-byte header of a repair-map copy. -/
def mapHeader (seq : Nat) (es : List (BitVec 64)) : List Byte := mapHead seq es ++ leBytes 4 (crc32 (mapHead seq es))

/-- The CRC-8 of R210, polynomial x^8 + x^2 + x + 1, initial value 0, over `n` bits taken from bit 0 on. -/
def crc8 : Nat → Nat → Nat → Nat
  | 0, _, c => c
  | n + 1, v, c =>
    let top := (bit c 7) != (v % 2 == 1)
    let c' := c * 2 % 256
    crc8 n (v / 2) (if top then c' ^^^ 0x07 else c')

/-- Serial-number order of 16-bit numbers: `a` is after `b` (R235). -/
def after16 (a b : Nat) : Bool :=
  let d := (a + 65536 - b % 65536) % 65536
  0 < d && d < 32768

/-- Serial-number order of 32-bit numbers (R79, R405): `a` is greater than `b`. -/
def after32 (a b : Nat) : Bool :=
  let d := (a + 2 ^ 32 - b % 2 ^ 32) % 2 ^ 32
  0 < d && d < 2 ^ 31

/-- Cut a list into pieces of `n` elements; `fuel` bounds the pieces. -/
def chunks {α : Type} (n : Nat) : Nat → List α → List (List α)
  | 0, _ => []
  | fuel + 1, l => if l.isEmpty then [] else l.take n :: chunks n fuel (l.drop n)

/-- Change the first element that satisfies `p`. -/
def modifyFirst {α : Type} (p : α → Bool) (f : α → α) : List α → List α
  | [] => []
  | a :: t => if p a then f a :: t else a :: modifyFirst p f t

/-- Remove the first element that satisfies `p`. -/
def eraseFirst {α : Type} (p : α → Bool) : List α → List α
  | [] => []
  | a :: t => if p a then t else a :: eraseFirst p t

/-- Element `n` of a list, `d` beyond its end. -/
def nth {α : Type} (d : α) (l : List α) (n : Nat) : α := l.getD n d

/-- Insert by a strict order, after the elements that are not worse. -/
def insertBy {α : Type} (better : α → α → Bool) (x : α) : List α → List α
  | [] => [x]
  | a :: t => if better x a then x :: a :: t else a :: insertBy better x t

/-- Stable insertion sort, best first. -/
def sortBy {α : Type} (better : α → α → Bool) (l : List α) : List α :=
  l.foldl (fun acc x => insertBy better x acc) []

end Sys2Proof.Machine
end

