-- ==== Sys2Proof/Machine/Geometry.lean ====
section
/-! DEFINITION. The wafer's geometry (R12–R20, R25, R82) and the postcode (R29–R34, R37). Directions are
0 north, 1 east, 2 south, 3 west (R80). A die is named by its postcode die value: 0–83 fronds, 96–111 edge
dies. -/

namespace Sys2Proof.Machine

/-- Grid rows as (first column, first frond, count) (R13). -/
def gridRows : List (Nat × Nat × Nat) :=
  [(2, 0, 8), (1, 8, 10), (0, 18, 12), (0, 30, 12), (0, 42, 12), (0, 54, 12), (1, 66, 10), (2, 76, 8)]

/-- The grid row and column of a frond (R13); row 8 for a number that is no frond. -/
def gridPosFrom : List (Nat × Nat × Nat) → Nat → Nat → Nat × Nat
  | [], r, _ => (r, 0)
  | (c0, f0, n) :: t, r, f => if f0 ≤ f ∧ f < f0 + n then (r, c0 + (f - f0)) else gridPosFrom t (r + 1) f

def gridPos (f : Nat) : Nat × Nat := gridPosFrom gridRows 0 f
def gridRow (f : Nat) : Nat := (gridPos f).1
def gridCol (f : Nat) : Nat := (gridPos f).2

/-- The frond at a grid row and column, if there is one (R13). -/
def frondAt (r c : Nat) : Option Nat :=
  match gridRows[r]? with
  | some (c0, f0, n) => if c0 ≤ c ∧ c < c0 + n then some (f0 + (c - c0)) else none
  | none => none

/-- The centre of a frond in tenths of a millimetre from the wafer's centre, x eastward and y northward (R12). -/
def frondCentre (f : Nat) : Int × Int :=
  ((2 * (gridCol f : Int) - 11) * 86, (7 - 2 * (gridRow f : Int)) * 131)

/-- |a − b| of two numbers. -/
def dist (a b : Nat) : Nat := if a ≤ b then b - a else a - b

/-- |Δrow| + |Δcolumn| of two fronds. -/
def gridDist (f g : Nat) : Nat := dist (gridRow f) (gridRow g) + dist (gridCol f) (gridCol g)

/-- The frond that borders frond `f` in a direction, across a seam (R16). -/
def frondNeighbour (f dir : Nat) : Option Nat :=
  let r := gridRow f; let c := gridCol f
  match dir with
  | 0 => if r = 0 then none else frondAt (r - 1) c
  | 1 => frondAt r (c + 1)
  | 2 => frondAt (r + 1) c
  | _ => if c = 0 then none else frondAt r (c - 1)

/-- The two attachments of each edge die as (frond, edge of the frond) (R19). -/
def attachments (e : Nat) : List (Nat × Nat) :=
  nth [] [[(3, 0), (4, 0)], [(5, 0), (6, 0)], [(7, 0), (17, 0)], [(17, 1), (29, 1)], [(41, 1), (53, 1)],
    [(65, 1), (75, 1)], [(75, 2), (83, 2)], [(82, 2), (81, 2)], [(80, 2), (79, 2)], [(78, 2), (77, 2)],
    [(76, 2), (66, 2)], [(66, 3), (54, 3)], [(42, 3), (30, 3)], [(18, 3), (8, 3)], [(8, 0), (0, 0)],
    [(1, 0), (2, 0)]] e

/-- Tile row and column of a tile index (R14). -/
def tileRow (t : Nat) : Nat := t / 20
def tileCol (t : Nat) : Nat := t % 20

/-- Module tile row and column of a tile. -/
def modRow (f t : Nat) : Nat := 16 * gridRow f + tileRow t
def modCol (f t : Nat) : Nat := 20 * gridCol f + tileCol t

/-- The position of a tile along a frond edge: its column on a north or south edge, its row on an east or
west edge; `none` when the tile does not lie on that edge. -/
def alongEdge (t dir : Nat) : Option Nat :=
  match dir with
  | 0 => if tileRow t = 0 then some (tileCol t) else none
  | 1 => if tileCol t = 19 then some (tileRow t) else none
  | 2 => if tileRow t = 15 then some (tileCol t) else none
  | _ => if tileCol t = 0 then some (tileRow t) else none

/-- The tile at a position along a frond edge. -/
def edgeTile (dir pos : Nat) : Nat :=
  match dir with
  | 0 => pos
  | 1 => 20 * pos + 19
  | 2 => 300 + pos
  | _ => 20 * pos

/-- The edge-die link met by a tile of a frond in a direction, as (edge die, link 0–31): links meet tile
columns 2–17 on a north or south edge and rows 0–15 on an east or west edge (R19). R19 and R80 do not say which link numbers an
attachment carries: attachment `a`, in the order of R19's table, carries links 16a to 16a + 15, by rising column or row (DESIGN
CHOICE, assumption 74). -/
def edgeLinkOf (f t dir : Nat) : Option (Nat × Nat) :=
  match alongEdge t dir with
  | none => none
  | some pos =>
    let first := if dir = 0 ∨ dir = 2 then 2 else 0
    if pos < first ∨ first + 16 ≤ pos then none
    else (List.range 16).findSome? fun e =>
      match (attachments e).findIdx? (· == (f, dir)) with
      | some a => some (e, 16 * a + (pos - first))
      | none => none

/-- The frond, tile and direction at the far end of an edge-die link (R19). -/
def edgeLinkEnd (e link : Nat) : Option (Nat × Nat × Nat) :=
  match (attachments e)[link / 16]? with
  | none => none
  | some (f, dir) =>
    let first := if dir = 0 ∨ dir = 2 then 2 else 0
    some (f, edgeTile dir (first + link % 16), dir)

/-- What a tile router's mesh direction leads to (R16, R19, R268). -/
inductive Beyond where
  | tile (t : Nat)                        -- the next tile of the same frond, over a bufferless link
  | seam (frond tile : Nat)               -- the tile across a seam crossing
  | edge (e link : Nat)                   -- an edge-die link
  | nothing
  deriving DecidableEq, Repr

def beyond (f t dir : Nat) : Beyond :=
  match alongEdge t dir with
  | none =>
    .tile (match dir with | 0 => t - 20 | 1 => t + 1 | 2 => t + 20 | _ => t - 1)
  | some pos =>
    match frondNeighbour f dir with
    | some g => .seam g (edgeTile ((dir + 2) % 4) pos)
    | none =>
      match edgeLinkOf f t dir with
      | some (e, l) => .edge e l
      | none => .nothing

/-- Distance round the rim, modulo 16 (R20, R82). -/
def rimDist (a b : Nat) : Nat := let d := (a + 16 - b) % 16; min d (16 - d)

/-- The frond with the fewest grid steps to `f` in a list, lower numbers first. -/
def leastDist (f : Nat) : List Nat → Nat
  | [] => 1000
  | g :: t => min (gridDist f g) (leastDist f t)

def isFrond (die : Nat) : Bool := decide (die < 84)
def isEdge (die : Nat) : Bool := decide (96 ≤ die ∧ die < 112)
def isDie (die : Nat) : Bool := isFrond die || isEdge die

/-- The wave number of a self-test member (R82). -/
def waveOf (die : Nat) : Nat :=
  if die < 84 then 1 + leastDist die [3, 4, 79, 80]
  else min (rimDist (die - 96) 0) (rimDist (die - 96) 8)

/-- Every member of the self-test: the fronds, then the edge dies. -/
def allFronds : List Nat := List.range 84
def allEdges : List Nat := (List.range 16).map (96 + ·)
def allDies : List Nat := allFronds ++ allEdges

/-- The members of a wave (R82). -/
def waveMembers (w : Nat) : List Nat := allDies.filter fun d => waveOf d == w

/-- The dies that a die shares a seam, an edge-die link or a rim link with (R16, R19, R20). -/
def dieNeighbours (d : Nat) : List Nat :=
  if d < 84 then
    ((List.range 4).filterMap (frondNeighbour d)) ++
      (allEdges.filter fun e => (attachments (e - 96)).any fun a => a.1 == d)
  else ((attachments (d - 96)).map Prod.fst) ++ [96 + (d - 96 + 15) % 16, 96 + (d - 96 + 1) % 16]

/-! ### Ports and connectors (R17, R25) -/

/-- The reach class of a port, coded as in the beacon word: 0 board, 1 copper, 2 optical (R17, R210). -/
def portClass (p : Nat) : Nat := if p % 6 < 2 then 2 else if p % 6 < 5 then 1 else 0

/-- Connector OPT-nn, CU-nn and BRD-nn as port numbers (R25). -/
def optPort (nn : Nat) : Nat := 6 * (nn / 2) + nn % 2
def cuPort (nn : Nat) : Nat := 6 * (nn / 3) + 2 + nn % 3
def brdPort (nn : Nat) : Nat := 6 * nn + 5

/-- The connector number of an optical or copper port (R25). -/
def optIndex (p : Nat) : Nat := 2 * (p / 6) + p % 6
def cuIndex (p : Nat) : Nat := 3 * (p / 6) + (p % 6 - 2)

/-! ### Postcodes (R29–R34) -/

def mkPostcode (m die tile unit : Nat) : Postcode :=
  BitVec.ofNat 32 (m % 4096 * 2 ^ 20 + die % 128 * 2 ^ 13 + tile % 512 * 16 + unit % 16)

def pcModule (p : Postcode) : Nat := bits p.toNat 31 20
def pcDie (p : Postcode) : Nat := bits p.toNat 19 13
def pcTile (p : Postcode) : Nat := bits p.toNat 12 4
def pcUnit (p : Postcode) : Nat := bits p.toNat 3 0

/-- The postcode "none" (R30). -/
def noPostcode : Postcode := 0xFFFFFFFF

/-- The index range of a unit of an edge die: the PCIe block is on E0 and E8 only (R18, R32). -/
def edgeUnitCount (edge unit : Nat) : Nat := nth 0 [6, 64, 4, 1, 1, 1, if edge = 0 ∨ edge = 8 then 1 else 0] unit

/-- A postcode that R29, R31 and R32 allow. -/
def validPostcode (p : Postcode) : Bool :=
  let d := pcDie p; let t := pcTile p; let u := pcUnit p
  if d < 84 then (if u < 4 then decide (t < 320) else t == 511)
  else if 96 ≤ d ∧ d < 112 then decide (t < edgeUnitCount (d - 96) u)
  else false

def hubUnit (m frond unit : Nat) : Postcode := mkPostcode m frond 511 unit
def fieldStorePc (m frond : Nat) : Postcode := hubUnit m frond 0xB
def scratchPc (m frond tile : Nat) : Postcode := mkPostcode m frond tile 1
def frondCtlPc (m frond : Nat) : Postcode := hubUnit m frond 0xF
def mgmtPc (m edge : Nat) : Postcode := mkPostcode m (96 + edge) 0 5
def ringEnginePc (m edge : Nat) : Postcode := mkPostcode m (96 + edge) 0 4
def ringPc (m ring : Nat) : Postcode := mkPostcode m (96 + ring / 64) (ring % 64) 1
def portPc (m port : Nat) : Postcode := mkPostcode m (96 + port / 6) (port % 6) 0
def stewardPc (m core : Nat) : Postcode := mkPostcode m (96 + core / 4) (core % 4) 2

/-- The controller of a die: the frond controller, or the management processor (R150). -/
def dieCtlPc (m die : Nat) : Postcode := if die < 84 then frondCtlPc m die else mgmtPc m (die - 96)

def scratchBytes : Nat := 0x100000
def fieldStoreBytes : Nat := 0x6000000

/-- The size of the unit a postcode names, the bound of R37 for its offsets: 1 for a unit with no memory, whose
offset must be 0. -/
def unitSize (p : Postcode) : Nat :=
  if pcDie p < 84 then
    if pcUnit p = 1 then scratchBytes
    else if pcUnit p = 0xB then fieldStoreBytes
    else if pcUnit p = 8 ∨ pcUnit p = 9 then 0x10000
    else 1
  else 1

/-- Tally numbers of a die's kind (R34). -/
def tallyCount (die : Nat) : Nat := if die < 84 then 4096 else 1024

end Sys2Proof.Machine
end

