-- ==== Sys2Proof/Machine/State.lean ====
section
/-! DEFINITION. The machine's state as plain data: every register, queue, buffer, counter, mode and pin that
the spec gives the KW1, with its value after reset as each field's default. `State.reset` is the module before
power is applied (step A1 of R74). Collections are sparse tables: a key not listed holds the element's default. -/

namespace Sys2Proof.Machine

/-! ### Why a step can stop -/

/-- Faults. There is none: the spec gives no command that stops the block. A command that names a unit the module does not have (a
port, ring, letterbox, die or function outside R13–R20, R43, R134 and R209) names no event, and changes nothing (assumption 7). -/
inductive Fault where
  deriving DecidableEq, Repr

/-- Refusals: a command without a meaning. -/
inductive Refusal where
  /-- Raised by an arm whose command has no meaning yet. Safe. -/
  | notModelled (mnemonic : String)
  deriving DecidableEq, Repr

/-! ### Shared records -/

/-- The protection stamp of a request: context ID and key selector (R186). -/
structure Frank where
  ctx : Nat := 0
  key : Nat := 0
  deriving DecidableEq, Repr

/-- An 80-bit place reference (R37). -/
structure Place where
  pc : Postcode := 0
  off : Nat := 0
  deriving DecidableEq, Repr

/-- A translation's target: a host bus address, for Translated or Untranslated requests (R170), or a place (R38, R166). -/
inductive Target where
  | host (addr : Nat) (translated : Bool)
  | place (pc : Postcode) (off : Nat)
  deriving DecidableEq, Repr

/-- A target in host memory. -/
def Target.isHost : Target → Bool
  | .host _ _ => true
  | .place _ _ => false

/-! ### Packets (R253–R263) -/

/-- A tunnel header (R262). -/
structure Tunnel where
  dest : Nat
  source : Nat
  hopLimit : Nat
  defl : Nat
  escape : Bool
  deriving DecidableEq, Repr

/-- A control or data packet (R254, R256). `body` is the 40 argument bytes of a control packet, or the payload.
`op` is the control opcode or the data operation. `offset` is the request tag in a response. -/
structure Pkt where
  control : Bool
  tunnel : Option Tunnel := none
  escape : Bool := false
  defl : Nat := 0
  op : Nat
  dest : Postcode
  src : Postcode
  frank : Frank := {}
  postmark : BitVec 64 := 0
  registered : Bool := false
  partialList : Bool := false
  encrypted : Bool := false
  keyPhase : Bool := false
  lead : Nat := 0
  trail : Nat := 0
  offset : Nat := 0
  tally : Nat := 0xFFFF
  reg : Nat := 0
  poison : Option (BitVec 64) := none
  trailerCount : Nat := 0
  trailerTag : List Byte := []
  body : List Byte
  deriving DecidableEq, Repr

/-- Where in the module a packet stands (R268, R269, R279, R450). `seamTx` and `seamRx` are the sending and
receiving ends of a crossing, an edge-die link or a rim link; on a frond the index is 4 × tile + direction (R80),
on an edge die 0–31 for edge-die links, 32–39 and 40–47 for rim links (R80). A receiving end on an edge die is a
landing. -/
inductive Loc where
  | inject (die router : Nat)
  | mesh (frond tile dir : Nat)
  | seamTx (die output : Nat)
  | seamRx (die input : Nat)
  | egress (port : Nat)
  | ingress (port : Nat)
  | escIngress (port : Nat)
  | escBuf (die router : Nat) (yx : Bool)
  | eject (die : Nat)
  deriving DecidableEq, Repr

/-- Who caused a packet: the model's own bookkeeping for the internal delivery count of R153 and the residency
counter of R342. -/
inductive Origin where
  | ring (ring count : Nat)
  | launch (id : Nat)
  | stream (id : Nat)
  | load (ph record : Nat)
  | hop (hop : Nat)
  | none
  deriving DecidableEq, Repr

/-- A packet in the module's routers and buffers. `preHold` marks one injected before a commit's hold (R287);
`yx` is the escape class of a packet in the escape lane, true for YX (R278). -/
structure Flight where
  pkt : Pkt
  loc : Loc
  origin : Origin := .none
  yx : Bool := false
  preHold : Bool := false
  /-- The ingress code (R266) by which it came to the die that it now stands at an output of. -/
  via : Nat := 4
  deriving DecidableEq, Repr

/-! ### What leaves the module -/

/-- The PCIe read purposes: who asked for the data of an outstanding host read. -/
inductive ReadFor where
  | fetch (ring first n : Nat)
  | copy (ring count pos len : Nat) (dst : Target)
  | walk (unit walk : Nat)
  | image (lb pos : Nat)
  | firmware (lb pos : Nat)
  | args (launch pos : Nat)
  | operand (launch : Nat)
  deriving DecidableEq, Repr

/-- One thing that the module sends to the outside: messages and requests on its host ports, flits and patterns
on its Gulan ports, responses on its management bus. -/
inductive Out where
  | msix (port fn vector : Nat) (address data : Nat)
  | dmaRead (port fn tag addr len : Nat) (pasid : Option Nat) (translated : Bool)
  | dmaWrite (port fn addr : Nat) (bytes : List Byte) (relaxed ido poisoned : Bool) (pasid : Option Nat) (translated : Bool)
  | atsRequest (port fn tag va : Nat) (pasid : Option Nat)
  | pageRequest (port fn index va : Nat) (pasid : Option Nat) (write : Bool)
  | configReply (port fn : Nat) (status : Nat) (value : Nat)
  | unsupported (port fn : Nat)
  | aer (port : Nat) (cls : Nat) (code : Nat)
  | atsCompletion (port fn : Nat)
  | flit (port : Nat) (bytes scrambled : List Byte)
  | marker (port lane : Nat) (word : BitVec 64)
  | levels (port lane : Nat) (levels : List Nat)
  | beaconState (port : Nat) (word : BitVec 64)
  | trainingStatus (port lane : Nat) (status : BitVec 32)
  | mctp (type : Nat) (command : Nat) (bytes : List Byte)
  | pldmEvent (bytes : List Byte)
  | inBandInterrupt
  | smbusByte (value : Nat)
  | doe (port : Nat) (bytes : List Byte)
  | jtag (tap register : Nat) (bits : BitVec 64)
  | stewardInterrupt (core vector payload : Nat)
  deriving DecidableEq, Repr

/-! ### Power-up, self-test, the ladder and the governor (chapters 3, 4, 19) -/

/-- Where power-up stands (R74): no management domain powered; in P4 or on the ladder; in phase B; a wave of
phase C has ended; the retry pass has ended; shut down by the supervisor (R402). -/
inductive Boot where
  | unpowered
  | standby
  | waves (last : Nat)
  | retried
  | serving
  | safe
  | shutdown
  deriving DecidableEq, Repr

/-- A self-test member's result (R85, R437). -/
inductive Member where
  | untested | pass | repaired | failed | unreachable
  deriving DecidableEq, Repr

/-- Who made a power request (R46, R47, R73); `input` is the governor itself, after a failed request or input. -/
inductive Requester where
  | letterbox (lb : Nat)
  | pldm
  | enable
  | input
  deriving DecidableEq, Repr

/-- A power request: the target state 0–4, the release option and the wait limit in ms (R46, R49, R51). -/
structure PowerReq where
  target : Nat
  release : Bool
  waitMs : Nat
  source : Requester
  deriving DecidableEq, Repr

/-- The entry step a transition has reached (R49), or the exit (R50). -/
inductive Step49 where
  | waitLaunches | waitRings | waitInflight | exiting
  deriving DecidableEq, Repr

/-- A transition in progress: the request it carries out and the step at which it waits. -/
structure Transition where
  req : PowerReq
  step : Step49
  deriving DecidableEq, Repr

/-- One frond's power control (R54–R59, R401). Clocks in MHz; power in mW; the budget in W. `changedAt` is the rack time at which
the last clock change began (R59). -/
structure FrondPower where
  issue : Nat := 64
  thermalLimit : Nat := 64
  weight : Nat := 8
  clockMhz : Nat := 900
  oldClockMhz : Nat := 900
  changedAt : Nat := 0
  budget : Rat := 0
  powerMw : Nat := 0
  monitorBad : Bool := false
  throttled : Bool := false
  deriving DecidableEq, Repr

/-- One junction sensor (R401, R435), keyed 4 × die + index: condition 0 valid, 1 unavailable, 2 failed. -/
structure Sensor where
  tenths : Int := 0
  condition : Nat := 1
  deriving DecidableEq, Repr

/-- The latch of the power-plate supervisor (R402, R426): cause 0 none, 1 thermal, 2 over-voltage. -/
structure Latch where
  cause : Nat := 0
  die : Nat := 0
  celsius : Nat := 0
  deriving DecidableEq, Repr

structure Power where
  boot : Boot := .unpowered
  state : Option Nat := none
  inA : Bool := false
  inB : Bool := false
  enable : Bool := false
  enableDropped : Bool := false
  supervisorOk : Bool := true
  romRecovery : Bool := false
  results : Tab Member := []
  foundEntries : List (BitVec 64) := []
  meshFaults : List Nat := []
  verdict : Nat := 0
  ready : Bool := false
  safeReason : Nat := 0
  safeArmed : Bool := false
  resetPending : Bool := false
  mctpOpen : Bool := false
  alertMctp : Bool := false
  alertHeartbeat : Bool := false
  alertShutdown : Bool := false
  alertSupervisor : Bool := false
  pending : Option PowerReq := none
  trans : Option Transition := none
  lastPldm : Nat := 0
  launchesHeld : Bool := false
  arraysGated : Bool := true
  ringsHeld : Bool := false
  portsKept : Bool := false
  frondsOn : Bool := false
  frondClocksOn : Bool := false
  recorded : List Nat := []
  pool : Rat := 28320
  inputBad : Bool := false
  inputMw : Nat := 0
  fronds : Tab FrondPower := []
  sensors : Tab Sensor := []
  edgeHalfClock : List Nat := []
  latch : Latch := {}
  latchPending : Bool := false
  allOff : Bool := false
  deriving DecidableEq, Repr

/-! ### Time (R61–R68) -/

/-- A rack-time load waiting for its PPS edge (R62): seconds, the rack time at acceptance, whether a discovery assignment made
it, and the letterbox that awaits it. -/
structure RackLoad where
  seconds : Nat
  acceptedAt : Nat
  assigned : Bool
  lb : Option Nat
  deriving DecidableEq, Repr

structure Timebase where
  rackTime : Nat := 0
  onE8 : Bool := false
  holdover : Bool := false
  freeRunning : Bool := false
  awaitingPps : Bool := false
  steppedTicks : Nat := 0
  badPhase : Nat := 0
  badPhaseCount : Nat := 0
  slew : Int := 0
  slewPeriods : Nat := 0
  step : Option Int := none
  loads : List RackLoad := []
  loadedSinceReset : Bool := false
  deriving DecidableEq, Repr

/-! ### Host ports and functions (chapters 5, 21) -/

/-- An MSI-X table entry with its pending bit (R433, R96). Each entry resets masked. -/
structure MsixEntry where
  address : Nat := 0
  data : Nat := 0
  control : Nat := 1
  pending : Bool := false
  deriving DecidableEq, Repr

/-- A page request at the host (R99): the paused COPY, or none once it has completed (R100). -/
structure PageReq where
  index : Nat
  ring : Nat
  count : Nat
  va : Nat
  ctx : Nat
  write : Bool := false
  orphan : Bool := false
  deriving DecidableEq, Repr

/-- A function of a host port: configuration space, interrupt block, event block and quotas (R90–R108,
R429–R433). Functions are keyed 64 × port + function. `bar0` and `bar2` are the addresses the host gave the BARs, `vfBar0` and
`vfBar2` those of the SR-IOV capability's VF BARs (R43, R92, R93). -/
structure Fn where
  vfEnabled : Bool := false
  numVfs : Nat := 0
  busMaster : Bool := false
  d3 : Bool := false
  flr : Bool := false
  maxPayload : Nat := 128
  maxRead : Nat := 512
  completionTimeoutUs : Nat := 40000
  relaxed : Bool := true
  ido : Bool := false
  extendedTag : Bool := true
  tag10 : Bool := false
  tag14 : Bool := false
  bar0 : Nat := 0
  bar2 : Nat := 0
  vfBar0 : Nat := 0
  vfBar2 : Nat := 0
  pasid : Bool := false
  pri : Bool := false
  priStopped : Bool := false
  ats : Bool := false
  msixEnable : Bool := false
  functionMask : Bool := false
  vectors : Tab MsixEntry := []
  events : Nat := 0
  eventCounts : Tab Nat := []
  eventVector : Nat := 0
  eventEnable : Bool := false
  intSelect : Nat := 0
  intStatus : Nat := 0
  sent : Nat := 0
  withheld : Nat := 0
  pageReqs : List PageReq := []
  nextPage : Nat := 0
  quotaRings : Nat := 0
  quotaContexts : Nat := 0
  quotaClaims : Nat := 0
  deriving DecidableEq, Repr

/-- An outstanding read of host memory (R90, R108). `discard` marks one whose data is to be thrown away (R100). -/
structure HostRead where
  fn : Nat
  addr : Nat
  len : Nat
  purpose : ReadFor
  discard : Bool := false
  deriving DecidableEq, Repr

/-- A host port: 0 HOST-A on E0, 1 HOST-B on E8. `link` is 0 down, 1 up. -/
structure HostPort where
  link : Nat := 0
  perst : Bool := true
  configReady : Bool := false
  aerCorrectable : Nat := 0
  aerNonFatal : Nat := 0
  aerFatal : Nat := 0
  reads : Tab HostRead := []
  nextTag : Nat := 0
  deriving DecidableEq, Repr

/-- The host ports, the functions, the module events, and the ring that each edge die's ring engine served last (R161). -/
structure HostSide where
  ports : Tab HostPort := []
  turns : Tab Nat := []
  fns : Tab Fn := []
  modEvents : Nat := 0
  modEventCounts : Tab Nat := []
  deriving DecidableEq, Repr

/-! ### Postmaster: letterboxes, firmware, MRAM, journal (chapters 6, 19) -/

/-- The states of R111. -/
inductive LbState where
  | idle | accepted | running | done | aborting
  deriving DecidableEq, Repr

/-- How far a running command has come: not acted yet; acted and waiting for a later event. -/
inductive CmdPhase where
  | fresh | waiting
  deriving DecidableEq, Repr

/-- A letterbox (R110–R114). `order` is its doorbell's place in the order of R118; `failover` is flag [0] of
R114 offset 0x0A; `discard` marks a command whose result an FLR has thrown away (R103); `progress` counts the
bytes a host-reading command has taken; `mramBad` marks one whose MRAM write failed its verification; `startedAt` is the rack time of its start, for the running time of R114. -/
structure Letterbox where
  state : LbState := .idle
  safePoints : Nat := 0
  ready : Bool := false
  overrun : Bool := false
  failed : Bool := false
  overruns : Nat := 0
  cmd : Tab Byte := []
  res : Tab Byte := []
  order : Nat := 0
  phase : CmdPhase := .fresh
  failover : Bool := false
  discard : Bool := false
  abort : Bool := false
  progress : Nat := 0
  buffer : List Byte := []
  waitingFor : List Nat := []
  mramBad : Bool := false
  startedAt : Nat := 0
  deriving DecidableEq, Repr

/-- A firmware slot (R123, R126): state 0 empty, 1 staged, 2 verified, 3 active. Slots are keyed 2 × die + slot, with die 0 for
E0 and 1 for E8, slot 0 for A and 1 for B. -/
structure FwSlot where
  state : Nat := 0
  valid : Bool := true
  image : List Byte := []
  deriving DecidableEq, Repr

/-- A repair-map copy in MRAM (R79): the 32 bytes of its header as they were written, and its entries. -/
structure MapCopy where
  header : List Byte := []
  entries : List (BitVec 64) := []
  deriving DecidableEq, Repr

/-- A journal record (R407). -/
structure JRec where
  index : Nat
  postmark : BitVec 64
  code : Nat
  cls : Nat
  plane : Nat
  hostText : Bool
  byE8 : Bool
  source : Postcode
  payload : List Byte
  deriving DecidableEq, Repr

/-- The journal (R405, R406): records oldest first, the number not yet written, the sequence of the last page
write. `gap` marks a loss of unwritten records with the power. -/
structure Journal where
  next : Nat := 0
  recs : List JRec := []
  unwritten : Nat := 0
  pageRecs : Nat := 0
  sequence : Nat := 0
  gap : Bool := false
  deriving DecidableEq, Repr

/-- A boot-selector copy in MRAM (R127): the slot named active, 0 A or 1 B, the sequence number, and the CRC as it was written.
Copies are keyed 2 × die + copy, as repair maps are. -/
structure BootSel where
  slot : Nat := 0
  sequence : Nat := 0
  crc : Nat := 0
  deriving DecidableEq, Repr

/-- The CRC of a selector's slot and sequence number. -/
def BootSel.check (b : BootSel) : Nat := crc32 (leBytes 1 b.slot ++ leBytes 4 b.sequence)
def BootSel.valid (b : BootSel) : Bool := b.crc == b.check

structure Post where
  onE8 : Bool := false
  standby : Bool := false
  e0Fenced : Bool := false
  restartTried : Bool := false
  heartbeats : Nat := 0
  lbs : Tab Letterbox := []
  nextOrder : Nat := 0
  fw : Tab FwSlot := []
  boot : Tab BootSel := []
  running : Tab (Nat × List Byte) := []
  agents : Tab (List Byte) := []
  floor : Nat := 0
  maps : Tab MapCopy := []
  entries : List (BitVec 64) := []
  applied : List (BitVec 64) := []
  journal : Journal := {}
  limited : List (Nat × Nat × Nat) := []
  /-- Records of an edge die's ports that wait for the end of its AGENT_RELOAD (R399). -/
  deferred : List (Nat × JRec) := []
  deriving DecidableEq, Repr

/-! ### Rings (chapter 7) -/

/-- A cached leaf translation: page base and size, target and rights (R166). An ATS result is kept under its context
ID plus 2^20 (R170). -/
structure Leaf where
  ctx : Nat
  va : Nat
  size : Nat
  target : Target
  r : Bool
  w : Bool
  a : Bool
  deriving DecidableEq, Repr

/-- A fetched descriptor. In mode 2 the ring engine translates its addresses (R171): the leaves found (`leaves`), the bytes of its
walked ranges done (`done`), whether a walk is awaited, the status of a walk that failed, and whether an invalidation has since made it
translate again at its start (R180). -/
structure Fetched where
  count : Nat
  bytes : List Byte
  leaves : List Leaf := []
  done : Nat := 0
  walk : Bool := false
  fail : Option Nat := none
  stale : Bool := false
  deriving DecidableEq, Repr

/-- A write packet of a descriptor: its place, the offset of its first unit, the bytes of the transfer before it, and its run once it is
injected (R158, R191, R258). -/
structure SentAt where
  pc : Postcode
  off : Nat
  pos : Nat
  run : Option Nat := none
  deriving DecidableEq, Repr

/-- A descriptor started and not yet settled (R152), with what it still waits for (R153): `issued` bytes whose read
or page has been taken up, `readsOut` reads outstanding, `localOut` packets to this module not yet delivered, the
last packet to each destination die while more may follow (`lastOf`), registered packets held (R155, R297), the
destinations whose receipt is awaited, the write packets sent, the leaves that a mode-2 descriptor was dispatched with (R171) and
whether an invalidation has taken some of them from it while it was paused, the bytes of data units not yet whole on their way to a store, by
their position in the transfer and with their poison (R197), an outstanding page request, and whether a walk or a relay is awaited. A COPY whose engine is not chosen yet has engine 0xFFFF_FFFF. -/
structure Started where
  count : Nat
  bytes : List Byte
  engine : Postcode := 0
  acted : Bool := false
  status : Option Nat := none
  bytesDone : Nat := 0
  result : Nat := 0
  issued : Nat := 0
  readsOut : Nat := 0
  localOut : Nat := 0
  lastOf : List Pkt := []
  held : List Pkt := []
  receipts : List Postcode := []
  sentAt : List SentAt := []
  leaves : List Leaf := []
  rewalk : Bool := false
  units : Tab (Byte × Bool) := []
  page : Option Nat := none
  walk : Bool := false
  poisoned : Bool := false
  relay : Option Nat := none
  launch : Option Nat := none
  deriving DecidableEq, Repr

/-- The run a ring is in toward a destination die (R258): run number, packets sent in it, and the destinations
whose registered packet awaits its receipt (R297). -/
structure RunTo where
  dest : Nat
  run : Nat := 0
  sent : Nat := 0
  awaiting : Bool := false
  lost : Bool := false
  deriving DecidableEq, Repr

/-- The states of R134. -/
inductive RingState where
  | free | allocated | stopped | running | held | cqFull | error
  deriving DecidableEq, Repr

/-- A ring. `owner` is 64 × port + function; `awaitDoorbell` marks a ring that Bus Master Enable or D3hot stopped and that
resumes at its next doorbell, `owed` counts the ended descriptors whose completion entries go before the next fetch (R101), and `ran` marks
a ring started since it was configured, which R201 takes for no report. -/
structure Ring where
  state : RingState := .free
  owner : Nat := 0
  slot : Nat := 0
  vector : Nat := 0xFFFF
  physical : Bool := false
  mode : Nat := 0
  key : Nat := 0
  ctx : Nat := 0
  entries : Nat := 0
  cqEntries : Nat := 0
  base : Nat := 0
  cqBase : Nat := 0
  tail : Nat := 0
  head : Nat := 0
  cqWritten : Nat := 0
  cqConsumed : Nat := 0
  reason : Nat := 0
  status : Nat := 0
  fetching : Bool := false
  fetched : List Fetched := []
  started : List Started := []
  runs : List RunTo := []
  modCount : Nat := 1
  modTime : Nat := 0
  unsignalled : Nat := 0
  timerOn : Bool := false
  awaitDoorbell : Bool := false
  owed : Nat := 0
  stopLb : Option Nat := none
  lost : Bool := false
  ran : Bool := false
  deriving DecidableEq, Repr

/-! ### Translation (chapter 8) -/

/-- A registered context (R163). -/
structure Ctx where
  owner : Nat := 0
  root : Nat := 0
  deriving DecidableEq, Repr

/-- A pin-store entry (R172): a counted PIN_RANGE pin, or one programmed for a pigeonhole. An entry with no leaf
stays counted and translates nothing (R180). -/
structure Pin where
  ctx : Nat
  va : Nat
  size : Nat
  count : Nat
  programmed : Option Nat
  leaf : Option Leaf
  deriving DecidableEq, Repr

/-- A line of the table mirror (R175), with the context, the level and the first virtual address it was read for. -/
structure Line where
  ctx : Nat
  addr : Nat
  level : Nat
  va : Nat
  entries : List Nat
  deriving DecidableEq, Repr

/-- Who waits for a walk. -/
inductive WalkFor where
  | copy (ring count : Nat) (va : Nat) (write prefetch : Bool)
  | ahead (ring count va : Nat)
  | fetch (ring : Nat)
  | settle (ring : Nat)
  | pin (lb : Nat)
  | refresh (inv va : Nat)
  | args (launch : Nat)
  deriving DecidableEq, Repr

/-- A walk in a translation unit (R175, R176): the level it is at, the table it reads, whether it awaits a host
read, and whether it has re-read an invalid mirror line. -/
structure Walk where
  ctx : Nat
  va : Nat
  level : Nat
  table : Nat
  waiting : Bool := false
  reread : Bool := false
  discard : Bool := false
  ats : Bool := false
  requesters : List WalkFor := []
  lines : List Line := []
  deriving DecidableEq, Repr

/-- Who waits for an invalidation: a letterbox command, another module's postmaster, or a host port's function. -/
inductive InvFor where
  | command (lb : Nat)
  | remote (source : Postcode) (ctx : Nat)
  | ats (fn : Nat)
  deriving DecidableEq, Repr

/-- An invalidation or table synchronization in progress (R98, R180, R181): the reads it waits for, host reads as
port × 2^14 + tag and reads on the fabric as 2^20 + tag, the pins still to be walked again, and the descriptors, by ring and count, that
still issue requests under a dropped translation. -/
structure InvWait where
  who : InvFor
  reads : List Nat
  pins : List Nat
  descs : List (Nat × Nat) := []
  deriving DecidableEq, Repr

/-- A translation unit, keyed by its die (R169). `dtc` is an edge die's device translation cache for ATS results, which a frond's unit
keeps in its TLB (R170, Limits). -/
structure XUnit where
  tlb : List Leaf := []
  dtc : List Leaf := []
  mirror : List Line := []
  walks : Tab Walk := []
  nextWalk : Nat := 0
  overflow : Nat := 0
  deriving DecidableEq, Repr

/-- A hot-page report entry not yet written (R201): the 2 MiB range, its 64-byte units, the windows skipped before its window, and the
window's number. -/
structure HotDue where
  range : Nat
  units : Nat
  skipped : Nat
  window : Nat
  deriving DecidableEq, Repr

/-- Hot-page counting of one function and context (R200, R201). -/
structure HotPage where
  owner : Nat
  ctx : Nat
  ring : Nat
  windowMs : Nat
  threshold : Nat
  windowNo : Nat := 0
  skipped : Nat := 0
  reports : Nat := 0
  counts : Tab Nat := []
  perUnit : Tab Nat := []
  due : List HotDue := []
  deriving DecidableEq, Repr

structure Xlat where
  ctxs : Tab Ctx := []
  units : Tab XUnit := []
  pins : List Pin := []
  hot : List HotPage := []
  waits : Tab InvWait := []
  nextWait : Nat := 0
  deriving DecidableEq, Repr

/-! ### Protection (chapter 9) -/

/-- A key slot (R187, R193, R195): the current key, its phase, and the previous key while it is accepted. -/
structure KeySlot where
  kind : Nat := 0
  key : List Byte
  phase : Bool := false
  previous : Option (List Byte) := none
  switchedRecently : Bool := false
  deriving DecidableEq, Repr

/-! ### Ports (chapters 10, 11) -/

/-- Port states of R209. -/
inductive PortState where
  | disabled | detect | pattern | lock | exchange | active | backoff | diagnostic | keepalive
  deriving DecidableEq, Repr

/-- What a lane has received and no codeword has taken: a symbol of 10 bits, or an alignment marker (R229, R230). -/
inductive RxItem where
  | symbol (v : Nat)
  | marker (count offset : Nat)
  deriving DecidableEq, Repr

/-- A lane of a port: receive state, equalizers, training exchange and diagnostics (R208–R228). `kept` holds the full-rate transmit taps while
the port is in Keep-alive (R222); `prbs` is the lane's free-running generator (R210); `ask` and `askSeq` are the tap request it sends to the
partner (R212, R213); `prior` and `last` are the last two 64-bit words received in Diagnostic, before any slip (R228). -/
structure Lane where
  los : Bool := true
  bitLock : Bool := false
  symbolLock : Bool := false
  inverted : Bool := false
  partnerLane : Nat := 0
  beacons : Nat := 0
  readySeen : Nat := 0
  seenByPartner : Bool := false
  trained : Bool := false
  trainedFrames : Nat := 0
  markers : Nat := 0
  taps : List Int := [0, 0, 0, 128, 0]
  tapStatus : List Nat := [0, 0, 0, 0, 0]
  sequence : Nat := 0
  ctle : Nat := 0
  gain : Int := 0
  gen : Nat := 0
  genInvert : Bool := false
  check : Nat := 0
  checkInvert : Bool := false
  errors : Nat := 0
  bitsSeen : Nat := 0
  checkLock : Bool := false
  pattern : Nat := 0
  slip : Nat := 0
  loopback : Nat := 0
  excluded : Bool := false
  ffe : List Int := []
  dfe : Int := 0
  kept : List Int := [0, 0, 0, 128, 0]
  prbs : Nat := 0
  ask : Nat := 0
  askSeq : Nat := 0
  genReg : Nat := 0
  checkReg : Nat := 0
  checkRun : Nat := 0
  prior : Option Nat := none
  last : Option Nat := none
  fifo : List RxItem := []
  deriving DecidableEq, Repr

/-- What a partner's CAP says (R242). -/
structure CapInfo where
  seen : Nat := 0
  status : Nat := 0
  reason : Nat := 0
  role : Nat := 0
  physical : Nat := 0
  logical : Nat := 0
  postcode : Postcode := 0xFFFFFFFF
  identity : Nat := 0
  features : Nat := 0
  credits : Nat := 0
  deriving DecidableEq, Repr

/-- A payload flit held for replay (R236). -/
structure TxFlit where
  seq : Nat
  stream : Nat
  sop : Bool
  eop : Bool
  body : List Byte
  packet : Nat
  deriving DecidableEq, Repr

/-- A packet being sent on a stream, flit by flit (R232); `ctx` is the context of a data packet that this module
injected. -/
structure TxPkt where
  bodies : List (List Byte)
  started : Bool := false
  flits : Nat := 0
  packet : Nat := 0
  ctx : Option Nat := none
  preHold : Bool := false
  deriving DecidableEq, Repr

/-- A packet being received on a stream (R234). `dead` marks one already dead-lettered at its SOP flit (R265). -/
structure RxPkt where
  bytes : List Byte
  flits : Nat
  dead : Bool
  deriving DecidableEq, Repr

/-- A narrowing in progress at the detecting end (R247). -/
structure Narrowing where
  oldMask : Nat
  newMask : Nat
  deriving DecidableEq, Repr

/-- A Gulan port (R209–R228, R229–R252). Masks are over the four physical lanes; in Detect `mask` holds the lanes
kept. `idle` marks the fallback idle of R218 and `inBackoff` the slow mode of R219; `controls` queues link control
flits by opcode; `widthLb` is the letterbox of a PORT_SET_WIDTH that has not completed; `token` counts the CAPs sent since
Exchange began, the number that the next one carries (R243); `rateOffer` is the rate limit since the last entry to Detect (R224); `held` marks a
port that firmware holds not ready (R242); `narrowGot` is the last NARROW acted on (R241); `rxBits` are descrambled bits of a flit that is not
complete, `rxBad` that they come from an uncorrectable codeword, and `rxOffset` the flit offset of a marker just passed (R229, R230); `returning` marks the 15 µs
after a return from Keep-alive (R222); `missing` is the mask of lanes that the last training left out (R400); `txBits` counts message bits since the last marker, `txMessage`
holds those of the codeword being filled, first sent in bit 0, and `txMask` is the lane mask sent with since that marker (R229, R247). -/
structure Port where
  state : PortState := .disabled
  lanes : Tab Lane := []
  rate : Nat := 0
  rateLimit : Nat := 3
  rateOffer : Nat := 3
  widthLimit : Nat := 4
  mask : Nat := 0
  reason : Nat := 0
  failures : Nat := 0
  attempt : Nat := 0
  idle : Bool := false
  inBackoff : Bool := false
  ready : Bool := false
  partnerClass : Nat := 0
  partnerRate : Nat := 0
  skewBad : Bool := false
  missing : Nat := 0
  cap : Option CapInfo := none
  recorded : Option CapInfo := none
  token : Nat := 0
  partnerToken : Nat := 0
  samples : Nat := 0
  minRtt : Nat := 0
  startSent : Bool := false
  startGot : Bool := false
  next : Nat := 0
  acked : Nat := 0
  expected : Nat := 0
  nak : Bool := false
  replay : List TxFlit := []
  resend : List TxFlit := []
  lastRewindAck : Option Nat := none
  rewinds : Nat := 0
  tx : Tab (List TxPkt) := []
  rx : Tab RxPkt := []
  controls : List Nat := []
  credits : Nat := 0
  owedCredits : Nat := 0
  narrowing : Option Narrowing := none
  rxMask : Nat := 0
  widthLb : Option Nat := none
  kaSent : Bool := false
  kaAckOwed : Bool := false
  exitSent : Bool := false
  returning : Bool := false
  controlOnly : Bool := false
  up : Bool := false
  counters : Tab Nat := []
  txScramble : BitVec 58 := 0
  txBits : Nat := 0
  txMessage : Nat := 0
  txMask : Nat := 0
  markerCount : Nat := 0
  held : Bool := false
  narrowGot : Option Nat := none
  fecBad : Bool := false
  rxScramble : BitVec 58 := 0
  rxBits : List Bool := []
  rxBad : Bool := false
  rxOffset : Option Nat := none
  deriving DecidableEq, Repr

/-! ### Fabric (chapters 12, 13) -/

/-- An assignment computed by the root, or received (R369). -/
structure Assign where
  identity : Nat
  number : Nat
  rack : Nat
  position : Nat
  mode : Nat
  x : Nat := 0
  y : Nat := 0
  z : Nat := 0
  dimX : Nat := 0
  dimY : Nat := 0
  dimZ : Nat := 0
  seconds : Option Nat := none
  deriving DecidableEq, Repr

/-- A route table bank, by kind (R271): sparse tables of 64-bit entries. `base` is the assignment whose default module entries
(R374) stand where no entry was written since, and `down` the modules among those that are marked unreachable (R288). -/
structure Bank where
  base : Option Assign := none
  down : List Nat := []
  modules : Tab Nat := []
  dies : Tab Nat := []
  setPorts : Tab Nat := []
  setReach : Tab Nat := []
  axis : Tab Nat := []
  deriving DecidableEq, Repr

/-- A dead-letter entry (R266). -/
structure DeadLetter where
  head : List Byte
  reason : Nat
  ingress : Nat
  stream : Nat
  sequence : Nat
  postmark : BitVec 64
  bad : Bool := false
  deriving DecidableEq, Repr

/-- A tally (R34). `bad` marks an uncorrectable tally word. -/
structure Tally where
  bytes : Nat := 0
  packets : Nat := 0
  bad : Bool := false
  deriving DecidableEq, Repr

/-- A run count of a die (R296): source module, ring, run, packets settled. Listed least recently updated first. -/
structure RunCount where
  module : Nat
  ring : Nat
  run : Nat
  count : Nat
  deriving DecidableEq, Repr

/-- A merge context of a select engine (R359–R361): the opening ring and descriptor, and the list so far. -/
structure MergeCtx where
  group : Nat
  ring : Nat
  count : Nat
  sources : Nat
  k : Nat
  format : Nat
  flags : Nat
  got : Nat := 0
  consumed : Nat := 0
  list : List (Nat × Nat) := []
  deriving DecidableEq, Repr

/-- A failed wire whose group's spare stands in for it (R21, R80): the link's number on its die, the group, the wire and the
direction. -/
structure BadWire where
  link : Nat
  group : Nat
  wire : Nat
  inbound : Bool
  deriving DecidableEq, Repr

/-- What one die holds: its dead letters, counters, tallies, run counts, holds, locks, crypto copies, select
engines, spectral slots (R188, R193, R266, R289, R296, R319, R359, R390, R418). -/
structure Die where
  dead : List DeadLetter := []
  deadSeq : Nat := 0
  deadCounts : Tab Nat := []
  fabric : Tab Nat := []
  perRouter : Tab Nat := []
  ecc : Tab Nat := []
  counts : Tab Nat := []
  select : Tab Nat := []
  drain : Bool := false
  /-- Escape packets that have waited 1 µs for an output here (R280), by packet. -/
  waited : List Nat := []
  /-- Stall and busy time in fifths of a nanosecond (R289): indices of group 0x0300, and 256 + an output of group 0x0400. -/
  waits : Tab Nat := []
  tallies : Tab Tally := []
  runs : List RunCount := []
  holds : List Flight := []
  locks : Tab Nat := []
  badLocks : List Nat := []
  badKeys : List Nat := []
  gcm : Tab Nat := []
  merges : Tab (List MergeCtx) := []
  parks : Tab (List Flight) := []
  slots : Tab (List Byte × List Nat) := []
  badSlots : List Nat := []
  fenced : Bool := false
  meshOff : Bool := false
  failed : Bool := false
  retired : List Nat := []
  lostTiles : List Nat := []
  tileFaults : Tab Nat := []
  wordFinds : Tab Nat := []
  corrections : Tab Nat := []
  recentCorrections : Nat := 0
  scrubbed : Nat := 0
  badWires : List BadWire := []
  linksOut : List Nat := []
  contactsBad : Bool := false
  deriving DecidableEq, Repr

/-- What a read request or an atomic in flight is for, found by its tag (R257). -/
inductive TagFor where
  | copy (ring count pos len : Nat) (src dst : Target)
  | atomic (ring count : Nat) (dest : Postcode)
  | fetch (ring first n : Nat)
  | load (ph record pos len : Nat)
  | stream (launch record pos len : Nat)
  | hop (hop pos len : Nat)
  | args (launch : Nat)
  | operand (launch : Nat)
  | image (lb pos len : Nat)
  deriving DecidableEq, Repr

/-- A commit in progress (R287): the letterbox, and the route set or 0xFF. -/
structure Commit where
  lb : Option Nat
  set_ : Nat
  deriving DecidableEq, Repr

/-- A fan-out in progress at its issuing engine (R285), keyed by its relay ID: place 1, the places after it, and the
bytes of the chunks already handed on. -/
structure Relay where
  ring : Nat
  count : Nat
  place : Place
  left : Nat
  mode : Nat
  direction : Nat
  sent : Nat := 0
  total : Nat
  deriving DecidableEq, Repr

/-- A chunk that a copy engine of this module relays from the previous place to its own (R285). -/
structure RelayHop where
  issuer : Postcode
  relayId : Nat
  left : Nat
  mode : Nat
  direction : Nat
  offset : Nat
  chunk : Nat
  len : Nat
  total : Nat
  previous : Postcode
  place : Postcode
  tally : Nat
  frank : Frank
  engine : Postcode
  issued : Nat := 0
  readsOut : Nat := 0
  localOut : Nat := 0
  deriving DecidableEq, Repr

/-- `relayed` counts, by issuing engine and relay ID, the bytes that have reached a line's last place on this module. The
fabric: route-table banks, logical ports, route sets, packets, dies, ports and key slots. `control` queues the
control packets ready at each injection point; `injected` holds the frame and number of its last injections (R68).
`badEntries` lists the dies whose next routing decision meets a route-table parity error. -/
structure Fabric where
  active : Bank := {}
  staged : Bank := {}
  logical : Tab Nat := []
  routeSets : Tab (List Nat) := []
  deflectLimit : Nat := 24
  flights : Tab Flight := []
  nextPid : Nat := 0
  tags : Tab TagFor := []
  nextTag : Nat := 0
  commit : Option Commit := none
  dies : Tab Die := []
  ports : Tab Port := []
  keys : Tab KeySlot := []
  relays : Tab Relay := []
  nextRelay : Nat := 0
  hops : Tab RelayHop := []
  nextHop : Nat := 0
  relayed : List (Nat × Nat × Nat) := []
  control : Tab (List Pkt) := []
  injected : Tab (Nat × Nat) := []
  badEntries : List Nat := []
  deriving DecidableEq, Repr

/-! ### Memory (chapters 2, 9, 19) -/

/-- The condition of an ECC word that is not good (R384). -/
inductive WordMark where
  | correctable | uncorrectable | poison
  deriving DecidableEq, Repr

/-- The module's byte memories in one address space (see `memKey` in Ops), the marks of their words that are not
good, keyed by word, and the words that hold ciphertext. -/
structure Memory where
  cells : List Host.Cell := []
  marks : Tab WordMark := []
  deriving DecidableEq, Repr

/-! ### Images, pigeonholes, launches, steward cores (chapters 15, 16) -/

structure LogicalFrond where
  first : Nat
  tiles : Nat
  rows : Nat
  cols : Nat
  granules : Nat
  adjacency : Nat
  deriving DecidableEq, Repr

structure Region where
  space : Nat
  rights : Nat
  frond : Nat
  granules : Nat
  va : Nat
  deriving DecidableEq, Repr

structure Entry where
  code : Nat
  first : Nat
  count : Nat
  maxArgs : Nat
  limitMs : Nat
  deriving DecidableEq, Repr

structure WeightRec where
  source : Nat
  length : Nat
  region : Nat
  stream : Bool
  tile : Nat
  offset : Nat
  deriving DecidableEq, Repr

/-- A loaded placement image (R324–R329). -/
structure Image where
  owner : Nat
  ctx : Nat
  revision : Nat
  length : Nat
  tiles : Nat
  key : Nat
  stewards : Nat
  declared : Nat
  scratch : Nat
  fronds : List LogicalFrond
  regions : List Region
  entries : List Entry
  weights : List WeightRec
  spectral : List (List Byte)
  tables : List Byte
  steward : List Byte
  deriving DecidableEq, Repr

/-- Pigeonhole states (R335). -/
inductive PhState where
  | loading | resident | suspended | evicting | lost
  deriving DecidableEq, Repr

/-- Where a logical frond is bound: frond, north-west tile of its rectangle, first of its granules (R340). -/
structure Bound where
  frond : Nat
  origin : Nat
  granules : List Nat
  deriving DecidableEq, Repr

/-- A weight record being loaded (R341): bytes requested, retries made, and the tags awaiting an answer. -/
structure Loading where
  record : Nat
  issued : Nat := 0
  outstanding : Nat := 0
  retried : Bool := false
  reread : Bool := false
  deriving DecidableEq, Repr

/-- A pigeonhole (R335–R349). `residency` is the sum of its fronds' residency counters (R342). -/
structure Ph where
  state : PhState := .loading
  image : Nat
  stamp : Bool := false
  overflow : Bool := false
  source : Place
  bound : List Bound
  tileOf : Tab Nat := []
  claims : List Nat := []
  order : Nat := 0
  loads : List Loading := []
  residency : Nat := 0
  target : Nat := 0
  stewards : List Nat := []
  lb : Option Nat := none
  cancel : Option Nat := none
  deriving DecidableEq, Repr

/-- A read of host memory that waits for a tag (R90, R94). -/
structure HostPiece where
  addr : Nat
  len : Nat
  translated : Bool
  pasid : Option Nat
  deriving DecidableEq, Repr

/-- A launch: queued at its granting controller, or running (R330–R333). Ring launches name their descriptor. `hostLeft` holds the reads
of operands in host memory that are still to be asked for. In overflow mode `streams` names the records not yet streamed, `streamAt` the
position each has reached, `reading` those whose read holds a channel, and `streamOut` the pieces not yet delivered (R345). -/
structure Launch where
  ph : Nat
  entry : Nat
  argLen : Nat
  args : List Byte
  ring : Nat
  count : Nat
  running : Bool := false
  ended : Bool := false
  argsReady : Bool := false
  localOut : Nat := 0
  readsOut : Nat := 0
  hostLeft : List HostPiece := []
  streams : List Nat := []
  streamAt : Tab Nat := []
  reading : List Nat := []
  streamOut : Nat := 0
  deriving DecidableEq, Repr

/-- A steward core (R322, R323). Its private queue is the ring 1,024 + core; `array` is the L2 offset of the completion array
that the core names. `halted` marks a core stopped by an exception (R322), and `parked` one that the ladder holds with its state kept
(R45, R49). -/
structure Steward where
  ph : Option Nat := none
  running : Bool := false
  halted : Bool := false
  parked : Bool := false
  array : Nat := 0
  irqVector : Nat := 0
  irqPayload : Nat := 0
  irqPending : Bool := false
  deriving DecidableEq, Repr

structure Residency where
  images : Tab Image := []
  nextHandle : Nat := 1
  phs : Tab Ph := []
  nextOrder : Nat := 0
  launches : Tab Launch := []
  nextLaunch : Nat := 0
  stewards : Tab Steward := []
  stops : List (Nat × Nat × List Nat × Nat) := []
  deriving DecidableEq, Repr

/-! ### Discovery (chapter 18) -/

/-- The root candidate of R370. -/
structure Root where
  epoch : Nat := 0
  priority : Nat := 1
  identity : Nat := 0
  deriving DecidableEq, Repr

/-- What a HELLO told about the neighbour behind a port (R369). -/
structure Neighbour where
  identity : Nat
  root : Root
  distance : Nat
  role : Nat
  port : Nat
  attachment : Nat
  member : Nat
  number : Nat
  capacity : Nat
  child : Bool
  complete : Bool := false
  deriving DecidableEq, Repr

/-- A REPORT's link (R369). -/
structure Report where
  reporter : Nat
  neighbour : Nat
  reporterPort : Nat
  neighbourPort : Nat
  role : Nat
  attachment : Nat
  neighbourAttachment : Nat
  member : Nat
  capacity : Nat
  deriving DecidableEq, Repr

/-- Steps of an epoch (R371). -/
inductive DiscStep where
  | idle | electing | reporting | computing | assigning | committing
  deriving DecidableEq, Repr

structure Discovery where
  number : Nat := 0
  assigned : Bool := false
  step : DiscStep := .idle
  root : Root := {}
  highest : Nat := 0
  distance : Nat := 0
  parent : Nat := 0xFF
  neighbours : Tab Neighbour := []
  via : List (Nat × Nat) := []
  reports : List Report := []
  plan : List Assign := []
  acks : List Nat := []
  mine : Option Assign := none
  committed : Option Assign := none
  commitAt : Nat := 0
  held : Bool := false
  mode : Nat := 1
  lb : Option Nat := none
  /-- Ports that reached Active too late for the present epoch (R373). -/
  late : List Nat := []
  deriving DecidableEq, Repr

/-! ### Management plane (chapter 20) -/

structure Spdm where
  negotiated : Nat := 0
  resync : Bool := false
  deriving DecidableEq, Repr

structure Tap where
  instruction : Nat := 0x01
  boundary : BitVec 64 := 0
  deriving DecidableEq, Repr

structure Mgmt where
  i3c : Bool := false
  dynamic : Nat := 0
  eid : Nat := 0
  tid : Nat := 0
  receiver : Option Nat := none
  events : List (List Byte) := []
  counts : Tab Nat := []
  mirror : Tab (Int × Nat) := []
  stateLast : Tab Nat := []
  update : Nat := 0
  updateLength : Nat := 0
  updateData : List Byte := []
  updateResult : Nat := 0
  effPower : Nat := 0
  effReset : Nat := 0
  effLatch : Nat := 0
  spdm : Tab Spdm := []
  taps : Tab Tap := []
  deriving DecidableEq, Repr

/-! ### The whole module -/

/-- The KW1. `pending` is the queue of commands; `out` lists what has left the module, oldest first; `free` is the
model's own counter of free values. -/
structure State where
  pending : List Instr := []
  power : Power := {}
  time : Timebase := {}
  host : HostSide := {}
  post : Post := {}
  rings : Tab Ring := []
  xlat : Xlat := {}
  fabric : Fabric := {}
  mem : Memory := {}
  res : Residency := {}
  disc : Discovery := {}
  mgmt : Mgmt := {}
  out : List Out := []
  free : Nat := 0
  deriving DecidableEq, Repr

/-- The module before power reaches it (step A1 of R74): every volatile element at its value after reset, and firmware slot A
of E0 and of E8 holding the image the module was built with, with boot selectors that name it, and empty repair maps in both copies of
both (assumption 3). -/
def State.reset : State :=
  { post := {
      fw := [(0, { state := 3, image := Config.factoryFirmware }), (2, { state := 3, image := Config.factoryFirmware })]
      boot := ([0, 1, 2, 3] : List Nat).map fun k => (k, { sequence := k % 2, crc := ({ sequence := k % 2 } : BootSel).check })
      maps := [(0, { header := mapHeader 0 [] }), (1, { header := mapHeader 1 [] }), (2, { header := mapHeader 0 [] }),
        (3, { header := mapHeader 1 [] })] } }

end Sys2Proof.Machine
end

