-- ==== Sys2Proof/Machine/Ops.lean ====
section
/-! DEFINITION. The named operations every family shares: access to the parts of the state, what leaves the
module, the journal and PLDM events (R405–R408, R417), function and module events (R429, R430, R434), MSI-X
messages (R96), AER (R108), and the free values. -/

namespace Sys2Proof.Machine

/-- The outcome of a meaning that completes. -/
abbrev Res := Host.Outcome State Fault Refusal

/-! ### Parts of the state -/

def onPower (f : Power → Power) (s : State) : State := { s with power := f s.power }
def onTime (f : Timebase → Timebase) (s : State) : State := { s with time := f s.time }
def onHost (f : HostSide → HostSide) (s : State) : State := { s with host := f s.host }
def onPost (f : Post → Post) (s : State) : State := { s with post := f s.post }
def onXlat (f : Xlat → Xlat) (s : State) : State := { s with xlat := f s.xlat }
def onFabric (f : Fabric → Fabric) (s : State) : State := { s with fabric := f s.fabric }
def onMem (f : Memory → Memory) (s : State) : State := { s with mem := f s.mem }
def onRes (f : Residency → Residency) (s : State) : State := { s with res := f s.res }
def onDisc (f : Discovery → Discovery) (s : State) : State := { s with disc := f s.disc }
def onMgmt (f : Mgmt → Mgmt) (s : State) : State := { s with mgmt := f s.mgmt }

def ringOf (s : State) (r : Nat) : Ring := tget {} s.rings r
def onRing (r : Nat) (f : Ring → Ring) (s : State) : State := { s with rings := tmod {} s.rings r f }
def fnOf (s : State) (k : Nat) : Fn := tget {} s.host.fns k
def onFn (k : Nat) (f : Fn → Fn) (s : State) : State := onHost (fun h => { h with fns := tmod {} h.fns k f }) s
def hostPortOf (s : State) (p : Nat) : HostPort := tget {} s.host.ports p
def onHostPort (p : Nat) (f : HostPort → HostPort) (s : State) : State :=
  onHost (fun h => { h with ports := tmod {} h.ports p f }) s
def lbOf (s : State) (l : Nat) : Letterbox := tget {} s.post.lbs l
def onLb (l : Nat) (f : Letterbox → Letterbox) (s : State) : State :=
  onPost (fun p => { p with lbs := tmod {} p.lbs l f }) s
def dieOf (s : State) (d : Nat) : Die := tget {} s.fabric.dies d
def onDie (d : Nat) (f : Die → Die) (s : State) : State :=
  onFabric (fun x => { x with dies := tmod {} x.dies d f }) s
def portOf (s : State) (p : Nat) : Port := tget {} s.fabric.ports p
def onPort (p : Nat) (f : Port → Port) (s : State) : State :=
  onFabric (fun x => { x with ports := tmod {} x.ports p f }) s
def laneOf (p : Port) (l : Nat) : Lane := tget {} p.lanes l
def onLane (p l : Nat) (f : Lane → Lane) (s : State) : State :=
  onPort p (fun x => { x with lanes := tmod {} x.lanes l f }) s
def frondPowerOf (s : State) (f : Nat) : FrondPower := tget {} s.power.fronds f
def onFrondPower (d : Nat) (f : FrondPower → FrondPower) (s : State) : State :=
  onPower (fun p => { p with fronds := tmod {} p.fronds d f }) s
def unitOf (s : State) (d : Nat) : XUnit := tget {} s.xlat.units d
def onUnit (d : Nat) (f : XUnit → XUnit) (s : State) : State :=
  onXlat (fun x => { x with units := tmod {} x.units d f }) s
def phOf (s : State) (h : Nat) : Option Ph := tfind s.res.phs h
def onPh (h : Nat) (f : Ph → Ph) (s : State) : State :=
  onRes (fun r => { r with phs := r.phs.map fun e => if e.1 = h then (h, f e.2) else e }) s
def launchOf (s : State) (l : Nat) : Option Launch := tfind s.res.launches l
def onLaunch (l : Nat) (f : Launch → Launch) (s : State) : State :=
  onRes (fun r => { r with launches := r.launches.map fun e => if e.1 = l then (l, f e.2) else e }) s
def stewardOf (s : State) (c : Nat) : Steward := tget {} s.res.stewards c
def onSteward (c : Nat) (f : Steward → Steward) (s : State) : State :=
  onRes (fun r => { r with stewards := tmod {} r.stewards c f }) s

/-- Run a list of updates in order. -/
def updates {α : Type} (l : List α) (f : α → State → State) (s : State) : State :=
  l.foldl (fun s a => f a s) s

/-- Update only when a condition holds. -/
def when (b : Bool) (f : State → State) (s : State) : State := if b then f s else s

/-- Something leaves the module. -/
def emit (o : Out) (s : State) : State := { s with out := s.out ++ [o] }

/-- A fresh free value, below `bound`, and the state with the counter advanced. -/
def freshNat (bound : Nat) (s : State) : Nat × State :=
  (Config.freeNat s.free % bound, { s with free := s.free + 1 })

/-! ### Who and where -/

/-- The module's number (R35). -/
def moduleNumber (s : State) : Nat := s.disc.number

/-- The edge die that holds the postmaster role: 0 or 8 (R130). -/
def postEdge (s : State) : Nat := if s.post.onE8 then 8 else 0
def postPc (s : State) : Postcode := mgmtPc (moduleNumber s) (postEdge s)

/-- The present postmark (R64). -/
def postmark (t : Timebase) : BitVec 64 :=
  BitVec.ofNat 64 (t.rackTime % 2 ^ 62 + (if t.freeRunning then 2 ^ 62 else 0)
    + (if t.steppedTicks = 0 then 0 else 2 ^ 63))

/-- Ticks of rack time in the stated time (R61). -/
def ticksUs (us : Nat) : Nat := us * 625 / 4
def ticksPerSecond : Nat := 156250000

/-- The module is in the safe state (R86). -/
def inSafe (s : State) : Bool := s.power.boot == .safe

/-- The management processors run (R74 step A6 on, until a shutdown). -/
def postUp (s : State) : Bool :=
  match s.power.boot with
  | .unpowered | .shutdown => false
  | _ => true

/-- The module serves: step D3 has been reached and a power state above P4 holds. -/
def serving (s : State) : Bool := s.power.boot == .serving

/-- The port of a function key, and its number on that port. -/
def fnPort (k : Nat) : Nat := k / 64
def fnNum (k : Nat) : Nat := k % 64
def isPf0 (k : Nat) : Bool := k % 64 == 0

/-- A function exists and is enabled (R92). -/
def fnEnabled (s : State) (k : Nat) : Bool :=
  if k % 64 = 0 then decide (k < 128)
  else (fnOf s (k / 64 * 64)).vfEnabled && decide (k < 128 ∧ k % 64 ≤ (fnOf s (k / 64 * 64)).numVfs)

/-- MSI-X vectors of a function (R96). -/
def vectorCount (k : Nat) : Nat := if k % 64 = 0 then 2048 else 128

/-- The function issues host requests and messages (R100, R102, R106). -/
def mayIssue (f : Fn) : Bool := f.busMaster && !f.d3 && !f.flr

/-! ### PLDM events (R417) -/

def countMgmt (i : Nat) (s : State) : State := onMgmt (fun m => { m with counts := tcount m.counts i 1 }) s

/-- Raise a PLDM event: to the receiver when one is set, else into the queue of 64, whose oldest is dropped. -/
def pldmRaise (bytes : List Byte) (s : State) : State :=
  match s.mgmt.receiver with
  | some _ => (emit (.pldmEvent bytes) s) |> when s.mgmt.i3c (emit .inBandInterrupt)
  | none =>
    let s := if 64 ≤ s.mgmt.events.length then countMgmt 0 s else s
    (onMgmt (fun m => { m with
      events := (if 64 ≤ m.events.length then m.events.drop 1 else m.events) ++ [bytes] }) s)
      |> when s.mgmt.i3c (emit .inBandInterrupt)

/-! ### The journal (R405–R408) -/

/-- A record's 64 bytes (R407). -/
def recordBytes (r : JRec) : List Byte :=
  leBytes 8 r.postmark.toNat ++ leBytes 2 r.code ++ leBytes 1 r.cls
    ++ leBytes 1 (r.plane + 4 * b2n r.hostText + 8 * b2n r.byE8)
    ++ leBytes 4 r.source.toNat ++ padTo 48 r.payload

/-- Records the journal keeps (R405). -/
def journalDepth : Nat := 57344

/-- Append one record; a page that fills is written at once (R406), unless a shutdown forbids page writes. -/
def appendRecord (mk : Nat → JRec) (j : Journal) (canWrite : Bool) : Journal :=
  let r := mk j.next
  let recs := j.recs ++ [r]
  let j := { j with
    next := j.next + 1
    recs := recs.drop (recs.length - journalDepth)
    unwritten := j.unwritten + 1
    pageRecs := j.pageRecs + 1 }
  if 7 ≤ j.pageRecs ∧ canWrite then { j with unwritten := 0, pageRecs := 0, sequence := (j.sequence + 1) % 2 ^ 32 }
  else j

/-- The record of an event now (R407), and its place in the journal. -/
def newRecord (source : Postcode) (code cls plane : Nat) (fs : List Fld) (s : State) : JRec :=
  { index := s.post.journal.next, postmark := postmark s.time, code := code, cls := cls
    plane := plane, hostText := false, byE8 := s.post.onE8, source := source, payload := padTo 48 (pack fs) }

/-- A record takes the next place of the journal. -/
def putRecord (r : JRec) (s : State) : State :=
  onPost (fun p => { p with journal := appendRecord (fun i => { r with index := i }) p.journal (s.power.boot != .shutdown) }) s

/-- Journal an event: code, class, plane, source and payload fields (R407). `pldm` marks a record that a rule
marks as a PLDM event, which is also raised as an event of OEM class 0xF0 and sets MOD_EVENT[6]. -/
def journalFrom (source : Postcode) (code cls plane : Nat) (pldm : Bool) (fs : List Fld) (s : State) : State :=
  let r := newRecord source code cls plane fs s
  let s := putRecord r s
  if pldm then
    let s := pldmRaise ([0xF0] ++ recordBytes r) s
    onHost (fun h => { h with 
      modEvents := setBit h.modEvents 6 true
      modEventCounts := tset h.modEventCounts 6 ((tget 0 h.modEventCounts 6 + 1) % 2 ^ 32) }) s
  else s

/-- Journal an event of the postmaster. -/
def journal (code cls plane : Nat) (pldm : Bool) (fs : List Fld) (s : State) : State :=
  journalFrom (postPc s) code cls plane pldm fs s

/-- An event of an area that R408 names no code for: event 0xFFF of the area, with the rule's number first. -/
def journalRule (area cls plane : Nat) (pldm : Bool) (rule : Nat) (fs : List Fld) (s : State) : State :=
  journal (area * 4096 + 0xFFF) cls plane pldm (u16 rule :: fs) s

/-- Whether a rate-limited record of a rule and object is due: none was made within `window` ticks. -/
def limitDue (s : State) (rule obj window : Nat) : Bool :=
  match s.post.limited.find? (fun e => e.1 == rule && e.2.1 == obj) with
  | none => true
  | some (_, _, t) => decide (t + window ≤ s.time.rackTime)

def limitMark (rule obj : Nat) (s : State) : State :=
  onPost (fun p => { p with
    limited := (rule, obj, s.time.rackTime) :: p.limited.filter fun e => !(e.1 == rule && e.2.1 == obj) }) s

/-- Journal at most once per `window` ticks for a rule and object. -/
def limited (rule obj window : Nat) (f : State → State) (s : State) : State :=
  if limitDue s rule obj window then f (limitMark rule obj s) else s

/-! ### MSI-X messages and events (R96, R430, R434) -/

/-- Send the message of a vector, or hold it with its pending bit (R96, R432). -/
def msix (k v : Nat) (s : State) : State :=
  let f := fnOf s k
  let e := tget {} f.vectors v
  if vectorCount k ≤ v then s
  else
    let noBm := !mayIssue f
    let masked := bit e.control 0 || f.functionMask
    if noBm || masked || !f.msixEnable then
      onFn k (fun f => { f with
        vectors := tset f.vectors v { e with pending := true }
        intStatus := setBit (setBit f.intStatus 0 (bit f.intStatus 0 || noBm)) 1 (bit f.intStatus 1 || masked)
        withheld := if noBm || masked then (f.withheld + 1) % 2 ^ 32 else f.withheld }) s
    else
      emit (.msix (k / 64) (k % 64) v e.address e.data)
        (onFn k (fun f => { f with sent := (f.sent + 1) % 2 ^ 64 }) s)

/-- Send every pending message that no condition withholds any more (R96). -/
def msixFlush (k : Nat) (s : State) : State :=
  updates ((fnOf s k).vectors.map Prod.fst) (fun v s =>
    let f := fnOf s k
    let e := tget {} f.vectors v
    if e.pending && mayIssue f && !f.functionMask && f.msixEnable && !bit e.control 0 then
      emit (.msix (k / 64) (k % 64) v e.address e.data)
        (onFn k (fun f => { f with
          vectors := tset f.vectors v { e with pending := false }
          sent := (f.sent + 1) % 2 ^ 64 }) s)
    else s) s

/-- Set FN_EVENT[b] of a function (R429, R430). -/
def fnEvent (k b : Nat) (s : State) : State :=
  let s := onFn k (fun f => { f with
    events := setBit f.events b true
    eventCounts := tset f.eventCounts b ((tget 0 f.eventCounts b + 1) % 2 ^ 32) }) s
  let f := fnOf s k
  if f.eventEnable && decide (f.eventVector < vectorCount k) then msix k f.eventVector s else s

/-- Every enabled function of the module. -/
def enabledFns (s : State) : List Nat := (List.range 128).filter (fnEnabled s)

def fnEventAll (b : Nat) (s : State) : State := updates (enabledFns s) (fun k s => fnEvent k b s) s

/-- Set MOD_EVENT[b] (R434). -/
def modEvent (b : Nat) (s : State) : State :=
  onHost (fun h => { h with
    modEvents := setBit h.modEvents b true
    modEventCounts := tset h.modEventCounts b ((tget 0 h.modEventCounts b + 1) % 2 ^ 32) }) s

/-! ### AER (R108) -/

/-- Log an error in a port's AER and journal it: class 0 correctable, 1 non-fatal, 2 advisory non-fatal,
3 fatal; `code` names the row of R108's table. -/
def aer (port cls code : Nat) (s : State) : State :=
  let s := onHostPort port (fun p => match cls with
    | 0 => { p with aerCorrectable := p.aerCorrectable + 1 }
    | 3 => { p with aerFatal := p.aerFatal + 1 }
    | _ => { p with aerNonFatal := p.aerNonFatal + 1 }) s
  emit (.aer port cls code) (journal 0x3001 (if cls = 0 then 0 else 1) 0 false [u8 port, u8 cls, u16 code] s)

/-! ### Counters of a die (R289, R390, R418) -/

def countDie (d i n : Nat) (s : State) : State := onDie d (fun x => { x with counts := tcount x.counts i n }) s
def countEcc (d i n : Nat) (s : State) : State := onDie d (fun x => { x with ecc := tcount x.ecc i n }) s
def countFabric (d i n : Nat) (s : State) : State := onDie d (fun x => { x with fabric := tcount x.fabric i n }) s
def countSelect (d i n : Nat) (s : State) : State := onDie d (fun x => { x with select := tcount x.select i n }) s
def countPort (p i n : Nat) (s : State) : State := onPort p (fun x => { x with counters := tcount x.counters i n }) s

/-- The die carries out work: it has not failed and is not fenced. -/
def dieUp (s : State) (d : Nat) : Bool := !(dieOf s d).failed && !(dieOf s d).fenced

/-- The pool in W that budgets are made from: held to 24,000 W while the input monitor is bad (chapter 3, Faults). -/
def poolNow (p : Power) : Rat := if p.inputBad then min p.pool 24000 else p.pool

/-- Fronds in service (R434). -/
def frondsInService (s : State) : List Nat := allFronds.filter (dieUp s)

/-- Tiles of a frond in service, spares included: 319 or 320 less those that were retired, 304 active (R434). -/
def activeTiles (s : State) : Nat :=
  (frondsInService s).foldl (fun n f => n + (304 - (dieOf s f).lostTiles.length)) 0

end Sys2Proof.Machine
end

