-- ==== Sys2Proof/Machine/Operands.lean ====
section
/-! DEFINITION. The operand forms: command frames and their arguments (R114, R123) and place references in them. The
descriptor forms of R143–R151 stand in `DescForms`. -/

namespace Sys2Proof.Machine

/-- `n` bytes at an offset of a sparse byte block. -/
def tabBytes (t : Tab Byte) (off n : Nat) : List Byte := (List.range n).map fun i => tget 0 t (off + i)

/-- The bytes of a list stored from an offset on. -/
def putTab (t : Tab Byte) (off : Nat) : List Byte → Tab Byte
  | [] => t
  | b :: bs => putTab (tput 0 t off b) (off + 1) bs

/-- The 16-byte frame header of a letterbox's command frame. -/
def cmdHeader (l : Letterbox) : List Byte := tabBytes l.cmd 0 16
def cmdOpcode (l : Letterbox) : Nat := field (cmdHeader l) 0 2
def cmdTag (l : Letterbox) : Nat := field (cmdHeader l) 4 4
def cmdLength (l : Letterbox) : Nat := field (cmdHeader l) 8 2

/-- The arguments of a letterbox's command (R114). -/
def cmdArgs (l : Letterbox) : List Byte := tabBytes l.cmd 16 (min (cmdLength l) 1776)

/-- The opcodes of R123's catalogue. -/
def knownOpcodes : List Nat :=
  [0x0001, 0x0002, 0x0003, 0x0004, 0x0005, 0x0101, 0x0102, 0x0103, 0x0104, 0x0105, 0x0106, 0x0107, 0x0108, 0x0109,
   0x010A, 0x0201, 0x0202, 0x0203, 0x0204, 0x0205, 0x0206, 0x0207, 0x0208, 0x0209, 0x020A, 0x020B, 0x0301, 0x0302,
   0x0303, 0x0304, 0x0305, 0x0306, 0x0307, 0x0308, 0x0309, 0x030A, 0x0401, 0x0402, 0x0403, 0x0404, 0x0405, 0x0406,
   0x0407, 0x0408, 0x0409, 0x040A, 0x040B, 0x0501, 0x0502, 0x0503, 0x0504, 0x0505, 0x0506, 0x0601, 0x0602, 0x0603,
   0x0604, 0x0605, 0x0606, 0x0607, 0x0608, 0x0609, 0x0701, 0x0702, 0x0703, 0x0704, 0x0705, 0x0706]

/-- Commands for PF0 only (P). -/
def privilegedOpcodes : List Nat :=
  [0x0004, 0x0103, 0x0105, 0x0209, 0x020A, 0x0307, 0x0401, 0x0402, 0x0404, 0x0405, 0x0407, 0x0408, 0x0409, 0x040A,
   0x040B, 0x0501, 0x0503, 0x0504, 0x0505, 0x0604, 0x0605, 0x0606, 0x0607, 0x0609, 0x0701, 0x0702, 0x0703, 0x0704,
   0x0705, 0x0706]

/-- Commands the diagnostic PF accepts too (D). -/
def diagnosticOpcodes : List Nat := [0x0601, 0x0602, 0x0604, 0x0609, 0x0701, 0x0702, 0x0703, 0x0704]

/-- Commands that change no module state, which append no record of their own (R120). -/
def readOnlyOpcodes : List Nat :=
  [0x0001, 0x0002, 0x0003, 0x0005, 0x0108, 0x0303, 0x0309, 0x030A, 0x0403, 0x0406, 0x0502, 0x0506, 0x0601, 0x0602,
   0x0608, 0x0701]

/-- The field sizes of each command's arguments; arrays and variants are read from the arguments so far. -/
def argSizes (op : Nat) (a : List Byte) : List Nat :=
  match op with
  | 0x0004 => [1, 2, 2, 2]
  | 0x0005 => [1]
  | 0x0101 => [1, 1]
  | 0x0102 | 0x0106 | 0x0107 | 0x0108 => [2]
  | 0x0103 => [2, 1, 1, 2]
  | 0x0104 => [2, 1, 1, 4, 4, 4, 8, 8]
  | 0x0105 => [2, 1]
  | 0x0109 => [2, 4]
  | 0x010A => [2, 2, 2]
  | 0x0201 | 0x0203 => [4, 8]
  | 0x0202 | 0x0206 => [4]
  | 0x0204 | 0x0207 | 0x0208 => [4, 8, 8]
  | 0x0205 => [4, 1, 2, 8, 8] ++ List.replicate (nth 0 (unpack a [4, 1, 2]) 2) 2
  | 0x0209 => [1, 1, 1] ++ List.replicate 64 1
  | 0x020A => [1]
  | 0x020B => [2, 2, 4, 4]
  | 0x0301 => if field a 0 1 = 0 then [1, 4, 8, 8] else [1, 4, 8, 4, 4, 8]
  | 0x0302 | 0x0303 => [4]
  | 0x0304 => [4, 1, 4, 4, 8]
  | 0x0305 | 0x0306 | 0x0307 | 0x0309 => [2]
  | 0x0308 => [2, 2]
  | 0x030A => [1, 1]
  | 0x0401 => [1, 2, 4] ++ List.replicate (field a 2 2) 8
  | 0x0402 => [1]
  | 0x0403 => [1, 2, 4]
  | 0x0404 => [1, 2] ++ List.replicate (field a 2 2) 4
  | 0x0405 | 0x0406 => [1]
  | 0x0407 | 0x0408 | 0x0409 => [1, 1]
  | 0x040A => [1, 1, 1, 4]
  | 0x040B => [1]
  | 0x0501 => [1, 1, 2]
  | 0x0503 => [1, 2]
  | 0x0504 => [1, 1]
  | 0x0505 => [8]
  | 0x0601 => [4]
  | 0x0602 => [1, 8]
  | 0x0603 => List.replicate 48 1
  | 0x0604 => [1, 1, 2, 8]
  | 0x0605 => [1, 2]
  | 0x0606 | 0x0607 => [1]
  | 0x0608 => [2, 2, 1]
  | 0x0702 => [4, 4, 8]
  | 0x0704 => [1]
  | 0x0705 => [1]
  | _ => []

/-- The alignment of a place reference is that of an 8-byte field (R114): the first field of a `pr` is aligned to
8, which `layoutPr` gives by padding. -/
def prOffset (op : Nat) (a : List Byte) : Option Nat :=
  match op with
  | 0x0301 => if field a 0 1 = 0 then none else some 16
  | 0x0304 => some 8
  | _ => none

/-- The offsets of each command's arguments: fields in order (R114), with a place reference taking 16 bytes at its
8-byte-aligned offset. -/
def argFields (op : Nat) (a : List Byte) : List Nat :=
  match prOffset op a, op with
  | some o, 0x0301 => [field a 0 1, field a 4 4, field a 8 8, field a o 4, field a (o + 4) 4, field a (o + 8) 8]
  | some o, _ => [field a 0 4, field a 4 1, field a o 4, field a (o + 4) 4, field a (o + 8) 8]
  | none, _ => unpack a (argSizes op a)

/-- The argument length a command needs. -/
def argLength (op : Nat) (a : List Byte) : Nat :=
  match prOffset op a with
  | some o => o + 16
  | none => argBytes (argSizes op a)

/-- Argument `i` of a command. -/
def arg (op : Nat) (a : List Byte) (i : Nat) : Nat := nth 0 (argFields op a) i

/-- A place reference argument breaks R114: bytes +4 to +7, or bits [63:48] of its offset. -/
def prBad (op : Nat) (a : List Byte) : Bool :=
  match prOffset op a with
  | some o => field a (o + 4) 4 != 0 || decide (2 ^ 48 ≤ field a (o + 8) 8)
  | none => false

/-- Entries of a table kind that ROUTE_READ reads (R271). -/
def kindEntries : Nat → Nat
  | 0 => 4096 | 1 => 128 | 2 => 128 | 3 => 4096 | 4 => 96 | 5 => 6
  | _ => 0

/-- A root of R164. -/
def rootBad (root : Nat) : Bool := root % 4096 != 0 || decide (2 ^ 58 ≤ root)

/-- Every argument lies in its stated range, where the range does not depend on the state (R115, R123). Bits of a flags byte that the
catalogue gives no meaning count as out of range (DESIGN CHOICE, assumption 79). -/
def rangeOk (op : Nat) (a : List Byte) : Bool :=
  let x := arg op a
  match op with
  | 0x0004 => decide (1 ≤ x 0 ∧ x 0 ≤ 63)
  | 0x0101 => decide (1 ≤ x 0 ∧ x 0 ≤ 64 ∧ (x 1 ≤ 15 ∨ x 1 = 0xFF))
  | 0x0103 => decide (x 1 ≤ 63 ∧ x 2 ≤ 63 ∧ (x 3 = 0xFFFF ∨ (1 ≤ x 3 ∧ x 3 < if x 1 = 0 then 2048 else 128)))
  | 0x0104 =>
    decide (x 1 ≤ 2 ∧ x 2 ≤ 159 ∧ x 3 < 2 ^ 20 ∧ (List.range 11).any (fun i => x 4 == 2 ^ (6 + i))
      ∧ x 5 ≠ 0 ∧ x 6 % 4096 = 0 ∧ x 7 % 64 = 0 ∧ x 6 < 2 ^ 57 ∧ x 7 < 2 ^ 57)
  | 0x0105 => decide (x 1 ≤ 1)
  | 0x010A => decide (1 ≤ x 1 ∧ x 1 ≤ 256)
  | 0x0201 => decide (x 0 < 2 ^ 20) && !rootBad (x 1)
  | 0x0203 => !rootBad (x 1)
  | 0x0205 => decide (x 1 ≤ 2 ∧ x 2 ≤ 800)
  | 0x0207 => decide (x 1 + x 2 ≤ 2 ^ 57)
  | 0x020A => decide (1 ≤ x 0 ∧ x 0 ≤ 223)
  | 0x0209 => decide (x 1 ≤ 1 ∧ x 2 ≤ 1) &&
      (if x 1 = 0 then decide (1 ≤ x 0 ∧ x 0 ≤ 159) && !((List.range 32).all fun i => x (3 + i) == x (35 + i))
       else decide (160 ≤ x 0 ∧ x 0 ≤ 223) && (List.range 32).all fun i => x (35 + i) == 0)
  | 0x0301 => decide (x 0 ≤ 1 ∧ x 2 ≤ 2 ^ 28)
  | 0x030A => decide (x 0 < 84 ∧ 1 ≤ x 1 ∧ x 1 ≤ 50 ∧ x 0 + x 1 ≤ 84)
  | 0x0304 => decide (x 1 ≤ 1)
  | 0x0308 => decide (x 0 < 4096 ∨ x 0 = 0xFFFF)
  | 0x0401 => decide (1 ≤ x 1 ∧ x 1 ≤ 200 ∧ x 0 ≠ 4 ∧ x 2 + x 1 ≤ kindEntries (x 0))
  | 0x0402 => decide (x 0 ≤ 63 ∨ x 0 = 0xFF)
  | 0x0403 => decide (1 ≤ x 1 ∧ x 1 ≤ 250 ∧ x 2 + x 1 ≤ kindEntries (x 0))
  | 0x0404 => decide (x 0 ≤ 63 ∧ 1 ≤ x 1 ∧ x 1 ≤ 400) && ((argFields op a).drop 2).all fun c => decide (c < 2 ^ 20)
  | 0x0405 => decide (8 ≤ x 0)
  | 0x0406 => decide (x 0 < 96)
  | 0x0407 => decide (x 0 < 96 ∧ (x 1 = 4 ∨ x 1 = 2 ∨ x 1 = 1))
  | 0x0408 => decide (x 0 < 96 ∧ x 1 < 96 ∧ x 0 ≠ x 1 ∧ portClass (x 0) = 2 ∧ portClass (x 1) = 2)
  | 0x0409 => decide (x 0 < 96 ∧ x 1 ≤ 2)
  | 0x040A => decide (x 0 < 96 ∧ x 1 < 4 ∧ x 2 ≤ 0x0D)
  | 0x040B => decide (x 0 ≤ 1)
  | 0x0501 => decide (x 0 ≤ 4 ∧ x 1 ≤ 1 ∧ x 2 ≤ 1000)
  | 0x0503 => decide ((x 0 < 84 ∨ x 0 = 0xFF) ∧ 500 ≤ x 1 ∧ x 1 ≤ 1300 ∧ x 1 % 25 = 0)
  | 0x0504 => decide ((x 0 < 84 ∨ x 0 = 0xFF) ∧ x 1 ≤ 15)
  | 0x0602 => decide (1 ≤ x 0 ∧ x 0 ≤ 31)
  | 0x0604 => decide (x 0 ≤ 2 ∧ 1 ≤ x 1 ∧ x 1 ≤ 250)
  | 0x0605 => decide (x 0 < 84 ∧ x 1 < 320)
  | 0x0606 | 0x0607 => decide (x 0 < 84)
  | 0x0608 => decide (1 ≤ x 2 ∧ x 2 ≤ 250)
  | 0x0702 => decide (x 1 ≤ 24 * 2 ^ 20)
  | 0x0704 => decide (x 0 ≤ 1)
  | 0x0705 => decide (1 ≤ x 0 ∧ x 0 ≤ 15 ∧ x 0 ≠ 8)
  | _ => true

/-- Objects of R118 that a command names, as (kind, number): 1 ring, 2 context, 3 key slot, 4 image, 5 pigeonhole,
6 port, 7 route table, 8 firmware store. PH_STOP names a pigeonhole of this module, whose number is `own`. -/
def objectsOf (own op : Nat) (a : List Byte) : List (Nat × Nat) :=
  let x := arg op a
  match op with
  | 0x0102 | 0x0103 | 0x0105 | 0x0106 | 0x0107 | 0x0108 | 0x0109 | 0x010A => [(1, x 0)]
  | 0x0104 => [(1, x 0), (2, x 3), (3, x 2)]
  | 0x0201 | 0x0202 | 0x0203 | 0x0204 | 0x0205 | 0x0206 | 0x0207 | 0x0208 => [(2, x 0)]
  | 0x0209 | 0x020A => [(3, x 0)]
  | 0x020B => [(1, x 0), (2, x 2)]
  | 0x0301 => [(2, x 1)]
  | 0x0302 | 0x0303 | 0x0304 => [(4, x 0)]
  | 0x0305 | 0x0306 | 0x0307 | 0x0309 => [(5, x 0)]
  | 0x0308 => if x 0 = 0xFFFF ∨ x 0 = own then [(5, x 1)] else []
  | 0x0404 => (7, 0) :: ((argFields op a).drop 2).map fun c => (2, c)
  | 0x0401 | 0x0402 | 0x0403 | 0x0405 => [(7, 0)]
  | 0x0406 | 0x0407 | 0x0409 | 0x040A => [(6, x 0)]
  | 0x0408 => [(6, x 0), (6, x 1)]
  | 0x0702 => [(8, 0), (2, x 0)]
  | 0x0701 | 0x0703 | 0x0704 => [(8, 0)]
  | _ => []

/-- The edge dies whose agents are being reloaded: those of running AGENT_RELOAD commands (R399). -/
def reloadingDies (s : State) : List Nat :=
  s.post.lbs.filterMap fun e =>
    if (e.2.state == .running || e.2.state == .aborting) && cmdOpcode e.2 == 0x0705 then some (arg 0x0705 (cmdArgs e.2) 0) else none

/-! ### Bounds (R120, R123) -/

/-- The first quotient not below a ÷ b. -/
def ceilDiv (a b : Nat) : Nat := (a + b - 1) / b

/-- Declared weight bytes of a loaded image. -/
def declaredOf (s : State) (handle : Nat) : Nat := match tfind s.res.images handle with | some i => i.declared | none => 0

/-- What the reloads of an exit from P3 or deeper may take in µs: every pigeonhole's PH_CREATE bound (R45, R123). -/
def reloadUs (s : State) : Nat := s.res.phs.foldl (fun n e => n + 30 + ceilDiv (declaredOf s e.2.image) 1200000) 0

/-- The bound of a POWER_REQUEST in µs: an entry's, or the exit time of R45. -/
def powerBoundUs (s : State) (target waitMs : Nat) : Nat :=
  let now := match s.power.state with | some n => n | none => 4
  if now ≤ target then 2000 * (if waitMs = 0 then 10 else waitMs) + 5400
  else match now with
    | 1 => 2
    | 2 => 25
    | 3 => 300 + reloadUs s
    | _ => 40000 + reloadUs s

/-- The bound in µs of a letterbox's command, for the commands whose bound may exceed 10 ms; the others' is at most that (R123).
PIN_RANGE is reckoned in 64 KiB pages, and RING_STOP, whose running descriptor has no bound of its own, by the time it has run
(DESIGN CHOICE, assumption 80). -/
def boundUs (s : State) (lb : Nat) : Nat :=
  let l := lbOf s lb
  let a := cmdArgs l
  let op := cmdOpcode l
  match op with
  | 0x0107 => 20 + (s.time.rackTime - l.startedAt) * 4 / 625
  | 0x0207 => 200 + ceilDiv (arg op a 2) (2 ^ 16)
  | 0x0301 => 5000 + ceilDiv (arg op a 2) 10000
  | 0x0304 => 30 + ceilDiv (declaredOf s (arg op a 0)) 1200000
  | 0x0408 | 0x0409 => 100000
  | 0x040A => 20000
  | 0x040B => 2000000
  | 0x0501 => powerBoundUs s (arg op a 0) (arg op a 2)
  | 0x0505 => 1100000
  | 0x0607 => 20000
  | 0x0609 => 2000000
  | 0x0702 => 600000
  | 0x0703 => 50000
  | 0x0704 => if field a 0 1 = 1 then 200000 else 5000
  | 0x0705 => 60000
  | _ => 10000

/-- A command whose bound is longer than 10 ms stops at safe points; another is atomic (R120, R125). -/
def resumable (s : State) (lb : Nat) : Bool := decide (10000 < boundUs s lb)

end Sys2Proof.Machine
end

