-- ==== Sys2Proof/Machine/Commands.lean ====
section
/-! DEFINITION. How the postmaster runs commands: results (R113, R114), errors (R122), starts (R115, R118), and the
frame in which every command row acts. -/

namespace Sys2Proof.Machine

/-- What a command's meaning answers: it ends with an error code and result data; it goes on and a later event ends
it; or it ends with no result posted (R124). -/
inductive CmdOut where
  | done (err : Nat) (res : List Byte) (s : State)
  | wait (s : State)
  | gone (s : State)

/-- A command's meaning over its requester (a function key, `none` for the management plane), its arguments and
the state. -/
abbrev Cmd := Option Nat → List Byte → State → CmdOut

/-- End with no result data. -/
def ok0 (s : State) : CmdOut := .done 0 [] s
def err (code : Nat) (s : State) : CmdOut := .done code [] s

/-! Error codes of R122. -/
def eUnknown : Nat := 0x0001
def eFrame : Nat := 0x0002
def eRange : Nat := 0x0003
def eNotPermitted : Nat := 0x0004
def eNotFound : Nat := 0x0005
def eBusyObject : Nat := 0x0006
def eNoResource : Nat := 0x0007
def eSuperseded : Nat := 0x0008
def eBusy : Nat := 0x0009
def eTimeout : Nat := 0x000A
def eEnableLow : Nat := 0x000B
def eAborted : Nat := 0x000C
def eSafe : Nat := 0x000D
def eRevision : Nat := 0x000E
def eImage : Nat := 0x000F
def eRollback : Nat := 0x0010
def eBudget : Nat := 0x0011
def eRouteSet : Nat := 0x0012
def eHostBus : Nat := 0x0013
def eAbortedByHost : Nat := 0x0014
def eUnreachable : Nat := 0x0015
def eFailover : Nat := 0x0016
def eMram : Nat := 0x0017
def eActivation : Nat := 0x0018
def eFault : Nat := 0x0019

/-- The result frame's bytes (R114). -/
def resultFrame (op err tag : Nat) (failover : Bool) (us : Nat) (res : List Byte) : List Byte :=
  leBytes 2 op ++ leBytes 2 err ++ leBytes 4 tag ++ leBytes 2 (min res.length 2032) ++ leBytes 2 (b2n failover)
    ++ leBytes 4 (min us (2 ^ 32 - 1)) ++ res.take 2032

/-- A letterbox returned to Idle with no command, its counters and frames kept. -/
def idleLb (l : Letterbox) : Letterbox :=
  { l with state := .idle, safePoints := 0, phase := .fresh, failover := false, discard := false, abort := false,
           progress := 0, buffer := [], waitingFor := [], mramBad := false }

/-- A command that changes no module state; reading the repair map is one form of an opcode that also writes it. -/
def readOnly (op : Nat) (a : List Byte) : Bool := readOnlyOpcodes.contains op || (op == 0x0604 && field a 0 1 == 0)

/-- The record of a command that changed module state (R120); one that ends "argument range" had no effect (R115). -/
def commandRecord (lb e : Nat) (s : State) : State :=
  let l := lbOf s lb
  if readOnly (cmdOpcode l) (cmdArgs l) ∨ e = eRange then s
  else journal 0x4001 4 0 false [u8 lb, u16 (cmdOpcode l), u32 (cmdTag l), u16 e] s

/-- Post a result (R113): result frame, Done, result-ready, vector 0. A result that an FLR discards returns the
letterbox to Idle instead (R103). A command stopped at a safe point ends "aborted" with the safe points passed (R120), which the model
gives in 2 bytes, as LB_STATE does (DESIGN CHOICE, assumption 77). -/
def postResult (lb errCode : Nat) (res : List Byte) (s : State) : State :=
  let l := lbOf s lb
  let op := cmdOpcode l
  let us := (s.time.rackTime - l.startedAt) * 4 / 625
  let r := if errCode = eAborted then leBytes 2 l.safePoints else res
  let s := commandRecord lb errCode s
  if l.discard then onLb lb idleLb s
  else
    s |> onLb lb (fun l => { idleLb l with
          res := putTab [] 0 (resultFrame op errCode (cmdTag l) l.failover us r)
          state := .done, ready := true })
      |> msix lb 0

/-- Commands whose safe point is their acceptance: the operation completes on its own (R125). -/
def acceptedOps : List Nat := [0x0501, 0x040B, 0x0505, 0x0107]

/-- Commands whose safe point is the end of what they did: only the result is discarded (R125). -/
def endOps : List Nat := [0x0408, 0x0409, 0x040A, 0x0705]

/-- The operation of an aborted command goes on without its letterbox: a power request, a discovery, a rack-time load, a ring's stop. -/
def detach (lb op : Nat) (s : State) : State :=
  let q (r : PowerReq) : PowerReq := if r.source = .letterbox lb then { r with source := .input } else r
  match op with
  | 0x0501 => onPower (fun p => { p with pending := p.pending.map q, trans := p.trans.map fun t => { t with req := q t.req } }) s
  | 0x040B => onDisc (fun d => if d.lb = some lb then { d with lb := none } else d) s
  | 0x0505 => onTime (fun t => { t with loads := t.loads.map fun l => if l.lb = some lb then { l with lb := none } else l }) s
  | 0x0107 => { s with rings := tmap (fun _ (g : Ring) => if g.stopLb = some lb then { g with stopLb := none } else g) s.rings }
  | _ => s

/-- End or suspend a letterbox command as its meaning says. An abort that came before it acted takes effect at its acceptance, or at
its end, where R125 places the safe point there. -/
def finish (lb : Nat) : CmdOut → State
  | .done e res s =>
    let l := lbOf s lb
    postResult lb (if e = 0 ∧ l.abort ∧ endOps.contains (cmdOpcode l) then eAborted else e) res s
  | .wait s =>
    let l := lbOf s lb
    if l.abort ∧ acceptedOps.contains (cmdOpcode l) then detach lb (cmdOpcode l) (postResult lb eAborted [] s)
    else onLb lb (fun l => { l with phase := .waiting }) s
  | .gone s => s

/-- A letterbox whose command has started and not acted yet, with this opcode. -/
def runningFresh (s : State) (lb op : Nat) : Bool :=
  let l := lbOf s lb
  decide (lb < 128) && (l.state == .running || l.state == .aborting) && l.phase == .fresh && cmdOpcode l == op

/-- The frame in which a command row acts: on letterbox `lb`, whose started command has opcode `op` and whose
arguments `sel` accepts (the rows of one opcode are told apart by an argument). -/
def runCmd (op : Nat) (sel : List Byte → Bool) (f : Cmd) (lb : Nat) (s : State) : Res :=
  if 128 ≤ lb then .next s
  else
    let a := cmdArgs (lbOf s lb)
    if runningFresh s lb op && sel a then .next (finish lb (f (some lb) a s)) else .next s

def anyArgs : List Byte → Bool := fun _ => true

/-! ### Starting a command (R115, R118) -/

def isRunning (l : Letterbox) : Bool := l.state == .running || l.state == .aborting
def runningCount (s : State) : Nat := s.post.lbs.countP fun e => isRunning e.2

def priorityOp (op : Nat) : Bool := op == 0x0308 || op == 0x0501 || op == 0x0706

/-- A command names a port or ring of an edge die whose agent is being reloaded (R399). -/
def reloadBlocks (s : State) (objs : List (Nat × Nat)) : Bool :=
  objs.any fun o => (o.1 == 1 && (reloadingDies s).contains (o.2 / 64)) || (o.1 == 6 && (reloadingDies s).contains (o.2 / 6))

def lbObjects (own : Nat) (l : Letterbox) : List (Nat × Nat) := objectsOf own (cmdOpcode l) (cmdArgs l)

/-- Accepted, and no command ahead on its objects is unfinished. -/
def startable (s : State) (lb : Nat) : Bool :=
  let l := lbOf s lb
  let own := moduleNumber s
  let objs := lbObjects own l
  l.state == .accepted && !reloadBlocks s objs
    && !(s.post.lbs.any fun e => e.1 != lb && (isRunning e.2 || (e.2.state == .accepted && decide (e.2.order < l.order)))
      && (lbObjects own e.2).any fun o => objs.contains o)

/-- A FAILOVER has started: no other command starts before the handover (step P1 of R130). -/
def handingOver (s : State) : Bool := s.post.standby && s.post.lbs.any fun e => runningFresh s e.1 0x0706

/-- The order of R118 lets this letterbox start now. -/
def mayStartCmd (s : State) (lb : Nat) : Bool :=
  let l := lbOf s lb
  let pr := priorityOp (cmdOpcode l)
  startable s lb && decide (runningCount s < 16) && !handingOver s
    && !(s.post.lbs.any fun e => e.1 != lb && startable s e.1
      && (if priorityOp (cmdOpcode e.2) then !pr || decide (e.2.order < l.order)
          else !pr && decide (e.2.order < l.order)))

/-- The checks on a frame at its start, in the order R115 lists them; the diagnostic PF's restriction stands with
the first (R123). -/
def frameCheck (s : State) (lb : Nat) : Option Nat :=
  let l := lbOf s lb
  let h := cmdHeader l
  let op := field h 0 2
  let a := cmdArgs l
  if !knownOpcodes.contains op then some eUnknown
  else if inSafe s ∧ !diagnosticOpcodes.contains op then some eSafe
  else if field h 2 2 ≠ 0 ∨ field h 0x0A 6 ≠ 0 ∨ 1776 < field h 8 2 ∨ field h 8 2 ≠ argLength op a ∨ prBad op a then
    some eFrame
  else if !rangeOk op a then some eRange
  else if privilegedOpcodes.contains op ∧ !isPf0 lb then some eNotPermitted
  else none

/-- A result with no result data and no record of a state change: a refused frame, or an abort before the start. -/
def postFrameError (lb e : Nat) (s : State) : State :=
  let l := lbOf s lb
  if l.discard then onLb lb idleLb s
  else
    s |> onLb lb (fun l => { idleLb l with
          res := putTab [] 0 (resultFrame (cmdOpcode l) e (cmdTag l) l.failover 0 [])
          state := .done, ready := true })
      |> msix lb 0

/-- Start one accepted command, or end it at once when its frame fails (R111, R115). -/
def commandStart (lb : Nat) (s : State) : State :=
  if mayStartCmd s lb then
    let s := onLb lb (fun l => { l with state := .running, phase := .fresh, safePoints := 0, progress := 0,
                                        buffer := [], startedAt := s.time.rackTime }) s
    match frameCheck s lb with
    | none => s
    | some e =>
      -- The arguments of a KEY_LOAD were read when their range was looked at: its frame is zero before it ends (R117).
      let keyed : Bool := cmdOpcode (lbOf s lb) == 0x0209 && e != eFrame && e != eUnknown && e != eSafe
      when keyed (onLb lb fun l => { l with cmd := [] }) (postFrameError lb e s)
  else s

/-- A letterbox whose command of this opcode has acted and waits for a later event. -/
def waitingOn (s : State) (lb op : Nat) : Bool :=
  let l := lbOf s lb
  isRunning l && l.phase == .waiting && cmdOpcode l == op

/-- End a waiting command, if it still waits. -/
def postWaiting (lb op e : Nat) (res : List Byte) (s : State) : State :=
  if waitingOn s lb op then postResult lb e res s else s

/-- End a waiting command of an optional letterbox. -/
def postWaiting? (lb : Option Nat) (op e : Nat) (res : List Byte) (s : State) : State :=
  match lb with
  | some l => postWaiting l op e res s
  | none => s

/-- What an abort does to a letterbox (R111, R120, R125). -/
def abortCommand (lb : Nat) (s : State) : State :=
  let l := lbOf s lb
  let op := cmdOpcode l
  match l.state with
  | .accepted => postFrameError lb eAborted s
  | .running =>
    if !resumable s lb then s
    else if l.phase == .waiting && acceptedOps.contains op then
      detach lb op (postResult lb eAborted [] (onLb lb (fun l => { l with abort := true }) s))
    else onLb lb (fun l => { l with state := .aborting, abort := true }) s
  | _ => s

end Sys2Proof.Machine
end

