-- ==== Sys2Proof/Machine/Packets.lean ====
section
/-! DEFINITION. Packets on the wire (R253–R263), the structure checks of stage B (R264, R265), the acceptance checks
of stage D, and the dead-letter queue (R266, R457). -/

namespace Sys2Proof.Machine

def frankWord (f : Frank) : Nat := f.ctx % 2 ^ 20 + f.key % 256 * 2 ^ 20
def wordFrank (w : Nat) : Frank := { ctx := bits w 19 0, key := bits w 27 20 }

/-- A tunnel header's 16 bytes (R262). -/
def tunnelBytes (t : Tunnel) : List Byte :=
  leBytes 1 3 ++ leBytes 1 (16 * b2n t.escape) ++ leBytes 1 t.defl ++ leBytes 1 t.hopLimit
    ++ leBytes 4 (t.dest * 2 ^ 20) ++ leBytes 2 t.source ++ leBytes 6 0

/-- A data header's 32 bytes (R256). -/
def dataHeader (p : Pkt) : List Byte :=
  leBytes 1 2 ++ leBytes 1 (b2n p.registered + 2 * b2n p.partialList + 4 * b2n p.encrypted + 8 * b2n p.keyPhase
      + 16 * b2n p.escape + 32 * b2n p.poison.isSome)
    ++ leBytes 1 p.defl ++ leBytes 1 p.op ++ leBytes 4 p.dest.toNat ++ leBytes 4 p.src.toNat
    ++ leBytes 2 p.body.length ++ leBytes 1 p.lead ++ leBytes 1 p.trail ++ leBytes 6 p.offset
    ++ leBytes 2 p.tally ++ leBytes 4 (frankWord p.frank) ++ leBytes 4 p.reg

/-- A control packet's 64 bytes (R254). -/
def controlBytes (p : Pkt) : List Byte :=
  leBytes 1 1 ++ leBytes 1 (16 * b2n p.escape) ++ leBytes 1 p.defl ++ leBytes 1 p.op
    ++ leBytes 4 p.dest.toNat ++ leBytes 4 p.src.toNat ++ leBytes 4 (frankWord p.frank)
    ++ leBytes 8 p.postmark.toNat ++ padTo 40 p.body

/-- A packet as bytes, outermost header first (R253). -/
def pktBytes (p : Pkt) : List Byte :=
  (match p.tunnel with | some t => tunnelBytes t | none => [])
    ++ (if p.control then controlBytes p
        else dataHeader p ++ p.body
          ++ (match p.poison with | some m => leBytes 8 m.toNat | none => [])
          ++ (if p.encrypted then leBytes 8 p.trailerCount ++ padTo 16 p.trailerTag else []))

/-- The escape flag and deflection count of the outermost header (R263). -/
def outerEscape (p : Pkt) : Bool := match p.tunnel with | some t => t.escape | none => p.escape
def outerDefl (p : Pkt) : Nat := match p.tunnel with | some t => t.defl | none => p.defl
def setOuter (p : Pkt) (defl : Nat) (escape : Bool) : Pkt :=
  match p.tunnel with
  | some t => { p with tunnel := some { t with defl := min defl 255, escape := escape } }
  | none => { p with defl := min defl 255, escape := escape }

/-- The stream a packet rides on a Gulan link: 0 data, 1 escape, 2 control (R231, R254, R256). -/
def streamOf (p : Pkt) : Nat := if p.control then 2 else if outerEscape p then 1 else 0

/-! ### Reading headers -/

def hdrKind (bs : List Byte) : Nat := field bs 0 1 % 16

/-- The packet after its tunnel header, if it has one. -/
def innerBytes (bs : List Byte) : List Byte := if hdrKind bs = 3 then bs.drop 16 else bs

/-- Byte count that a packet's headers announce (R253); `none` when no length can be read. -/
def announcedBytes (bs : List Byte) : Option Nat :=
  let i := innerBytes bs
  let t := if hdrKind bs = 3 then 16 else 0
  match hdrKind i with
  | 1 => some (t + 64)
  | 2 => some (t + 32 + field i 0x0C 2 + (if bit (field i 1 1) 5 then 8 else 0) + (if bit (field i 1 1) 2 then 24 else 0))
  | _ => none

def knownControl (op : Nat) : Bool :=
  decide (1 ≤ op ∧ op ≤ 8) || decide (0x10 ≤ op ∧ op ≤ 0x15) || op == 0x20 || op == 0x21 || op == 0x30
    || decide (0x40 ≤ op ∧ op ≤ 0x4F)

/-- Management opcodes of R255. -/
def managementOp (op : Nat) : Bool :=
  decide (5 ≤ op ∧ op ≤ 8) || decide (0x10 ≤ op ∧ op ≤ 0x2F) || decide (0x40 ≤ op ∧ op ≤ 0x4F)

/-- A source that may send a management opcode (R255): a management processor, a frond controller, a partner's
management unit, or for RELAY and RELAY_DONE a copy engine. A partner's management unit has the form of a hub unit
0x5 of dies 0–15 and another module's number (R367). -/
def managementSource (own op : Nat) (src : Postcode) : Bool :=
  let d := pcDie src; let u := pcUnit src
  if 96 ≤ d then u == 5
  else u == 0xF || (u == 5 && decide (d ≤ 15) && pcModule src != own)
    || ((op == 0x20 || op == 0x21) && decide (4 ≤ u ∧ u ≤ 7))

def pcField (bs : List Byte) (off : Nat) : Postcode := BitVec.ofNat 32 (field bs off 4)

/-- The reserved-field check of a tunnel header (R262). -/
def tunnelReserved (bs : List Byte) : Bool :=
  field bs 0 1 / 16 != 0 || (field bs 1 1 != 0 && field bs 1 1 != 16) || field bs 0x0A 6 != 0

/-- The reserved-field check of a packet header (reason 0x04). -/
def innerReserved (i : List Byte) : Bool :=
  let fl := field i 1 1
  match hdrKind i with
  | 1 =>
    field i 0 1 / 16 != 0 || (fl != 0 && fl != 16) || bits (field i 0x0C 4) 31 28 != 0
      || (field i 3 1 == 3 && decide (2 ^ 48 ≤ field i 0x20 8))
  | 2 =>
    let op := field i 3 1
    field i 0 1 / 16 != 0 || decide (64 ≤ fl) || bits (field i 0x18 4) 31 28 != 0
      || (!bit fl 2 && ((op == 1 && decide (2 ^ 48 ≤ field i 0x28 8)) || (op == 3 && decide (2 ^ 48 ≤ field i 0x38 8))))
  | _ => true

/-- The stage-B checks in order of their reason codes, on the bytes of the SOP flit (R264, R265). `own` is the
module's number; `stream` the link stream, or `none` where an engine or controller injects. -/
def stageB (own : Nat) (stream : Option Nat) (bs : List Byte) : Option Nat :=
  let tun := hdrKind bs == 3
  let i := innerBytes bs
  let nested := tun && hdrKind i == 3
  let isData := hdrKind i == 2
  let fl := field i 1 1
  let op := field i 3 1
  let len := field i 0x0C 2
  let lead := field i 0x0E 1
  let trail := field i 0x0F 1
  let esc := if tun then bit (field bs 1 1) 4 else bit fl 4
  let dest := pcField i 4
  let src := pcField i 8
  let td := field bs 4 4
  let checks : List (Nat × Bool) := [
    (0x04, (tun && tunnelReserved bs) || (if nested then tunnelReserved i else innerReserved i)),
    (0x05, nested),
    (0x06, isData && (decide (len < 64 ∨ 4096 < len) || len % 64 != 0 || ((op == 1 || op == 3 || op == 4) && len != 64)
      || (op == 1 && !bit fl 2 && decide (field i 0x20 2 < 1 ∨ 4096 < field i 0x20 2)))),
    (0x07, isData && (decide (63 < lead ∨ 63 < trail ∨ len ≤ lead + trail) || (bit fl 1 && (lead != 0 || trail != 0)))),
    (0x08, match stream with
      | none => false
      | some st => if isData then st != (if esc then 1 else 0) else st != 2),
    (0x09, !validPostcode dest || !validPostcode src || (tun && td % 2 ^ 20 != 0)),
    (0x0A, if isData then decide (4 < op) else !knownControl op),
    (0x0B, isData && bit fl 0 && (!(op == 0 || op == 3) || !bit (field i 0x1C 4) 10)),
    (0x13, !isData && managementOp op && !managementSource own op src)]
  (checks.find? Prod.snd).map Prod.fst

/-- Read a tunnel header. -/
def readTunnel (bs : List Byte) : Tunnel :=
  { dest := field bs 4 4 / 2 ^ 20, source := field bs 8 2, hopLimit := field bs 3 1, defl := field bs 2 1,
    escape := bit (field bs 1 1) 4 }

/-- Read a packet whose headers have passed stage B. -/
def readPkt (bs : List Byte) : Pkt :=
  let i := innerBytes bs
  let tun := if hdrKind bs = 3 then some (readTunnel bs) else none
  let fl := field i 1 1
  if hdrKind i = 1 then
    { control := true, tunnel := tun, escape := bit fl 4, defl := field i 2 1, op := field i 3 1,
      dest := pcField i 4, src := pcField i 8, frank := wordFrank (field i 0x0C 4),
      postmark := BitVec.ofNat 64 (field i 0x10 8), body := padTo 40 (i.drop 0x18) }
  else
    let len := field i 0x0C 2
    let pl := (i.drop 32).take len
    let rest := i.drop (32 + len)
    let mask := if bit fl 5 then some (BitVec.ofNat 64 (field rest 0 8)) else none
    let tr := if bit fl 5 then rest.drop 8 else rest
    { control := false, tunnel := tun, escape := bit fl 4, defl := field i 2 1, op := field i 3 1,
      dest := pcField i 4, src := pcField i 8, frank := wordFrank (field i 0x18 4),
      registered := bit fl 0, partialList := bit fl 1, encrypted := bit fl 2, keyPhase := bit fl 3,
      lead := field i 0x0E 1, trail := field i 0x0F 1, offset := field i 0x10 6, tally := field i 0x16 2,
      reg := field i 0x1C 4, poison := mask,
      trailerCount := if bit fl 2 then field tr 0 8 else 0,
      trailerTag := if bit fl 2 then (tr.drop 8).take 16 else [], body := pl }

/-! ### Registration word (R258) -/

def regRing (r : Nat) : Nat := bits r 9 0
def regValid (r : Nat) : Bool := bit r 10
def regRun (r : Nat) : Nat := bits r 15 11
def regCount (r : Nat) : Nat := bits r 31 16
def mkReg (ring run count : Nat) : Nat := ring % 1024 + 1024 + run % 32 * 2 ^ 11 + count % 65536 * 2 ^ 16

/-! ### Making packets -/

def mkControl (op : Nat) (dest src : Postcode) (frank : Frank) (fields : List (Nat × Fld)) : Pkt :=
  { control := true, op := op, dest := dest, src := src, frank := frank,
    body := fields.foldl (fun b f => b.take (f.1 - 0x18) ++ leBytes f.2.size f.2.value ++ b.drop (f.1 - 0x18 + f.2.size))
      (List.replicate 40 0) }

/-- An argument of a control packet at its offset in the packet (R255). -/
def ctlArg (p : Pkt) (off n : Nat) : Nat := field p.body (off - 0x18) n

/-- A RECEIPT to the source of a delivered registered packet (R255, R296). -/
def mkReceipt (p : Pkt) : Pkt :=
  mkControl 0x01 p.src p.dest p.frank [(0x18, u32 p.reg), (0x1C, u16 p.tally), (0x1E, u8 0)]

/-- A REFUSAL of a data packet or of a control packet (R191, R255). -/
def mkRefusal (p : Pkt) (lock : Nat) : Pkt :=
  mkControl 0x02 p.src p.dest p.frank
    (if p.control then [(0x1C, u8 (128 + p.op % 128)), (0x1E, u16 lock)]
     else [(0x18, u32 p.reg), (0x1C, u8 p.op), (0x1E, u16 lock), (0x20, ⟨6, p.offset⟩)])

/-- A response to a read request or an atomic (R257). -/
def mkResponse (p : Pkt) (op tag : Nat) (trail : Nat) (body : List Byte) (poison : Option (BitVec 64)) : Pkt :=
  { control := false, op := op, dest := p.src, src := p.dest, frank := p.frank, trail := trail,
    offset := tag % 2 ^ 48, body := body, poison := poison }

/-! ### Dead letters (R266, R457) -/

/-- Bytes 0x00–0x2F of an entry: header bytes as received, every other byte 0 (R457). -/
def deadHead (bs : List Byte) : List Byte :=
  let keep (b : List Byte) : Nat := match hdrKind b with | 1 => 64 | 2 => 32 | _ => 16
  let n := if hdrKind bs = 3 then 16 + keep (bs.drop 16) else keep bs
  padTo 48 (bs.take n)

/-- Enter a dead letter in a die's queue of 32 and count it. -/
def deadLetterRaw (d reason ingress stream : Nat) (head : List Byte) (s : State) : State :=
  let pm := postmark s.time
  let s := onDie d (fun x =>
    let e : DeadLetter := { head := head, reason := reason, ingress := ingress, stream := stream,
                            sequence := x.deadSeq % 2 ^ 32, postmark := pm }
    { x with
      dead := (x.dead ++ [e]).drop (x.dead.length + 1 - 32)
      deadSeq := x.deadSeq + 1
      deadCounts := tcount (tcount x.deadCounts 0 1) reason 1 }) s
  limited 266 (d * 32 + reason) (ticksUs 1000)
    (journalFrom (dieCtlPc (moduleNumber s) d) 0x7001 1 1 false [u8 reason]) s

def deadLetter (d reason ingress : Nat) (p : Pkt) (s : State) : State :=
  deadLetterRaw d reason ingress (streamOf p) (deadHead (pktBytes p)) s

/-- The 64 bytes of an entry as COUNTERS_READ group 0x0200 gives them (R266, R267). -/
def deadEntryBytes (e : DeadLetter) : List Byte :=
  e.head ++ leBytes 1 (if e.bad then 0xFF else e.reason) ++ leBytes 1 e.ingress ++ leBytes 1 e.stream ++ leBytes 1 0
    ++ leBytes 4 e.sequence ++ leBytes 8 e.postmark.toNat

/-! ### Acceptance at the destination die (stage D, R264) -/

/-- A data operation that a unit accepts (R257), with the destination unit's index of R31 and R32. -/
def acceptsData (dest : Postcode) (op : Nat) (partialList : Bool) : Bool :=
  let u := pcUnit dest
  if pcDie dest < 84 then
    match op with
    | 0 => u == 1 || u == 0xB || (u == 8 || u == 9) && partialList
    | 1 => u == 1 || u == 0xB
    | 2 => decide (4 ≤ u ∧ u ≤ 9)
    | 3 => u == 1 || u == 0xB
    | _ => decide (4 ≤ u ∧ u ≤ 9)
  else (op == 2 || op == 4) && u == 4

/-- A control opcode that a KW1 unit accepts (R31, R32, R150, R255). -/
def acceptsControl (dest : Postcode) (op : Nat) : Bool :=
  let u := pcUnit dest
  let hub := decide (pcDie dest < 84)
  match op with
  | 0x01 | 0x02 => if hub then decide (4 ≤ u ∧ u ≤ 9) || u == 0xC || u == 0xF else u == 4 || u == 5 || u == 2 || u == 1
  | 0x03 => if hub then u == 0xF else u == 5
  | 0x04 => if hub then decide (4 ≤ u ∧ u ≤ 9) || u == 0xF else u == 4 || u == 5 || u == 2
  | 0x05 | 0x06 => if hub then u == 0xF else u == 5
  | 0x07 | 0x08 => if hub then u == 0xE || u == 0xF else u == 3 || u == 5
  | 0x20 | 0x21 => if hub then decide (4 ≤ u ∧ u ≤ 7) else u == 4
  | 0x30 => !hub && u == 2
  | _ => if op < 0x10 ∨ 0x15 < op then false else !hub && u == 5

/-- Operand bytes of an atomic's size code: 0 and 1 are read by `Operands` (R145). -/
def offsetEnd (p : Pkt) (operand : Nat) : Nat :=
  match p.op with
  | 0 => p.offset + p.body.length - p.trail
  | 1 => p.offset + field p.body 0 2
  | 3 => p.offset + operand
  | _ => 0

/-- The stage-D checks 0x0E–0x11 in order; `operand` is the operand size of an atomic, `tagOk` whether a partial
list's merge tag is consistent (R259). Authentication (0x12) is checked where the keys are. -/
def stageD (p : Pkt) (operand : Nat) (tagOk : Bool) : Option Nat :=
  let sel := decide (pcDie p.dest < 84) && (pcUnit p.dest == 8 || pcUnit p.dest == 9)
  if p.control then
    if !acceptsControl p.dest p.op then some 0x0E
    else if p.op = 3 ∧ tallyCount (pcDie p.dest) ≤ ctlArg p 0x18 2 then some 0x0F
    else none
  else if !acceptsData p.dest p.op p.partialList then some 0x0E
  else if p.tally ≠ 0xFFFF ∧ (p.op = 1 ∨ p.op = 2 ∨ p.op = 4 ∨ tallyCount (pcDie p.dest) ≤ p.tally) then some 0x0F
  else if sel ∧ p.op = 0 ∧ 0x10000 ≤ p.offset then some 0x10
  else if ¬sel ∧ (p.op = 0 ∨ p.op = 1 ∨ p.op = 3) ∧ unitSize p.dest < offsetEnd p operand then some 0x10
  else if p.partialList ∧ ¬tagOk then some 0x11
  else none

/-! ### Tunnels (R263) -/

/-- Add a tunnel header: it takes the packet's deflections and escape flag. -/
def addTunnel (own dest hop : Nat) (p : Pkt) : Pkt :=
  { p with tunnel := some { dest := dest, source := own, hopLimit := hop, defl := p.defl, escape := p.escape } }

/-- Remove a tunnel header at the first die of its destination. -/
def stripTunnel (p : Pkt) : Pkt :=
  match p.tunnel with
  | some t => { p with tunnel := none, defl := t.defl, escape := t.escape }
  | none => p

end Sys2Proof.Machine
end

