-- ==== Sys2Proof/Machine/Fabric.lean ====
section
/-! DEFINITION. The fabric's tables and rules of choice: reachability marks, exits and route sets (R271–R273, R288),
productive outputs (R274), the assignment of outputs with deflection (R269, R275–R277) and the escape lane
(R278–R281). -/

namespace Sys2Proof.Machine

/-! ### Route tables -/

/-- The die entry that a bank holds: no-such-die values read Reachable 0 with reason 5 (R271). -/
def dieEntryOf (b : Bank) (d : Nat) : Nat := if isDie d then tget 0 b.dies d else 10
def dieReachable (s : State) (d : Nat) : Bool := bit (dieEntryOf s.fabric.active d) 0
def routersOff (s : State) (d : Nat) : Bool := bit (dieEntryOf s.fabric.active d) 4

def onBanks (f : Bank → Bank) (s : State) : State :=
  onFabric (fun x => { x with active := f x.active, staged := f x.staged }) s

/-- Mark a die in both banks (R288): reachable, the reason 0–5, Routers off. -/
def markDie (d : Nat) (reachable : Bool) (reason : Nat) (off : Bool) (s : State) : State :=
  onBanks (fun b => { b with dies := tset b.dies d (b2n reachable + 2 * reason + 16 * b2n off) }) s

/-- Mark a module unreachable or reachable in both banks (R154, R288). -/
def markModule (m : Nat) (v : Bool) (s : State) : State :=
  onBanks (fun b => { b with
    modules := match tfind b.modules m with | some e => tset b.modules m (setBit e 0 v) | none => b.modules
    down := if v then b.down.filter (· != m) else if b.down.contains m then b.down else m :: b.down }) s

/-! ### Default module entries (R374, R377) -/

/-- A die's own edge die: itself, or for a frond the nearest by grid distance, lower numbers first. -/
def ownEdge (d : Nat) : Nat :=
  if 96 ≤ d then d - 96
  else
    let far (e : Nat) : Nat := leastDist d ((attachments e).map Prod.fst)
    match sortBy (fun a b => decide (far a < far b)) (List.range 16) with
    | e :: _ => e
    | [] => 0

/-- A module entry from its exits, with a tunnel destination and hop limit. -/
def packEntry (exits : List Nat) (tunnel : Option (Nat × Nat)) : Nat :=
  let x (i : Nat) : Nat := nth 0xFF exits i
  1 + (match tunnel with | some (m, hop) => 2 + 2 ^ 8 * min hop 255 + 2 ^ 16 * m | none => 0)
    + 2 ^ 32 * x 0 + 2 ^ 40 * x 1 + 2 ^ 48 * x 2 + 2 ^ 56 * x 3

/-- The exits toward the store set of the own rack, and toward what the own rack's switches lead to. -/
def boardExits (e : Nat) : List Nat := [brdPort e, brdPort ((e + 1) % 16), brdPort ((e + 15) % 16), brdPort ((e + 2) % 16)]
def copperExits (e : Nat) : List Nat := [6 * e + 2, 6 * e + 3, 6 * e + 4, 6 * ((e + 1) % 16) + 2]

/-- Steps along one ring axis from `a` to `b`. -/
def ringSteps (a b n : Nat) : Nat := let u := (b + n - a % n) % n; min u (n - u)

/-- Exits along an axis: exit 0 without the wraparound, exits 1–3 the shorter way. -/
def axisExits (axis a b n : Nat) : List Nat :=
  let plain := 2 * axis + (if a < b then 0 else 1)
  let up := (b + n - a % n) % n
  let short := if 2 * up = n then plain else 2 * axis + (if 2 * up < n then 0 else 1)
  optPort (5 * plain) :: [1, 2, 3].map fun i => optPort (5 * short + i)

/-- Exits and hop count toward a coordinate number of a torus. -/
def torusExits (a : Assign) (m : Nat) : List Nat × Nat :=
  let x := m % 16
  let y := m / 16 % 16
  let z := m / 256
  let hops := ringSteps a.x x (max a.dimX 1) + ringSteps a.y y (max a.dimY 1) + ringSteps a.z z (max a.dimZ 1)
  (if a.x ≠ x then axisExits 0 a.x x (max a.dimX 1) else if a.y ≠ y then axisExits 1 a.y y (max a.dimY 1)
    else axisExits 2 a.z z (max a.dimZ 1), hops)

def inTorus (a : Assign) (m : Nat) : Bool :=
  decide (m % 16 < a.dimX ∧ m / 16 % 16 < a.dimY ∧ m / 256 < a.dimZ)

/-- What a number stands for (R365, R368): 0 a module, 1 a store set, 2 a rack switch. The committed assignment tells the form of the
numbers; before a first commit the mode of the next discovery stands in for it (DESIGN CHOICE, assumption 85). -/
def roleOfNumber (s : State) (m : Nat) : Nat :=
  let tree : Nat := if m % 16 = 8 then 1 else if 10 ≤ m % 16 ∧ m % 16 ≤ 13 then 2 else 0
  let pool : Nat := if (4095 - m) % 8 = 0 then 1 else if (4095 - m) % 8 ≤ 4 then 2 else 0
  if m = moduleNumber s then 0
  else
    match s.disc.committed with
    | some a => if a.mode ≠ 0 then tree else if inTorus a m then 0 else pool
    | none => if s.disc.mode ≠ 0 then tree else pool

/-- The bound of a store set's offsets (R37, R367): the capacity that a member behind one of this module's ports advertised in its HELLO.
No message tells this module another rack's capacity, whose bound the store alone checks (assumption 85). -/
def storeBound (s : State) (m : Nat) : Nat :=
  match s.disc.neighbours.find? (fun e => e.2.role == 1 && e.2.number == m) with
  | some e => e.2.capacity * 2 ^ 30
  | none => 2 ^ 48

/-- The entry that step D6 installs for a module on a die. -/
def defaultEntry (a : Assign) (d m : Nat) : Nat :=
  let e := ownEdge d
  if m = a.number then 0
  else if a.mode ≠ 0 then packEntry (if m = 16 * a.rack + 8 then boardExits e else copperExits e) none
  else if inTorus a m then packEntry (torusExits a m).1 none
  else
    let rack := (4095 - m) / 8
    let j := (4095 - m) % 8
    if 5 < j then 0
    else if rack = a.rack then packEntry (if j = 0 then boardExits e else copperExits e) none
    else
      let via := Config.rackModule rack % 4096
      let t := torusExits a via
      packEntry t.1 (some (via, t.2 + 2))

/-- The module entry that a die's bank holds. -/
def entryIn (b : Bank) (d m : Nat) : Nat :=
  match tfind b.modules m with
  | some e => e
  | none =>
    let e := match b.base with | some a => defaultEntry a d m | none => 0
    if b.down.contains m then setBit e 0 false else e

/-- The physical port that a logical port number names, `none` when no port has it (R249, R271). -/
def physicalPort (s : State) (lp : Nat) : Option Nat :=
  let p := tget lp s.fabric.logical lp
  if p < 96 ∧ lp < 96 then some p else none

/-- The logical number of a physical port, 0xFF for none (R249). -/
def logicalOf (s : State) (p : Nat) : Nat :=
  match (List.range 96).find? (fun lp => physicalPort s lp == some p) with
  | some lp => lp
  | none => 0xFF

/-- Lanes in a mask. -/
def maskWidth (m : Nat) : Nat := (List.range 4).foldl (fun n l => n + b2n (bit m l)) 0

/-- The link carries control class: Active or Keep-alive, and up under R378. -/
def portUp (s : State) (p : Nat) : Bool :=
  let x := portOf s p
  (x.state == .active || x.state == .keepalive) && x.up
def portControlOnly (s : State) (p : Nat) : Bool :=
  let x := portOf s p
  x.state == .keepalive || x.controlOnly
def partnerRole (s : State) (p : Nat) : Nat := match (portOf s p).cap with | some c => c.role | none => 0

/-- A logical port entry (R271 kind 0x04). -/
def logicalEntry (s : State) (lp : Nat) : Nat :=
  match physicalPort s lp with
  | none => 0
  | some p =>
    p + 128 * b2n (portUp s p) + 256 * (if portUp s p then maskWidth (portOf s p).mask else 0)
      + 2 ^ 11 * partnerRole s p + 2 ^ 14 * b2n (portUp s p && portControlOnly s p)

/-- The module entry of the active bank at a die, and as the postmaster's die holds it. -/
def entryAt (s : State) (d m : Nat) : Nat := entryIn s.fabric.active d m
def moduleEntry (s : State) (m : Nat) : Nat := entryAt s (96 + postEdge s) m
def exitsOf (e : Nat) : List Nat := [bits e 39 32, bits e 47 40, bits e 55 48, bits e 63 56]

/-! ### Route sets (R272) -/

/-- The route set that holds a context. -/
def routeSetOf (s : State) (ctx : Nat) : Option Nat :=
  (s.fabric.routeSets.find? fun e => e.2.contains ctx).map Prod.fst

def maskHas (b : Bank) (set_ lp : Nat) : Bool := bit (tget 0 b.setPorts (2 * set_ + lp / 64)) (lp % 64)
def reachHas (b : Bank) (set_ m : Nat) : Bool := bit (tget 0 b.setReach (64 * set_ + m / 64)) (m % 64)

/-- A data packet may leave by a logical port, apart from reach (R272, R273). -/
def setAllows (s : State) (p : Pkt) (lp : Nat) : Bool :=
  match routeSetOf s p.frank.ctx with
  | none => false
  | some r => maskHas s.fabric.active r lp

/-- An exit is usable for a packet toward a module (R273, R35, R263). -/
def exitUsable (s : State) (p : Pkt) (m lp : Nat) (tunnelled : Bool) : Bool :=
  match physicalPort s lp with
  | none => false
  | some q =>
    s.disc.assigned && portUp s q
      && (!tunnelled || (match (portOf s q).cap with | some c => bit c.features 4 | none => false))
      && (p.control || (!portControlOnly s q && setAllows s p lp
        && (match routeSetOf s p.frank.ctx with | some r => reachHas s.fabric.active r m | none => false)))

/-- Packets waiting at or being sent from a port's egress buffer, control packets apart (R268). -/
def egressCount (s : State) (p : Nat) : Nat :=
  s.fabric.flights.countP (fun e => e.2.loc == .egress p && !e.2.pkt.control)
    + ((portOf s p).tx.filter fun e => e.1 != 2).foldl (fun n e => n + e.2.length) 0

/-- Room behind a port output: the egress buffer of 8 (R268), or the one control place (R450). -/
def egressSpace (s : State) (p : Nat) (control : Bool) : Bool :=
  if control then !(s.fabric.flights.any fun e => e.2.loc == .egress p && e.2.pkt.control)
  else decide (egressCount s p < 8)

/-! ### Flights -/

/-- A packet enters the fabric at an injection point, an ingress or a buffer. -/
def addFlight (p : Pkt) (loc : Loc) (o : Origin) (s : State) : State :=
  onFabric (fun x => { x with
    flights := tset x.flights x.nextPid { pkt := p, loc := loc, origin := o }
    nextPid := x.nextPid + 1 }) s

def flightOf (s : State) (pid : Nat) : Option Flight := tfind s.fabric.flights pid
def setFlight (pid : Nat) (f : Flight) (s : State) : State :=
  onFabric (fun x => { x with flights := tset x.flights pid f }) s
def dropFlight (pid : Nat) (s : State) : State :=
  onFabric (fun x => { x with flights := terase x.flights pid }) s

/-- Where a packet stands, as a die. -/
def locDie : Loc → Nat
  | .inject d _ | .seamTx d _ | .seamRx d _ | .escBuf d _ _ | .eject d => d
  | .mesh f _ _ => f
  | .egress p | .ingress p | .escIngress p => 96 + p / 6

/-- Packets on dies that lose their power are lost. -/
def dropPackets (q : Nat → Bool) (s : State) : State :=
  onFabric (fun x => { x with
    flights := x.flights.filter fun e => !q (locDie e.2.loc)
    control := x.control.filter fun e => !q (if 128 ≤ e.1 then 96 + (e.1 - 128) / 4 else e.1) }) s

/-- A data packet ready at an engine of a die: it waits at the hub or the switch for its injection (R68). -/
def sendData (p : Pkt) (o : Origin) (s : State) : State := addFlight p (.inject (pcDie p.src) 0) o s

/-- The injection point of a control packet: a die's controller, or 128 + a steward core (R68). -/
def pointOf (src : Postcode) : Nat :=
  if 96 ≤ pcDie src ∧ pcUnit src = 2 then 128 + 4 * (pcDie src - 96) + pcTile src else pcDie src

/-- A control packet ready at its injection point (R68, R70). -/
def sendControl (p : Pkt) (s : State) : State :=
  onFabric (fun x => { x with control := tset x.control (pointOf p.src) (tget [] x.control (pointOf p.src) ++ [p]) }) s

/-- Packets of R287's in-flight count. -/
def inFlightLoc : Loc → Bool
  | .mesh .. | .seamTx .. | .seamRx .. | .egress .. | .escBuf .. => true
  | _ => false
def inFlightCount (s : State) : Nat :=
  s.fabric.flights.countP (fun e => inFlightLoc e.2.loc)
    + s.fabric.ports.foldl (fun n e => n + e.2.tx.foldl (fun m q => m + q.2.length) 0) 0

/-! ### Outputs -/

/-- An output of a router: a mesh direction of a tile router, a link 0–47 or a port of a switch, or eject. -/
inductive Output where
  | dir (d : Nat)
  | link (l : Nat)
  | port (p : Nat)
  | eject
  deriving DecidableEq, Repr

def hubTiles : List Nat := [149, 150, 169, 170]

/-- A link of a die in service (R80 numbering, R288). -/
def linkUp (s : State) (d l : Nat) : Bool := !(dieOf s d).linksOut.contains l && !(dieOf s d).failed

/-- The die and link at the far end of an edge-die switch's link. -/
def switchFar (e l : Nat) : Option (Nat × Nat) :=
  if l < 32 then (edgeLinkEnd e l).map fun x => (x.1, 4 * x.2.1 + x.2.2)
  else if l < 40 then some (96 + (e + 15) % 16, 40 + (l - 32))
  else if l < 48 then some (96 + (e + 1) % 16, 32 + (l - 40))
  else none

/-- The die and link at the far end of a frond's seam or edge-die link output. -/
def frondFar (f t dir : Nat) : Option (Nat × Nat) :=
  match beyond f t dir with
  | .seam g t' => some (g, 4 * t' + (dir + 2) % 4)
  | .edge e l => some (96 + e, l)
  | _ => none

/-- Whether an output leads to a working link (R281). -/
def outputUsable (s : State) (d r : Nat) : Output → Bool
  | .eject => true
  | .port p => decide (p / 6 = d - 96)
  | .link l => match switchFar (d - 96) l with
    | some (g, l') => linkUp s d l && linkUp s g l' && !(decide (g < 84) && routersOff s g)
    | none => false
  | .dir k => match beyond d r k with
    | .tile t' => linkUp s d (4 * r + k) && linkUp s d (4 * t' + (k + 2) % 4)
    | .nothing => false
    | _ => match frondFar d r k with
      | some (g, l') => linkUp s d (4 * r + k) && linkUp s g l' && !(decide (g < 84) && routersOff s g)
      | none => false

def anyAt (s : State) (l : Loc) (p : Flight → Bool) : Bool := s.fabric.flights.any fun e => e.2.loc == l && p e.2

def holdLimit (d : Nat) : Nat := if d < 84 then 64 else 16

/-- The place a packet takes behind an output, if it is free for the packet: its seam buffer, escape buffer or
control place (R268, R279, R299, R450). -/
def outputPlace (s : State) (d r : Nat) (f : Flight) (o : Output) : Option Loc :=
  let esc := outerEscape f.pkt
  let same (g : Flight) : Bool :=
    if f.pkt.control || g.pkt.control then f.pkt.control && g.pkt.control
    else outerEscape g.pkt == esc && (!esc || g.yx == f.yx)
  let buf (l : Loc) : Option Loc := if anyAt s l same then none else some l
  match o with
  | .eject =>
    if f.pkt.control && decide (96 ≤ d) && pcUnit f.pkt.dest == 5 && (reloadingDies s).contains (d - 96) then none
    else if f.pkt.registered && decide (holdLimit d ≤ (dieOf s d).holds.length) then none else some (.eject d)
  | .port p => if egressSpace s p f.pkt.control then some (.egress p) else none
  | .link l => buf (.seamTx d l)
  | .dir k => match beyond d r k with
    | .tile t' =>
      if esc then (if anyAt s (.escBuf d t' f.yx) (fun _ => true) then none else some (.escBuf d t' f.yx))
      else if anyAt s (.mesh d t' ((k + 2) % 4)) (fun _ => true) then none else some (.mesh d t' ((k + 2) % 4))
    | .nothing => none
    | _ => buf (.seamTx d (4 * r + k))

/-! ### Targets (R273) -/

inductive Target273 where
  | dead (reason : Nat)
  | tiles (f : Nat) (ts : List Nat)
  | switch (e : Nat)
  | exit (e : Nat) (ports : List Nat)
  deriving DecidableEq, Repr

/-- The module a packet is bound for by its outermost header. -/
def boundFor (p : Pkt) : Nat := match p.tunnel with | some t => t.dest | none => pcModule p.dest

/-- The packet's target, and the packet with a tunnel header added where the module entry asks for one. -/
def targetOf (s : State) (at_ : Nat) (p : Pkt) : Target273 × Pkt × Bool :=
  let m := boundFor p
  if m = moduleNumber s then
    let d := pcDie p.dest
    if !dieReachable s d then (.dead 0x0C, p, false)
    else if d < 84 then (.tiles d (if pcUnit p.dest < 4 then [pcTile p.dest] else hubTiles), p, false)
    else (.switch (d - 96), p, false)
  else
    let e := entryAt s at_ m
    let addT := bit e 1 && p.tunnel.isNone
    let us := (exitsOf e).filter fun lp => exitUsable s p m lp (p.tunnel.isSome || addT)
    let us := us.filterMap (physicalPort s)
    if !bit e 0 then (.dead 0x0C, p, false)
    else
      match us with
      | [] => (.dead 0x0C, p, false)
      | first :: _ =>
        let p' := if addT then addTunnel (moduleNumber s) (bits e 27 16) (bits e 15 8) p else p
        let us' := if outerEscape p then [first] else us
        let pick := match us'.find? (fun q => egressSpace s q p.control) with | some q => q | none => first
        (.exit (pick / 6) us', p', addT)

/-- Grid distance of an attachment's frond, and the attachment of an edge die nearer a frond; ties to the lower
frond number (R274). -/
def nearAttachment (e f : Nat) : Nat :=
  match attachments e with
  | [a, b] =>
    let da := gridDist a.1 f; let db := gridDist b.1 f
    if da < db then 0 else if db < da then 1 else if a.1 ≤ b.1 then 0 else 1
  | _ => 0

/-- The tiles along an attachment's edge that meet its links, with the link each meets. -/
def attachmentTiles (e a : Nat) : List (Nat × Nat) :=
  (List.range 16).filterMap fun i => (edgeLinkEnd e (16 * a + i)).map fun x => (x.2.1, 16 * a + i)

def tileDist (f t g u : Nat) : Nat := dist (modRow f t) (modRow g u) + dist (modCol f t) (modCol g u)
def leastOf (l : List Nat) : Nat := l.foldl min 1000000

/-- The distance from a tile to the nearest of some tiles. -/
def distTo (f t g : Nat) (ts : List Nat) : Nat := leastOf (ts.map fun u => tileDist f t g u)

/-- The tile a mesh move leads to, on this frond or across a seam. -/
def meshStep (f t k : Nat) : Option (Nat × Nat) :=
  match beyond f t k with
  | .tile t' => some (f, t')
  | .seam g t' => some (g, t')
  | _ => none

/-- Mesh directions that lower the distance to the nearest of some target tiles (R274). -/
def loweringDirs (f t g : Nat) (ts : List Nat) : List Output :=
  (List.range 4).filterMap fun k =>
    match meshStep f t k with
    | some (f', t') => if distTo f' t' g ts < distTo f t g ts then some (.dir k) else none
    | none => none

/-- Productive outputs of a router, in order of preference (R274). -/
def productive (d r : Nat) (tgt : Target273) : List Output :=
  let towardSwitch (e : Nat) (ports : List Nat) : List Output :=
    if d < 84 then
      let a := nearAttachment e d
      let g := ((attachments e).map Prod.fst).getD a 0
      let tl := attachmentTiles e a
      (if d = g ∧ tl.any (fun x => x.1 == r) then
        (List.range 4).filterMap fun k => match beyond d r k with
          | .edge e' _ => if e' = e then some (.dir k) else none
          | _ => none
       else []) ++ loweringDirs d r g (tl.map Prod.fst)
    else
      let n := d - 96
      if n = e then (if ports.isEmpty then [.eject] else (ports.filter fun p => p / 6 == n).map .port)
      else
        let up := (e + 16 - n) % 16
        ((List.range 8).map fun i => if up ≤ 8 then .link (40 + i) else .link (32 + i))
  match tgt with
  | .dead _ => []
  | .tiles f ts =>
    if d < 84 then
      if d = f ∧ ts.contains r then [.eject] else loweringDirs d r f ts
    else
      let e := d - 96
      let a := nearAttachment e f
      let g := ((attachments e).map Prod.fst).getD a 0
      (sortBy (fun x y => decide (distTo g x.1 f ts < distTo g y.1 f ts)) (attachmentTiles e a)).map fun x => .link x.2
  | .switch e => towardSwitch e []
  | .exit e ports => towardSwitch e ports

/-! ### The escape lane (R277–R281) -/

/-- The tile an escape path on the mesh aims at. -/
def escapeAim (f t : Nat) : Target273 → Option (Nat × Nat)
  | .tiles g ts => (sortBy (fun a b => decide (tileDist f t g a < tileDist f t g b)) ts).head?.map fun u => (g, u)
  | .switch e | .exit e _ =>
    let a := nearAttachment e f
    let g := ((attachments e).map Prod.fst).getD a 0
    (sortBy (fun x y => decide (tileDist f t g x < tileDist f t g y)) ((attachmentTiles e a).map Prod.fst)).head?.map
      fun u => (g, u)
  | .dead _ => none

/-- The class chosen at entry: XY (false) when the target's grid column exists in the present grid row. -/
def escapeClass (f t : Nat) (tgt : Target273) : Bool :=
  match escapeAim f t tgt with
  | some (g, _) => (frondAt (gridRow f) (gridCol g)).isNone
  | none => false

/-- The output an escape packet takes in a class. -/
def escapeOutput (d r : Nat) (yx : Bool) (tgt : Target273) : Option Output :=
  if 96 ≤ d then (productive d r tgt).head?
  else
    match escapeAim d r tgt with
    | none => none
    | some (g, u) =>
      let row := modRow d r; let col := modCol d r; let row' := modRow g u; let col' := modCol g u
      let alongRow := if col < col' then some (Output.dir 1) else if col' < col then some (.dir 3) else none
      let alongCol := if row < row' then some (Output.dir 2) else if row' < row then some (.dir 0) else none
      match (if yx then alongCol else alongRow), (if yx then alongRow else alongCol) with
      | some o, _ => some o
      | none, some o => some o
      | none, none => (productive d r tgt).head?

/-- Packets an escape buffer of a router holds per class (R279). -/
def escCapacity (d : Nat) : Nat := if d < 84 then 1 else 4
def escSpace (s : State) (d r : Nat) (yx : Bool) : Bool :=
  decide (s.fabric.flights.countP (fun e => e.2.loc == .escBuf d r yx) < escCapacity d)

/-! ### One train's decision -/

/-- How freely an injection-class input may choose (R276): transit trains deflect always; a seam buffer or landing
that has waited 1 µs on the module; a landing that has waited 4 µs also off it. -/
inductive Freedom where
  | productiveOnly | transit (from_ : Nat) | onModule | offModule
  deriving DecidableEq, Repr

/-- Ports of a switch that a landing may deflect to (R276): none for a packet of the own module, which never leaves through a
Gulan port (R35), and for a tunnelled one only ports whose partner takes tunnels (R263). -/
def deflectPorts (s : State) (d : Nat) (p : Pkt) : List Output :=
  if boundFor p = moduleNumber s then [] else
  (List.range 6).filterMap fun i =>
    let q := 6 * (d - 96) + i
    let lp := logicalOf s q
    if portUp s q && (p.control || (!portControlOnly s q && setAllows s p lp)) && s.disc.assigned
      && (p.tunnel.isNone || (match (portOf s q).cap with | some c => bit c.features 4 | none => false))
      && (partnerRole s q == 0 || partnerRole s q == 2) then some (.port q) else none

/-- The outputs tried after the productive ones, each a deflection. -/
def otherOutputs (s : State) (d : Nat) (p : Pkt) : Freedom → List Output
  | .productiveOnly => []
  | .transit i => (((List.range 4).filter (· != i)) ++ [i]).map .dir
  | .onModule => if d < 84 then (List.range 4).map .dir else (List.range 48).map .link
  | .offModule => (if d < 84 then (List.range 4).map Output.dir else (List.range 48).map Output.link)
      ++ (if d < 84 then [] else deflectPorts s d p)

/-- The first output of a list that is usable, not taken in this decision and has a free place. -/
def firstFree (s : State) (d r : Nat) (f : Flight) (taken : List Output) : List Output → Option (Output × Loc)
  | [] => none
  | o :: os =>
    if taken.contains o ∧ o ≠ .eject ∨ !outputUsable s d r o then firstFree s d r f taken os
    else
      match outputPlace s d r f o with
      | some l => some (o, l)
      | none => firstFree s d r f taken os

/-- The dead-letter ingress code of where a packet stands (R266). -/
def ingressCode (d : Nat) : Loc → Nat
  | .mesh _ _ i => i
  | .seamRx _ l => if d < 84 then l % 4 else if l < 32 then 5 else if l < 40 then 6 else 7
  | .ingress p | .escIngress p => 0x80 + p % 6
  | _ => 4

/-- A packet's wait in an escape buffer of a die has ended (R280). -/
def waitsNoMore (d pid : Nat) (s : State) : State :=
  if (dieOf s d).waited.contains pid then onDie d (fun x => { x with waited := x.waited.filter (· != pid) }) s else s

/-- Leave the escape lane (R281): the flag clears, the count stays; journalled and counted. -/
def leaveEscape (pid d : Nat) (f : Flight) (s : State) : State :=
  s |> setFlight pid { f with pkt := setOuter f.pkt (outerDefl f.pkt) false }
    |> waitsNoMore d pid
    |> countFabric d 11 1
    |> journalFrom (dieCtlPc (moduleNumber s) d) 0x7002 1 1 false []

/-- Return a link's escape credits as an escape packet leaves the port's escape ingress (R279). -/
def returnCredits (l : Loc) (p : Pkt) (s : State) : State :=
  match l with
  | .escIngress q => onPort q (fun x => { x with owedCredits := x.owedCredits + ((pktBytes p).length + 115) / 116 }) s
  | _ => s

/-- One escape packet's hop from where it stands (R278, R281). -/
def escapeHop (d r pid : Nat) (f : Flight) (tgt : Target273) (taken : List Output) (s : State) :
    State × List Output :=
  let try_ (yx : Bool) : Option Output :=
    match escapeOutput d r yx tgt with
    | some o => if outputUsable s d r o then some o else none
    | none => none
  match try_ f.yx, try_ (!f.yx) with
  | none, none => (leaveEscape pid d f s, taken)
  | o?, p? =>
    let yx := if o?.isSome then f.yx else !f.yx
    let o := match o? with | some o => some o | none => p?
    let f' := { f with yx := yx }
    let alts := match o with
      | some (.link _) => productive d r tgt
      | some o => [o]
      | none => []
    match firstFree s d r f' taken alts with
    | some (out, l) =>
      (s |> setFlight pid { f' with loc := l, via := ingressCode d f.loc } |> waitsNoMore d pid |> countFabric d 3 1 |> countFabric d 0 1 |> returnCredits f.loc f.pkt,
        out :: taken)
    | none => (setFlight pid f' s, taken)

/-- One train's decision at a router (R273–R277): the state and the outputs now taken. -/
def decide1 (d r pid : Nat) (free : Freedom) (taken : List Output) (s : State) : State × List Output :=
  match flightOf s pid with
  | none => (s, taken)
  | some f =>
    let f := if boundFor f.pkt = moduleNumber s then { f with pkt := stripTunnel f.pkt } else f
    match targetOf s d f.pkt with
    | (.dead why, _, _) =>
      (s |> deadLetter d why (ingressCode d f.loc) f.pkt |> returnCredits f.loc f.pkt |> dropFlight pid, taken)
    | (tgt, p, added) =>
      let s := if added then countFabric d 10 1 s else s
      let f := { f with pkt := p }
      if outerEscape p then escapeHop d r pid f tgt taken s
      else
        let yx := if d < 84 then escapeClass d r tgt else false
        if s.fabric.deflectLimit ≤ outerDefl p ∧ escSpace s d r yx then
          (s |> setFlight pid { f with pkt := setOuter p (outerDefl p) true, loc := .escBuf d r yx, yx := yx }
             |> countFabric d 2 1, taken)
        else
          -- a route-table parity error costs the packet this hop (chapter 13, Faults)
          let parity := s.fabric.badEntries.contains d
          let s := if parity then onFabric (fun x => { x with badEntries := x.badEntries.filter (· != d) }) s else s
          match firstFree s d r f taken (if parity then [] else productive d r tgt) with
          | some (o, l) => (s |> setFlight pid { f with loc := l, via := ingressCode d f.loc } |> countFabric d 0 1, o :: taken)
          | none =>
            match firstFree s d r f taken (otherOutputs s d p free) with
            | some (o, l) =>
              (s |> setFlight pid { f with loc := l, via := ingressCode d f.loc, pkt := setOuter p (outerDefl p + 1) false }
                 |> countFabric d 0 1 |> countFabric d 1 1
                 |> onDie d (fun x => { x with perRouter := if d < 84 then tcount x.perRouter r 1 else x.perRouter })
                 |> (match o with | .port _ => countFabric d 8 1 | _ => id), o :: taken)
            | none => (setFlight pid f s, taken)

/-- The order of R275 among trains: control class, escape lane, deflections, then input order. -/
def trainBefore (a b : Nat × Flight × Nat) : Bool :=
  let key (x : Nat × Flight × Nat) : Nat :=
    (if x.2.1.pkt.control then 0 else 1) * 2 ^ 20 + (if outerEscape x.2.1.pkt then 0 else 1) * 2 ^ 19
      + (255 - outerDefl x.2.1.pkt) * 2 ^ 8 + x.2.2
  decide (key a < key b)

/-- Where a packet stands as an input of a router: transit with its direction, or injection-class; with its input
order (north, east, south, west, local, hub, seam buffers). -/
def inputOf (d r : Nat) : Loc → Option (Option Nat × Nat)
  | .mesh f t i => if f = d ∧ t = r then some (some i, i) else none
  | .seamRx g l => if g = d ∧ (96 ≤ d ∨ l / 4 = r) then some (none, 8 + l) else none
  | .ingress p => if d = 96 + p / 6 then some (none, 100 + p % 6) else none
  | .escIngress p => if d = 96 + p / 6 then some (none, 110 + p % 6) else none
  | .escBuf g t _ => if g = d ∧ t = r then some (none, 6) else none
  | _ => none

/-- Decide a list of trains in order. -/
def decideAll (d r : Nat) : List (Nat × Freedom) → List Output → State → State × List Output
  | [], taken, s => (s, taken)
  | (pid, fr) :: rest, taken, s =>
    let x := decide1 d r pid fr taken s
    decideAll d r rest x.2 x.1

/-- The die in one of whose escape buffers a packet stands: an escape buffer of a router, an escape place of a crossing, or a
port's escape ingress (R279). -/
def escapeDie (f : Flight) : Option Nat :=
  match f.loc with
  | .escBuf g _ _ => some g
  | .seamRx g _ | .seamTx g _ => if outerEscape f.pkt then some g else none
  | .escIngress p => some (96 + p / 6)
  | _ => none

/-- A packet that has waited 1 µs in an escape buffer of the die waits there still (R280). -/
def escapeWaiting (s : State) (d : Nat) : Bool :=
  s.fabric.flights.any fun e => (dieOf s d).waited.contains e.1 && escapeDie e.2 == some d

/-- Escape drain lifts when no escape buffer of the die has waited 1 µs (R280). -/
def liftDrain (d : Nat) (s : State) : State :=
  if (dieOf s d).drain && !escapeWaiting s d then onDie d (fun x => { x with drain := false, waited := [] }) s else s

/-- A router's decision at a train boundary: transit trains first, then injection-class inputs on outputs still
free (R269, R275). Under escape drain only escape packets start (R280). `extra` names injection-class inputs
with the freedom they have. -/
def routerDecision (d r : Nat) (extra : List (Nat × Freedom)) (s : State) : State :=
  let here := s.fabric.flights.filterMap fun e =>
    match inputOf d r e.2.loc with
    | some (i, n) => some (e.1, e.2, i, n)
    | none => none
  let transit := sortBy trainBefore ((here.filter fun x => x.2.2.1.isSome).map fun x => (x.1, x.2.1, x.2.2.2))
  let inj := sortBy trainBefore ((here.filter fun x => x.2.2.1.isNone).map fun x => (x.1, x.2.1, x.2.2.2))
  let inj := inj.filter fun x => !(dieOf s d).drain || outerEscape x.2.1.pkt
  let freedom (f : Flight) : Freedom := match f.loc with
    | .mesh _ _ i => .transit i
    | .seamRx .. => if f.pkt.control then .onModule else .productiveOnly
    | _ => .productiveOnly
  let named := extra.filter fun x => !(dieOf s d).drain || (match flightOf s x.1 with
    | some f => outerEscape f.pkt | none => false)
  let rest := inj.filter fun x => !(extra.map Prod.fst).contains x.1
  liftDrain d (decideAll d r ((transit.map fun x => (x.1, freedom x.2.1)) ++ named
    ++ rest.map fun x => (x.1, freedom x.2.1)) [] s).1

end Sys2Proof.Machine
end

