-- ==== Sys2Proof/Machine/RepairMap.lean ====
section
/-! DEFINITION. The repair map: its entries (R80), its copies in MRAM (R79, R81, R392), and what applying an entry does
(R21, R42, R81, R85, R396, R398, R400). -/

namespace Sys2Proof.Machine

/-! ### Entries (R80) -/

def mapEntry (kind die object group wire value : Nat) : BitVec 64 :=
  BitVec.ofNat 64 (kind % 256 + 2 ^ 8 * (die % 128) + 2 ^ 16 * (object % 4096) + 2 ^ 32 * (group % 16) + 2 ^ 36 * (wire % 32)
    + 2 ^ 48 * (value % 256))

def entryKind (e : BitVec 64) : Nat := bits e.toNat 7 0
def entryDie (e : BitVec 64) : Nat := bits e.toNat 14 8
def entryObject (e : BitVec 64) : Nat := bits e.toNat 27 16
def entryGroup (e : BitVec 64) : Nat := bits e.toNat 35 32
def entryWire (e : BitVec 64) : Nat := bits e.toNat 40 36
def entryValue (e : BitVec 64) : Nat := bits e.toNat 55 48

def sameObject (kind die object : Nat) (e : BitVec 64) : Bool :=
  entryKind e == kind && entryDie e == die && entryObject e == object

/-! ### Copies (R79, R81, R392) -/

/-- The dies of E0 (0) and E8 (1) whose MRAM can be reached. -/
def mramDies (s : State) : List Nat := ([0, 1] : List Nat).filter fun d => !(dieOf s (96 + 8 * d)).failed

def copyOf (s : State) (d i : Nat) : MapCopy := tget {} s.post.maps (2 * d + i)

/-- A copy's sequence number and the entries in use that its header counts. -/
def MapCopy.sequence (c : MapCopy) : Nat := field c.header 0x08 4
def MapCopy.inUse (c : MapCopy) : List (BitVec 64) := c.entries.take (field c.header 0x0C 4)

/-- A copy is valid when its header CRC and its entries CRC both match (R79). -/
def MapCopy.valid (c : MapCopy) : Bool :=
  field c.header 0x1C 4 == crc32 (padTo 28 c.header) && field c.header 0x10 4 == crc32 (mapBytes c.inUse)

/-- The newer valid copy of a die. -/
def newerCopy (s : State) (d : Nat) : Option Nat :=
  let a := copyOf s d 0
  let b := copyOf s d 1
  if a.valid && b.valid then some (if after32 b.sequence a.sequence then 1 else 0)
  else if a.valid then some 0
  else if b.valid then some 1
  else none

/-- The map that step A5 selects: E0's newer valid copy, else E8's (R79), of the dies whose MRAM can be reached. -/
def selectedMap (s : State) : Option MapCopy := (mramDies s).findSome? fun d => (newerCopy s d).map (copyOf s d)

/-- An MRAM page write of E0 (0) or E8 (1) fails its verification (R391): counted and journalled. -/
def mramFailed (d : Nat) (s : State) : State :=
  journalRule 10 2 2 false 391 [u8 (96 + 8 * d)] (countEcc (96 + 8 * d) 6 1 s)

/-- Write the working map into the older copy of E0 and then of E8 with the next sequence number (R81). A torn write, one that fails
its verification, leaves its target without a header, so invalid, and the other copy as it was; it goes no further (DESIGN CHOICE,
assumption 55). A shutdown forbids page writes (R402 step T2). -/
def writeMap (ok : Bool) (s : State) : State :=
  let seq := ((match selectedMap s with | some c => c.sequence | none => 0) + 1) % 2 ^ 32
  let target (d : Nat) : Nat := match newerCopy s d with | some i => 1 - i | none => 0
  let put (d : Nat) (c : MapCopy) (s : State) : State := onPost (fun p => { p with maps := tset p.maps (2 * d + target d) c }) s
  let c : MapCopy := { header := mapHeader seq s.post.entries, entries := s.post.entries }
  if s.power.boot = .shutdown then s
  else if ok then updates (mramDies s) (fun d s => put d c s) s
  else match mramDies s with
    | d :: _ => mramFailed d (put d { c with header := [] } s)
    | [] => s

/-- Entries a map copy holds at most (R79). -/
def mapLimit : Nat := 8188

/-- Entries joined to a list that does not hold them yet. -/
def joinEntries (l es : List (BitVec 64)) : List (BitVec 64) :=
  (es.foldl (fun l e => if l.contains e then l else l ++ [e]) l).take mapLimit

/-- Findings join the working map and the entries in effect. -/
def addEntries (es : List (BitVec 64)) (s : State) : State :=
  onPost (fun p => { p with entries := joinEntries p.entries es, applied := joinEntries p.applied es }) s

/-- Add entries to the map in MRAM, as live repair does. -/
def mapAdd (es : List (BitVec 64)) (s : State) : State := writeMap true (addEntries es s)

/-- Remove the entries that satisfy `q` from the map in MRAM. -/
def mapRemove (q : BitVec 64 → Bool) (s : State) : State :=
  let s := onPost (fun p => { p with applied := p.applied.filter fun e => !q e }) s
  if s.post.entries.any q then writeMap true (onPost (fun p => { p with entries := p.entries.filter fun e => !q e }) s) else s

/-! ### What an entry does -/

/-- A link leaves service, as both of its dies record it (R21, R288). -/
def linkOut (d l : Nat) (s : State) : State :=
  let put (x : Nat × Nat) (s : State) : State :=
    onDie x.1 (fun y => if y.linksOut.contains x.2 then y else { y with linksOut := x.2 :: y.linksOut }) s
  let far : Option (Nat × Nat) :=
    if 96 ≤ d then switchFar (d - 96) l
    else match beyond d (l / 4) (l % 4) with
      | .tile t => some (d, 4 * t + (l % 4 + 2) % 4)
      | .nothing => none
      | _ => frondFar d (l / 4) (l % 4)
  match far with
  | some x => put x (put (d, l) s)
  | none => put (d, l) s

/-- Number of links of a die (R80). -/
def linkCount (d : Nat) : Nat := if d < 84 then 1280 else 48

/-- Wires of a group: 32 on a mesh link, 8 on a crossing or another link (R21). -/
def groupWires (d l : Nat) : Nat :=
  if 96 ≤ d then 8 else match beyond d (l / 4) (l % 4) with | .tile _ => 32 | _ => 8

/-! ### Wires (R21, R80) -/

/-- A wire group's one name: a mesh link, seam crossing or rim link has an end at two tiles or dies, and is named by its east or south
link (R80), or from E(n) toward E(n+1); an edge-die link by its edge die. The direction turns with the end. -/
def linkName (d l : Nat) (inbound : Bool) : Nat × Nat × Bool :=
  if 96 ≤ d then (if 32 ≤ l ∧ l < 40 then (96 + (d - 96 + 15) % 16, l + 8, !inbound) else (d, l, inbound))
  else
    let t := l / 4
    let k := l % 4
    match beyond d t k with
    | .tile u => if k = 0 ∨ k = 3 then (d, 4 * u + (k + 2) % 4, !inbound) else (d, l, inbound)
    | .seam g u => if k = 0 ∨ k = 3 then (g, 4 * u + (k + 2) % 4, !inbound) else (d, l, inbound)
    | .edge e m => (96 + e, m, !inbound)
    | .nothing => (d, l, inbound)

/-- The dies at the ends of a link. -/
def linkDies (d l : Nat) : List Nat :=
  match (if 96 ≤ d then switchFar (d - 96) l else frondFar d (l / 4) (l % 4)) with
  | some x => [d, x.1]
  | none => [d]

def groupUsed (s : State) (d l g : Nat) (inbound : Bool) : Bool :=
  (dieOf s d).badWires.any fun w => w.link == l && w.group == g && w.inbound == inbound

/-- Substitute the group's spare for a failed wire (R21): a second failed wire of the group takes the link out of service. -/
def badWire (d l g w : Nat) (inbound : Bool) (s : State) : State :=
  let n := linkName d l inbound
  let x : BadWire := { link := n.2.1, group := g, wire := w, inbound := n.2.2 }
  if (dieOf s n.1).badWires.contains x then s
  else if groupUsed s n.1 n.2.1 g n.2.2 then linkOut n.1 n.2.1 s
  else onDie n.1 (fun y => { y with badWires := y.badWires ++ [x] }) s

/-- Use a spare port for another's logical number (R249). -/
def sparePort (bad spare : Nat) (s : State) : State :=
  let lp := logicalOf s bad
  let was := logicalOf s spare
  if 96 ≤ lp then s
  else onFabric (fun x => { x with logical := tset (if was < 96 then tset x.logical was 0xFF else x.logical) lp spare }) s

/-- A spared port at a reset: the spare takes its logical number, and the port gets a logical number back, the spare's (R249, DEDUCED,
assumption 32). -/
def exchangePorts (bad spare : Nat) (s : State) : State :=
  let lp := logicalOf s bad
  let was := logicalOf s spare
  if 96 ≤ lp then s
  else onFabric (fun x => { x with logical := tset (if was < 96 then tset x.logical was bad else x.logical) lp spare }) s

/-- Apply one entry before its link carries traffic (R81). -/
def applyEntry (e : BitVec 64) (s : State) : State :=
  let d := entryDie e
  let o := entryObject e
  if !isDie d ∧ 1 ≤ entryKind e ∧ entryKind e ≤ 8 then s
  else
    match entryKind e with
    | 0x01 => if o < linkCount d then badWire d o (entryGroup e) (entryWire e) (bit (entryValue e) 0) s else s
    | 0x02 => if o < linkCount d then linkOut d o s else s
    | 0x03 => if d < 84 ∧ o < 320 then onDie d (fun x => { x with retired := o :: x.retired.filter (· != o) }) s else s
    | 0x04 => if d < 84 ∧ o < 320 then onDie d (fun x => { x with
        retired := o :: x.retired.filter (· != o), lostTiles := o :: x.lostTiles.filter (· != o) }) s else s
    | 0x05 => if d < 84 then onDie d (fun x => { x with fenced := true }) s else s
    | 0x06 => if 96 ≤ d ∧ o < 6 then onPort (6 * (d - 96) + o) (fun x => { x with widthLimit := entryValue e }) s else s
    | 0x07 => if 96 ≤ d ∧ o < 6 ∧ entryValue e < 96 then exchangePorts (6 * (d - 96) + o) (entryValue e) s else s
    | 0x08 => if 96 ≤ d then onDie d (fun x => { x with failed := true }) s else s
    | k => journalRule 2 1 0 false 80 [u8 k, u64 e.toNat] s

/-- Apply the entries in effect for edge dies, or for fronds. -/
def applyMap (edge : Bool) (s : State) : State :=
  updates (s.post.applied.filter fun e => decide (96 ≤ entryDie e) == edge) applyEntry s

/-- Apply them again to dies that the ladder has powered (R50 steps 1 and 4); the logical port numbers stand. -/
def reapplyMap (edge : Bool) (s : State) : State :=
  updates (s.post.applied.filter fun e => decide (96 ≤ entryDie e) == edge && entryKind e != 0x07) applyEntry s

end Sys2Proof.Machine
end

