-- ==== Sys2Proof/Machine/Time.lean ====
section
/-! DEFINITION. Rack time (R61–R66): its count, loads, the PPS check, loss and realignment, and the commands 0x0505 and 0x0506. -/

namespace Sys2Proof.Machine

/-- A realignment has been made (R66). -/
def aligned (s : State) : State :=
  journal 0x1004 4 0 false [] (onTime (fun t => { t with freeRunning := false }) s)

/-! ### One reference period -/

/-- The count of one period: a slew of `d` ticks inserts or drops one every 1,024 periods. -/
def countTick (t : Timebase) : Timebase :=
  let t := { t with steppedTicks := t.steppedTicks - 1 }
  if t.slew = 0 then { t with rackTime := (t.rackTime + 1) % 2 ^ 64 }
  else if t.slewPeriods + 1 < 1024 then { t with rackTime := (t.rackTime + 1) % 2 ^ 64, slewPeriods := t.slewPeriods + 1 }
  else if 0 < t.slew then { t with rackTime := (t.rackTime + 2) % 2 ^ 64, slewPeriods := 0, slew := t.slew - 1 }
  else { t with slewPeriods := 0, slew := t.slew + 1 }

/-- A step that waits for the current frame's end (R66). -/
def applyStep (s : State) : State :=
  match s.time.step with
  | some d =>
    if s.time.rackTime % 64 ≠ 0 then s
    else
      aligned (onTime (fun t => { t with
        rackTime := ((t.rackTime : Int) + d).toNat % 2 ^ 64, step := none, steppedTicks := 156250000 }) s)
  | none => s

/-- One reference period passes while the management domains run (R61). -/
def timeTick (s : State) : State :=
  if !postUp s then s
  else
    let slewing := s.time.slew != 0
    let s := onTime countTick s
    let s := when (slewing && s.time.slew == 0) aligned s
    applyStep s

/-- SLEW_END (R66): the periods that the slew still takes have passed. -/
def slewEnd (s : State) : State :=
  let t := s.time
  if t.slew = 0 then s
  else
    let periods := 1024 * t.slew.natAbs - t.slewPeriods
    aligned (onTime (fun t => { t with
      rackTime := ((t.rackTime : Int) + periods + t.slew).toNat % 2 ^ 64, steppedTicks := t.steppedTicks - periods
      slew := 0, slewPeriods := 0 }) s)

def execSlewEnd (s : State) : Res := .next (slewEnd s)

/-! ### PPS (R62, R63, R66) -/

/-- The difference between the nearest multiple of a second and the count. -/
def ppsDelta (rackTime : Nat) : Int :=
  let off := rackTime % ticksPerSecond
  if 2 * off ≤ ticksPerSecond then -(off : Int) else (ticksPerSecond : Int) - off

/-- Realign (R66). A difference of 0 also ends free-running (DEDUCED from R64). -/
def realign (s : State) : State :=
  let d := ppsDelta s.time.rackTime
  let s := onTime (fun t => { t with awaitingPps := false, badPhase := 0, badPhaseCount := 0 }) s
  if d = 0 then when s.time.freeRunning aligned s
  else if d.natAbs ≤ 64 then onTime (fun t => { t with slew := d, slewPeriods := 0, step := none }) s
  else onTime (fun t => { t with step := some d, slew := 0, slewPeriods := 0 }) s

/-- Rack time is set forward: the running times of commands go on as before (R114). -/
def moveTime (v : Nat) (s : State) : State :=
  let d := v - s.time.rackTime
  onPost (fun p => { p with lbs := tmap (fun _ l => { l with startedAt := l.startedAt + d }) p.lbs }) (onTime (fun t => { t with rackTime := v }) s)

/-- One load at its PPS edge: never back. -/
def applyLoad (l : RackLoad) (s : State) : State :=
  let v := l.seconds * ticksPerSecond
  if v < s.time.rackTime then
    (if l.assigned then journalRule 1 1 0 false 62 [u64 l.seconds] s else postWaiting? l.lb 0x0505 eRange [] s)
  else
    s |> moveTime v
      |> onTime (fun t => { t with
          loadedSinceReset := true, slew := 0, slewPeriods := 0, step := none
          freeRunning := t.freeRunning && t.slew == 0 && t.step.isNone })
      |> postWaiting? l.lb 0x0505 0 (pack [u64 v])

/-- A load is due at an edge that falls at least 1 ms after its acceptance. -/
def loadDue (s : State) (l : RackLoad) : Bool := decide (l.acceptedAt + ticksUs 1000 ≤ s.time.rackTime)

/-- PPS_EDGE: due loads, then the check of R63, then a realignment that is due. -/
def ppsEdge (s : State) : State :=
  let due := s.time.loads.filter (loadDue s)
  let s := onTime (fun t => { t with loads := t.loads.filter fun l => !loadDue s l }) s
  let s := updates due applyLoad s
  let off := s.time.rackTime % ticksPerSecond
  let s :=
    if off = 0 then onTime (fun t => { t with badPhase := 0, badPhaseCount := 0 }) s
    else
      journal 0x1002 1 0 false [u64 off] (onTime (fun t => { t with
        badPhase := off, badPhaseCount := if t.badPhaseCount ≠ 0 ∧ t.badPhase = off then t.badPhaseCount + 1 else 1 }) s)
  if s.time.awaitingPps ∨ 3 ≤ s.time.badPhaseCount then realign s else s

/-- An event of the timebase, which the management domains power. -/
def onClock (f : State → State) (s : State) : Res := .next (when (postUp s) f s)

def execPpsEdge (s : State) : Res := onClock ppsEdge s

/-- PPS_MISSING (R65): no holdover. -/
def execPpsMissing (s : State) : Res := onClock (journal 0x1002 1 0 false []) s

/-! ### The reference (R65, R66) -/

/-- REFERENCE_LOSS. -/
def referenceLoss (s : State) : State :=
  if s.time.holdover then s
  else journal 0x1003 2 0 true [u8 0] (onTime (fun t => { t with holdover := true, awaitingPps := false }) s)

def execReferenceLoss (s : State) : Res := onClock referenceLoss s

/-- HOLDOVER_EXPIRY: 10 ms without the reference. -/
def holdoverExpiry (s : State) : State :=
  if s.time.holdover ∧ !s.time.freeRunning then
    journal 0x1003 2 0 false [u8 1] (onTime (fun t => { t with freeRunning := true }) s) else s

def execHoldoverExpiry (s : State) : Res := onClock holdoverExpiry s

/-- REFERENCE_RETURN: relocked, and the next PPS edge realigns. -/
def referenceReturn (s : State) : State :=
  if s.time.holdover then onTime (fun t => { t with holdover := false, awaitingPps := true }) s else s

def execReferenceReturn (s : State) : Res := onClock referenceReturn s

/-- TIMEBASE_FAILOVER (R61): rack time goes on. -/
def timebaseFailover (s : State) : State :=
  if s.time.onE8 then s else journalRule 1 2 0 false 61 [] (onTime (fun t => { t with onE8 := true }) s)

def execTimebaseFailover (s : State) : Res := onClock timebaseFailover s

/-! ### Commands -/

/-- RACK_TIME_SET (R62): seconds beyond the 64 bits of rack time end "argument range". -/
def rackTimeSet (who : Option Nat) (a : List Byte) (s : State) : CmdOut :=
  let n := arg 0x0505 a 0
  if 2 ^ 64 ≤ n * ticksPerSecond then err eRange s
  else .wait (onTime (fun t => { t with
    loads := t.loads ++ [{ seconds := n, acceptedAt := t.rackTime, assigned := false, lb := who }] }) s)

def execRackTimeSet (lb : Nat) (s : State) : Res := runCmd 0x0505 anyArgs rackTimeSet lb s

def execRackTimeQuery (lb : Nat) (s : State) : Res :=
  runCmd 0x0506 anyArgs (fun _ _ s => .done 0 (pack [u64 (postmark s.time).toNat]) s) lb s

/-- RACK_TIME_SET_TIMEOUT: the oldest set command's load is dropped with its command. -/
def rackTimeSetTimeout (s : State) : State :=
  match s.time.loads.find? fun l => !l.assigned with
  | some l =>
    s |> onTime (fun t => { t with loads := eraseFirst (fun x => !x.assigned) t.loads })
      |> postWaiting? l.lb 0x0505 eTimeout []
  | none => s

def execRackTimeSetTimeout (s : State) : Res := .next (rackTimeSetTimeout s)

end Sys2Proof.Machine
end

