-- ==== Sys2Proof/Machine/Routing.lean ====
section
/-! DEFINITION. The fabric's events: control injection (R68), router decisions (R275), crossings (R268), waits (R276,
R280), and the bank swap of a commit (R287). -/

namespace Sys2Proof.Machine

/-- The slot number (R67). -/
def slotOf (s : State) : Nat := s.time.rackTime / 8 % 8
def frameOf (s : State) : Nat := s.time.rackTime / 64

/-- The die at which an injection point lies. -/
def pointDie (point : Nat) : Nat := if 128 ≤ point then 96 + (point - 128) / 4 else point
def validPoint (point : Nat) : Bool := isDie point || decide (128 ≤ point ∧ point < 192)

/-- A shutdown has stopped injection at every die (R402 step T2). -/
def injectionStopped (s : State) : Bool := s.power.boot == .shutdown

/-- Inject up to 8 waiting control packets of a point in slot 0, each with its postmark (R64, R68). -/
def controlInject (point : Nat) (s : State) : State :=
  let q := tget [] s.fabric.control point
  let last := tget (0, 0) s.fabric.injected point
  let done := if last.1 = frameOf s then last.2 else 0
  if slotOf s ≠ 0 ∨ (dieOf s (pointDie point)).drain ∨ injectionStopped s then s
  else
    let n := min (8 - done) q.length
    let s := onFabric (fun x => { x with
      control := tset x.control point (q.drop n)
      injected := tset x.injected point (frameOf s, done + n) }) s
    updates (q.take n) (fun p s =>
      addFlight { p with postmark := postmark s.time } (.inject (pointDie point) 0) .none s) s

/-- CONTROL_INJECT (R68). -/
def execControlInject (point : Nat) (s : State) : Res :=
  if validPoint point then .next (controlInject point s) else .next s

/-- A router of a die: a tile router, or the one switch of an edge die. -/
def validRouter (d r : Nat) : Bool := if d < 84 then decide (r < 320) else isEdge d && r == 0

/-- ROUTE_DECISION (R275). -/
def execRouteDecision (die router : Nat) (s : State) : Res :=
  if validRouter die router then .next (routerDecision die router [] s) else .next s

/-- New data injections of a packet's class are held: by a commit (R287 step 2), or by a change of the module's number
(R373). -/
def injectionHeld (s : State) (p : Pkt) : Bool :=
  match s.fabric.commit with
  | none => s.disc.held && !p.control
  | some c => !p.control && (s.disc.held || c.set_ == 0xFF || routeSetOf s p.frank.ctx == some c.set_)

/-- Whether a packet may start from where it stands at a router (R68, R269, R287). -/
def mayStart (s : State) (d r : Nat) (f : Flight) : Bool :=
  match f.loc with
  | .inject e _ =>
    e == d && !injectionStopped s && (if d < 84 then hubTiles.contains r else true)
      && (if f.pkt.control then slotOf s == 0 else slotOf s != 0 && !injectionHeld s f.pkt)
  | _ => (match inputOf d r f.loc with | some (none, _) => true | _ => false)

/-- INJECTION_START (R276): injection never deflects; a start that finds no output waits. -/
def injectionStart (d r pid : Nat) (s : State) : State :=
  match flightOf s pid with
  | some f => if mayStart s d r f then routerDecision d r [(pid, .productiveOnly)] s else s
  | none => s

/-- A seam buffer or landing has waited 1 µs, or a landing 4 µs (R276). -/
def landingWait (pid : Nat) (four : Bool) (s : State) : State :=
  match flightOf s pid with
  | some f =>
    match f.loc with
    | .seamRx d l =>
      let s := if 96 ≤ d then countFabric d 7 1 s else s
      routerDecision d (if d < 84 then l / 4 else 0)
        [(pid, if four ∧ 96 ≤ d then .offModule else .onModule)] s
    | _ => s
  | none => s

def execLandingWaitExpiry (pid : Nat) (fourMicros : Bool) (s : State) : Res := .next (landingWait pid fourMicros s)

/-- Move one sent packet across a crossing, edge-die link or rim link into the buffer at its receiving end, when
that buffer is free: control packets first (R268, R450). -/
def seamCross (d l : Nat) (s : State) : State :=
  let far := if d < 84 then frondFar d (l / 4) (l % 4) else switchFar (d - 96) l
  match far with
  | none => s
  | some (g, l') =>
    let here := s.fabric.flights.filter fun e => e.2.loc == .seamTx d l
    let order := (here.filter fun e => e.2.pkt.control) ++ (here.filter fun e => !e.2.pkt.control && outerEscape e.2.pkt)
      ++ (here.filter fun e => !e.2.pkt.control && !outerEscape e.2.pkt)
    let same (f h : Flight) : Bool :=
      if f.pkt.control || h.pkt.control then f.pkt.control && h.pkt.control
      else outerEscape f.pkt == outerEscape h.pkt && (!outerEscape f.pkt || f.yx == h.yx)
    let place (f : Flight) : Option Loc :=
      if anyAt s (.seamRx g l') (same f) then none else some (.seamRx g l')
    match order.findSome? (fun e => (place e.2).map fun p => (e.1, e.2, p)) with
    | some (pid, f, p) => if linkUp s d l && linkUp s g l' then setFlight pid { f with loc := p } s else s
    | none => s

def validOutput (d l : Nat) : Bool := if d < 84 then decide (l < 1280) else isEdge d && decide (l < 48)

/-- SEAM_CROSSING (R268). -/
def execSeamCrossing (die output : Nat) (s : State) : Res :=
  if validOutput die output then .next (seamCross die output s) else .next s

/-- ESCAPE_WAIT_EXPIRY (R280): the named packet has waited 1 µs for an output in an escape buffer, so that buffer's die raises
drain. -/
def execEscapeWaitExpiry (pid : Nat) (s : State) : Res :=
  .next (match (flightOf s pid).bind escapeDie with
    | some d => onDie d (fun x => { x with drain := true, waited := pid :: x.waited.filter (· != pid) }) s
    | none => s)

/-- ESCAPE_DRAIN_ALARM (R280): drain has held for 10 ms, which is journalled with a PLDM event. -/
def execEscapeDrainAlarm (die : Nat) (s : State) : Res :=
  if isDie die then
    .next (if (dieOf s die).drain then
        journalFrom (dieCtlPc (moduleNumber s) die) 0x7003 1 1 true [u8 die] s
      else s)
  else .next s

/-! ### Time counted by the fabric (R289) -/

/-- The time counters that run at this moment, each with its die: drain (4), injection stall (5), a full seam buffer (6), a full
port egress (9), and the busy outputs of an edge die (256 + output). Each counts once a period (DESIGN CHOICE, assumption 106). -/
def runningTimes (s : State) : List (Nat × Nat) :=
  let egress (p : Nat) : List (Nat × Nat) :=
    (96 + p / 6, 304 + p % 6) :: (if egressSpace s p false then [] else [(96 + p / 6, 9)])
  (((s.fabric.dies.filter fun (e : Nat × Die) => e.2.drain).map (fun e => (e.1, 4))
    ++ s.fabric.flights.flatMap (fun (e : Nat × Flight) => match e.2.loc with
      | .inject d _ => [(d, 5)]
      | .seamTx d l => (d, 6) :: (if 96 ≤ d then [(d, 256 + l)] else [])
      | .seamRx d _ => [(d, 6)]
      | .egress p => egress p
      | _ => [])
    ++ s.fabric.ports.flatMap (fun (e : Nat × Port) => if e.2.tx.all fun q => q.2.isEmpty then [] else egress e.1)) : List (Nat × Nat)).eraseDups

/-- One reference period of 6.4 ns on the fabric's time counters. -/
def fabricTick (s : State) : State :=
  updates (runningTimes s) (fun k s => onDie k.1 (fun x => { x with waits := tset x.waits k.2 (tget 0 x.waits k.2 + 32) }) s) s

/-- One tick of the reference while no command waits: rack time counts (R61), and so do the fabric's time counters. -/
def idleTick (s : State) : State := timeTick (if postUp s then fabricTick s else s)

end Sys2Proof.Machine
end

