-- ==== Sys2Proof/Machine/Fec.lean ====
section
/-! DEFINITION. The bits of a port's transmit chain behind the scrambler: the RS(544,514) codewords, their striping over
the lanes (R229), and the levels of a lane (R206). The field, the generator and the order of the symbols are those of
the IEEE 802.3 RS(544,514) FEC, which R229 names (PRESUMED, row 34 of the log). -/

namespace Sys2Proof.Machine

/-- Twice an element of GF(2^10), whose field polynomial is x^10 + x^3 + 1. -/
def gfDouble (a : Nat) : Nat := if bit (2 * a) 10 then (2 * a) ^^^ 1033 else 2 * a

def gfMulFrom : Nat → Nat → Nat → Nat
  | 0, _, _ => 0
  | n + 1, a, b => (if b % 2 == 1 then a else 0) ^^^ gfMulFrom n (gfDouble a) (b / 2)

/-- A product in GF(2^10). -/
def gfMul (a b : Nat) : Nat := gfMulFrom 10 a b

/-- A polynomial, lowest power first, times (x + root). -/
def timesRoot (g : List Nat) (root : Nat) : List Nat :=
  List.zipWith (fun a b => a ^^^ b) (0 :: g) ((g.map (gfMul root)) ++ [0])

/-- The generator polynomial: the product of x + α^j for j from 0 to 29, lowest power first. -/
def rsGenerator : List Nat := ((List.range 30).map fun j => iterate gfDouble j 1).foldl timesRoot [1]

/-- One message symbol taken into the remainder, whose 30 coefficients stand lowest power first. -/
def rsStep (g rem : List Nat) (symbol : Nat) : List Nat :=
  let top := symbol ^^^ nth 0 rem 29
  List.zipWith (fun a c => a ^^^ gfMul top c) (0 :: rem.take 29) (g.take 30)

/-- The 544 symbols of a codeword, first sent first: 514 of the message, whose first bit is bit 0, and 30 of parity. -/
def rsCodeword (message : Nat) : List Nat :=
  let symbols := (List.range 514).map fun i => message / 2 ^ (10 * i) % 1024
  symbols ++ (symbols.foldl (rsStep rsGenerator) (List.replicate 30 0)).reverse

/-- The symbols of logical lane `lane` of `width` (R229). -/
def stripe (width lane : Nat) (symbols : List Nat) : List Nat :=
  (((List.range symbols.length).zip symbols).filter fun e => decide (e.1 % width = lane)).map (·.2)

/-- The level of a pair of bits at PAM4, 0–3: the first bit is the more significant one of a Gray code (R206). -/
def pam4Level (first second : Bool) : Nat :=
  match first, second with
  | false, false => 0
  | false, true => 1
  | true, true => 2
  | true, false => 3

/-- The levels of bits at PAM4, two bits each. -/
def pamLevels : List Bool → List Nat
  | a :: b :: t => pam4Level a b :: pamLevels t
  | _ => []

/-- The levels that send bits, first sent first: at rate code 0 two levels, the outer ones (−1 and +1), else four. -/
def levelsOf (rate : Nat) (l : List Bool) : List Nat := if rate = 0 then l.map fun b => 3 * b2n b else pamLevels l

/-- The levels of a 10-bit symbol, bit 0 first. -/
def symbolLevels (rate symbol : Nat) : List Nat := levelsOf rate ((List.range 10).map (bit symbol))

/-! ### Decoding (R229): the receive chain undoes the codewords -/

/-- The inverse in GF(2^10): the 1,022nd power. -/
def gfInv (a : Nat) : Nat := (List.range 9).foldl (fun (r : Nat × Nat) _ => let s := gfMul r.2 r.2; (gfMul r.1 s, s)) (1, a) |>.1

/-- A polynomial's value, its coefficients lowest power first. -/
def gfEval (p : List Nat) (x : Nat) : Nat := p.foldr (fun c v => c ^^^ gfMul v x) 0

/-- A power of α, the element 2. -/
def gfAlpha (n : Nat) : Nat := iterate gfDouble (n % 1023) 1

/-- The 30 syndromes of received symbols, first sent first: the coefficient of the highest power is the first symbol. -/
def syndromes (symbols : List Nat) : List Nat := (List.range 30).map fun j => gfEval symbols.reverse (gfAlpha j)

def addPoly (a b : List Nat) : List Nat :=
  (List.range (max a.length b.length)).map fun i => nth 0 a i ^^^ nth 0 b i

/-- One step of the search for the error locator (Berlekamp and Massey): the locator, the last locator of another length with the
discrepancy that ended it, the steps since, and the locator's degree. -/
structure Locator where
  now : List Nat
  old : List Nat
  oldGap : Nat
  since : Nat
  degree : Nat
  deriving DecidableEq, Repr

def locatorStep (syn : List Nat) (l : Locator) (n : Nat) : Locator :=
  let gap := ((List.range (l.degree + 1)).foldl (fun g i => g ^^^ gfMul (nth 0 l.now i) (nth 0 syn (n - i))) 0)
  if gap = 0 then { l with since := l.since + 1 }
  else
    let k := gfMul gap (gfInv l.oldGap)
    let next := addPoly l.now (List.replicate l.since 0 ++ l.old.map (gfMul k))
    if 2 * l.degree ≤ n then { now := next, old := l.now, oldGap := gap, since := 1, degree := n + 1 - l.degree }
    else { l with now := next, since := l.since + 1 }

def locator (syn : List Nat) : Locator :=
  (List.range 30).foldl (locatorStep syn) { now := [1], old := [1], oldGap := 1, since := 1, degree := 0 }

/-- The powers of x whose coefficients are wrong. -/
def errorPlaces (l : List Nat) : List Nat := (List.range 544).filter fun i => gfEval l (gfAlpha (1023 - i)) == 0

/-- The error at a place (Forney), from the locator and the evaluator. -/
def errorValue (loc evaluator : List Nat) (i : Nat) : Nat :=
  let x := gfAlpha (1023 - i)
  let slope := gfEval (((List.range loc.length).zip loc).map fun e => if e.1 % 2 == 1 then e.2 else 0) x
  gfMul (gfEval evaluator x) (gfInv slope)

/-- Decode 544 received symbols: the codeword within 15 symbols of them and the places that were wrong, in the order sent, or `none` when
there is no such codeword. -/
def rsDecode (symbols : List Nat) : Option (List Nat × List Nat) :=
  let syn := syndromes symbols
  if syn.all (· == 0) then some (symbols, [])
  else
    let l := locator syn
    let loc := l.now.take (l.degree + 1)
    let places := errorPlaces loc
    if 15 < l.degree ∨ places.length ≠ l.degree then none
    else
      let evaluator := (List.range 30).map fun n => (List.range (min n (loc.length - 1) + 1)).foldl (fun v i => v ^^^ gfMul (nth 0 loc i) (nth 0 syn (n - i))) 0
      let wrong := places.map (543 - ·)
      let fixed := (List.range 544).map fun k =>
        let v := nth 0 symbols k
        if wrong.contains k then v ^^^ errorValue loc evaluator (543 - k) else v
      if (syndromes fixed).all (· == 0) then some (fixed, wrong) else none

/-- The symbols of a codeword from those of its logical lanes (R229). -/
def unstripe (lanes : List (List Nat)) : List Nat :=
  (List.range (544 / max 1 lanes.length)).flatMap fun k => lanes.map fun l => nth 0 l k

end Sys2Proof.Machine
end

