-- ==== Sys2Proof/Machine/Signals.lean ====
section
/-! DEFINITION. What a lane puts on its pair: the levels of R206, the pseudo-random generators of R210, R212 and R224, beacon blocks (R210)
and training frames (R212). -/

namespace Sys2Proof.Machine

/-- The low `n` bits of a number, bit 0 first. -/
def bitsOf (n w : Nat) : List Bool := (List.range n).map (bit w)

/-- The number whose bits are the list, bit 0 first. -/
def natOf (l : List Bool) : Nat := l.foldr (fun b n => 2 * n + b2n b) 0

/-! ### Generators -/

/-- The next bit of a generator whose register holds the last bits sent, the latest in bit 0: the sum of the bits that its polynomial names. -/
def prbsNext (taps : List Nat) (reg : Nat) : Bool := taps.foldl (fun b k => b != bit reg (k - 1)) false

/-- The register after one more bit. -/
def prbsShift (degree reg : Nat) (b : Bool) : Nat := (2 * reg + b2n b) % 2 ^ degree

/-- Some bits of a generator, and its register after them. -/
def prbsRun (degree : Nat) (taps : List Nat) : Nat → Nat → List Bool × Nat
  | 0, reg => ([], reg)
  | n + 1, reg =>
    let b := prbsNext taps reg
    let r := prbsRun degree taps n (prbsShift degree reg b)
    (b :: r.1, r.2)

/-- The degree of a pattern code's generator, 0 for a code that has none (R224). -/
def prbsDegree (code : Nat) : Nat :=
  match code with | 1 => 7 | 2 => 9 | 3 => 13 | 4 => 15 | 5 => 23 | 6 => 31 | _ => 0

/-- The powers of its polynomial (R212, R224). -/
def prbsTaps (code : Nat) : List Nat :=
  match code with
  | 1 => [7, 6] | 2 => [9, 5] | 3 => [13, 12, 2, 1] | 4 => [15, 14] | 5 => [23, 18] | 6 => [31, 28] | _ => []

/-! ### Beacon blocks and training frames -/

/-- A beacon block's 512 bits (R210): the word, then PRBS7 from the lane's register; with the register after it. -/
def beaconBlock (word reg : Nat) : List Bool × Nat :=
  let r := prbsRun 7 (prbsTaps 1) 448 reg
  (bitsOf 64 word ++ r.1, r.2)

/-- The 256 symbols of a control or status field (R212). -/
def trainingWord (w : Nat) : List Nat := (bitsOf 32 w).flatMap fun b => (List.replicate 4 (if b then [3, 0] else [0, 3])).flatten

/-- A training frame's 4,096 symbols (R212); `reg` is where its PRBS13 starts. -/
def trainingLevels (control status reg : Nat) : List Nat :=
  List.replicate 16 3 ++ List.replicate 16 0 ++ trainingWord control ++ trainingWord status
    ++ pamLevels (prbsRun 13 (prbsTaps 3) 7104 reg).1

end Sys2Proof.Machine
end

