-- ==== Sys2Proof/Machine/Ports.lean ====
section
/-! DEFINITION. The operations of a Gulan port that commands, lane events, link events and the power ladder share:
Detect and fallback (R209–R211, R217–R219, R240), Active (R243, R378), narrowing (R245–R247) and Keep-alive (R251). -/

namespace Sys2Proof.Machine

/-- An event of a Gulan port (R209). -/
def runPort (p : Nat) (f : State → State) (s : State) : Res :=
  if p < 96 then .next (f s) else .next s

/-- An event of a lane of a Gulan port. -/
def runLane (p l : Nat) (f : State → State) (s : State) : Res :=
  if l < 4 then runPort p f s else .next s

/-! ### Lane masks (R245) -/

def maskLanes (m : Nat) : List Nat := (List.range 4).filter fun l => bit m l
def lanesMask (ls : List Nat) : Nat := ls.foldl (fun n l => n + 2 ^ l) 0

/-- The set formed from some lanes under a width limit: the widest allowed width, from the lowest-numbered lanes. -/
def formSet (m limit : Nat) : Nat :=
  let ls := maskLanes m
  lanesMask (ls.take (min (if 4 ≤ ls.length then 4 else if 2 ≤ ls.length then 2 else ls.length) limit))

/-! ### Equalizer presets (R208) -/

/-- Transmit taps of a preset, c(−3) first; the optical class has no c(−3) and c(−2), and its c(0) takes what the others leave. -/
def presetTaps (cls preset : Nat) : List Int :=
  match preset, decide (cls = 2) with
  | 2, _ => [0, 0, -19, 109, 0]
  | 3, false => [-3, 6, -26, 83, -10]
  | 3, true => [0, 0, -26, 92, -10]
  | _, _ => [0, 0, 0, 128, 0]

/-- A lane as Detect and the end of Diagnostic leave it: preset 1, nothing learned; LOS, exclusion, the free-running generator and what the
receiver has adapted to stay. -/
def freshLane (y : Lane) : Lane :=
  { los := y.los, excluded := y.excluded, prbs := y.prbs, ctle := y.ctle, gain := y.gain, ffe := y.ffe, dfe := y.dfe }

/-- A list of signed free values of one byte. -/
def freshTaps : Nat → State → List Int × State
  | 0, s => ([], s)
  | n + 1, s =>
    let a := freshNat 256 s
    let r := freshTaps n a.2
    (((a.1 : Int) - 128) :: r.1, r.2)

/-- A receiver adapts to what it receives (R208): peaking and gain in their ranges, 32 or 16 feed-forward taps, and on the electrical classes a
decision-feedback tap, which the spec leaves open (DESIGN CHOICE, assumption 97). -/
def adapt (p l : Nat) (s : State) : State :=
  let optical := portClass p == 2
  let a := freshNat (if optical then 9 else 25) s
  let b := freshNat 19 a.2
  let c := freshTaps (if optical then 16 else 32) b.2
  let d := if optical then (0, c.2) else freshNat 256 c.2
  onLane p l (fun y => { y with ctle := a.1, gain := (b.1 : Int) - 6, ffe := c.1, dfe := if optical then 0 else (d.1 : Int) - 128 }) d.2

/-! ### Beacons (R210) -/

/-- The beacon word a port sends on a lane. -/
def beaconWord (p : Nat) (x : Port) (l : Nat) : BitVec 64 :=
  let w := 0x3C5A + 2 ^ 16 * l + 2 ^ 20 * x.rateOffer + 2 ^ 22 * portClass p + 2 ^ 24 * b2n x.ready
    + 2 ^ 25 * b2n (decide (0 < (laneOf x l).beacons)) + 2 ^ 32 * (x.attempt % 65536) + 2 ^ 48 * x.reason
  BitVec.ofNat 64 (w + 2 ^ 56 * crc8 56 w 0)

/-- A lane sends a beacon block (R210); its generator starts anywhere. -/
def sendBeacon (p l : Nat) (s : State) : State :=
  let y := laneOf (portOf s p) l
  let a := if y.prbs = 0 then freshNat 127 s else (y.prbs - 1, s)
  let w := beaconWord p (portOf s p) l
  let b := beaconBlock w.toNat (a.1 + 1)
  a.2 |> onLane p l (fun y => { y with prbs := b.2 })
    |> emit (.beaconState p w) |> emit (.levels p l (levelsOf 0 b.1))

def sendBeacons (p : Nat) (s : State) : State := updates (List.range 4) (sendBeacon p) s

/-! ### Fallback and Detect -/

/-- A PORT_SET_WIDTH that waits on the port has completed (R248). -/
def widthDone (p : Nat) (s : State) : State :=
  match (portOf s p).widthLb with
  | some lb => postWaiting lb 0x0407 0 [] (onPort p (fun x => { x with widthLb := none }) s)
  | none => s

/-- The link state of a port with no link: numbering, buffers and handshakes as at the next Active. -/
def clearLink (x : Port) : Port :=
  { x with cap := none, token := 0, partnerToken := 0, samples := 0, minRtt := 0, startSent := false, startGot := false
           next := 0, acked := 0, expected := 0, nak := false, replay := [], resend := [], lastRewindAck := none
           rewinds := 0, tx := [], rx := [], controls := [], credits := 0, owedCredits := 0, narrowing := none
           kaSent := false, kaAckOwed := false, exitSent := false, returning := false, controlOnly := false
           up := false, skewBad := false, mask := 0, rxMask := 0, txBits := 0, txMessage := 0, txMask := 0, markerCount := 0
           narrowGot := none, fecBad := false, rxScramble := 0, rxBits := [], rxBad := false, rxOffset := none }

/-- Packets at the sender with a flit still unacknowledged: those in the replay buffer, those being sent, and those
in the egress buffer (R240). -/
def unackedPackets (s : State) (p : Nat) : Nat :=
  let x := portOf s p
  let sent := (x.replay.map TxFlit.packet).eraseDups
  let going := x.tx.foldl (fun n e => n + (e.2.filter fun t => !sent.contains t.packet).length) 0
  sent.length + going + s.fabric.flights.countP fun e => e.2.loc == .egress p

/-- What leaving Active or Keep-alive discards and counts (R234, R240). -/
def discardLink (p : Nat) (s : State) : State :=
  let x := portOf s p
  if x.state = .active ∨ x.state = .keepalive then
    s |> countPort p 6 (unackedPackets s p)
      |> countPort p 5 (x.rx.countP fun e => !e.2.dead)
      |> onFabric (fun f => { f with flights := f.flights.filter fun e => e.2.loc != .egress p })
  else s

/-- Enter Detect (R210): a new attempt, lanes at preset 1, beacons. -/
def enterDetect (p : Nat) (s : State) : State :=
  s |> onPort p (fun x => { clearLink x with
        state := .detect, idle := false, ready := false, rate := 0, rateOffer := x.rateLimit, attempt := x.attempt + 1, partnerClass := 0
        partnerRate := 0, lanes := tmap (fun _ y => freshLane y) x.lanes })
    |> sendBeacons p |> widthDone p

/-- A state before Active, a fallback from which is a failure (R219). -/
def trainingState : PortState → Bool
  | .detect | .pattern | .lock | .exchange => true
  | _ => false

/-- Journal a fallback; while the agent of the port's die is reloaded, the record waits for the reload's end (R399). -/
def journalFallback (p reason : Nat) (s : State) : State :=
  if (reloadingDies s).contains (p / 6) then
    onPost (fun x => { x with deferred := x.deferred ++ [(p / 6, newRecord (postPc s) 0x6001 1 1 [u8 p, u8 reason] s)] }) s
  else journal 0x6001 1 1 false [u8 p, u8 reason] s

/-- The records that waited for a reload that has ended. -/
def journalDeferred (s : State) : State :=
  let due := s.post.deferred.filter fun e => !(reloadingDies s).contains e.1
  updates due (fun e s => putRecord e.2 s) (onPost (fun x => { x with deferred := x.deferred.filter fun e => (reloadingDies s).contains e.1 }) s)

/-- A fallback (R218, R240): electrical idle for 4 µs on every lane, then Detect. -/
def fallback (p reason : Nat) (s : State) : State :=
  let failed := trainingState (portOf s p).state
  s |> discardLink p
    |> onPort p (fun x => { clearLink x with
        state := .detect, idle := true, ready := false, reason := reason
        failures := if failed then x.failures + 1 else x.failures })
    |> countPort p 7 1
    |> journalFallback p reason

/-- Disabled: electrical idle (R209, R223). -/
def disablePort (p : Nat) (s : State) : State :=
  s |> discardLink p
    |> onPort p (fun x => { clearLink x with
        state := .disabled, idle := false, inBackoff := false, failures := 0, ready := false
        lanes := tmap (fun _ y => freshLane y) x.lanes })
    |> widthDone p

/-- Enable a Disabled port (R209). -/
def enablePort (p : Nat) (s : State) : State :=
  if (portOf s p).state = .disabled then enterDetect p s else s

/-! ### Link control -/

def queueControl (p op : Nat) (s : State) : State :=
  onPort p (fun x => if x.controls.contains op then x else { x with controls := x.controls ++ [op] }) s

/-! ### Keep-alive (R251) -/

/-- The port is held to control class and, where both ends offer Keep-alive, sends KA_ENTER; a narrowing goes first. -/
def kaBegin (p : Nat) (s : State) : State :=
  let x := portOf s p
  let offered := match x.cap with | some c => bit c.features 2 | none => false
  if x.state ≠ .active then s
  else
    let s := onPort p (fun x => { x with controlOnly := true, kaSent := offered && x.narrowing.isNone }) s
    if offered ∧ x.narrowing.isNone then queueControl p 0x05 s else s

/-- Switch the lanes to Keep-alive: preset 1 at rate code 0, the full-rate taps kept (R222). -/
def kaSwitch (p : Nat) (s : State) : State :=
  onPort p (fun x => { x with
    state := .keepalive, kaSent := false, kaAckOwed := false, controlOnly := true, returning := false
    lanes := tmap (fun _ y => { y with kept := y.taps, taps := presetTaps (portClass p) 1 }) x.lanes
    controls := x.controls.filter fun c => c != 0x05 && c != 0x06 }) s

/-- The lanes of a port as its return from Keep-alive leaves them: the kept taps, and symbol lock to be found again (R222). -/
def returnLanes (x : Port) : Tab Lane :=
  if x.state = .keepalive then tmap (fun _ y => { y with taps := y.kept, markers := 0, symbolLock := false }) x.lanes else x.lanes

/-- Leave Keep-alive, or an entry still in its handshake, or the hold to control class. -/
def kaLeave (p : Nat) (s : State) : State :=
  let x := portOf s p
  if x.state = .keepalive ∨ x.kaSent then
    s |> onPort p (fun x => { x with
          state := .active, kaSent := false, kaAckOwed := false, exitSent := true
          returning := x.state == .keepalive, controlOnly := false, lanes := returnLanes x
          controls := x.controls.filter fun c => c != 0x05 && c != 0x06 })
      |> queueControl p 0x07
  else onPort p (fun x => { x with controlOnly := false }) s

/-! ### Active (R243, R378) -/

/-- Whether a port that returns to Active returns to use, and what is journalled where it does not (R373, R378; DEDUCED,
assumption 105). -/
def partnerVerdict (s : State) (x : Port) : Bool × Option Nat :=
  match x.cap, x.recorded with
  | some c, some r =>
    if pcModule c.postcode = pcModule r.postcode ∧ c.role = r.role then (true, none) else (false, some 0x9001)
  | _, _ => if s.disc.assigned then (false, some 0x9002) else (true, none)

/-- This module has told its parent that its subtree is complete, or has all its children's reports as the root: a partner that reaches
Active from now on misses the epoch (R373). -/
def subtreeClosed (s : State) : Bool :=
  s.disc.step == .computing || s.disc.step == .assigning || s.disc.step == .committing

/-- Enter Active: numbering from 0, the partner's escape grant (R236, R237, R279), failures cleared (R219). -/
def enterActive (p : Nat) (s : State) : State :=
  let x := portOf s p
  let v := partnerVerdict s x
  let late := subtreeClosed s
  let v := if late ∧ x.recorded.isNone then (false, some 0x9002) else v
  let grant := match x.cap with | some c => c.credits | none => 0
  s |> onPort p (fun x => { x with
        state := .active, failures := 0, inBackoff := false, up := v.1, credits := grant, rxMask := x.mask
        next := 0, acked := 0, expected := 0, nak := false, replay := [], resend := [], rewinds := 0
        lastRewindAck := none, controls := [] })
    |> (match v.2 with | some code => journal code 4 1 true [u8 p] | none => id)
    |> when (late && v.2 != some 0x9002) (journal 0x9002 4 1 true [u8 p])
    |> when late (onDisc (fun d => { d with late := p :: d.late.filter (· != p) }))
    |> when s.power.portsKept (kaBegin p)

/-! ### Narrowing (R246, R247) -/

/-- Step 1: the detecting end switches to a narrower mask and sends NARROW; a replay in progress starts again at step 4. `trigger`: 0 LOS, 1 loss of lock, 2 corrected
symbols, 3 uncorrectable codewords, 4 PORT_SET_WIDTH, 5 the partner. -/
def narrowTo (p mask trigger : Nat) (s : State) : State :=
  let old := (portOf s p).mask
  s |> onPort p (fun x => { x with mask := mask, narrowing := some { oldMask := old, newMask := mask }, resend := [] })
    |> countPort p 4 1
    |> journal 0x6002 2 1 (trigger == 2) [u8 p, u8 old, u8 mask, u8 trigger]
    |> queueControl p 0x03

/-- A rewind is in progress: flits still to be sent again, or no advance of A since the last (R239). -/
def rewinding (x : Port) : Bool := x.rewinds != 0 || !x.resend.isEmpty

/-- A PORT_SET_WIDTH that waited for a rewind, or for another narrowing, narrows once A has passed the rewind point. -/
def narrowIfWaiting (p : Nat) (s : State) : State :=
  let x := portOf s p
  if x.widthLb.isSome ∧ x.narrowing.isNone ∧ x.state = .active ∧ !rewinding x then
    (if x.widthLimit < maskWidth x.mask then narrowTo p (formSet x.mask x.widthLimit) 4 s else widthDone p s)
  else s

end Sys2Proof.Machine
end

