-- ==== Sys2Proof/Machine/CmdFabric.lean ====
section
/-! DEFINITION. The route-table and port commands 0x0401–0x0409 (R123, R209, R248, R249, R271, R277, R286) and the
drain, swap and resume of a commit (R287). -/

namespace Sys2Proof.Machine

/-! ### Route tables -/

/-- An entry with its reserved bits 0 (R271). -/
def plainEntry (kind i v : Nat) : Nat :=
  match kind with
  | 0 => v &&& 0xFFFFFFFF0FFFFF03
  | 1 => v &&& 0x1F
  | 2 => if i % 2 = 0 then v else v &&& 0xFFFFFFFF
  | 5 => v &&& 0xFFF01
  | _ => v

def putEntry (kind i v : Nat) (b : Bank) : Bank :=
  let e := plainEntry kind i v
  match kind with
  | 0 => { b with modules := tset b.modules i e, down := b.down.filter (· != i) }
  | 1 => { b with dies := tput 0 b.dies i e }
  | 2 => { b with setPorts := tput 0 b.setPorts i e }
  | 3 => { b with setReach := tput 0 b.setReach i e }
  | _ => { b with axis := tput 0 b.axis i e }

/-- Entries written from an index on. -/
def putEntries (kind : Nat) : Nat → List Nat → Bank → Bank
  | _, [], b => b
  | i, v :: vs, b => putEntries kind (i + 1) vs (putEntry kind i v b)

/-- An entry of the active bank. -/
def getEntry (s : State) (kind i : Nat) : Nat :=
  let b := s.fabric.active
  match kind with
  | 0 => moduleEntry s i
  | 1 => dieEntryOf b i
  | 2 => tget 0 b.setPorts i
  | 3 => tget 0 b.setReach i
  | 4 => logicalEntry s i
  | _ => tget 0 b.axis i

/-- ROUTE_STAGE (R271). -/
def routeStage (_ : Option Nat) (a : List Byte) (s : State) : CmdOut :=
  let kind := arg 0x0401 a 0
  let first := arg 0x0401 a 2
  ok0 (onFabric (fun x => { x with staged := putEntries kind first ((argFields 0x0401 a).drop 3) x.staged }) s)

def execRouteStage (lb : Nat) (s : State) : Res := runCmd 0x0401 anyArgs routeStage lb s

/-- ROUTE_READ (R271). -/
def routeRead (_ : Option Nat) (a : List Byte) (s : State) : CmdOut :=
  let kind := arg 0x0403 a 0
  let first := arg 0x0403 a 2
  let n := arg 0x0403 a 1
  .done 0 (pack ((List.range n).map fun i => u64 (getEntry s kind (first + i)))) s

def execRouteRead (lb : Nat) (s : State) : Res := runCmd 0x0403 anyArgs routeRead lb s

/-! ### The checks of R286 -/

/-- Check 1: no context lies in two of the sets. -/
def setsDisjoint (t : Tab (List Nat)) : Bool :=
  t.all fun e => t.all fun f => e.1 == f.1 || !(e.2.any fun c => f.2.contains c)

/-- Check 2: no logical port lies in the masks of two sets. -/
def masksDisjoint (b : Bank) : Bool :=
  b.setPorts.all fun e => b.setPorts.all fun f =>
    e.1 == f.1 || e.1 % 2 != f.1 % 2 || (e.2 &&& f.2) == 0

/-- The postmaster checks the tables as its own die, E0, holds them. -/
def checkEntry (b : Bank) (m : Nat) : Nat := entryIn b 96 m
def entryV (b : Bank) (m : Nat) : Bool := bit (checkEntry b m) 0
def tunnelDest (e : Nat) : Nat := bits e 27 16

/-- Check 3 for one set and module. -/
def reachOk (b : Bank) (set_ m : Nat) : Bool :=
  let e := checkEntry b m
  bit e 0 && (exitsOf e).any (fun lp => decide (lp < 96) && maskHas b set_ lp)
    && (!bit e 1 || reachHas b set_ (tunnelDest e))

def reachesOk (own : Nat) (b : Bank) : Bool :=
  b.setReach.all fun e => (List.range 64).all fun i =>
    let m := 64 * (e.1 % 64) + i
    !bit e.2 i || m == own || reachOk b (e.1 / 64) m

/-- Check 4. -/
def axisOk (b : Bank) : Bool := b.axis.all fun e => !bit e.2 0 || entryV b (bits e.2 19 8)

/-- Check 5. -/
def tunnelsOk (b : Bank) : Bool :=
  b.modules.all fun e => !(bit e.2 0 && bit e.2 1) || (bits e.2 15 8 != 0 && entryV b (tunnelDest e.2))

def stagedOk (s : State) : Bool :=
  let b := s.fabric.staged
  setsDisjoint s.fabric.routeSets && masksDisjoint b && reachesOk (moduleNumber s) b && axisOk b && tunnelsOk b

/-! ### Commit (R287) -/

/-- A packet of the held class that a point of this module injected before the hold. -/
def heldFlight (s : State) (set_ : Nat) (f : Flight) : Bool :=
  !f.pkt.control && pcModule f.pkt.src == moduleNumber s
    && (match f.loc with | .inject .. => false | _ => true)
    && (set_ == 0xFF || routeSetOf s f.pkt.frank.ctx == some set_)

/-- The same of a packet that a port is sending. -/
def heldTx (s : State) (set_ : Nat) (t : TxPkt) : Bool :=
  match t.ctx with
  | some c => set_ == 0xFF || routeSetOf s c == some set_
  | none => false

/-- Steps 1 and 2: hold the class, and mark what was injected before. -/
def beginCommit (lb : Option Nat) (set_ : Nat) (s : State) : State :=
  onFabric (fun x => { x with
    commit := some { lb := lb, set_ := set_ }
    flights := tmap (fun _ f => { f with preHold := heldFlight s set_ f }) x.flights
    ports := tmap (fun _ p => { p with
      tx := tmap (fun _ q => q.map fun t => { t with preHold := heldTx s set_ t }) p.tx }) x.ports }) s

/-- ROUTE_COMMIT. -/
def routeCommit (who : Option Nat) (a : List Byte) (s : State) : CmdOut :=
  if s.fabric.commit.isSome then err eBusyObject s
  else if !stagedOk s then err eRouteSet s
  else .wait (beginCommit who (arg 0x0402 a 0) s)

def execRouteCommit (lb : Nat) (s : State) : Res := runCmd 0x0402 anyArgs routeCommit lb s

/-- Step 3 has ended: every packet marked at the hold has left, been delivered or been dead-lettered. -/
def drained (s : State) : Bool :=
  !(s.fabric.flights.any fun e => e.2.preHold)
    && !(s.fabric.ports.any fun e => e.2.tx.any fun q => q.2.any TxPkt.preHold)

/-- Copy `n` entries from `lo` on from one table to another. -/
def copyKeys (lo n : Nat) (src dst : Tab Nat) : Tab Nat :=
  (List.range n).foldl (fun t i => tput 0 t (lo + i) (tget 0 src (lo + i))) dst

/-- The active bank after a swap. -/
def swapped (set_ : Nat) (staged active : Bank) : Bank :=
  if set_ = 0xFF then staged
  else { active with
    setPorts := copyKeys (2 * set_) 2 staged.setPorts active.setPorts
    setReach := copyKeys (64 * set_) 64 staged.setReach active.setReach }

/-- Steps 4 and 5, and the copy into the staged bank. -/
def bankSwap (s : State) : State :=
  match s.fabric.commit with
  | some c =>
    if drained s then
      let b := swapped c.set_ s.fabric.staged s.fabric.active
      postWaiting? c.lb 0x0402 0 [] (onFabric (fun x => { x with active := b, staged := b, commit := none }) s)
    else s
  | none => s

def execBankSwap (s : State) : Res := .next (bankSwap s)

/-- A commit that does not come about: injection resumes, the old tables stay, and its command ends with an error. -/
def cancelCommit (e : Nat) (s : State) : State :=
  match s.fabric.commit with
  | some c =>
    postWaiting? c.lb 0x0402 e [] (onFabric (fun x => { x with
      commit := none, flights := tmap (fun _ f => { f with preHold := false }) x.flights }) s)
  | none => s

/-- The drain has taken 100 µs. -/
def drainTimeout (s : State) : State := if drained s then s else cancelCommit eTimeout s

def execCommitDrainTimeout (s : State) : Res := .next (drainTimeout s)

/-- ROUTE_SET_DEFINE (R286): check 1 on the sets as defined. The context IDs are those of every tenant whose packets the set admits, other
modules' among them (R190, R272), so the list names no object of the requester's. -/
def routeSetDefine (_ : Option Nat) (a : List Byte) (s : State) : CmdOut :=
  let r := arg 0x0404 a 0
  let cs := ((argFields 0x0404 a).drop 2).eraseDups
  let t := tset s.fabric.routeSets r cs
  if !setsDisjoint t then err eRouteSet s
  else ok0 (onFabric (fun x => { x with routeSets := t }) s)

def execRouteSetDefine (lb : Nat) (s : State) : Res := runCmd 0x0404 anyArgs routeSetDefine lb s

/-- DEFLECT_LIMIT (R277). -/
def execDeflectLimit (lb : Nat) (s : State) : Res :=
  runCmd 0x0405 anyArgs (fun _ a s => ok0 (onFabric (fun x => { x with deflectLimit := arg 0x0405 a 0 }) s)) lb s

/-! ### Ports -/

/-- The state codes of R209. -/
def portCode : PortState → Nat
  | .disabled => 0 | .detect => 1 | .pattern => 2 | .lock => 3 | .exchange => 4 | .active => 5 | .backoff => 6
  | .diagnostic => 7 | .keepalive => 8

/-- The rate code of the lanes (R204, R209). -/
def laneRate (x : Port) : Nat :=
  match x.state with
  | .pattern | .lock | .exchange | .active | .diagnostic => x.rate
  | _ => 0

/-- PORT_QUERY (R123). -/
def portQuery (_ : Option Nat) (a : List Byte) (s : State) : CmdOut :=
  let x := portOf s (arg 0x0406 a 0)
  let formed := match x.state with | .pattern | .lock | .exchange | .active | .keepalive => true | _ => false
  .done 0 (pack [u8 (portCode x.state), u8 (if formed then maskWidth x.mask else 0), u8 (laneRate x), u8 x.reason
    , u32 (match x.cap with | some c => c.postcode | none => noPostcode).toNat]) s

def execPortQuery (lb : Nat) (s : State) : Res := runCmd 0x0406 anyArgs portQuery lb s

/-- A retrain under R218 with reason 0x0D: the fallback and its idle; in Back-off, whose lanes are idle already, Detect starts at once. -/
def retrain (p : Nat) (s : State) : State :=
  match (portOf s p).state with
  | .backoff => s |> onPort p (fun x => { x with reason := 0x0D }) |> countPort p 7 1 |> journalFallback p 0x0D |> enterDetect p
  | .diagnostic => fallback p 0x0D (onPort p (fun x => { x with lanes := tmap (fun _ y => freshLane y) x.lanes }) s)
  | _ => fallback p 0x0D s

/-- PORT_SET_WIDTH (R248): live narrowing, or a retrain under the new limit; a wider width removes the port's kind 0x06 entry
(R400). -/
def portSetWidth (who : Option Nat) (a : List Byte) (s : State) : CmdOut :=
  let p := arg 0x0407 a 0
  let w := arg 0x0407 a 1
  let x := portOf s p
  let s := if x.widthLimit < w then mapRemove (sameObject 0x06 (96 + p / 6) (p % 6)) s else s
  let s := onPort p (fun x => { x with widthLimit := w, widthLb := who }) s
  let set_ := fun s => onPort p (fun x => { x with widthLb := none }) s
  if x.state = .active ∧ w < maskWidth x.mask then
    .wait (if rewinding x ∨ x.narrowing.isSome then s else narrowTo p (formSet x.mask w) 4 s)
  else if x.state = .disabled ∨ x.state = .diagnostic then ok0 (set_ s)
  else if x.state = .backoff then ok0 (retrain p (set_ s))
  else .wait (retrain p s)

def execPortSetWidth (lb : Nat) (s : State) : Res := runCmd 0x0407 anyArgs portSetWidth lb s

/-- PORT_SPARE (R249), recorded under R400. -/
def portSpare (_ : Option Nat) (a : List Byte) (s : State) : CmdOut :=
  let bad := arg 0x0408 a 0
  let spare := arg 0x0408 a 1
  let lp := logicalOf s bad
  if 96 ≤ lp then err eRange s
  else
    let kept := (portOf s bad).recorded
    ok0 (s |> disablePort bad |> disablePort spare |> sparePort bad spare
      |> onPort spare (fun x => { x with recorded := kept })
      |> onPort bad (fun x => { x with recorded := none })
      |> mapAdd [mapEntry 0x07 (96 + bad / 6) (bad % 6) 0 0 spare]
      |> enterDetect spare)

def execPortSpare (lb : Nat) (s : State) : Res := runCmd 0x0408 anyArgs portSpare lb s

/-- The action of PORT_ADMIN. -/
def adminIs (n : Nat) (a : List Byte) : Bool := field a 1 1 == n

def clearFailures (p : Nat) (s : State) : State := onPort p (fun x => { x with failures := 0, inBackoff := false }) s

/-- PORT_ADMIN action 0 (R209). -/
def execPortDisable (lb : Nat) (s : State) : Res :=
  runCmd 0x0409 (adminIs 0) (fun _ a s => ok0 (disablePort (arg 0x0409 a 0) s)) lb s

/-- PORT_ADMIN action 1 (R209, R225). -/
def execPortEnable (lb : Nat) (s : State) : Res :=
  runCmd 0x0409 (adminIs 1) (fun _ a s =>
    let p := arg 0x0409 a 0
    let st := (portOf s p).state
    ok0 (clearFailures p s |> when (st == .disabled || st == .diagnostic) (enterDetect p))) lb s

/-- PORT_ADMIN action 2 (R209, R218, R219, R225). -/
def execPortRetrain (lb : Nat) (s : State) : Res :=
  runCmd 0x0409 (adminIs 2) (fun _ a s =>
    let p := arg 0x0409 a 0
    ok0 (clearFailures p (if (portOf s p).state = .disabled then s else retrain p s))) lb s

end Sys2Proof.Machine
end

