-- ==== Sys2Proof/Machine/Flags.lean ====
section
/-! DEFINITION. The status words and flag computations: W1C clears with the set that wins (R5), and every register a
function reads (R427–R437). -/

namespace Sys2Proof.Machine

/-- A W1C write: the bits written 1 clear, except those hardware sets in the same cycle (R5). -/
def w1c (old written hw : Nat) : Nat :=
  (List.range 32).foldl (fun n i =>
    if (bit old i && !bit written i) || bit hw i then n + 2 ^ i else n) 0

/-- The power state a status field shows: 0–4, 4 before P0 is first reached. -/
def powerCode (s : State) : Nat := match s.power.state with | some n => n | none => 4

/-- 0 locked, 1 holdover, 2 free-running (R434, R415). -/
def referenceCode (t : Timebase) : Nat := if t.freeRunning then 2 else if t.holdover then 1 else 0

/-- The rings bound to a function; the private queues of steward cores are none of them (R323). -/
def ringsOwned (s : State) (k : Nat) : List (Nat × Ring) :=
  s.rings.filter fun e => decide (e.1 < 1024) && e.2.state != .free && e.2.owner == k

/-- FN_ID (R429); kind 2 on the diagnostic PF. -/
def fnId (s : State) (k : Nat) : Nat :=
  k % 64 + 64 * (k / 64) + 256 * (if inSafe s then 2 else if k % 64 = 0 then 0 else 1) + 2 ^ 16 * k

def fnStatus (s : State) (k : Nat) : Nat :=
  let f := fnOf s k
  b2n s.power.ready + 2 * b2n f.busMaster + 4 * b2n f.pasid + 8 * powerCode s + 2 ^ 16 * (ringsOwned s k).length

/-- MOD_STATUS (R434). -/
def modStatus (s : State) : Nat :=
  b2n s.power.ready + 2 * (s.power.verdict % 4) + 8 * powerCode s + 64 * b2n s.post.onE8 + 128 * b2n s.post.standby
    + 2 ^ 8 * (moduleNumber s) + 2 ^ 20 * b2n s.disc.assigned + 2 ^ 21 * referenceCode s.time
    + 2 ^ 23 * (frondsInService s).length + 2 ^ 32 * activeTiles s

/-- LB_STATE's code (R111). -/
def lbCode : LbState → Nat
  | .idle => 0 | .accepted => 1 | .running => 2 | .done => 3 | .aborting => 4

/-- A letterbox block read at an offset of its 4 KiB, 8 bytes (R431). -/
def lbRead (s : State) (k off : Nat) : Nat :=
  let l := lbOf s k
  if off = 0x000 then k + 2 ^ 16
  else if off = 0x008 then lbCode l.state + 2 ^ 16 * (l.safePoints % 2 ^ 16)
  else if off = 0x020 then b2n l.ready + 2 * b2n l.overrun + 4 * b2n l.failed
  else if off = 0x028 then l.overruns
  else if 0x100 ≤ off ∧ off < 0x800 then leNat (tabBytes l.cmd (off - 0x100) 8)
  else if 0x800 ≤ off ∧ off < 0x1000 then leNat (tabBytes l.res (off - 0x800) 8)
  else 0

/-- INT_SOURCE (R432). -/
def intSource (s : State) (k : Nat) : Nat :=
  let f := fnOf s k
  let v := f.intSelect
  if v = 0 then 1
  else if vectorCount k ≤ v then 0
  else
    match (ringsOwned s k).find? (fun e => e.2.vector == v) with
    | some e => 2 + 2 ^ 16 * e.1 + 2 ^ 31 * b2n ((ringsOwned s k).any fun e => e.2.vector == v && e.2.timerOn)
    | none => if f.eventEnable && f.eventVector == v then 3 else 0

def intRead (s : State) (k off : Nat) : Nat :=
  let f := fnOf s k
  match off with
  | 0x000 => vectorCount k + 2 ^ 16 * ((ringsOwned s k).countP fun e => e.2.vector != 0xFFFF)
  | 0x008 => f.eventVector + 2 ^ 15 * b2n f.eventEnable
  | 0x010 => f.intSelect
  | 0x018 => intSource s k
  | 0x020 => f.intStatus
  | 0x028 => f.sent
  | 0x030 => f.withheld
  | _ => 0

def fnRead (s : State) (k off : Nat) : Nat :=
  if off = 0x000 then fnId s k
  else if off = 0x008 then fnStatus s k
  else if off = 0x010 then (fnOf s k).events
  else if off = 0x018 then (postmark s.time).toNat
  else if 0x040 ≤ off ∧ off < 0x068 ∧ off % 8 = 0 then tget 0 (fnOf s k).eventCounts ((off - 0x40) / 8)
  else 0

/-- A sensor mirror entry from its stored reading and condition (R435). -/
def mirrorEntry (t : Tab (Int × Nat)) (id : Nat) : Nat :=
  match tfind t id with
  | some (v, c) => (v % 2 ^ 24).toNat + 2 ^ 30 * c
  | none => 2 ^ 30

/-- Numeric sensor IDs of R414. -/
def numericSensor (id : Nat) : Bool :=
  decide (1 ≤ id ∧ id ≤ 336) || decide (0x201 ≤ id ∧ id < 0x221) || decide (0x301 ≤ id ∧ id < 0x355)
    || decide (0x361 ≤ id ∧ id < 0x371) || decide (0x380 ≤ id ∧ id ≤ 0x387)

/-- State sensor IDs of R415. -/
def stateSensor (id : Nat) : Bool :=
  decide (0x400 ≤ id ∧ id ≤ 0x406) || decide (0x410 ≤ id ∧ id < 0x464) || decide (0x480 ≤ id ∧ id < 0x4E0)

def sensorWord (s : State) (id : Nat) : Nat :=
  if numericSensor id || stateSensor id then mirrorEntry s.mgmt.mirror id else 0xC0000000

/-- Two adjacent sensor entries. -/
def sensorPair (s : State) (base first off : Nat) : Nat :=
  sensorWord s (first + (off - base) / 4) + 2 ^ 32 * sensorWord s (first + (off - base) / 4 + 1)

/-- The module-wide status block of PF0 (R434, R435). -/
def modRead (s : State) (off : Nat) : Nat :=
  if off = 0x0000 then Config.deviceIdentity
  else if off = 0x0008 then modStatus s
  else if off = 0x0010 then (postmark s.time).toNat
  else if off = 0x0018 then s.host.modEvents
  else if off = 0x0020 then s.post.journal.next
  else if off = 0x0028 then (poolNow s.power).floor.toNat + 2 ^ 32 * (s.power.inputMw / 1000)
  else if 0x0040 ≤ off ∧ off < 0x0078 ∧ off % 8 = 0 then tget 0 s.host.modEventCounts ((off - 0x40) / 8)
  else if 0x1000 ≤ off ∧ off < 0x1E20 then sensorPair s 0x1000 0 off
  else if 0x2000 ≤ off ∧ off < 0x2380 then sensorPair s 0x2000 0x400 off
  else 0

/-- RING_STATE's state code (R134). -/
def ringCode : RingState → Nat
  | .free => 0 | .allocated => 1 | .stopped => 2 | .running => 3 | .held => 4 | .cqFull => 5 | .error => 6

/-- A destination die, of any module, as one number. -/
def destKey (pc : Postcode) : Nat := pc.toNat / 2 ^ 13

/-- The run a ring is in toward a destination die (R258). -/
def runOf (g : Ring) (k : Nat) : RunTo := match g.runs.find? (fun x => x.dest == k) with | some x => x | none => { dest := k }

/-- Registered packets of a ring that a loss holds (R137, R155). -/
def heldCount (g : Ring) : Nat :=
  g.started.foldl (fun n d => n + d.held.countP fun p => (runOf g (destKey p.dest)).lost) 0

/-- A ring page (R137, R436): registers at 8-byte stride from 0x000. -/
def ringRead (s : State) (r off : Nat) : Nat :=
  let g := ringOf s r
  match off with
  | 0x008 => g.tail
  | 0x010 => g.head
  | 0x018 => g.cqWritten
  | 0x020 => g.cqConsumed
  | 0x028 => ringCode g.state + 2 ^ 8 * g.reason
      + 2 ^ 16 * (heldCount g % 2 ^ 16)
  | 0x030 => g.status
  | _ => 0

/-- The ring that a ring page of a function names: the global number on PF0, the local slot on a VF (R43, R44). -/
def pageRing (s : State) (k page : Nat) : Option Nat :=
  if k % 64 = 0 then
    if page < 1024 ∧ (ringOf s page).state ≠ .free ∧ (ringOf s page).owner = k then some page else none
  else
    (s.rings.find? fun e => decide (e.1 < 1024) && e.2.state != .free && e.2.owner == k && e.2.slot == page).map Prod.fst

/-- DG_STATUS (R437). -/
def dgStatus (s : State) : Nat :=
  s.power.safeReason + 2 ^ 8 * b2n s.post.onE8
    + 2 ^ 9 * b2n (tget .untested s.power.results 96 == .pass || tget .untested s.power.results 96 == .repaired)
    + 2 ^ 10 * b2n (tget .untested s.power.results 104 == .pass || tget .untested s.power.results 104 == .repaired)
    + 2 ^ 11 * b2n s.power.romRecovery
    + 2 ^ 16 * ((allFronds.countP fun d => !dieUp s d) % 256)
    + 2 ^ 24 * (allEdges.countP fun d => (dieOf s d).failed)

def memberCode : Member → Nat
  | .untested => 0 | .pass => 1 | .repaired => 2 | .failed => 3 | .unreachable => 4

/-- The diagnostic PF's BAR0 (R437). -/
def dgRead (s : State) (k off : Nat) : Nat :=
  if off = 0x0000 then fnId s k
  else if off = 0x0008 then dgStatus s
  else if off = 0x0010 then (postmark s.time).toNat
  else if off = 0x0018 then s.post.journal.next
  else if 0x1000 ≤ off ∧ off < 0x2000 then lbRead s k (off - 0x1000)
  else if 0x2000 ≤ off ∧ off < 0x2080 then
    leNat ((List.range 8).map fun i =>
      let d := off - 0x2000 + i
      if isDie d then BitVec.ofNat 8 (memberCode (tget .untested s.power.results d)) else 0xFF)
  else if 0x4000 ≤ off ∧ off < 0x4E20 then sensorPair s 0x4000 0 off
  else if 0x5000 ≤ off ∧ off < 0x5380 then sensorPair s 0x5000 0x400 off
  else 0

/-- Pending bits of 64 vectors (R433). -/
def pendingBits (f : Fn) (first : Nat) : Nat :=
  (List.range 64).foldl (fun n i => if (tget {} f.vectors (first + i)).pending then n + 2 ^ i else n) 0

/-- The MSI-X table and pending-bit array in BAR2 (R43, R433). -/
def bar2Read (s : State) (k off : Nat) : Nat :=
  let f := fnOf s k
  let pba := if k % 64 = 0 then 0x8000 else 0x2000
  if off < 16 * vectorCount k then
    let e := tget {} f.vectors (off / 16)
    if off % 16 = 0 then e.address else e.data + 2 ^ 32 * e.control
  else if pba ≤ off ∧ off < pba + vectorCount k / 8 then pendingBits f (8 * (off - pba))
  else 0

/-- An 8-byte register at an 8-byte-aligned offset of a function's BAR (R93, R106, R427–R437); offsets outside every
block read 0, and so does every offset in D3hot. The diagnostic PF has BAR0 only (R43). -/
def barRead (s : State) (k bar off : Nat) : Nat :=
  if (fnOf s k).d3 then 0
  else if inSafe s then (if bar = 0 then dgRead s k off else 0)
  else if bar = 2 then bar2Read s k off
  else if off < 0x1000 then fnRead s k off
  else if off < 0x2000 then lbRead s k (off - 0x1000)
  else if off < 0x3000 then intRead s k (off - 0x2000)
  else if k % 64 = 0 then
    if 0x10000 ≤ off ∧ off < 0x20000 then modRead s (off - 0x10000)
    else if 0x400000 ≤ off ∧ off < 0x800000 then
      match pageRing s k ((off - 0x400000) / 0x1000) with
      | some r => ringRead s r (off % 0x1000)
      | none => 0
    else 0
  else if 0x40000 ≤ off ∧ off < 0x80000 then
    match pageRing s k ((off - 0x40000) / 0x1000) with
    | some r => ringRead s r (off % 0x1000)
    | none => 0
  else 0

end Sys2Proof.Machine
end

