-- ==== Sys2Proof/Machine/Aes.lean ====
section
/-! DEFINITION. AES-256 and its two modes: XTS over 64-byte data units (R196, R197) and GCM (R198, R199, R261).
The spec names the algorithms; FIPS 197, IEEE 1619 and SP 800-38D give them (PRESUMED, row 5 of the log). Bytes
are numbers below 256. -/

namespace Sys2Proof.Machine

/-- Multiplication by x in GF(2^8) with the AES polynomial. -/
def xtime (a : Nat) : Nat := let b := a * 2; if 256 ≤ b then (b - 256) ^^^ 0x1B else b

def gmulFrom : Nat → Nat → Nat → Nat → Nat
  | 0, _, _, acc => acc
  | n + 1, a, b, acc => gmulFrom n (xtime a) (b / 2) (if b % 2 = 1 then acc ^^^ a else acc)

/-- Multiplication in GF(2^8). -/
def gmul (a b : Nat) : Nat := gmulFrom 8 a b 0

/-- The inverse in GF(2^8), with 0 for 0: the power 254. -/
def ginv (a : Nat) : Nat :=
  let a2 := gmul a a; let a3 := gmul a2 a; let a6 := gmul a3 a3; let a12 := gmul a6 a6
  let a15 := gmul a12 a3; let a30 := gmul a15 a15; let a60 := gmul a30 a30; let a120 := gmul a60 a60
  let a126 := gmul a120 a6; let a127 := gmul a126 a
  gmul a127 a127

def rotl8 (a n : Nat) : Nat := (a * 2 ^ n % 256) + a / 2 ^ (8 - n)

def subByte (a : Nat) : Nat :=
  let b := ginv a
  b ^^^ rotl8 b 1 ^^^ rotl8 b 2 ^^^ rotl8 b 3 ^^^ rotl8 b 4 ^^^ 0x63

def invSubByte (a : Nat) : Nat := ginv (rotl8 a 1 ^^^ rotl8 a 3 ^^^ rotl8 a 6 ^^^ 0x05)

def xorBytes (a b : List Nat) : List Nat := List.zipWith (· ^^^ ·) a b

/-- The next word of the key schedule, `i` its number, from the words before it, newest first. -/
def scheduleWord (i rcon : Nat) (w : List (List Nat)) : List Nat :=
  let t := nth [] w 0
  let t := if i % 8 = 0 then
      match t with
      | [a, b, c, d] => [subByte b ^^^ rcon, subByte c, subByte d, subByte a]
      | _ => t
    else if i % 8 = 4 then t.map subByte else t
  xorBytes (nth [] w 7) t

def scheduleFrom : Nat → Nat → Nat → List (List Nat) → List (List Nat)
  | 0, _, _, w => w
  | n + 1, i, rcon, w =>
    scheduleFrom n (i + 1) (if i % 8 = 0 then xtime rcon else rcon) (scheduleWord i rcon w :: w)

/-- The 15 round keys of AES-256, each 16 bytes, first first. -/
def roundKeys (key : List Nat) : List (List Nat) :=
  (chunks 4 15 ((scheduleFrom 52 8 1 (chunks 4 8 key).reverse).reverse)).map fun ws => ws.flatten

def shiftRows (s : List Nat) : List Nat :=
  (List.range 16).map fun i => nth 0 s ((i + 4 * (i % 4)) % 16)

def invShiftRows (s : List Nat) : List Nat :=
  (List.range 16).map fun i => nth 0 s ((i + 12 * (i % 4)) % 16)

/-- Multiply each column by the circulant matrix with the given first row. -/
def mixWith (m : List Nat) (s : List Nat) : List Nat :=
  (List.range 16).map fun i =>
    (List.range 4).foldl (fun acc j => acc ^^^ gmul (nth 0 m ((j + 4 - i % 4) % 4)) (nth 0 s (i / 4 * 4 + j))) 0

def encryptRounds : List (List Nat) → List Nat → List Nat
  | [], s => s
  | [k], s => xorBytes (shiftRows (s.map subByte)) k
  | k :: ks, s => encryptRounds ks (xorBytes (mixWith [2, 3, 1, 1] (shiftRows (s.map subByte))) k)

/-- One block encrypted under expanded round keys. -/
def aesEncrypt (rk : List (List Nat)) (b : List Nat) : List Nat :=
  encryptRounds rk.tail (xorBytes b (nth [] rk 0))

def decryptRounds : List (List Nat) → List Nat → List Nat
  | [], s => s
  | [k], s => xorBytes ((invShiftRows s).map invSubByte) k
  | k :: ks, s => decryptRounds ks (mixWith [14, 11, 13, 9] (xorBytes ((invShiftRows s).map invSubByte) k))

def aesDecrypt (rk : List (List Nat)) (b : List Nat) : List Nat :=
  let r := rk.reverse
  decryptRounds r.tail (xorBytes b (nth [] r 0))

def natBytes (bs : List Byte) : List Nat := bs.map BitVec.toNat
def ofNatBytes (bs : List Nat) : List Byte := bs.map (BitVec.ofNat 8)

/-! ### XTS -/

def xtsDouble (t : List Nat) : List Nat :=
  let v := leNat (ofNatBytes t)
  let d := v * 2
  natBytes (leBytes 16 (if 2 ^ 128 ≤ d then (d - 2 ^ 128) ^^^ 0x87 else d))

/-- The XTS pass over the 16-byte blocks of one data unit. -/
def xtsBlocks (f : List Nat → List Nat) : List Nat → List (List Nat) → List Nat
  | _, [] => []
  | t, b :: bs => xorBytes (f (xorBytes b t)) t ++ xtsBlocks f (xtsDouble t) bs

/-- Encrypt one 64-byte data unit: key bytes 0–31 data key, 32–63 tweak key (R193); `tweak` is the 128-bit tweak
of R196. -/
def xtsEncrypt (key : List Byte) (tweak : Nat) (unit : List Byte) : List Byte :=
  let k := natBytes key
  let t := aesEncrypt (roundKeys (k.drop 32)) (natBytes (leBytes 16 tweak))
  ofNatBytes (xtsBlocks (aesEncrypt (roundKeys (k.take 32))) t (chunks 16 4 (natBytes unit)))

def xtsDecrypt (key : List Byte) (tweak : Nat) (unit : List Byte) : List Byte :=
  let k := natBytes key
  let t := aesEncrypt (roundKeys (k.drop 32)) (natBytes (leBytes 16 tweak))
  ofNatBytes (xtsBlocks (aesDecrypt (roundKeys (k.take 32))) t (chunks 16 4 (natBytes unit)))

/-- The tweak of R196 from a postcode and an offset. -/
def xtsTweak (pc : Postcode) (off : Nat) : Nat := (pc.toNat % 2 ^ 20) * 2 ^ 96 + off / 64 % 2 ^ 48

/-! ### GCM -/

/-- A block as the bit-reflected element of GF(2^128): bit 127 is the first bit. -/
def beNat (bs : List Nat) : Nat := bs.foldl (fun a b => a * 256 + b) 0
def beBytes : Nat → Nat → List Nat
  | 0, _ => []
  | n + 1, v => beBytes n (v / 256) ++ [v % 256]

def ghashMulFrom : Nat → Nat → Nat → Nat → Nat
  | 0, _, _, z => z
  | n + 1, x, v, z =>
    ghashMulFrom n x (if v % 2 = 1 then (v / 2) ^^^ (0xE1 * 2 ^ 120) else v / 2) (if bit x n then z ^^^ v else z)

def ghashMul (x y : Nat) : Nat := ghashMulFrom 128 x y 0

def blocks16 (bs : List Nat) : List Nat :=
  (chunks 16 (bs.length / 16 + 1) bs).map fun b => beNat (b ++ List.replicate (16 - b.length) 0)

def ghash (h : Nat) (aad text : List Nat) : Nat :=
  (blocks16 aad ++ blocks16 text ++ [aad.length * 8 * 2 ^ 64 + text.length * 8]).foldl
    (fun y x => ghashMul (y ^^^ x) h) 0

/-- The key stream of counter mode from counter block number 2 on, `n` blocks. -/
def ctrStream (rk : List (List Nat)) (iv : List Nat) : Nat → Nat → List Nat
  | 0, _ => []
  | n + 1, c => aesEncrypt rk (iv ++ beBytes 4 c) ++ ctrStream rk iv n (c + 1)

def gcmCrypt (rk : List (List Nat)) (iv text : List Nat) : List Nat :=
  xorBytes text (ctrStream rk iv (text.length / 16 + 1) 2)

def gcmTag (rk : List (List Nat)) (iv aad text : List Nat) : List Nat :=
  let h := beNat (aesEncrypt rk (List.replicate 16 0))
  xorBytes (beBytes 16 (ghash h aad text)) (aesEncrypt rk (iv ++ [0, 0, 0, 1]))

/-- The 96-bit IV of R198, little-endian (R7). -/
def gcmIv (engine : Postcode) (counter : Nat) : List Nat :=
  natBytes (leBytes 12 (engine.toNat * 2 ^ 64 + counter % 2 ^ 64))

/-- Encrypt a payload: the ciphertext and the 16-byte tag (R198). -/
def gcmSeal (key : List Byte) (engine : Postcode) (counter : Nat) (aad text : List Byte) : List Byte × List Byte :=
  let rk := roundKeys ((natBytes key).take 32)
  let iv := gcmIv engine counter
  let c := gcmCrypt rk iv (natBytes text)
  (ofNatBytes c, ofNatBytes (gcmTag rk iv (natBytes aad) c))

/-- Decrypt a payload, `none` when the tag fails (R199). -/
def gcmOpen (key : List Byte) (engine : Postcode) (counter : Nat) (aad cipher tag : List Byte) :
    Option (List Byte) :=
  let rk := roundKeys ((natBytes key).take 32)
  let iv := gcmIv engine counter
  if ofNatBytes (gcmTag rk iv (natBytes aad) (natBytes cipher)) = tag then
    some (ofNatBytes (gcmCrypt rk iv (natBytes cipher)))
  else none

end Sys2Proof.Machine
end

