-- ==== Sys2Proof/Machine/Store.lean ====
section
/-! DEFINITION. The module's byte memories: scratchpads, field stores, steward L2 and spectral tables in one
canonical list of cells, with the ECC marks of their words (R384–R389), encryption at rest (R196), and reads and
writes as a target performs them (R40, R387, R388). -/

namespace Sys2Proof.Machine

/-- Where scratchpad byte `off` of a tile lies in `Memory.cells`. -/
def scratchKey (f t off : Nat) : Nat := (f * 320 + t) * 2 ^ 20 + off
/-- Where field-store byte `off` of a frond lies. -/
def fieldKey (f off : Nat) : Nat := 2 ^ 40 + f * 2 ^ 27 + off
/-- Where byte `off` of a steward core's L2 lies (R322). -/
def stewardKey (c off : Nat) : Nat := 2 ^ 50 + c * 2 ^ 21 + off

/-- The cell of byte `off` of the unit a postcode names, for scratchpads and field stores. -/
def memKey (pc : Postcode) (off : Nat) : Nat :=
  if pcUnit pc = 0xB then fieldKey (pcDie pc) off else scratchKey (pcDie pc) (pcTile pc) off

/-- A byte as stored; an unlisted byte reads 0. -/
def Memory.get (m : Memory) (k : Nat) : Byte := tget 0 m.cells k

/-- Store one byte. -/
def Memory.put (m : Memory) (k : Nat) (b : Byte) : Memory := { m with cells := tput 0 m.cells k b }

def Memory.getBytes (m : Memory) (k : Nat) : Nat → List Byte
  | 0 => []
  | n + 1 => m.get k :: Memory.getBytes m (k + 1) n

def Memory.putBytes (m : Memory) (k : Nat) : List Byte → Memory
  | [] => m
  | b :: t => Memory.putBytes (m.put k b) (k + 1) t

/-- Cells at strictly rising addresses, none equal to what an unlisted address reads as. -/
def Memory.wf (m : Memory) : Bool := tsorted m.cells && m.cells.all fun c => decide (c.2 ≠ 0)

/-- The mark of a word, keyed by its cell address divided by 8. -/
def markOf (s : State) (w : Nat) : Option WordMark := tfind s.mem.marks w
def setMark (w : Nat) (k : WordMark) (s : State) : State := onMem (fun m => { m with marks := tset m.marks w k }) s
def clearMark (w : Nat) (s : State) : State := onMem (fun m => { m with marks := terase m.marks w }) s

/-- Count an ECC correction of a word, also toward the thresholds of R390. -/
def countCorrection (d w : Nat) (s : State) : State :=
  onDie d (fun x => { x with
    recentCorrections := x.recentCorrections + 1
    corrections := tset x.corrections w (tget 0 x.corrections w + 1) }) (countEcc d 0 1 s)

/-- A word found uncorrectable: poisoned, counted and journalled (R386); a second finding after a full-word write
is noted for R394. -/
def foundUncorrectable (pc : Postcode) (w : Nat) (s : State) : State :=
  let d := pcDie pc
  s |> setMark w .poison |> countEcc d 1 1 |> countEcc d 2 1
    |> onDie d (fun x => { x with
        wordFinds := tset x.wordFinds w (if 2 ≤ tget 0 x.wordFinds w then 3 else 1) })
    |> journalFrom pc 0xA001 1 1 false []

/-- What a read or a merge does to a word it meets (R384, R386, R387). -/
def senseWord (pc : Postcode) (w : Nat) (s : State) : State :=
  match markOf s w with
  | some .correctable => countCorrection (pcDie pc) w s
  | some .uncorrectable => foundUncorrectable pc w s
  | _ => s

/-- The words that bytes `off` to `off + len − 1` of a unit touch. -/
def wordsOf (pc : Postcode) (off len : Nat) : List Nat :=
  if len = 0 then []
  else (List.range ((off + len - 1) / 8 + 1 - off / 8)).map fun i => memKey pc 0 / 8 + off / 8 + i

/-! ### Locks and keys at rest (R188, R196) -/

/-- The lock number that covers a byte of a unit: granule for a field store, 48 + tile for a scratchpad (R188). -/
def lockIndex (pc : Postcode) (off : Nat) : Nat := if pcUnit pc = 0xB then off / 2 ^ 21 else 48 + pcTile pc
def lockOf (s : State) (f i : Nat) : Nat := tget 0 (dieOf s f).locks i
def lockValid (l : Nat) : Bool := bit l 0
def lockSelector (l : Nat) : Nat := bits l 23 16
def lockSet (l : Nat) : Nat := bits l 9 4

/-- The XTS key of the granule that holds a field-store byte, if its lock names a memory slot (R196). -/
def restKey (s : State) (pc : Postcode) (off : Nat) : Option (List Byte) :=
  let l := lockOf s (pcDie pc) (lockIndex pc off)
  if pcUnit pc = 0xB ∧ lockValid l ∧ 1 ≤ lockSelector l then
    (tfind s.fabric.keys (lockSelector l)).map KeySlot.key
  else none

/-- The field store's tweak for a data unit (R196). -/
def restTweak (pc : Postcode) (off : Nat) : Nat := xtsTweak pc off

/-- The plain bytes of one 64-byte unit at a 64-byte-aligned offset. -/
def plainUnit (s : State) (pc : Postcode) (off : Nat) : List Byte :=
  let raw := s.mem.getBytes (memKey pc off) 64
  match restKey s pc off with
  | some k => xtsDecrypt k (restTweak pc off) raw
  | none => raw

/-! ### Reads -/

/-- A word reads as poison: its own mark, or in an XTS granule the mark of any word of its data unit (R386). -/
def wordPoisoned (s : State) (pc : Postcode) (off : Nat) : Bool :=
  let bad (w : Nat) : Bool := match markOf s w with
    | some .poison => true
    | some .uncorrectable => true
    | _ => false
  if (restKey s pc off).isSome then (wordsOf pc (off / 64 * 64) 64).any bad
  else bad (memKey pc off / 8)

/-- The offset and length a read really covers: whole data units in an encrypted granule. -/
def widen (s : State) (pc : Postcode) (off len : Nat) : Nat × Nat :=
  if (restKey s pc off).isSome then (off / 64 * 64, roundUp (off + len) 64 - off / 64 * 64) else (off, len)

/-- The plain bytes of a range, unit by unit. -/
def plainBytes (s : State) (pc : Postcode) (off len : Nat) : List Byte :=
  if (restKey s pc off).isNone ∧ (restKey s pc (off + len - 1)).isNone then s.mem.getBytes (memKey pc off) len
  else
    let first := off / 64
    let n := (off + len + 63) / 64 - first
    (((List.range n).flatMap fun i => plainUnit s pc ((first + i) * 64)).drop (off % 64)).take len

/-- A read by an engine: the bytes, which of them are poison, and the state with the findings of R386. -/
def readMem (pc : Postcode) (off len : Nat) (s : State) : List Byte × List Bool × State :=
  let wd := widen s pc off len
  let s := updates (wordsOf pc wd.1 wd.2) (senseWord pc) s
  let bad := (List.range len).map fun i => wordPoisoned s pc (off + i)
  let s' := if bad.any id then countEcc (pcDie pc) 3 1 s else s
  (plainBytes s pc off len, bad, s')

/-! ### Writes -/

/-- Write one word's share of the bytes of a write in a clear granule: `first` is the word's first byte's offset
in the unit. A full word is stored with fresh check bits (R388); a partial one is merged (R387). `bad` marks
bytes that arrive poisoned (R260). -/
def writeWord (pc : Postcode) (base : Nat) (bytes : List Byte) (bad : Bool) (s : State) : State :=
  let w := memKey pc base / 8
  let d := pcDie pc
  let put (s : State) : State := onMem (fun m => m.putBytes (memKey pc base) bytes) s
  let full := bytes.length == 8
  let s :=
    if full then
      onDie d (fun x => { x with
        wordFinds := if tget 0 x.wordFinds w = 1 then tset x.wordFinds w 2 else x.wordFinds }) (clearMark w (put s))
    else
      match markOf s w with
      | some .correctable => put (clearMark w (countCorrection d w s))
      | some .uncorrectable => put (foundUncorrectable pc w s)
      | _ => put s
  if bad then countEcc d 2 1 (setMark w .poison s) else s

/-- Split a write into the shares of its words. -/
def wordShares (off : Nat) : Nat → List Byte → List Bool → List (Nat × List Byte × Bool)
  | 0, _, _ => []
  | fuel + 1, bytes, bad =>
    if bytes.isEmpty then []
    else
      let n := 8 - off % 8
      (off, bytes.take n, (bad.take n).any id) :: wordShares (off + n) fuel (bytes.drop n) (bad.drop n)

/-- Write one data unit's share in an encrypted granule (R196, R387, R388): a whole unit clears poison; a partial
write is decrypted, merged and encrypted again, and poisons the whole unit when any of its words is bad. -/
def writeUnit (pc : Postcode) (off : Nat) (bytes : List Byte) (bad : List Bool) (key : List Byte) (s : State) :
    State :=
  let base := off / 64 * 64
  let ws := wordsOf pc base 64
  let d := pcDie pc
  let whole := bytes.length == 64
  let s := if whole then s else updates ws (senseWord pc) s
  let wasBad := !whole && wordPoisoned s pc base
  let old := plainUnit s pc base
  let merged := old.take (off - base) ++ bytes ++ old.drop (off - base + bytes.length)
  let s := onMem (fun m => m.putBytes (memKey pc base) (xtsEncrypt key (restTweak pc base) merged)) s
  let s := updates ws clearMark s
  if wasBad || bad.any id then countEcc d 2 8 (updates ws (fun w s => setMark w .poison s) s) else s

def unitShares (off : Nat) : Nat → List Byte → List Bool → List (Nat × List Byte × List Bool)
  | 0, _, _ => []
  | fuel + 1, bytes, bad =>
    if bytes.isEmpty then []
    else
      let n := 64 - off % 64
      (off, bytes.take n, bad.take n) :: unitShares (off + n) fuel (bytes.drop n) (bad.drop n)

/-- A write by an engine or a packet: bytes at an offset of a unit, with the bytes that carry poison. -/
def writeMem (pc : Postcode) (off : Nat) (bytes : List Byte) (bad : List Bool) (s : State) : State :=
  updates (unitShares off (bytes.length + 1) bytes bad) (fun u s =>
    match restKey s pc u.1 with
    | some k => writeUnit pc u.1 u.2.1 u.2.2 k s
    | none =>
      updates (wordShares u.1 9 u.2.1 u.2.2) (fun w s => writeWord pc w.1 w.2.1 w.2.2 s) s) s

/-- Clear a byte range of `Memory.cells` and the marks of its words: SRAM written to zero with valid check bits
(R50 step 4, R74 step C5, R347). -/
def zeroRange (lo hi : Nat) (s : State) : State :=
  onMem (fun m => { m with
    cells := m.cells.filter fun c => !(decide (lo ≤ c.1 ∧ c.1 < hi))
    marks := m.marks.filter fun c => !(decide (lo / 8 ≤ c.1 ∧ c.1 < hi / 8)) }) s

def zeroScratch (f t : Nat) (s : State) : State := zeroRange (scratchKey f t 0) (scratchKey f t 0 + scratchBytes) s
def zeroGranule (f g : Nat) (s : State) : State := zeroRange (fieldKey f (g * 2 ^ 21)) (fieldKey f (g * 2 ^ 21) + 2 ^ 21) s

/-- All SRAM of a frond (R77). -/
def zeroFrond (f : Nat) (s : State) : State :=
  zeroRange (fieldKey f 0) (fieldKey (f + 1) 0) (zeroRange (scratchKey f 0 0) (scratchKey (f + 1) 0 0) s)

end Sys2Proof.Machine
end

