-- ==== Sys2Proof/Machine/Seal.lean ====
section
/-! DEFINITION. AES-GCM between modules (R198, R199): sealing a data packet as it is injected, opening one at its
destination, and the keys of link slots with their phases (R195). -/

namespace Sys2Proof.Machine

/-- A memory unit of a store set: die, index and unit 0 under a store's number (R367, R368). -/
def isStorePc (s : State) (pc : Postcode) : Bool :=
  roleOfNumber s (pcModule pc) == 1 && pcDie pc == 0 && pcTile pc == 0 && pcUnit pc == 0

/-- A scratchpad or a field store of a module, this one or another: a partner has none (R367). -/
def isTilePc (s : State) (pc : Postcode) : Bool :=
  roleOfNumber s (pcModule pc) == 0 && decide (pcDie pc < 84) && (pcUnit pc == 1 || pcUnit pc == 0xB)

/-- The link slot that a context's route set names, with its key. -/
def linkSlot (s : State) (ctx : Nat) : Option (Nat × KeySlot) :=
  match routeSetOf s ctx with
  | none => none
  | some r => (tfind s.fabric.keys (160 + r)).map fun k => (160 + r, k)

/-- The additional authenticated data (R261): the header with the deflections and the escape flag taken as 0, and the
poison mask. -/
def sealAad (p : Pkt) : List Byte :=
  dataHeader { p with defl := 0, escape := false }
    ++ (match p.poison with | some m => leBytes 8 m.toNat | none => [])

/-- Where a die counts the packets of an injecting engine under a slot (R198). -/
def gcmIndex (src : Postcode) (slot : Nat) : Nat := src.toNat % 2 ^ 13 * 64 + (slot - 160)

/-- Seal a packet between two KW1 modules whose route set holds a link key. -/
def sealPkt (p : Pkt) (s : State) : Pkt × State :=
  let own := moduleNumber s
  if p.control || pcModule p.dest == own || isStorePc s p.dest then (p, s)
  else
    match linkSlot s p.frank.ctx with
    | none => (p, s)
    | some (slot, k) =>
      let d := pcDie p.src
      let n := tget 0 (dieOf s d).gcm (gcmIndex p.src slot)
      let q := { p with encrypted := true, keyPhase := k.phase, trailerCount := n }
      let c := gcmSeal (k.key.take 32) p.src n (sealAad q) p.body
      ({ q with body := c.1, trailerTag := c.2 },
        onDie d (fun x => { x with gcm := tset x.gcm (gcmIndex p.src slot) ((n + 1) % 2 ^ 64) }) s)

/-- Open a packet at its destination; `none` where authentication fails (R199). -/
def openPkt (s : State) (p : Pkt) : Option Pkt :=
  let own := moduleNumber s
  let slot := linkSlot s p.frank.ctx
  if p.encrypted then
    match slot with
    | none => none
    | some (n, k) =>
      if (dieOf s (pcDie p.dest)).badKeys.contains n then none else
      let key := if p.keyPhase == k.phase then some k.key else k.previous
      match key with
      | none => none
      | some key =>
        match gcmOpen (key.take 32) p.src p.trailerCount (sealAad p) p.body p.trailerTag with
        | some body => some { p with body := body, encrypted := false }
        | none => none
  else if pcModule p.src != own && !isStorePc s p.src && slot.isSome then none
  else some p

/-- A data packet ready at an engine, sealed where R198 asks for it. -/
def sendSealed (p : Pkt) (o : Origin) (s : State) : State :=
  let x := sealPkt p s
  sendData x.1 o x.2

end Sys2Proof.Machine
end

