-- ==== Sys2Proof/Machine/RingOps.lean ====
section
/-! DEFINITION. What rings share: host requests (R94), started descriptors and their ends (R152–R154), registered
packets and loss (R154, R155, R258, R296, R297), ring errors (R162), and the messages of completion entries (R160). -/

namespace Sys2Proof.Machine

/-! Completion statuses (R158). -/
def stOk : Nat := 0x0000
def stInvalidDescriptor : Nat := 0x0001
def stInvalidPlace : Nat := 0x0002
def stFrank : Nat := 0x0003
def stNotTranslated : Nat := 0x0004
def stFault : Nat := 0x0005
def stHostBus : Nat := 0x0006
def stPoisoned : Nat := 0x0007
def stAborted : Nat := 0x0008
def stReturn : Nat := 0x0009
def stNotResident : Nat := 0x000A
def stLaunchFault : Nat := 0x000B
def stTimeout : Nat := 0x000C
def stUncorrectable : Nat := 0x000D

/-! ### Requests to host memory (R94, R95, R97) -/

/-- The PASID prefix of a request under a context (R97). -/
def pasidFor (s : State) (k ctx : Nat) : Option Nat := if (fnOf s k).pasid then some ctx else none

/-- A function may issue another read: not held by R100, and within the tags of R90. -/
def canRead (s : State) (k : Nat) : Bool :=
  let rs := (hostPortOf s (k / 64)).reads
  mayIssue (fnOf s k) && decide (rs.length < 4096) && decide (rs.countP (fun e => e.2.fn == k) < 1024)

/-- Issue one read of host memory on the lowest free tag. -/
def hostRead (k addr len : Nat) (pasid : Option Nat) (translated : Bool) (purpose : ReadFor) (s : State) : State :=
  let p := k / 64
  match tfree (hostPortOf s p).reads 0 16384 with
  | none => s
  | some tag =>
    emit (.dmaRead p (k % 64) tag addr len pasid translated)
      (onHostPort p (fun x => { x with reads := tset x.reads tag { fn := k, addr := addr, len := len, purpose := purpose } }) s)

/-- Bytes of a request at an address that stay within `limit` and within its 4 KiB page (R94). -/
def pieceLen (addr len limit : Nat) : Nat := min len (min limit (4096 - addr % 4096))

/-- An ATS Translation Request, outstanding like a read (R98, R170). -/
def atsRead (k va ctx : Nat) (purpose : ReadFor) (s : State) : State :=
  let p := k / 64
  match tfree (hostPortOf s p).reads 0 16384 with
  | none => s
  | some tag =>
    emit (.atsRequest p (k % 64) tag va (pasidFor s k ctx))
      (onHostPort p (fun x => { x with reads := tset x.reads tag { fn := k, addr := va, len := 8, purpose := purpose } }) s)

/-- Write to host memory, cut at Max Payload Size and 4 KiB boundaries (R94, R95); a piece with a poisoned byte carries
EP (R108). `data` marks a descriptor's data, which alone takes the ordering attributes that the function has enabled; R95 says so of
Relaxed Ordering, and of ID-Based Ordering it is the model's choice (assumption 75). -/
def hostWriteFrom (k : Nat) (data : Bool) (pasid : Option Nat) (translated : Bool) :
    Nat → Nat → List Byte → List Bool → State → State
  | 0, _, _, _, s => s
  | fuel + 1, addr, bytes, bad, s =>
    if bytes.isEmpty then s
    else
      let n := pieceLen addr bytes.length (fnOf s k).maxPayload
      hostWriteFrom k data pasid translated fuel (addr + n) (bytes.drop n) (bad.drop n)
        (emit (.dmaWrite (k / 64) (k % 64) addr (bytes.take n) (data && (fnOf s k).relaxed) (data && (fnOf s k).ido)
          ((bad.take n).any id) pasid translated) s)

def hostWrite (k addr : Nat) (bytes : List Byte) (bad : List Bool) (data : Bool) (pasid : Option Nat)
    (translated : Bool) (s : State) : State :=
  hostWriteFrom k data pasid translated (bytes.length + 1) addr bytes bad s

/-! ### Started descriptors -/

def findStarted (l : List Started) (c : Nat) : Option Started := l.find? fun d => d.count == c
def startedOf (s : State) (r c : Nat) : Option Started := findStarted (ringOf s r).started c
def onStarted (r c : Nat) (f : Started → Started) (s : State) : State :=
  onRing r (fun g => { g with started := g.started.map fun d => if d.count = c then f d else d }) s

/-- End a descriptor with a status and a result, unless it has ended already. -/
def endStarted (r c status result : Nat) (s : State) : State :=
  onStarted r c (fun d => match d.status with
    | none => { d with status := some status, result := result }
    | some _ => d) s

def descType (b : List Byte) : Nat := field b 0 1
def descFlags (b : List Byte) : Nat := field b 1 1
def descTally (b : List Byte) : Nat := field b 2 2
def descEngine (b : List Byte) : Postcode := BitVec.ofNat 32 (field b 4 4)
def descTag (b : List Byte) : Nat := field b 8 8
/-- The length of a COPY (R143). -/
def copyLength (b : List Byte) : Nat := field b 0x30 8
def flagReg (b : List Byte) : Bool := bit (descFlags b) 0
def flagWait (b : List Byte) : Bool := bit (descFlags b) 1
def flagQuiet (b : List Byte) : Bool := bit (descFlags b) 2
def flagIrq (b : List Byte) : Bool := bit (descFlags b) 3
def flagPhys (b : List Byte) : Bool := bit (descFlags b) 4

/-- The edge die of a ring, as a postcode die value. Numbers from 1,024 on name the steward cores' private queues
(R323). -/
def ringDie (r : Nat) : Nat := if r < 1024 then 96 + r / 64 else 96 + (r - 1024) / 4

/-! ### Messages and errors -/

/-- A message on a ring's vector (R160). -/
def ringMessage (r : Nat) (s : State) : State :=
  let g := ringOf s r
  if g.vector = 0xFFFF then s else msix g.owner g.vector s

/-- A ring that has descriptors to run: Running, Held or Completion full (R134). -/
def ringLive (st : RingState) : Bool := st == .running || st == .held || st == .cqFull

/-- A ring that can fail for a reason (R162): one that has descriptors to run, and for a completion write (0x03) also a Stopped ring: it
still writes the entries of descriptors it had started (R135, R136), or hot-page reports (R201). -/
def ringCanFail (g : Ring) (reason : Nat) : Bool :=
  ringLive g.state || (g.state == .stopped && reason == 3)

/-- A ring enters Error (R162): reason, RING_STATUS[0], FN_EVENT[2], a record and a message. It has stopped at the
first descriptor not started; what it had fetched is fetched again after RING_START. -/
def ringError (r reason : Nat) (s : State) : State :=
  let g := ringOf s r
  if ringCanFail g reason then
    s |> onRing r (fun g => { g with state := .error, reason := reason, status := setBit g.status 0 true,
                                     fetched := [], fetching := false })
      |> fnEvent g.owner 2
      |> journalFrom (ringPc (moduleNumber s) r) 0x5002 1 1 false [u16 r, u8 reason]
      |> ringMessage r
  else s

/-! ### Runs, registered packets and loss (R154, R155, R258, R297) -/

def setRun (x : RunTo) (g : Ring) : Ring :=
  { g with runs := if g.runs.any (fun y => y.dest == x.dest) then g.runs.map (fun y => if y.dest = x.dest then x else y)
                   else g.runs ++ [x] }

/-- Registered packets of a ring awaiting receipt; one that its loss mark has given up on is not awaited (R155). -/
def awaitingCount (g : Ring) : Nat := g.runs.countP fun x => x.awaiting && !x.lost

/-- The registered packets of a started descriptor that await their receipt or are still to go: a REG descriptor that has sent none yet
will send one. -/
def regOf (d : Started) : Nat :=
  let n := d.receipts.length + d.held.length + d.lastOf.length
  if flagReg d.bytes && d.status.isNone && n == 0 then 1 else n

/-- The first write packet at a packet's place that has no run yet takes it. -/
def markRun (pc : Postcode) (off run : Nat) : List SentAt → List SentAt
  | [] => []
  | x :: t => if x.pc = pc ∧ x.off = off ∧ x.run = none then { x with run := some run } :: t else x :: markRun pc off run t

/-- Put a packet of a descriptor into the fabric under the ring's run toward its die: the registration word (R258),
the receipt it will await, and the internal delivery it will await on the ring's own module (R153). A registered
packet waits while an earlier one to the die awaits its receipt or the die is lost (R155, R297); the packet that
would be a run's 65,536th goes registered; a read request, which may not, opens the next run instead (DESIGN CHOICE). A steward core's queue has no ring number, so
its packets carry registration word 0. -/
def ringInject (r c : Nat) (p : Pkt) (s : State) : State :=
  let g := ringOf s r
  let k := destKey p.dest
  let x := runOf g k
  let may := p.op == 0 || p.op == 3
  if 1024 ≤ r then sendSealed p (.ring r c) (onStarted r c (fun d => { d with
      localOut := if pcModule p.dest == moduleNumber s && may then d.localOut + 1 else d.localOut }) s)
  else
  let isReg := p.registered || (may && decide (65535 ≤ x.sent))
  if isReg ∧ (x.lost ∨ x.awaiting ∨ 256 ≤ awaitingCount g) then
    onStarted r c (fun d => { d with held := d.held ++ [{ p with registered := true }] }) s
  else
    let x := if !may && decide (65535 ≤ x.sent) then { x with run := (x.run + 1) % 32, sent := 0 } else x
    let p' := { p with registered := isReg, reg := mkReg r x.run (if isReg then x.sent else 0) }
    let x' := if isReg then { x with run := (x.run + 1) % 32, sent := 0, awaiting := true } else { x with sent := x.sent + 1 }
    let mine := pcModule p.dest == moduleNumber s
    s |> onRing r (setRun x')
      |> onStarted r c (fun d => { d with
          sentAt := markRun p.dest p.offset x.run d.sentAt
          receipts := if isReg then d.receipts ++ [p.dest] else d.receipts
          localOut := if mine && (p.op == 0 || p.op == 3) then d.localOut + 1 else d.localOut })
      |> sendSealed p' (.ring r c)

/-- A held registered packet may go: its die is not lost, no earlier one to it awaits its receipt, and the limit of 256 has room. -/
def mayRelease (g : Ring) (p : Pkt) : Bool :=
  let x := runOf g (destKey p.dest)
  !x.awaiting && !x.lost && decide (awaitingCount g < 256)

/-- Inject the held registered packets that may go now, oldest descriptor first. -/
def releaseHeld (r : Nat) (s : State) : State :=
  updates (ringOf s r).started (fun d s =>
    updates d.held (fun p s =>
      if mayRelease (ringOf s r) p then
        ringInject r d.count p (onStarted r d.count (fun d => { d with held := eraseFirst (fun q => q == p) d.held }) s)
      else s) s) s

/-- A descriptor completes "return to sender" toward a place (R154, R155): the ring marks the die lost, and sets
RING_STATUS[2] and [3] and FN_EVENT[3]. -/
def returnToSender (r c : Nat) (dest : Postcode) (s : State) : State :=
  match startedOf s r c with
  | none => s
  | some d =>
    if d.status.isSome then s
    else
      let g := ringOf s r
      let k := destKey dest
      s |> endStarted r c stReturn dest.toNat
        |> onStarted r c (fun d => { d with receipts := [], localOut := 0, readsOut := 0, held := [], lastOf := [] })
        |> onRing r (fun g => { setRun { runOf g k with lost := true } g with
            status := setBit (setBit g.status 2 true) 3 true })
        |> fnEvent g.owner 3

/-- The receipt of a registered packet has arrived (R154, R297). -/
def receiptArrived (r : Nat) (src : Postcode) (s : State) : State :=
  let g := ringOf s r
  let k := destKey src
  let x := runOf g k
  if !x.awaiting then s
  else
    let owner := g.started.find? fun d => d.receipts.any fun q => destKey q == k
    let s := onRing r (setRun { x with awaiting := false }) s
    let s := match owner with
      | some d => onStarted r d.count (fun d => { d with receipts := eraseFirst (fun q => destKey q == k) d.receipts }) s
      | none => s
    releaseHeld r s

/-! ### Tags of reads and atomics in flight -/

/-- Give a request a tag (R257): its number, below 2^48, is the model's own choice. -/
def newTag (t : TagFor) (s : State) : Nat × State :=
  let n := s.fabric.nextTag
  (n, onFabric (fun x => { x with tags := tset x.tags n t, nextTag := (n + 1) % 2 ^ 48 }) s)

def takeTag (n : Nat) (s : State) : State := onFabric (fun x => { x with tags := terase x.tags n }) s

/-- A read request packet (R257): `len` bytes at an offset, with its tag. -/
def mkReadRequest (engine dest : Postcode) (off len tag : Nat) (fr : Frank) : Pkt :=
  { control := false, op := 1, dest := dest, src := engine, frank := fr, offset := off,
    body := padTo 64 (pack [u16 len, u64 tag]) }

end Sys2Proof.Machine
end

