-- ==== Sys2Proof/Machine/Xlate.lean ====
section
/-! DEFINITION. Address translation: page-table entries (R165–R167), the TLB, mirror and pin store (R172–R173), walks
(R175–R177), page requests of copies (R99, R178) and invalidation on one module (R180, R181). -/

namespace Sys2Proof.Machine

/-! ### Entries -/

/-- The index into a level's table (R165). -/
def levelIndex (va level : Nat) : Nat :=
  match level with
  | 4 => bits va 56 48
  | 3 => bits va 47 39
  | 2 => bits va 38 30
  | 1 => bits va 29 21
  | _ => bits va 20 16

/-- The page a leaf at a level maps. -/
def leafSize (level : Nat) : Nat := if level = 2 then 2 ^ 30 else if level = 1 then 2 ^ 21 else 2 ^ 16

/-- What an entry says at a level. -/
inductive EntryMeaning where
  | invalid
  | malformed
  | table (addr : Nat)
  | leaf (target : Target) (r w a : Bool)
  deriving DecidableEq, Repr

/-- A unit that a place leaf may name (R166): a scratchpad, a field store, or a store set's memory unit (R367). -/
def leafUnitOk (s : State) (pc : Postcode) : Bool := validPostcode pc && (isTilePc s pc || isStorePc s pc)

/-- Read an entry (R166, R167). -/
def readEntry (s : State) (e level : Nat) : EntryMeaning :=
  if !bit e 0 then .invalid
  else if !bit e 1 then
    if level = 0 then .malformed
    else if bits e 7 2 ≠ 0 ∨ bits e 63 58 ≠ 0 ∨ (level ≠ 1 ∧ bits e 11 8 ≠ 0) then .malformed
    else .table (bits e 57 8 * 2 ^ 8)
  else if 2 < level then .malformed
  else
    match bits e 3 2 with
    | 0 =>
      let a := bits e 57 16 * 2 ^ 16
      if bit e 6 ∨ bits e 15 7 ≠ 0 ∨ bits e 63 58 ≠ 0 ∨ a % leafSize level ≠ 0 then .malformed
      else .leaf (.host a false) (bit e 4) (bit e 5) false
    | 1 =>
      let pc : Postcode := BitVec.ofNat 32 (bits e 63 32)
      let off := bits e 31 12 * 2 ^ 21
      let small := pcUnit pc == 1 && decide (pcDie pc < 84)
      if level = 0 ∨ bits e 11 7 ≠ 0 ∨ off % leafSize level ≠ 0 ∨ !leafUnitOk s pc then .malformed
      else if small ∧ (level ≠ 1 ∨ off ≠ 0) then .malformed
      else if pcDie pc < 84 ∧ pcUnit pc = 0xB ∧ unitSize pc < off + leafSize level then .malformed
      else if isStorePc s pc ∧ storeBound s (pcModule pc) < off + leafSize level then .malformed
      else .leaf (.place pc off) (bit e 4) (bit e 5) (bit e 6)
    | _ => .malformed

/-! ### Lookups -/

def leafCovers (ctx va : Nat) (l : Leaf) : Bool := l.ctx == ctx && decide (l.va ≤ va ∧ va < l.va + l.size)

/-- The pin store's translation: a programmed one before a PIN_RANGE pin (R172, R173). -/
def pinLookup (s : State) (ctx va : Nat) : Option Leaf :=
  let hits := s.xlat.pins.filter fun p => match p.leaf with | some l => leafCovers ctx va l | none => false
  match hits.find? (fun p => p.programmed.isSome) with
  | some p => p.leaf
  | none => (hits.head?).bind Pin.leaf

def tlbLookup (s : State) (d ctx va : Nat) : Option Leaf :=
  ((unitOf s d).tlb ++ (unitOf s d).dtc).find? (leafCovers ctx va)

/-- A walking engine's lookup: pin store, then TLB (R173). -/
def translate (s : State) (d ctx va : Nat) : Option Leaf :=
  match pinLookup s ctx va with
  | some l => some l
  | none => tlbLookup s d ctx va

/-- Where an address under a leaf lies (R168). -/
def leafPlace (l : Leaf) (va : Nat) : Target :=
  match l.target with
  | .host a t => .host (a + (va - l.va)) t
  | .place pc o => .place pc (o + (va - l.va))

/-- A place target lies within its unit; the upper half of a scratchpad's 2 MiB page does not (R167). -/
def targetInUnit : Target → Bool
  | .host _ _ => true
  | .place pc o => decide (84 ≤ pcDie pc) || pcUnit pc == 0 || decide (o < unitSize pc)

/-- Store sizes of a unit: TLB entries, mirror lines, walkers (R175, Limits). -/
def tlbSize (d : Nat) : Nat := if d < 84 then 2048 else 4096
def dtcSize (d : Nat) : Nat := if d < 84 then 0 else 8192
def mirrorSize (d : Nat) : Nat := if d < 84 then 4096 else 8192
def walkers (d : Nat) : Nat := if d < 84 then 4 else 16

/-- The context under which an ATS result is kept. -/
def atsCtx (ctx : Nat) : Nat := ctx + 2 ^ 20

/-- Put a leaf into a unit's TLB, or an ATS result into an edge die's device translation cache. The leaf installed longest ago leaves a full
one, whether it was used since or not: R175 states a replacement for mirror lines alone (DESIGN CHOICE, assumption 89). -/
def installLeaf (d : Nat) (l : Leaf) (s : State) : State :=
  let put (size : Nat) (old : List Leaf) : List Leaf := (l :: old.filter fun x => !(x.ctx == l.ctx && x.va == l.va)).take size
  onUnit d (fun u => if 84 ≤ d ∧ atsCtx 0 ≤ l.ctx then { u with dtc := put (dtcSize d) u.dtc } else { u with tlb := put (tlbSize d) u.tlb }) s

/-! ### Hot-page counting (R200) -/

/-- Ranges that a unit tracks, over every configuration. -/
def hotTracked (s : State) (d : Nat) : Nat := s.xlat.hot.foldl (fun n h => n + tget 0 h.perUnit d) 0

/-- Count 64-byte units moved through a translation of a context, per 2 MiB range; a unit tracks 1,024 ranges. -/
def hotCount (d ctx va units : Nat) (s : State) : State :=
  updates ((List.range s.xlat.hot.length).zip s.xlat.hot) (fun ih s =>
    let h := ih.2
    if h.ctx ≠ ctx ∨ h.windowMs = 0 ∨ h.threshold = 0 then s
    else
      let range := va / 2 ^ 21
      let known := (tfind h.counts (range * 128 + d)).isSome
      if !known ∧ 1024 ≤ hotTracked s d then
        countDie d 7 units (onUnit d (fun u => { u with overflow := u.overflow + units }) s)
      else
        onXlat (fun x => { x with hot := x.hot.set ih.1 { h with
          counts := tset h.counts (range * 128 + d) (tget 0 h.counts (range * 128 + d) + units)
          perUnit := if known then h.perUnit else tset h.perUnit d (tget 0 h.perUnit d + 1) } }) s) s

/-- Count the units of a virtual range, each 2 MiB range its own. -/
def hotSpan (d ctx va len : Nat) (s : State) : State :=
  if len = 0 then s
  else updates ((List.range (len / 2 ^ 21 + 2)).map (va / 2 ^ 21 + ·)) (fun k s =>
    let lo := max va (k * 2 ^ 21)
    let hi := min (va + len) ((k + 1) * 2 ^ 21)
    if lo < hi then hotCount d ctx lo ((hi - lo + 63) / 64) s else s) s

/-! ### Walks (R175–R177) -/

def setWalk (d n : Nat) (w : Walk) (s : State) : State := onUnit d (fun u => { u with walks := tset u.walks n w }) s

/-- Join a walk of the same 64 KiB range, or start one; `none` when the miss queue is full and `force` is not set (the
postmaster's own walks are not refused). -/
def startWalk (d ctx va : Nat) (ats force : Bool) (req : WalkFor) (s : State) : Option State :=
  let u := unitOf s d
  match u.walks.find? (fun e => e.2.ctx == ctx && e.2.va / 2 ^ 16 == va / 2 ^ 16 && e.2.ats == ats && !e.2.discard) with
  | some (n, w) => some (setWalk d n { w with requesters := w.requesters ++ [req] } s)
  | none =>
    if walkers d + 64 ≤ u.walks.length ∧ !force then none
    else
      let root := (tget {} s.xlat.ctxs ctx).root
      some (onUnit d (fun u => { u with
        walks := tset u.walks u.nextWalk { ctx := ctx, va := va, level := 4, table := root, ats := ats, requesters := [req] }
        nextWalk := u.nextWalk + 1 }) s)

/-- The eight entries of a 64-byte line. -/
def lineEntries (data : List Byte) : List Nat := (List.range 8).map fun i => field data (8 * i) 8

def mirrorFind (u : XUnit) (ctx addr : Nat) : Option Line := u.mirror.find? fun l => l.ctx == ctx && l.addr == addr

/-- Put a line at the front of a unit's mirror, the least recently used leaving a full one. -/
def mirrorTouch (d : Nat) (l : Line) (s : State) : State :=
  onUnit d (fun u => { u with
    mirror := (l :: u.mirror.filter fun x => !(x.ctx == l.ctx && x.addr == l.addr)).take (mirrorSize d) }) s

def mirrorDrop (d ctx addr : Nat) (s : State) : State :=
  onUnit d (fun u => { u with mirror := u.mirror.filter fun x => !(x.ctx == ctx && x.addr == addr) }) s

/-- What a walk finds (R167, R175). -/
inductive WalkEnd where
  | hit (l : Leaf)
  | miss
  | hostError (poison : Bool)
  | aborted
  deriving DecidableEq, Repr

/-- The bytes one entry of a level maps. -/
def entrySpan (level : Nat) : Nat :=
  match level with
  | 4 => 2 ^ 48
  | 3 => 2 ^ 39
  | 2 => 2 ^ 30
  | 1 => 2 ^ 21
  | _ => 2 ^ 16

def malformed (ctx level addr : Nat) (s : State) : State :=
  limited 167 ctx (ticksUs 1000) (journal 0x5003 1 1 false [u32 ctx, u8 level, u64 addr]) s

/-- Carry a walk on as far as the mirror goes; issue its next host read where it must, when `go` allows it a walker. -/
def walkAdvance (go : Bool) : Nat → Nat → Nat → State → State × Option WalkEnd
  | 0, _, _, s => (s, none)
  | fuel + 1, d, n, s =>
    match tfind (unitOf s d).walks n with
    | none => (s, none)
    | some w =>
      let k := (tget {} s.xlat.ctxs w.ctx).owner
      let a := w.table + 8 * levelIndex w.va w.level
      let la := a / 64 * 64
      let read (w : Walk) (s : State) : State × Option WalkEnd :=
        if !mayIssue (fnOf s k) then (s, some .aborted)
        else if !canRead s k then (s, none)
        else
          let s := setWalk d n { w with waiting := true } s
          if w.ats then (atsRead k (w.va / 2 ^ 16 * 2 ^ 16) w.ctx (.walk d n) s, none)
          else (hostRead k la 64 none false (.walk d n) s, none)
      if w.waiting ∨ w.discard ∨ !go then (s, none)
      else if w.ats then read w s
      else
        let fresh := w.lines.find? fun l => l.addr == la
        match (match fresh with | some l => some l | none => mirrorFind (unitOf s d) w.ctx la) with
        | none => read w s
        | some l =>
          let s := mirrorTouch d l s
          let again : State × Option WalkEnd :=
            if fresh.isNone then read w (mirrorDrop d w.ctx la s) else (s, some .miss)
          match readEntry s (nth 0 l.entries (a % 64 / 8)) w.level with
          | .invalid => again
          | .malformed => if fresh.isNone then again else (malformed w.ctx w.level a s, some .miss)
          | .table t => walkAdvance go fuel d n (setWalk d n { w with level := w.level - 1, table := t } s)
          | .leaf t r wr at_ =>
            let size := leafSize w.level
            (s, some (.hit { ctx := w.ctx, va := w.va / size * size, size := size, target := t, r := r, w := wr, a := at_ }))

/-- The lowest zero bit of an ATS result's address from bit 12 on gives its size (PCIe's form, PRESUMED). -/
def atsSizeFrom (e : Nat) : Nat → Nat → Nat
  | 0, b => 2 ^ (b + 1)
  | fuel + 1, b => if bit e b then atsSizeFrom e fuel (b + 1) else 2 ^ (b + 1)

/-- An ATS Translation Completion read as PCIe lays it out (PRESUMED): [0] R, [1] W, [2] untranslated access only, [11]
size, [63:12] the address. -/
def atsLeaf (w : Walk) (e : Nat) : WalkEnd :=
  if !bit e 0 && !bit e 1 then .miss
  else
    let size := if bit e 11 then max (2 ^ 16) (atsSizeFrom e 45 12) else 2 ^ 16
    let base := w.va / size * size
    let u := bit e 2
    .hit { ctx := atsCtx w.ctx, va := base, size := size, target := .host (if u then base else bits e 63 12 * 4096 / size * size) (!u)
           r := bit e 0, w := bit e 1, a := false }

/-- The data of a walk's host read has arrived. -/
def walkData (d n : Nat) (status : CplStatus) (poison : Bool) (data : List Byte) (s : State) : State × Option WalkEnd :=
  match tfind (unitOf s d).walks n with
  | none => (s, none)
  | some w =>
    if w.discard then (onUnit d (fun u => { u with walks := terase u.walks n }) s, none)
    else if status ≠ .success ∨ poison then (s, some (.hostError poison))
    else if w.ats then (s, some (atsLeaf w (field data 0 8)))
    else
      let a := w.table + 8 * levelIndex w.va w.level
      let span := 8 * entrySpan w.level
      let l : Line := { ctx := w.ctx, addr := a / 64 * 64, level := w.level, va := w.va / span * span, entries := lineEntries data }
      let s := mirrorTouch d l (setWalk d n { w with waiting := false, lines := l :: w.lines } s)
      walkAdvance true 16 d n s

/-! ### Page requests (R99, R178) -/

/-- A page request of a copy: with PRI enabled and room in the function's 256, the descriptor pauses on it; otherwise it
ends "fault not resolved". -/
def pageFault (r c va : Nat) (write : Bool) (s : State) : State :=
  let g := ringOf s r
  let f := fnOf s g.owner
  if !f.pri ∨ f.priStopped then endStarted r c stFault 0 s
  else if 256 ≤ f.pageReqs.length ∨ !mayIssue f then s
  else
    let idx := f.nextPage % 512
    s |> onFn g.owner (fun f => { f with
          nextPage := f.nextPage + 1
          pageReqs := f.pageReqs ++ [{ index := idx, ring := r, count := c, va := va / 2 ^ 16 * 2 ^ 16, ctx := g.ctx, write := write }] })
      |> onStarted r c (fun d => { d with page := some idx })
      |> emit (.pageRequest (g.owner / 64) (g.owner % 64) idx (va / 2 ^ 16 * 2 ^ 16) (pasidFor s g.owner g.ctx) write)

/-! ### Invalidation (R98, R180, R181) -/

def allUnits : List Nat := allDies

/-- Two ranges overlap; a length of 0 stands for the whole context. -/
def overlaps (a la b lb : Nat) : Bool := la == 0 || decide (a < b + lb ∧ b < a + la)

/-- Drop the TLB and device-translation-cache entries of a range (R180 step 1), or only the latter (R98). -/
def dropLeaves (ctx va len : Nat) (atsOnly : Bool) (s : State) : State :=
  let stays (l : Leaf) : Bool := !((l.ctx == atsCtx ctx || (!atsOnly && l.ctx == ctx)) && overlaps va len l.va l.size)
  onXlat (fun x => { x with units := tmap (fun _ u => { u with tlb := u.tlb.filter stays, dtc := u.dtc.filter stays }) x.units }) s

/-- A mirror line holds a leaf entry for a range. -/
def lineLeaf (va len : Nat) (l : Line) : Bool :=
  (List.range 8).any fun i =>
    let e := nth 0 l.entries i
    bit e 0 && bit e 1 && overlaps va len (l.va + i * entrySpan l.level) (entrySpan l.level)

/-- Drop mirror lines of a context: those with a leaf for the range, or all of them (R180 step 2, R181). -/
def dropLines (ctx va len : Nat) (all : Bool) (s : State) : State :=
  onXlat (fun x => { x with units := tmap (fun _ u => { u with
    mirror := u.mirror.filter fun l => !(l.ctx == ctx && (all || len == 0 || lineLeaf va len l)) }) x.units }) s

/-- End every walk of a context with its result discarded and its lines dropped, and begin those misses again
(R180 step 4, R181). -/
def restartWalks (ctx : Nat) (s : State) : State :=
  updates allUnits (fun d s =>
    updates ((unitOf s d).walks.filter fun e => e.2.ctx == ctx && !e.2.discard) (fun e s =>
      let w := e.2
      let s := updates w.lines (fun l s => mirrorDrop d ctx l.addr s) s
      let s := if w.waiting then setWalk d e.1 { w with discard := true, requesters := [], lines := [] } s
        else onUnit d (fun u => { u with walks := terase u.walks e.1 }) s
      updates w.requesters (fun q s => match startWalk d ctx w.va w.ats true q s with | some s => s | none => s) s) s) s

/-- The contexts under whose translations a launch's reads were issued: its ring's for the argument block, its image's for operands. -/
def launchCtxs (s : State) (l : Nat) : List Nat :=
  match launchOf s l with
  | none => []
  | some x => (ringOf s x.ring).ctx :: (match phOf s x.ph with
    | some p => (match tfind s.res.images p.image with | some i => [i.ctx] | none => [])
    | none => [])

/-- Reads outstanding under a context, as tokens: those of its discarded walks, and with `data` every read that was issued under one of its
translations, of host memory or over the fabric (R98, R180 steps 4 and 5). -/
def readsUnder (s : State) (ctx : Nat) (data : Bool) : List Nat :=
  let ofRing (r : Nat) : Bool := (ringOf s r).ctx == ctx
  (List.range 2).flatMap (fun p => (hostPortOf s p).reads.filterMap fun e =>
    let mine := match e.2.purpose with
      | .walk d n => (match tfind (unitOf s d).walks n with | some w => w.ctx == ctx && w.discard | none => false)
      | .copy r .. | .fetch r .. => data && ofRing r
      | .args l _ | .operand l => data && (launchCtxs s l).contains ctx
      | _ => false
    if mine then some (p * 2 ^ 14 + e.1) else none)
  ++ s.fabric.tags.filterMap fun e =>
    let mine := match e.2 with
      | .copy r .. | .fetch r .. => data && ofRing r
      | .args l | .operand l => data && (launchCtxs s l).contains ctx
      | _ => false
    if mine then some (2 ^ 20 + e.1) else none

/-- A started descriptor has issued every request under the translations it holds: a copy its reads and writes, another type its own. -/
def descIssued (s : State) (d : Started) : Bool :=
  d.status.isSome || (match descType d.bytes with
    | 1 => decide (copyLength d.bytes ≤ d.issued) && d.readsOut == 0 && d.lastOf.isEmpty
    | 4 => (match d.launch.bind (launchOf s) with | some x => x.argsReady | none => d.acted)
    | _ => d.acted && d.lastOf.isEmpty)

/-- The descriptors of a context that still issue requests under a translation of a range: those dispatched in mode 2 with one of its leaves,
which the engine does not translate again (R171), and those whose last packets REG keeps back. -/
def issuersUnder (s : State) (ctx va len : Nat) : List (Nat × Nat) :=
  s.rings.flatMap fun e =>
    if e.2.ctx ≠ ctx then []
    else (e.2.started.filter fun d => !descIssued s d
      && ((d.leaves.any fun l => overlaps va len l.va l.size) || !d.lastOf.isEmpty)).map fun d => (e.1, d.count)

/-- A mode-2 copy that is paused on a page request issues nothing: it loses the leaves of the range, and walks those pages again (chapter 8,
Collisions). -/
def dropPaused (ctx va len : Nat) (s : State) : State :=
  { s with rings := tmap (fun _ g =>
      if g.mode = 2 ∧ g.ctx = ctx then { g with started := g.started.map fun d =>
        if d.page.isSome then { d with leaves := d.leaves.filter fun l => !overlaps va len l.va l.size, rewalk := true } else d }
      else g) s.rings }

/-- Descriptors fetched in mode 2 and not started are translated again at their start (R180). -/
def staleFetched (ctx : Nat) (s : State) : State :=
  { s with rings := tmap (fun _ g =>
      if g.mode = 2 ∧ g.ctx = ctx then { g with fetched := g.fetched.map fun f => { f with leaves := [], done := 0, fail := none, stale := true } }
      else g) s.rings }

/-- The postmaster's translation unit. -/
def postUnit (s : State) : Nat := 96 + postEdge s

/-- Begin an invalidation of a range on this module; what it must wait for is kept in `waits`. `sync` is a TABLE_SYNC. -/
def beginInvalidate (who : InvFor) (ctx va len : Nat) (sync : Bool) (s : State) : State :=
  let id := s.xlat.nextWait
  let ats := match who with | .ats _ => true | _ => false
  let s := if sync then dropLines ctx va len true s
    else if ats then dropLeaves ctx va len true s
    else dropLines ctx va len false (dropLeaves ctx va len false s)
  let s := restartWalks ctx s
  let pins := if sync || ats then []
    else (s.xlat.pins.filter fun p => p.ctx == ctx && p.programmed.isNone && overlaps va len p.va p.size).map Pin.va
  let s := if sync || ats then s else dropPaused ctx va len (staleFetched ctx s)
  let w : InvWait := { who := who, reads := readsUnder s ctx (!sync), pins := pins
                       descs := if sync then [] else issuersUnder s ctx va len }
  let s := onXlat (fun x => { x with waits := tset x.waits id w, nextWait := id + 1 }) s
  updates pins (fun v s =>
    match startWalk (postUnit s) ctx v false true (.refresh id v) s with | some s => s | none => s) s

/-- The modules that a broadcast addresses (R183): in tree mode a rack's modules have the numbers
16 × rack + 0 to 7 and 9 (R368), of which those the tables hold; in torus mode, where a number does not show the rack, every module the tables reach (DESIGN CHOICE).
A partner is no module, and has no postmaster to answer. -/
def broadcastTargets (s : State) (scope : Nat) (listed : List Nat) : List Nat :=
  let own := moduleNumber s
  let l := match scope with
    | 0 =>
      if s.disc.mode = 1 then
        (([0, 1, 2, 3, 4, 5, 6, 7, 9] : List Nat).map (own / 16 * 16 + ·)).filter fun m => bit (moduleEntry s m) 0
      else (List.range 4096).filter fun m => bit (moduleEntry s m) 0 && roleOfNumber s m == 0
    | 1 => (List.range 4096).filter fun m => bit (moduleEntry s m) 0 && roleOfNumber s m == 0
    | _ => listed
  (l.filter (· != own)).eraseDups

/-- Send an INVALIDATE to E0 and E8 of a module (R183, R255). -/
def sendInvalidate (m ctx va len : Nat) (s : State) : State :=
  updates [0, 8] (fun e s => sendControl (mkControl 0x07 (mgmtPc m e) (postPc s) {}
    [(0x18, u32 ctx), (0x20, u64 va), (0x28, u64 len)]) s) s

/-- What an ended invalidation does for whoever waits. -/
def invalidated (w : InvFor) (s : State) : State :=
  match w with
  | .command lb =>
    let l := lbOf s lb
    let op := cmdOpcode l
    let a := cmdArgs l
    if op = 0x0205 ∧ waitingOn s lb op then
      let n := arg op a 2
      let ts := broadcastTargets s (arg op a 1) ((List.range n).map fun i => arg op a (5 + i))
      let s := updates ts (fun m s => sendInvalidate m (arg op a 0) (arg op a 3) (arg op a 4) s) s
      if ts.isEmpty then postWaiting lb op 0 [] s
      else onLb lb (fun l => { l with waitingFor := ts }) s
    else postWaiting lb op 0 [] s
  | .remote src ctx => sendControl (mkControl 0x08 src (postPc s) {} [(0x18, u32 ctx)]) s
  | .ats k => emit (.atsCompletion (k / 64) (k % 64)) s

/-- A descriptor that an invalidation waits for has issued its requests, or is gone. -/
def issuerDone (s : State) (q : Nat × Nat) : Bool :=
  match startedOf s q.1 q.2 with
  | some d => descIssued s d
  | none => true

/-- End every invalidation that has nothing left to wait for. -/
def settleWaits (s : State) : State :=
  updates (s.xlat.waits.filter fun e => e.2.reads.isEmpty && e.2.pins.isEmpty && e.2.descs.all (issuerDone s)) (fun e s =>
    invalidated e.2.who (onXlat (fun x => { x with waits := terase x.waits e.1 }) s)) s

/-- A read that invalidations may wait for has returned. -/
def readReturned (token : Nat) (s : State) : State :=
  settleWaits (onXlat (fun x => { x with
    waits := tmap (fun _ w => { w with reads := w.reads.filter (· != token) }) x.waits }) s)

/-- A pin walked again has its new leaf, or stays counted with no translation (R180 step 3). -/
def refreshResult (id va : Nat) (ctx : Nat) (e : WalkEnd) (s : State) : State :=
  let leaf (p : Pin) : Option Leaf := match e with
    | .hit l => if l.va ≤ p.va ∧ p.va + p.size ≤ l.va + l.size then some l else none
    | _ => none
  settleWaits (onXlat (fun x => { x with
    pins := x.pins.map fun p => if p.ctx = ctx ∧ p.va = va ∧ p.programmed = none then { p with leaf := leaf p } else p
    waits := tmap (fun i w => if i = id then { w with pins := w.pins.filter (· != va) } else w) x.waits }) s)

/-! ### Pinning (R172) -/

/-- Take one PIN_RANGE pin off a page; an entry without pins leaves the store. -/
def unpinPage (ctx va : Nat) (s : State) : State :=
  onXlat (fun x => { x with
    pins := x.pins.filterMap fun p =>
      if p.ctx = ctx ∧ p.va = va ∧ p.programmed = none then
        (if p.count ≤ 1 then none else some { p with count := p.count - 1 })
      else some p }) s

/-- Remove the pins a PIN_RANGE has added, and end it. -/
def pinFail (lb e : Nat) (s : State) : State :=
  let l := lbOf s lb
  let ctx := arg 0x0207 (cmdArgs l) 0
  postWaiting lb 0x0207 e [] (onLb lb (fun l => { l with waitingFor := [] }) (updates l.waitingFor (unpinPage ctx) s))

def pinStoreSize : Nat := 16384

/-- Walk the next page of a PIN_RANGE, or end it with the pages pinned. -/
def pinNext (lb : Nat) (s : State) : State :=
  let l := lbOf s lb
  let a := cmdArgs l
  let stop := arg 0x0207 a 1 + arg 0x0207 a 2
  let n := l.waitingFor.length
  if stop ≤ l.progress then
    postWaiting lb 0x0207 0 (pack [u32 n]) (onLb lb (fun l => { l with waitingFor := [] }) s)
  else
    match startWalk (postUnit s) (arg 0x0207 a 0) l.progress false true (.pin lb) s with
    | some s => s
    | none => s

/-- A PIN_RANGE's walk has ended. -/
def pinResult (lb : Nat) (e : WalkEnd) (s : State) : State :=
  if !waitingOn s lb 0x0207 then s
  else
    match e with
    | .hit l =>
      let had := s.xlat.pins.any fun p => p.ctx == l.ctx && p.va == l.va && p.programmed.isNone
      if !had ∧ pinStoreSize ≤ s.xlat.pins.length then pinFail lb eNoResource s
      else
        let s := onXlat (fun x => { x with
          pins := if had then x.pins.map fun p =>
              if p.ctx = l.ctx ∧ p.va = l.va ∧ p.programmed = none then { p with count := p.count + 1 } else p
            else x.pins ++ [{ ctx := l.ctx, va := l.va, size := l.size, count := 1, programmed := none, leaf := some l }] }) s
        let s := onLb lb (fun b => { b with
          waitingFor := b.waitingFor ++ [l.va]
          progress := l.va + l.size
          safePoints := (b.waitingFor.length + 1) / 1024 }) s
        let b := lbOf s lb
        if b.abort ∧ b.waitingFor.length % 1024 = 0 then pinFail lb eAborted s else pinNext lb s
    | .miss => pinFail lb eFault s
    | .hostError _ => pinFail lb eHostBus s
    | .aborted => pinFail lb eAbortedByHost s

end Sys2Proof.Machine
end

