-- ==== Sys2Proof/Machine/DescForms.lean ====
section
/-! DEFINITION. The operand forms of descriptors (R140–R150): address fields, the fields of each body, the checks made
before a descriptor starts, and the choice of its engine (R143). -/

namespace Sys2Proof.Machine

/-! ### Address fields (R141) -/

/-- An address field: a place reference under PHYS, or a device virtual address. -/
structure Addr where
  phys : Bool
  pc : Postcode
  off : Nat
  deriving DecidableEq, Repr

def addrAt (b : List Byte) (o : Nat) : Addr :=
  if flagPhys b then { phys := true, pc := pcField b o, off := field b (o + 8) 8 }
  else { phys := false, pc := 0, off := field b o 8 }

/-- A reserved byte of an address field is not 0. -/
def addrReserved (b : List Byte) (o : Nat) : Bool :=
  if flagPhys b then field b (o + 4) 4 != 0 || decide (2 ^ 48 ≤ field b (o + 8) 8) else field b (o + 8) 8 != 0

/-- A virtual address beyond 57 bits (R38). -/
def addrWide (b : List Byte) (o : Nat) : Bool := !flagPhys b && decide (2 ^ 57 ≤ field b o 8)

/-- A place that a copy may read or write: T, F or X memory, within its bound (R36, R37). -/
def memPlaceOk (s : State) (pc : Postcode) (off len : Nat) : Bool :=
  validPostcode pc
    && ((isTilePc s pc && decide (off + len ≤ unitSize pc)) || (isStorePc s pc && decide (off + len ≤ storeBound s (pcModule pc))))

/-- An address field names no valid place; virtual addresses are checked at their translation. -/
def addrBad (s : State) (a : Addr) (len : Nat) : Bool := a.phys && !memPlaceOk s a.pc a.off len

/-! ### Body fields -/

def copyMode (b : List Byte) : Nat := field b 0x38 1
def copyPlaces (b : List Byte) : Nat := field b 0x39 1

def atomicOp (b : List Byte) : Nat := field b 0x20 1
def atomicSize (b : List Byte) : Nat := field b 0x21 1
def atomicFetch (b : List Byte) : Bool := bit (field b 0x22 1) 0

/-- Operation and operand size go together (R145). -/
def atomicFits (op size : Nat) : Bool :=
  if op ≤ 6 then size == 4 || size == 8 else if op = 7 then size == 4 else op == 8 && size == 2

def selLen (b : List Byte) : Nat := field b 0x30 4
def selK (b : List Byte) : Nat := field b 0x34 4
def selFormat (b : List Byte) : Nat := field b 0x38 1
def selFlags (b : List Byte) : Nat := field b 0x39 1
def selGroup (b : List Byte) : Nat := field b 0x3A 2

/-- A key format of R351. -/
def keyFormatOk (f : Nat) : Bool := [1, 2, 3, 7, 8, 9].contains (f % 64) && (f / 64 == 0 || f / 64 == 1)
def keyBytes (f : Nat) : Nat := if [1, 7, 9].contains (f % 64) then 4 else 2
def entryBytes (f : Nat) : Nat := if bit f 6 then 16 else 8

/-- A select engine of a module's frond. -/
def isSelectPc (own : Nat) (pc : Postcode) : Bool :=
  validPostcode pc && pcModule pc == own && decide (pcDie pc < 84) && (pcUnit pc == 8 || pcUnit pc == 9)
def isSelectUnit (pc : Postcode) : Bool :=
  validPostcode pc && decide (pcDie pc < 84) && (pcUnit pc == 8 || pcUnit pc == 9)

/-- A SELECT that opens a merge context (R359). -/
def selContext (own : Nat) (b : List Byte) : Bool := bit (selFlags b) 2 && flagPhys b && isSelectPc own (pcField b 0x10)

def specSamples (b : List Byte) : Nat := field b 0x30 4
def specSlot (b : List Byte) : Nat := field b 0x34 2

def launchPh (b : List Byte) : Nat := field b 0x10 2
def launchEntry (b : List Byte) : Nat := field b 0x12 2
def launchArgs (b : List Byte) : Nat := field b 0x14 4

/-- The tally range of the die that a TALLY_SET or TALLY_WAIT postcode names (R34). -/
def tallyRange (s : State) (pc : Postcode) : Nat := if isStorePc s pc then 1024 else tallyCount (pcDie pc)

/-! ### Checks before the start (R140–R151, R159) -/

/-- The descriptor breaks a rule whose status is "invalid descriptor". NOP has no body table: whether its body bytes are reserved is left
open, and the model ignores them (DESIGN CHOICE, assumption 86). -/
def descInvalid (s : State) (b : List Byte) : Bool :=
  let own := moduleNumber s
  let t := descType b
  let rsv (o n : Nat) : Bool := field b o n != 0
  decide (7 < t) || decide (32 ≤ descFlags b) || (flagReg b && !(t == 1 || t == 2 || t == 3 || t == 5))
    || (match t with
      | 1 => addrReserved b 0x10 || addrReserved b 0x20 || decide (copyLength b < 1 ∨ 2 ^ 32 < copyLength b ∨ 3 < copyMode b)
          || (if copyMode b = 0 then copyPlaces b != 0 else copyPlaces b == 0) || rsv 0x3A 6
      | 2 => addrReserved b 0x10 || decide (8 < atomicOp b) || !atomicFits (atomicOp b) (atomicSize b)
          || decide (1 < field b 0x22 1) || rsv 0x23 5 || rsv 0x38 8
      | 3 =>
        let fl := selFlags b
        let merge := bit fl 2
        let ctx := selContext own b
        addrReserved b 0x10 || addrReserved b 0x20 || rsv 0x3C 4 || decide (16 ≤ fl) || !keyFormatOk (selFormat b)
          || decide (selLen b = 0 ∨ selK b = 0 ∨ 4194304 < selK b)
          || (if merge then decide (65536 < selLen b) else decide (4194304 < selLen b ∨ selLen b < selK b))
          || (ctx && decide (4080 < selK b * entryBytes (selFormat b)))
          || (bit fl 3 && decide (4096 < 16 + selK b * entryBytes (selFormat b)))
          || (!bit fl 3 && selGroup b != 0)
      | 4 => decide (4095 < launchPh b ∨ 4096 < launchArgs b) || launchArgs b % 8 != 0 || addrReserved b 0x18
          || (decide (launchArgs b ≤ 24) && rsv 0x18 16)
      | 5 => addrReserved b 0x10 || addrReserved b 0x20 || decide (63 < specSlot b) || rsv 0x36 10
      | 6 => decide (2 ^ 48 ≤ field b 0x18 8 ∨ field b 0x20 4 < 1 ∨ 1000000 < field b 0x20 4) || rsv 0x24 28
          || decide (tallyCount (pcDie (pcField b 0x10)) ≤ descTally b)
      | 7 => rsv 0x14 4 || decide (2 ^ 48 ≤ field b 0x18 8) || rsv 0x24 28
          || decide (tallyRange s (pcField b 0x10) ≤ descTally b)
      | _ => false)

/-- An engine postcode names an engine of a kind on this module. -/
def engineOk (own : Nat) (pc : Postcode) (lo hi : Nat) : Bool :=
  validPostcode pc && pcModule pc == own && decide (pcDie pc < 84 ∧ lo ≤ pcUnit pc ∧ pcUnit pc ≤ hi)

/-- A place in T or F of this module. -/
def localMem (own : Nat) (pc : Postcode) : Bool :=
  pcModule pc == own && decide (pcDie pc < 84) && (pcUnit pc == 1 || pcUnit pc == 0xB)

/-- The descriptor breaks a rule of naming or alignment, as far as it can be told before translation. `physical`,
`mode` and `edge` are the ring's. The Engine of a NOP or TALLY_WAIT, executed by the ring engine, may name the ring's own one alone, not
another edge die's (DESIGN CHOICE, assumption 88). -/
def descBadPlace (s : State) (physical : Bool) (mode edge : Nat) (b : List Byte) : Bool :=
  let own := moduleNumber s
  let t := descType b
  let e := descEngine b
  let any := e == noPostcode
  let a := addrAt b 0x10
  let d := addrAt b 0x20
  (flagPhys b && !physical)
    || (match t with
      | 1 => addrWide b 0x10 || addrWide b 0x20 || addrBad s a (copyLength b) || addrBad s d (copyLength b)
          || (copyMode b != 0 && !flagPhys b) || (!any && !engineOk own e 4 7)
      | 2 => addrWide b 0x10 || addrBad s a (atomicSize b) || a.off % max 1 (atomicSize b) != 0
          || !any || (mode == 1 && !flagPhys b)
      | 3 =>
        let rowSrc := !bit (selFlags b) 2
        let ctx := selContext own b
        let srcBad := if ctx then decide (2 ^ 16 ≤ a.off)
          else (a.phys && !(localMem own a.pc && memPlaceOk s a.pc a.off 1)) || (!a.phys && mode == 1)
        let dstSel := d.phys && isSelectUnit d.pc
        let dstBad := if dstSel then !bit (selFlags b) 3 || d.off != selGroup b else addrBad s d 1
        addrWide b 0x10 || addrWide b 0x20 || srcBad || dstBad
          || (!ctx && (if rowSrc then a.off % keyBytes (selFormat b) != 0 else a.off % 8 != 0))
          || (!dstSel && d.off % 8 != 0)
          || (!any && !(engineOk own e 8 9 && (!a.phys || pcDie e == pcDie a.pc) && (!ctx || e == a.pc)))
      | 4 => !any || (decide (24 < launchArgs b) && (addrWide b 0x18
          || addrBad s (addrAt b 0x18) (launchArgs b)))
      | 5 => addrWide b 0x10 || addrWide b 0x20 || (mode == 1 && !flagPhys b)
          || (a.phys && !(localMem own a.pc && memPlaceOk s a.pc a.off 1))
          || (d.phys && !(localMem own d.pc && memPlaceOk s d.pc d.off 1))
          || (a.phys && d.phys && pcDie a.pc != pcDie d.pc)
          || (!any && !(engineOk own e 0xC 0xC && (!a.phys || pcDie e == pcDie a.pc)))
      | 6 => !validPostcode (pcField b 0x10) || pcModule (pcField b 0x10) != own
          || (!any && e != ringEnginePc own edge)
      | 7 => !validPostcode (pcField b 0x10)
          || (!any && e != dieCtlPc own (pcDie (pcField b 0x10))) || (!any && pcModule (pcField b 0x10) != own)
      | _ => !any && e != ringEnginePc own edge)

/-- The status with which a descriptor fails before it starts, if it does. One that breaks rules of both kinds is an invalid descriptor
(DESIGN CHOICE, assumption 87). A steward core's queue has no registered packets (DESIGN CHOICE). -/
def descCheck (s : State) (r : Nat) (b : List Byte) : Option Nat :=
  let g := ringOf s r
  if descInvalid s b || (decide (1024 ≤ r) && flagReg b) then some stInvalidDescriptor
  else if descBadPlace s g.physical g.mode (ringDie r - 96) b then some stInvalidPlace
  else none

/-! ### Choosing an engine (R143) -/

/-- Descriptors that an engine is executing. -/
def engineLoad (s : State) (e : Postcode) : Nat :=
  s.rings.foldl (fun n x => n + x.2.started.countP fun d => d.engine == e && d.status.isNone) 0

/-- The least busy of some engines, the first of equals. -/
def leastBusy (s : State) : List Postcode → Postcode
  | [] => noPostcode
  | e :: t =>
    let best := leastBusy s t
    if t.isEmpty ∨ engineLoad s e ≤ engineLoad s best then e else best

def copyEngines (own f : Nat) : List Postcode := (List.range 4).map fun i => hubUnit own f (4 + i)
def selectEngines (own f : Nat) : List Postcode := (List.range 2).map fun i => hubUnit own f (8 + i)

/-- What the ring engine knows of the place an address leads to: a place, host memory (`some none`), or nothing before a walk. A place
reference tells its own, an address in mode 1 is the host's (R170), one in mode 2 was translated at fetch (R171), and otherwise the pin
store or the ring's edge-die unit holds a translation. -/
def knownPlace (s : State) (r : Nat) (leaves : List Leaf) (a : Addr) : Option (Option Postcode) :=
  let g := ringOf s r
  let placeOf (l : Leaf) : Option Postcode := match l.target with | .place pc _ => some pc | .host _ _ => none
  if a.phys then some (some a.pc)
  else if g.mode = 1 then some none
  else if g.mode = 2 then some ((leaves.find? (leafCovers g.ctx a.off)).bind placeOf)
  else (translate s (ringDie r) g.ctx a.off).map placeOf

/-- The frond of a place in T or F of this module. -/
def localFrond (s : State) (p : Option Postcode) : Option Nat :=
  match p with
  | some pc => if localMem (moduleNumber s) pc && dieUp s (pcDie pc) then some (pcDie pc) else none
  | none => none

/-- The frond in service nearest a ring's edge die: the nearest to its first attachment. -/
def nearFrond (s : State) (r : Nat) : Nat :=
  let f := ((attachments (ringDie r - 96)).map Prod.fst).getD 0 0
  ((sortBy (fun a b => decide (gridDist f a < gridDist f b)) (frondsInService s)).head?).getD f

/-- The copy engine that the ring engine chooses (R143), once it knows where the destination and, if that is not in T or F of this
module, the source lies. -/
def chooseCopy (s : State) (r : Nat) (leaves : List Leaf) (b : List Byte) : Option Postcode :=
  match knownPlace s r leaves (addrAt b 0x20) with
  | none => none
  | some p => match localFrond s p with
    | some f => some (leastBusy s (copyEngines (moduleNumber s) f))
    | none => (knownPlace s r leaves (addrAt b 0x10)).map fun q =>
        leastBusy s (copyEngines (moduleNumber s) ((localFrond s q).getD (nearFrond s r)))

/-- The engine that executes a descriptor; that of a COPY may still be open (0xFFFF_FFFF). A virtual source of a SELECT or SPECTRAL whose
place is not known leaves the choice to the frond nearest the ring's edge die. -/
def chooseEngine (s : State) (r : Nat) (leaves : List Leaf) (b : List Byte) : Postcode :=
  let own := moduleNumber s
  let e := descEngine b
  let src := localFrond s ((knownPlace s r leaves (addrAt b 0x10)).getD none)
  match descType b with
  | 1 => if e ≠ noPostcode then e else (chooseCopy s r leaves b).getD noPostcode
  | 3 =>
    if selContext own b then pcField b 0x10
    else if e ≠ noPostcode then e
    else leastBusy s (selectEngines own (src.getD (nearFrond s r)))
  | 5 => if e ≠ noPostcode then e else hubUnit own (src.getD (nearFrond s r)) 0xC
  | 7 => ringEnginePc own (ringDie r - 96)
  | _ => ringEnginePc own (ringDie r - 96)

end Sys2Proof.Machine
end

