-- ==== Sys2Proof/Machine/CopyEngine.lean ====
section
/-! DEFINITION. The copy engine (R144, R153, R168–R171, R177, R178, R197, R258, R284, R285, R317): resolving the two ends
of a copy, reading, sending, and ending. -/

namespace Sys2Proof.Machine

/-! ### Resolving an address of a copy -/

/-- Where one end of a copy lies at a position: a target with the bytes left under its translation, a walk to wait for,
a page fault, or a status that ends the copy. `va` is set for a translated address. -/
inductive Resolved where
  | at_ (t : Target) (room : Nat) (va : Option Nat)
  | walk
  | fault (va : Nat)
  | bad (status : Nat)
  deriving DecidableEq, Repr

/-- The unit that translates a copy's addresses (R169). -/
def copyUnit (g : Ring) (r : Nat) (engine : Postcode) : Nat := if g.mode = 2 then ringDie r else pcDie engine

/-- The leaf for an address of a descriptor: in mode 2 one that it was dispatched with (R171), else the executing unit's, and in mode 1 also
the edge-die unit's (R169, R170, R173). -/
def copyLeaf (s : State) (r : Nat) (d : Started) (va : Nat) : Option Leaf :=
  let g := ringOf s r
  if g.mode = 1 then
    match tlbLookup s (pcDie d.engine) (atsCtx g.ctx) va with
    | some l => some l
    | none => tlbLookup s (ringDie r) (atsCtx g.ctx) va
  else if g.mode = 2 then d.leaves.find? (leafCovers g.ctx va)
  else translate s (copyUnit g r d.engine) g.ctx va

/-- Resolve one end of a copy at position `pos`. In mode 2 a page without a leaf has faulted at fetch, and the copy pauses at it (R171). -/
def resolve (s : State) (r : Nat) (d : Started) (a : Addr) (pos : Nat) (write : Bool) : Resolved :=
  if a.phys then .at_ (.place a.pc (a.off + pos)) (2 ^ 48) none
  else
    let va := a.off + pos
    if 2 ^ 57 ≤ va then .bad stInvalidPlace
    else
      match copyLeaf s r d va with
      | none => if (ringOf s r).mode = 2 ∧ !d.rewalk then .fault va else .walk
      | some l =>
        if !(if write then l.w else l.r) then .fault va
        else if !targetInUnit (leafPlace l va) then .bad stInvalidPlace
        else .at_ (leafPlace l va) (l.va + l.size - va) (some va)

/-- Bytes left in the unit of a target that a read or a packet may name. -/
def unitRoom : Target → Nat
  | .host _ _ => 2 ^ 48
  | .place pc o => if pcDie pc < 84 ∧ (pcUnit pc = 1 ∨ pcUnit pc = 0xB) then unitSize pc - o else 2 ^ 48

/-- The longest piece of a copy from one target to another (R94, R256): a read within Max Read Request Size and its 4 KiB
page or within one read request, and a write that fits one packet. With `units`, toward a store under a memory key, a piece ends where a
data unit does if it holds a whole one (R197). -/
def chunkLen (f : Fn) (units : Bool) (src dst : Target) (left : Nat) : Nat :=
  let a := match src with
    | .host h _ => pieceLen h left f.maxRead
    | .place _ o => min left (4096 - o % 64)
  match dst with
  | .host _ _ => min a 4096
  | .place _ o =>
    let n := min a (4096 - o % 64)
    if units ∧ n < left ∧ (o + n) % 64 < n then n - (o + n) % 64 else n

/-! ### Streams to and from a store (R197) -/

def inTF : Target → Bool
  | .place pc _ => decide (pcDie pc < 84) && (pcUnit pc == 1 || pcUnit pc == 0xB)
  | .host _ _ => false

def inStore (s : State) : Target → Bool
  | .place pc _ => isStorePc s pc
  | .host _ _ => false

/-- The memory key of a selector of 1–159. -/
def memoryKey (s : State) (key : Nat) : Option (List Byte) :=
  if 1 ≤ key ∧ key ≤ 159 then (tfind s.fabric.keys key).map KeySlot.key else none

/-- `n` free bytes: a data unit's ciphertext that the spec leaves open. -/
def freshBytes : Nat → State → List Byte × State
  | 0, s => ([], s)
  | n + 1, s =>
    let x := freshNat 256 s
    let y := freshBytes n x.2
    (BitVec.ofNat 8 x.1 :: y.1, y.2)

/-- Encrypt bytes for an offset of a store in 64-byte data units; one that is only partly given has no stated ciphertext and takes free
bytes. -/
def streamOut (key : List Byte) (pc : Postcode) : Nat → Nat → List Byte → State → List Byte × State
  | 0, _, _, s => ([], s)
  | fuel + 1, off, bytes, s =>
    if bytes.isEmpty then ([], s)
    else
      let n := min bytes.length (64 - off % 64)
      let x := if n = 64 then (xtsEncrypt key (xtsTweak pc off) (bytes.take 64), s) else freshBytes n s
      let y := streamOut key pc fuel (off + n) (bytes.drop n) x.2
      (x.1 ++ y.1, y.2)

/-- Decrypt whole data units read from an aligned offset of a store. -/
def streamIn (key : List Byte) (pc : Postcode) (off : Nat) (bytes : List Byte) : List Byte :=
  ((chunks 64 (bytes.length + 1) bytes).zip (List.range (bytes.length + 1))).flatMap fun u =>
    xtsDecrypt key (xtsTweak pc (off + 64 * u.2)) (padTo 64 u.1)

/-- The key of a copy that streams from a store into T or F, or the other way. -/
def streamKey (s : State) (key : Nat) (src dst : Target) : Option (List Byte) :=
  if (inStore s src && inTF dst) || (inTF src && inStore s dst) then memoryKey s key else none

/-- The range a read of a place covers: whole data units where it streams from a store. -/
def readSpan (s : State) (key : Nat) (src dst : Target) (off n : Nat) : Nat × Nat :=
  if inStore s src && (streamKey s key src dst).isSome then
    (off / 64 * 64, roundUp (off + n) 64 - off / 64 * 64)
  else (off, n)

/-! ### Write packets -/

/-- The poison mask of a payload: bit u for 64-byte unit u (R260). -/
def poisonMask (bad : List Bool) : Option (BitVec 64) :=
  if bad.any id then
    some (BitVec.ofNat 64 ((List.range 64).foldl (fun n u => if ((bad.drop (64 * u)).take 64).any id then n + 2 ^ u else n) 0))
  else none

/-- The write packet that stores bytes at an offset of a unit (R256). -/
def mkWrite (engine pc : Postcode) (off tally : Nat) (fr : Frank) (bytes : List Byte) (bad : List Bool) : Pkt :=
  let lead := off % 64
  let len := roundUp (lead + bytes.length) 64
  { control := false, op := 0, dest := pc, src := engine, frank := fr, offset := off - lead, tally := tally
    lead := lead, trail := len - lead - bytes.length
    poison := poisonMask (List.replicate lead false ++ bad)
    body := padTo len (List.replicate lead 0 ++ bytes) }

/-- Send a copy's packet: with REG the last packet to each die is kept until the copy ends, and the one kept before it goes
unregistered (R141). -/
def copySend (r c : Nat) (p : Pkt) (s : State) : State :=
  match startedOf s r c with
  | none => s
  | some d =>
    if flagReg d.bytes then
      let k := destKey p.dest
      let old := d.lastOf.find? fun q => destKey q.dest == k
      let s := onStarted r c (fun d => { d with lastOf := d.lastOf.filter (fun q => destKey q.dest != k) ++ [p] }) s
      match old with
      | some q => ringInject r c q s
      | none => s
    else ringInject r c p s

def ringFrank (g : Ring) : Frank := { ctx := g.ctx, key := g.key }

/-- The frank of a ring's requests (R186). -/
def frankOf (s : State) (r : Nat) : Frank := ringFrank (ringOf s r)

/-- Send bytes of a copy to a place: `pos` bytes of the transfer went before them. -/
def copyWrite (r c pos : Nat) (pc : Postcode) (off : Nat) (bytes : List Byte) (bad : List Bool) (s : State) : State :=
  match startedOf s r c with
  | none => s
  | some d =>
    copySend r c (mkWrite d.engine pc off (descTally d.bytes) (frankOf s r) bytes bad)
      (onStarted r c (fun d => { d with sentAt := d.sentAt ++ [{ pc := pc, off := off / 64 * 64, pos := pos }] }) s)

/-- The data unit of a store that holds the byte at offset `off` and position `pos` of a transfer of `len` bytes is written wholly by it. -/
def unitCovered (len pos off : Nat) : Bool := decide (off % 64 ≤ pos ∧ pos + 64 ≤ len + off % 64)

/-- Bytes of one data unit toward a store (R197): a unit that the copy covers wholly waits until all its bytes have come, and is then
encrypted and sent; another goes as it is. -/
def copyUnitPart (r c pos : Nat) (key : List Byte) (pc : Postcode) (off : Nat) (bytes : List Byte) (bad : List Bool) (s : State) : State :=
  match startedOf s r c with
  | none => s
  | some d =>
    if bytes.isEmpty then s
    else if !unitCovered (copyLength d.bytes) pos off then
      let x := streamOut key pc (bytes.length + 1) off bytes s
      copyWrite r c pos pc off x.1 bad x.2
    else
      let start := pos - off % 64
      let all := (List.range bytes.length).foldl (fun l i => tset l (pos + i) (nth 0 bytes i, nth false bad i)) d.units
      let got := all.filter fun e => decide (start ≤ e.1 ∧ e.1 < start + 64)
      if got.length < 64 then onStarted r c (fun d => { d with units := all }) s
      else
        let u := off / 64 * 64
        copyWrite r c start pc u (xtsEncrypt key (xtsTweak pc u) (got.map fun e => e.2.1)) (got.map fun e => e.2.2)
          (onStarted r c (fun d => { d with units := all.filter fun e => !decide (start ≤ e.1 ∧ e.1 < start + 64) }) s)

/-- Bytes toward a store under a memory key: the whole data units among them go in one packet, the parts of units at its ends apart. -/
def copyStream (r c pos : Nat) (key : List Byte) (pc : Postcode) (off : Nat) (bytes : List Byte) (bad : List Bool) (s : State) : State :=
  let head := min bytes.length ((64 - off % 64) % 64)
  let body := (bytes.length - head) / 64 * 64
  let x := streamOut key pc (body + 1) (off + head) ((bytes.drop head).take body) s
  let s := copyUnitPart r c pos key pc off (bytes.take head) (bad.take head) x.2
  let s := if body = 0 then s else copyWrite r c (pos + head) pc (off + head) x.1 ((bad.drop head).take body) s
  copyUnitPart r c (pos + head + body) key pc (off + head + body) (bytes.drop (head + body)) (bad.drop (head + body)) s

/-- Bytes that a copy has read reach their destination (R95, R108, R144, R197). -/
def copyDeliver (r c pos : Nat) (src dst : Target) (bytes : List Byte) (bad : List Bool) (s : State) : State :=
  match startedOf s r c with
  | none => s
  | some d =>
    let g := ringOf s r
    let f := fnOf s g.owner
    let s := onStarted r c (fun d => { d with bytesDone := d.bytesDone + bytes.length, poisoned := d.poisoned || bad.any id }) s
    match dst with
    | .host a tr =>
      if mayIssue f then
        hostWrite g.owner a bytes bad true (pasidFor s g.owner g.ctx) tr s
      else endStarted r c stAborted 0 s
    | .place pc off =>
      match streamKey s g.key src dst, inTF src with
      | some k, true => copyStream r c pos k pc off bytes bad s
      | _, _ => copyWrite r c pos pc off bytes bad s

/-- The bytes of a piece out of what a read of its place returned: decrypted where the copy streams from a store. -/
def pieceOf (s : State) (r : Nat) (src dst : Target) (n : Nat) (bytes : List Byte) (bad : List Bool) :
    List Byte × List Bool :=
  match src with
  | .host _ _ => (bytes.take n, bad.take n)
  | .place pc off =>
    let g := ringOf s r
    let sp := readSpan s g.key src dst off n
    let plain := match streamKey s g.key src dst, inStore s src with
      | some k, true => streamIn k pc sp.1 bytes
      | _, _ => bytes
    ((plain.drop (off - sp.1)).take n, (bad.drop (off - sp.1)).take n)

/-! ### Ends -/

/-- A data packet of an issuer still waits for its injection. -/
def awaitsInjection (s : State) (o : Origin) : Bool :=
  s.fabric.flights.any fun e => e.2.origin == o && !e.2.pkt.control && (match e.2.loc with | .inject .. => true | _ => false)

/-- Everything a descriptor waits for has come: its reads, the injection of its packets, and the deliveries and receipts that it
awaits (R153). -/
def quiet (s : State) (r : Nat) (d : Started) : Bool :=
  !awaitsInjection s (.ring r d.count) && d.readsOut == 0 && d.localOut == 0 && d.receipts.isEmpty && d.held.isEmpty && d.lastOf.isEmpty && d.page.isNone && !d.walk

/-- Send the packets kept for REG, now known to be the last ones (R141). -/
def sendLast (r c : Nat) (s : State) : State :=
  match startedOf s r c with
  | none => s
  | some d =>
    updates d.lastOf (fun p s => ringInject r c { p with registered := true } s)
      (onStarted r c (fun d => { d with lastOf := [] }) s)

/-- End a copy whose bytes have all gone (R153, R386). -/
def copyCheck (r c : Nat) (s : State) : State :=
  match startedOf s r c with
  | none => s
  | some d =>
    if d.status.isSome ∨ d.issued < copyLength d.bytes ∨ d.readsOut ≠ 0 ∨ d.relay.isSome then s
    else
      let s := settleWaits (sendLast r c s)
      match startedOf s r c with
      | some d => if quiet s r d then endStarted r c (if d.poisoned then stPoisoned else stOk) 0 s else s
      | none => s

/-! ### Progress -/

/-- The place of the first relay: the bytes that may go before its receipt returns (R285). -/
def relayChunk : Nat := 65536

/-- A place of a fan-out line after another (R284): along the mesh on the same module, or the next module of an axis entry
of this module's table. `none` where it does not exist. -/
def nextPlace (s : State) (mode direction : Nat) (pc : Postcode) : Option Postcode :=
  let m := pcModule pc; let f := pcDie pc; let t := pcTile pc; let u := pcUnit pc
  match mode with
  | 1 =>
    if 4 ≤ u then (frondNeighbour f 1).map fun g => mkPostcode m g t u
    else if t % 20 < 18 then some (mkPostcode m f (t + 1) u)
    else (frondNeighbour f 1).map fun g => mkPostcode m g (t / 20 * 20) u
  | 2 =>
    if 4 ≤ u then (frondNeighbour f 2).map fun g => mkPostcode m g t u
    else if t + 20 < 320 then some (mkPostcode m f (t + 20) u)
    else (frondNeighbour f 2).map fun g => mkPostcode m g (t % 20) u
  | _ =>
    let e := tget 0 s.fabric.active.axis direction
    if bit e 0 then some (mkPostcode (bits e 19 8) f t u) else none

/-- The places of a fan-out in modes 1 and 2 all exist and are reachable. -/
def lineExists (s : State) (mode : Nat) : Nat → Postcode → Bool
  | 0, _ => true
  | n + 1, pc =>
    pcModule pc == moduleNumber s && dieReachable s (pcDie pc)
      && (if n = 0 then true else match nextPlace s mode 0 pc with | some q => lineExists s mode n q | none => false)

/-- The axis entry whose next module a mode-3 destination names (R284). -/
def axisToward (s : State) (m : Nat) : Option Nat :=
  (List.range 6).find? fun d => let e := tget 0 s.fabric.active.axis d; bit e 0 && bits e 19 8 == m

/-- A fan-out's places fail before it starts (R284). -/
def fanoutBad (s : State) (b : List Byte) : Bool :=
  let d := addrAt b 0x20
  match copyMode b with
  | 0 => false
  | 3 => (axisToward s (pcModule d.pc)).isNone
  | m => !lineExists s m (copyPlaces b) d.pc

/-- Begin a fan-out's relay (R285). -/
def beginRelay (r c : Nat) (s : State) : State :=
  match startedOf s r c with
  | none => s
  | some d =>
    if copyMode d.bytes = 0 ∨ d.relay.isSome then s
    else
      let id := s.fabric.nextRelay % 65536
      let a := addrAt d.bytes 0x20
      let x : Relay := {
        ring := r, count := c, place := { pc := a.pc, off := a.off }, left := copyPlaces d.bytes - 1
        mode := copyMode d.bytes, direction := (axisToward s (pcModule a.pc)).getD 0, total := copyLength d.bytes }
      onStarted r c (fun d => { d with relay := some id })
        (onFabric (fun f => { f with relays := tset f.relays id x, nextRelay := f.nextRelay + 1 }) s)

/-- Send a RELAY toward the frond of a place (R285): `previous` is the last place written, `left` the places after it. -/
def sendRelay (src target : Postcode) (fr : Frank) (issuer : Postcode) (left mode direction off chunk len tally id total : Nat)
    (previous : Postcode) (s : State) : State :=
  sendControl (mkControl 0x20 (hubUnit (pcModule target) (pcDie target) 4) src fr
    [(0x18, u32 issuer.toNat), (0x1C, u8 left), (0x1D, u8 mode), (0x1E, u8 direction), (0x20, u64 off), (0x28, u32 chunk),
     (0x2C, u32 len), (0x30, u32 previous.toNat), (0x34, u16 tally), (0x36, u16 id), (0x38, u64 total)]) s

/-- The end of the chunk a fan-out is writing to place 1, or of the copy. -/
def copyStop (s : State) (d : Started) : Nat :=
  match d.relay with
  | some id => (match tfind s.fabric.relays id with
    | some x => min (copyLength d.bytes) (x.sent + relayChunk)
    | none => copyLength d.bytes)
  | none => copyLength d.bytes

/-- Place 1 of a fan-out has a whole chunk: its last packet goes registered; with its receipt the RELAY goes, and the next
chunk begins (R285). -/
def relayCheck (r c : Nat) (s : State) : State :=
  match startedOf s r c with
  | none => s
  | some d =>
    match d.relay with
    | none => s
    | some id =>
      match tfind s.fabric.relays id with
      | none => s
      | some x =>
        let stop := copyStop s d
        if d.status.isSome ∨ d.issued < stop ∨ d.readsOut ≠ 0 ∨ x.total ≤ x.sent then s
        else
          let s := sendLast r c s
          match startedOf s r c with
          | none => s
          | some d =>
            if !quiet s r d then s
            else
              onFabric (fun f => { f with relays := tset f.relays id { x with sent := stop } })
                (sendRelay d.engine x.place.pc (frankOf s r) d.engine x.left x.mode x.direction x.place.off x.sent
                  (stop - x.sent) (descTally d.bytes) id x.total x.place.pc s)

/-- Channels of an engine that ring descriptors may hold (R317). -/
def ringChannels : Nat := 7

/-- A copy has a channel of its engine, or takes one. -/
def takeChannel (r c : Nat) (s : State) : Option State :=
  match startedOf s r c with
  | none => none
  | some d =>
    if d.acted then some s
    else
      let busy := s.rings.foldl (fun n x => n + x.2.started.countP fun e =>
        descType e.bytes == 1 && e.engine == d.engine && e.acted && e.status.isNone) 0
      if ringChannels ≤ busy then none else some (onStarted r c (fun d => { d with acted := true }) s)

/-- Wait for a walk of an address (R175), passed to the edge-die unit in mode 1 (R169). -/
def copyWalk (r c : Nat) (engine : Postcode) (va : Nat) (write : Bool) (s : State) : State :=
  let g := ringOf s r
  let u := if g.mode = 1 then ringDie r else copyUnit g r engine
  match startWalk u g.ctx va (g.mode == 1) false (.copy r c va write false) s with
  | some s => onStarted r c (fun d => { d with walk := true }) s
  | none => s

/-- A copy engine translates up to 2 pages ahead of a page it begins to move (R177); a mode-2 copy translates nothing (R171). -/
def copyAhead (r c va : Nat) (write : Bool) (s : State) : State :=
  match startedOf s r c with
  | none => s
  | some d =>
    let g := ringOf s r
    match copyLeaf s r d va with
    | none => s
    | some l =>
      if g.mode = 2 then s
      else
        updates [l.va + l.size, l.va + 2 * l.size] (fun v s =>
          if 2 ^ 57 ≤ v ∨ (copyLeaf s r d v).isSome then s
          else (startWalk (if g.mode = 1 then ringDie r else copyUnit g r d.engine) g.ctx v (g.mode == 1) false
            (.copy r c v write true) s).getD s) s

/-- The copy begins to move a page at this position of it. -/
def pageBegins (s : State) (r : Nat) (d : Started) (pos va : Nat) : Bool :=
  pos == 0 || (match copyLeaf s r d va with | some l => l.va == va | none => false)

/-- Move a copy forward by up to `fuel` pieces: each reads from the source, and its data goes on when it returns. -/
def copyProgress : Nat → Nat → Nat → State → State
  | 0, r, c, s => copyCheck r c (relayCheck r c s)
  | fuel + 1, r, c, s =>
    match startedOf s r c with
    | none => s
    | some d =>
      let g := ringOf s r
      let f := fnOf s g.owner
      let stop := copyStop s d
      if d.status.isSome || d.page.isSome || d.walk then s
      else if stop ≤ d.issued then
        let s := relayCheck r c s
        match startedOf s r c with
        | some d => if d.relay.isSome && decide (d.issued < copyStop s d) then copyProgress fuel r c s else copyCheck r c s
        | none => s
      else
        let pos := d.issued
        let src := addrAt d.bytes 0x10
        let dst := addrAt d.bytes 0x20
        match resolve s r d src pos false, resolve s r d dst pos true with
        | .bad st, _ => endStarted r c st 0 s
        | _, .bad st => endStarted r c st 0 s
        | .walk, _ => copyWalk r c d.engine (src.off + pos) false s
        | .fault va, _ => pageFault r c va false s
        | _, .walk => copyWalk r c d.engine (dst.off + pos) true s
        | _, .fault va => pageFault r c va true s
        | .at_ st roomS vaS, .at_ dt roomD vaD =>
          let units := (streamKey s g.key st dt).isSome && inStore s dt
          let n := min (chunkLen f units st dt (min (stop - pos) (min roomS roomD))) (min (unitRoom st) (unitRoom dt))
          if n = 0 then endStarted r c stInvalidPlace 0 s
          else
            let moved (write : Bool) (va : Option Nat) (s : State) : State := match va with
              | some v => when (pageBegins s r d pos v) (copyAhead r c v write) (hotSpan (copyUnit g r d.engine) g.ctx v n s)
              | none => s
            let took (s : State) : State := moved true vaD (moved false vaS
              (onStarted r c (fun d => { d with issued := pos + n, readsOut := d.readsOut + 1 }) s))
            match st with
            | .host a tr =>
              if !mayIssue f then endStarted r c stAborted 0 s
              else if !canRead s g.owner then s
              else copyProgress fuel r c (took (hostRead g.owner a n (pasidFor s g.owner g.ctx) tr (.copy r c pos n dt) s))
            | .place pc off =>
              let t := newTag (.copy r c pos n st dt) s
              let sp := readSpan s g.key st dt off n
              copyProgress fuel r c (took (ringInject r c (mkReadRequest d.engine pc sp.1 sp.2 t.1 (ringFrank g)) t.2))

/-- Pieces one event may issue (DESIGN CHOICE): further COPY events, or the data's return, carry on. -/
def copyFuel : Nat := 1024

/-- A piece of a copy's source has arrived: `bad` marks its poisoned bytes. -/
def copyData (r c pos n : Nat) (src dst : Target) (bytes : List Byte) (bad : List Bool) (s : State) : State :=
  match startedOf s r c with
  | none => s
  | some d =>
    if d.status.isSome then s
    else
      let s := onStarted r c (fun d => { d with readsOut := d.readsOut - 1 }) s
      let x := pieceOf s r src dst n bytes bad
      copyProgress copyFuel r c (copyDeliver r c pos src dst x.1 x.2 s)

/-- A read of a copy has failed: the copy ends with a status. -/
def copyFail (r c status : Nat) (s : State) : State :=
  endStarted r c status 0 (onStarted r c (fun d => { d with readsOut := d.readsOut - 1 }) s)

end Sys2Proof.Machine
end

