-- ==== Sys2Proof/Machine/Letterbox.lean ====
section
/-! DEFINITION. The letterbox registers (R110–R113) and the start of a command (R118). -/

namespace Sys2Proof.Machine

/-- The function answers memory requests: its port's link is up and configured, the function exists, and it is not
in FLR (R92, R102). -/
def fnVisible (s : State) (k : Nat) : Bool :=
  (hostPortOf s (k / 64)).link == 1 && (hostPortOf s (k / 64)).configReady
    && (if inSafe s then k % 64 == 0 else fnEnabled s k)

/-- A write to a function's BAR reaches its registers: not in FLR (R102), not in D3hot (R106). -/
def barOpen (s : State) (k : Nat) : Bool := fnVisible s k && !(fnOf s k).flr && !(fnOf s k).d3

/-- A naturally aligned access of 4 or 8 bytes (R93). -/
def goodAccess (offset size : Nat) : Bool := (size == 4 || size == 8) && offset % size == 0

/-- A request for a function that cannot be reached: Unsupported Request (R92); nothing arrives over a link that is down. -/
def unreachableFn (k : Nat) (s : State) : State :=
  if (hostPortOf s (k / 64)).link = 1 then emit (.unsupported (k / 64) (k % 64)) s else s

/-- What a read of a BAR answers (R92, R93, R106): the register's value, or none for an Unsupported Request. A 4-byte read
takes the half that its offset names. -/
def barAnswer (s : State) (k bar off size : Nat) : Option Nat :=
  if !fnVisible s k ∨ !goodAccess off size then none
  else
    let v := barRead s k bar (off / 8 * 8)
    some (if size = 8 then v else v / 2 ^ (8 * (off % 8)) % 2 ^ 32)

/-- A write to a function's register: applied when it reaches it, an Unsupported Request when the function cannot be
reached (R92), and no effect in FLR or D3hot. -/
def barWrite (k : Nat) (f : State → State) (s : State) : State :=
  if barOpen s k then f s
  else if fnVisible s k then s
  else unreachableFn k s

/-- An access that R93 rejects: a read completes with Unsupported Request; either is logged (R108). A write in FLR or D3hot is
dropped before it is looked at (R102, R106). -/
def badAccess (k : Nat) (write : Bool) (s : State) : State :=
  if write && fnVisible s k && !barOpen s k then s
  else if fnVisible s k then when (!write) (emit (.unsupported (k / 64) (k % 64))) (aer (k / 64) 1 8 s)
  else unreachableFn k s

/-- A dropped doorbell or frame write (R112). -/
def lbOverrun (lb : Nat) (s : State) : State :=
  onLb lb (fun l => { l with overrun := true, overruns := (l.overruns + 1) % 2 ^ 32 }) s

/-- LB_DOORBELL (R111, R112). -/
def doorbell (lb value : Nat) (s : State) : State :=
  if !bit value 0 then s
  else if (lbOf s lb).state = .idle then
    let n := s.post.nextOrder
    onLb lb (fun l => { l with state := .accepted, order := n, phase := .fresh, failover := false })
      (onPost (fun p => { p with nextOrder := n + 1 }) s)
  else lbOverrun lb s

def onLetterbox (lb : Nat) (f : State → State) (s : State) : Res :=
  if lb < 128 then .next (barWrite lb f s) else .next s

def execLbDoorbell (lb value : Nat) (s : State) : Res := onLetterbox lb (doorbell lb value) s

/-- LB_ABORT (R111). -/
def execLbAbort (lb value : Nat) (s : State) : Res :=
  onLetterbox lb (fun s => if bit value 0 then abortCommand lb s else s) s

/-- A write to LB_STATUS: each bit written 1 clears unless hardware sets it in the same cycle; clearing result-ready
moves Done to Idle (R5, R111, R431). -/
def resultClear (lb value : Nat) (hwSet : Bool) (s : State) : State :=
  onLb lb (fun l =>
    let clear0 := bit value 0 && !hwSet
    { l with
      ready := (l.ready && !bit value 0) || (hwSet && l.state == .done)
      overrun := l.overrun && !bit value 1
      failed := l.failed && !bit value 2
      state := if clear0 ∧ l.state = .done then .idle else l.state }) s

/-- LB_RESULT_CLEAR (R111, R431); `hwSet` is a set of result-ready in the same cycle. -/
def execLbResultClear (lb value : Nat) (hwSet : Bool) (s : State) : Res := onLetterbox lb (resultClear lb value hwSet) s

/-- A write of 4 or 8 bytes to the command frame at an offset of the frame (R110, R112, R431). -/
def frameWrite (lb offset size value : Nat) (s : State) : State :=
  if (lbOf s lb).state = .idle then
    onLb lb (fun l => { l with cmd := putTab l.cmd offset (leBytes size value) }) s
  else lbOverrun lb s

/-- LB_FRAME_WRITE: `offset` counts from the start of the command frame; a size or alignment that R93 rejects is an
Unsupported Request, and an offset outside the frame changes nothing. -/
def execLbFrameWrite (lb offset size value : Nat) (s : State) : Res :=
  if (size = 4 ∨ size = 8) ∧ offset % size = 0 ∧ offset + size ≤ 1792 then
    onLetterbox lb (frameWrite lb offset size value) s
  else if lb < 128 ∧ (size = 4 ∨ size = 8) ∧ offset % size = 0 then .next s
  else if lb < 128 then .next (badAccess lb true s)
  else .next s

/-- COMMAND_START (R118). -/
def execCommandStart (lb : Nat) (s : State) : Res :=
  if lb < 128 then .next (commandStart lb s) else .next s

end Sys2Proof.Machine
end

