-- ==== Sys2Proof/Machine/RingEngine.lean ====
section
/-! DEFINITION. The ring engine (R134–R162): doorbells, descriptor fetch, starts, settlement with completion entries and
moderation, and the interrupt block and MSI-X table writes (R96, R432, R433). -/

namespace Sys2Proof.Machine

def ringReg (port fn : Nat) : Bool := decide (port < 2 ∧ fn < 64)
/-- A ring, or the private queue of a steward core as 1,024 + core (R323). -/
def validRing (r : Nat) : Bool := decide (r < 1088)
def m32 (v : Nat) : Nat := v % 2 ^ 32
/-- a − b modulo 2^32. -/
def sub32 (a b : Nat) : Nat := (a % 2 ^ 32 + 2 ^ 32 - b % 2 ^ 32) % 2 ^ 32

/-- A ring is kept from starting descriptors by its function or the governor (R49, R100, R106). -/
def ringHeldBy (s : State) (g : Ring) : Bool := !mayIssue (fnOf s g.owner) || s.power.ringsHeld

/-- Move a live ring between Running, Held and Completion full as its conditions say (R134, R135). -/
def ringRestate (r : Nat) (s : State) : State :=
  let g := ringOf s r
  if ringLive g.state then
    let st : RingState :=
      if g.state = .cqFull ∧ g.cqEntries ≤ sub32 g.cqWritten g.cqConsumed then .cqFull
      else if ringHeldBy s g || g.awaitDoorbell then .held
      else .running
    onRing r (fun g => { g with state := st }) s
  else s

/-! ### Registers of a ring page -/

/-- A doorbell (R101, R138). -/
def ringDoorbell (r value : Nat) (s : State) : State :=
  let g := ringOf s r
  let t := m32 value
  if g.state = .free ∨ g.state = .allocated then s
  else if sub32 t g.head ≤ g.entries ∧ sub32 g.tail g.head ≤ sub32 t g.head then
    ringRestate r (onRing r (fun g => { g with tail := t, awaitDoorbell := g.awaitDoorbell && !mayIssue (fnOf s g.owner) }) s)
  else
    journalFrom (ringPc (moduleNumber s) r) 0x5001 1 1 false [u16 r, u32 t]
      (onRing r (fun g => { g with status := setBit g.status 1 true }) s)

/-- A register of a ring page of a function, when the page names a ring of its (R44, R137). -/
def onRingPage (port fn page : Nat) (f : Nat → State → State) (s : State) : Res :=
  if !ringReg port fn then .next s
  else
    .next (barWrite (64 * port + fn) (fun s =>
      match pageRing s (64 * port + fn) page with
      | some r => f r s
      | none => s) s)

/-- RING_DOORBELL (R138). -/
def execRingDoorbell (port fn page value : Nat) (s : State) : Res :=
  onRingPage port fn page (fun r s => ringDoorbell r value s) s

/-- RING_CQ_CONSUMED (R157, R436). -/
def cqConsume (r value : Nat) (s : State) : State :=
  let g := ringOf s r
  if sub32 value g.cqConsumed ≤ sub32 g.cqWritten g.cqConsumed then
    ringRestate r (onRing r (fun g => { g with cqConsumed := m32 value }) s)
  else s

def execRingCqConsumed (port fn page value : Nat) (s : State) : Res :=
  onRingPage port fn page (fun r s => cqConsume r value s) s

/-! ### Interrupt block and MSI-X table -/

/-- A vector register with the bad-vector check (R432). -/
def badVector (k v : Nat) (f : Fn) : Fn := if vectorCount k ≤ v then { f with intStatus := setBit f.intStatus 2 true } else f

/-- A write to a block that the diagnostic PF does not have (R107, R437). -/
def noDiag (f : State → State) (s : State) : State := if inSafe s then s else f s

/-- INT_EVENT_VECTOR (R430, R432). -/
def execIntEventVector (port fn value : Nat) (s : State) : Res :=
  if !ringReg port fn then .next s
  else
    let k := 64 * port + fn
    .next (barWrite k (noDiag <| onFn k fun f => badVector k (bits value 10 0)
      { f with eventVector := bits value 10 0, eventEnable := bit value 15 }) s)

/-- INT_SELECT (R432). -/
def execIntSelect (port fn value : Nat) (s : State) : Res :=
  if !ringReg port fn then .next s
  else
    let k := 64 * port + fn
    .next (barWrite k (noDiag <| onFn k fun f => badVector k (bits value 10 0) { f with intSelect := bits value 10 0 }) s)

/-- Write one field of an MSI-X table entry; a pending message goes when nothing withholds it any more (R96, R433). -/
def msixWrite (k v : Nat) (field : MsixField) (value : Nat) (s : State) : State :=
  let value := m32 value
  let s := onFn k (fun f => { f with vectors := tmod {} f.vectors v fun e =>
    match field with
    | .addressLow => { e with address := e.address / 2 ^ 32 * 2 ^ 32 + value }
    | .addressHigh => { e with address := value * 2 ^ 32 + e.address % 2 ^ 32 }
    | .data => { e with data := value }
    | .control => { e with control := value % 2 } }) s
  msixFlush k s

/-- MSIX_TABLE_WRITE (R433). -/
def execMsixTableWrite (port fn vector : Nat) (field : MsixField) (value : Nat) (s : State) : Res :=
  if !ringReg port fn then .next s
  else if vectorCount (64 * port + fn) ≤ vector then .next s
  else .next (barWrite (64 * port + fn) (noDiag (msixWrite (64 * port + fn) vector field value)) s)

/-! ### Translation of a ring's own arrays (R136, R169) -/

/-- Where a ring's own address leads: a target with the bytes left under its leaf, or nothing cached yet. -/
def ringResolve (s : State) (r va : Nat) (write : Bool) : Option (Option (Target × Nat)) :=
  let g := ringOf s r
  let l := if g.mode = 1 then tlbLookup s (ringDie r) (atsCtx g.ctx) va else translate s (ringDie r) g.ctx va
  l.map fun l =>
    if (if write then l.w else l.r) && targetInUnit (leafPlace l va) then some (leafPlace l va, l.va + l.size - va) else none

def ringWalk (r va : Nat) (q : WalkFor) (s : State) : Option State :=
  let g := ringOf s r
  startWalk (ringDie r) g.ctx va (g.mode == 1) false q s

/-! ### Fetch (R139) -/

/-- The count of the next descriptor not yet fetched. -/
def nextFetch (g : Ring) : Nat :=
  match g.fetched.getLast? with
  | some f => m32 (f.count + 1)
  | none => match g.started.getLast? with
    | some d => m32 (d.count + 1)
    | none => g.head

/-- Slots that one fetch may read: within the tail, up to 16 beyond the oldest unsettled descriptor, and consecutive slots. -/
def fetchRoom (g : Ring) : Nat :=
  let n := nextFetch g
  min (min (sub32 g.tail n) (17 - sub32 n g.head)) (min 16 (g.entries - n % max 1 g.entries))

/-- Fetch descriptors (R136, R139, R162). -/
def descriptorFetch (r : Nat) (s : State) : State :=
  let g := ringOf s r
  let n := nextFetch g
  let room := fetchRoom g
  if g.state ≠ .running ∨ g.fetching ∨ 0 < g.owed ∨ room = 0 then s
  else
    let va := g.base + 64 * (n % max 1 g.entries)
    match ringResolve s r va false with
    | none =>
      match ringWalk r va (.fetch r) s with
      | some s => onRing r (fun g => { g with fetching := true }) s
      | none => s
    | some none => ringError r 1 s
    | some (some (t, left)) =>
      let k := g.owner
      match t with
      | .host a tr =>
        let m := min room (pieceLen a (min (64 * room) left) (fnOf s k).maxRead / 64)
        if m = 0 ∨ !canRead s k then s
        else hostRead k a (64 * m) (pasidFor s k g.ctx) tr (.fetch r n m) (onRing r (fun g => { g with fetching := true }) (hotSpan (ringDie r) g.ctx va (64 * m) s))
      | .place pc off =>
        let m := min room (left / 64)
        let x := newTag (.fetch r n m) s
        if m = 0 then s
        else sendSealed (mkReadRequest (ringEnginePc (moduleNumber s) (ringDie r - 96)) pc off (64 * m) x.1 (ringFrank g)) .none
          (onRing r (fun g => { g with fetching := true }) (hotSpan (ringDie r) g.ctx va (64 * m) x.2))

/-- DESCRIPTOR_FETCH (R139). -/
def execDescriptorFetch (ring : Nat) (s : State) : Res :=
  if validRing ring then .next (descriptorFetch ring s) else .next s

/-! ### Translation at fetch, in mode 2 (R169, R171, R180) -/

def fetchedOf (s : State) (r c : Nat) : Option Fetched := (ringOf s r).fetched.find? fun f => f.count == c
def onFetched (r c : Nat) (f : Fetched → Fetched) (s : State) : State :=
  onRing r (fun g => { g with fetched := g.fetched.map fun x => if x.count = c then f x else x }) s

/-- The virtual ranges of a descriptor that are translated by walks: where their address field lies, and their length. -/
def walkedRanges (b : List Byte) : List (Nat × Nat) :=
  match descType b with
  | 1 => [(0x10, copyLength b), (0x20, copyLength b)]
  | 4 => if 24 < launchArgs b then [(0x18, launchArgs b)] else []
  | _ => []

/-- The address at a position of some ranges laid one after another, with the bytes left in its range. -/
def rangeAt (b : List Byte) : List (Nat × Nat) → Nat → Option (Nat × Nat)
  | [], _ => none
  | (o, n) :: t, p => if p < n then some (field b o 8 + p, n - p) else rangeAt b t (p - n)

/-- What is left to translate of a fetched descriptor: an address with the bytes left in its range. A descriptor that fails its checks, or
that names its places, has nothing to translate. -/
def toTranslate (s : State) (r : Nat) (f : Fetched) : Option (Nat × Nat) :=
  if (ringOf s r).mode ≠ 2 ∨ flagPhys f.bytes ∨ f.fail.isSome ∨ (descCheck s r f.bytes).isSome then none
  else rangeAt f.bytes (walkedRanges f.bytes) f.done

/-- The pinned leaves of a descriptor that other engines execute: those from its addresses on, programmed ones first (R172). -/
def pinnedLeaves (s : State) (r : Nat) (b : List Byte) : List Leaf :=
  let g := ringOf s r
  let ls (programmed : Bool) : List Leaf := s.xlat.pins.filterMap fun p => if p.programmed.isSome == programmed then p.leaf else none
  if g.mode ≠ 2 ∨ flagPhys b ∨ ([2, 3, 5].contains (descType b) = false) then []
  else (ls true ++ ls false).filter fun l => l.ctx == g.ctx && decide (min (field b 0x10 8) (field b 0x20 8) < l.va + l.size)

/-- The most pages that one descriptor's ranges can hold: two ranges of 4 GiB in 64 KiB pages. -/
def fetchFuel : Nat := 131076

/-- Translate a fetched descriptor as far as the edge-die unit's stores go; a page that they lack is walked. A page beyond 57 bits has no
translation. The walks go one page at a time (DEDUCED, assumption 93). -/
def fetchTranslate : Nat → Nat → Nat → State → State
  | 0, _, _, s => s
  | fuel + 1, r, c, s =>
    match fetchedOf s r c with
    | none => s
    | some f =>
      match (if f.walk then none else toTranslate s r f) with
      | none => s
      | some (va, left) =>
        let g := ringOf s r
        match translate s (ringDie r) g.ctx va with
        | some l =>
          fetchTranslate fuel r c (onFetched r c (fun f => { f with
            leaves := if f.leaves.contains l then f.leaves else f.leaves ++ [l], done := f.done + min left (l.va + l.size - va) }) s)
        | none =>
          if 2 ^ 57 ≤ va then fetchTranslate fuel r c (onFetched r c (fun f => { f with done := f.done + left }) s)
          else match startWalk (ringDie r) g.ctx va false false (.ahead r c va) s with
            | some s => onFetched r c (fun f => { f with walk := true }) s
            | none => s

/-- A walk for a fetched descriptor has ended. A page that it does not find is left out, for the copy to pause at; a failed table read ends
the descriptor at its start; one that the host stopped is walked again then. -/
def aheadAnswer (r c va : Nat) (e : WalkEnd) (s : State) : State :=
  let s := onFetched r c (fun f => { f with walk := false }) s
  match e with
  | .hit _ => fetchTranslate fetchFuel r c s
  | .miss =>
    (match (fetchedOf s r c).bind (toTranslate s r) with
     | some (v, left) =>
       if v = va then
         fetchTranslate fetchFuel r c (onFetched r c (fun f => { f with done := f.done + min left (2 ^ 16 - va % 2 ^ 16) }) s)
       else fetchTranslate fetchFuel r c s
     | none => s)
  | .hostError _ => onFetched r c (fun f => { f with fail := some stHostBus }) s
  | .aborted => s

/-- A fetch's data has arrived. -/
def fetchData (r first n : Nat) (ok : Bool) (bytes : List Byte) (s : State) : State :=
  let g := ringOf s r
  if !g.fetching then s
  else
    let s := onRing r (fun g => { g with fetching := false }) s
    if !ringLive g.state ∨ nextFetch g ≠ first then s
    else if !ok then ringError r 2 s
    else
      let fs := (List.range n).map fun i =>
        let b := (bytes.drop (64 * i)).take 64
        ({ count := m32 (first + i), bytes := b, leaves := pinnedLeaves s r b } : Fetched)
      updates fs (fun f s => fetchTranslate fetchFuel r f.count s) (onRing r (fun g => { g with fetched := g.fetched ++ fs }) s)

/-! ### Start (R152, R161) -/

/-- A SELECT that opens a merge context must wait (R359). -/
def contextBusy (s : State) (e : Postcode) (group : Nat) : Bool :=
  let ms := tget [] (dieOf s (pcDie e)).merges (pcUnit e)
  decide (32 ≤ ms.length) || ms.any fun m => m.group == group

/-- The registered packets that a REG descriptor will have, one to each destination die (R141), as far as the leaves at hand tell the dies of
a virtual destination. -/
def regNeed (s : State) (r : Nat) (b : List Byte) : Nat :=
  let g := ringOf s r
  let len := if descType b = 1 then copyLength b else if descType b = 3 then selK b * entryBytes (selFormat b) + 64 else 1
  let known := s.xlat.pins.filterMap Pin.leaf ++ s.xlat.units.flatMap fun e => e.2.tlb
  if !flagReg b then 0
  else if flagPhys b ∨ descType b = 2 then 1
  else max 1 ((known.filterMap fun l => match l.target with
    | .place pc _ => if l.ctx = g.ctx ∧ overlaps (field b 0x20 8) len l.va l.size then some (destKey pc) else none
    | .host _ _ => none).eraseDups.length)

/-- The oldest fetched descriptor of a ring may start now (R49, R152, R154, R171, R359). One whose registered packets would exceed the 256
waits, unless it is alone. -/
def mayStartDesc (s : State) (r : Nat) (f : Fetched) : Bool :=
  let g := ringOf s r
  g.state == .running && decide (g.started.length < 16)
    && (!flagWait f.bytes || g.started.isEmpty)
    && !(descType f.bytes == 4 && s.power.launchesHeld)
    && !(flagReg f.bytes && !g.started.isEmpty && decide (256 < (g.started.map regOf).sum + regNeed s r f.bytes))
    && !(flagReg f.bytes && decide (256 ≤ awaitingCount g))
    && (f.walk == false && (toTranslate s r f).isNone)
    && !(descType f.bytes == 3 && selContext (moduleNumber s) f.bytes
        && contextBusy s (pcField f.bytes 0x10) (field f.bytes 0x18 2))

/-- The rings that a ring engine serves in turn: its edge die's 64, then the private queues of that die's four steward cores
(R161 gives no order; DESIGN CHOICE, assumption 92). -/
def engineRings (e : Nat) : List Nat := (List.range 64).map (64 * e + ·) ++ (List.range 4).map (1024 + 4 * e + ·)

/-- It is a ring's turn (R161): no ring that may start a descriptor stands between the one served last and it. A ring that waits passes its
turn. -/
def turnOf (s : State) (r : Nat) : Bool :=
  let e := ringDie r - 96
  let rs := engineRings e
  let ready (q : Nat) : Bool := match (ringOf s q).fetched with | f :: _ => mayStartDesc s q f | [] => false
  match rs.findIdx? (· == r) with
  | none => false
  | some i =>
    let last := match (tfind s.host.turns e).bind fun q => rs.findIdx? (· == q) with | some j => j + 1 | none => 0
    let before := if last ≤ i then (rs.take i).drop last else rs.drop last ++ rs.take i
    !before.any ready

/-- Start a descriptor: its checks (R140–R149), its engine (R143). -/
def startFetched (r : Nat) (f : Fetched) (rest : List Fetched) (s : State) : State :=
  let b := f.bytes
  let st := match descCheck s r b with
    | some e => some e
    | none => if descType b = 1 ∧ fanoutBad s b then some stInvalidPlace else f.fail
  let leaves := if f.stale ∧ descType b ≠ 1 ∧ descType b ≠ 4 then pinnedLeaves s r b else f.leaves
  let d : Started := { count := f.count, bytes := b, status := st, engine := chooseEngine s r leaves b, leaves := leaves }
  s |> onRing r (fun g => { g with fetched := rest, started := g.started ++ [d] })
    |> onHost (fun h => { h with turns := tset h.turns (ringDie r - 96) r })

/-- Start the next descriptor of a ring in its turn; what an invalidation has undone of its translation at fetch is done again first. -/
def descriptorStart (r : Nat) (s : State) : State :=
  let s := match (ringOf s r).fetched with
    | f :: _ => fetchTranslate fetchFuel r f.count s
    | [] => s
  match (ringOf s r).fetched with
  | [] => s
  | f :: rest => if mayStartDesc s r f && turnOf s r then startFetched r f rest s else s

/-- DESCRIPTOR_START (R152). -/
def execDescriptorStart (ring : Nat) (s : State) : Res :=
  if validRing ring then .next (descriptorStart ring s) else .next s

/-! ### Settlement (R153, R156–R160) -/

/-- The first descriptor of a ring not executed. -/
def firstNotStarted (g : Ring) : Nat :=
  match g.started.getLast? with
  | some d => m32 (d.count + 1)
  | none => g.head

/-- A RING_STOP ends when every descriptor that had started has ended. -/
def stopCheck (r : Nat) (s : State) : State :=
  let g := ringOf s r
  match g.stopLb with
  | some lb =>
    if g.started.all fun d => d.status.isSome then
      postWaiting lb 0x0107 0 (pack [u32 (firstNotStarted g)]) (onRing r (fun g => { g with stopLb := none }) s)
    else s
  | none => s

/-- The 32 bytes of completion entry `c` (R156, R157). -/
def cqeBytes (g : Ring) (c : Nat) (d : Started) (status : Nat) : List Byte :=
  leBytes 4 d.count ++ leBytes 2 status ++ leBytes 1 (descType d.bytes)
    ++ leBytes 1 ((c / max 1 g.cqEntries + 1) % 2) ++ leBytes 8 (descTag d.bytes) ++ leBytes 8 d.bytesDone ++ leBytes 8 d.result

/-- Moderation after an entry is written (R160). -/
def moderate (r : Nat) (now : Bool) (s : State) : State :=
  let g := ringOf s r
  let n := g.unsignalled + 1
  if now ∨ g.modCount ≤ n then
    ringMessage r (onRing r (fun g => { g with unsignalled := 0, timerOn := false }) s)
  else onRing r (fun g => { g with unsignalled := n, timerOn := g.timerOn || decide (0 < g.modTime) }) s

/-- Write one entry at the next place of a ring's completion array; `none` when it cannot be written yet. -/
def writeArray (r : Nat) (bytes : List Byte) (now : Bool) (s : State) : Option State :=
  let g := ringOf s r
  let va := g.cqBase + 32 * (g.cqWritten % max 1 g.cqEntries)
  let wrote (s : State) : State := moderate r now (onRing r (fun g => { g with cqWritten := m32 (g.cqWritten + 1) }) (hotSpan (ringDie r) g.ctx va 32 s))
  match ringResolve s r va true with
  | some (some (.host a tr, _)) =>
    some (wrote (hostWrite g.owner a bytes [] false (pasidFor s g.owner g.ctx) tr s))
  | some (some (.place pc off, _)) =>
    some (wrote (sendSealed (mkWrite (ringEnginePc (moduleNumber s) (ringDie r - 96)) pc off 0xFFFF (ringFrank g) bytes []) .none s))
  | _ => none

/-- Write one completion entry: of a ring in its array, of a private queue in its steward core's local memory (R323). -/
def writeEntry (r : Nat) (bytes : List Byte) (now : Bool) (s : State) : Option State :=
  if 1024 ≤ r then
    let c := r - 1024
    some (onMem (fun m => m.putBytes (stewardKey c ((stewardOf s c).array + 32 * ((ringOf s r).cqWritten % 64))) bytes)
      (onRing r (fun g => { g with cqWritten := m32 (g.cqWritten + 1) }) s))
  else writeArray r bytes now s

/-- Settle the oldest started descriptor, when it has ended: its completion entry, the head, the message. -/
def descriptorSettle (r : Nat) (s : State) : State :=
  let g := ringOf s r
  match g.started with
  | [] => s
  | d :: rest =>
    match d.status with
    | none => s
    | some st =>
      let settled (s : State) : State :=
        stopCheck r (onRing r (fun g => { g with started := rest, head := m32 (d.count + 1), owed := g.owed - 1 }) s)
      if g.state = .error ∨ g.state = .free ∨ g.state = .allocated then s
      else if flagQuiet d.bytes ∧ st = stOk then settled s
      else if r < 1024 ∧ !mayIssue (fnOf s g.owner) then s
      else if r < 1024 ∧ g.cqEntries ≤ sub32 g.cqWritten g.cqConsumed then
        (if g.state = .running ∨ g.state = .held then onRing r (fun g => { g with state := .cqFull }) s else s)
      else
        match writeEntry r (cqeBytes g g.cqWritten d st) (st != stOk || flagIrq d.bytes) s with
        | some s => settled s
        | none =>
          let va := g.cqBase + 32 * (g.cqWritten % max 1 g.cqEntries)
          match ringResolve s r va true with
          | some none => ringError r 3 s
          | _ => (match ringWalk r va (.settle r) s with | some s => s | none => s)

/-- DESCRIPTOR_SETTLE (R156); a RING_STOP that waits only for ends, not for entries, ends here too. -/
def execDescriptorSettle (ring : Nat) (s : State) : Res :=
  if validRing ring then .next (settleWaits (stopCheck ring (descriptorSettle ring s))) else .next s

/-- Settle what has ended, at most the 16 descriptors of R152. -/
def settleAll (r : Nat) : Nat → State → State
  | 0, s => s
  | n + 1, s => settleAll r n (descriptorSettle r s)

/-- A ring has something that can fail for a reason: a Stopped one an entry to write. -/
def ringTries (s : State) (r : Nat) : Bool :=
  (ringOf s r).state != .stopped || !(ringOf s r).started.isEmpty || s.xlat.hot.any fun h => h.ring == r && !h.due.isEmpty

/-- RING_ERROR (R162). -/
def execRingError (ring reason : Nat) (s : State) : Res :=
  if 1024 ≤ ring ∨ !ringTries s ring then .next s
  else if 1 ≤ reason ∧ reason ≤ 4 then .next (ringError ring reason s)
  else .next s

/-- The moderation time has elapsed (R160). -/
def moderationTimer (r : Nat) (s : State) : State :=
  let g := ringOf s r
  if g.timerOn ∧ 0 < g.modTime ∧ 0 < g.unsignalled then ringMessage r (onRing r (fun g => { g with unsignalled := 0, timerOn := false }) s)
  else s

/-- MODERATION_TIMER (R160). -/
def execModerationTimer (ring : Nat) (s : State) : Res :=
  if ring < 1024 then .next (moderationTimer ring s) else .next s

end Sys2Proof.Machine
end

