-- ==== Sys2Proof/Machine/Float.lean ====
section
/-! DEFINITION. The number formats of the fields and the atomic unit (R303, R314): IEEE-style binary formats with
`eb` exponent bits and `mb` fraction bits, rounded to nearest with ties to even. -/

namespace Sys2Proof.Machine

/-- A decoded number: NaN, an infinity, or the finite value ± m × 2^e. -/
inductive Fp where
  | nan
  | inf (neg : Bool)
  | fin (neg : Bool) (m : Nat) (e : Int)
  deriving DecidableEq, Repr

def fpBias (eb : Nat) : Int := 2 ^ (eb - 1) - 1

/-- Read an IEEE-style format whose greatest exponent holds infinities and NaNs. -/
def fpDecode (eb mb v : Nat) : Fp :=
  let neg := bit v (eb + mb)
  let ex := v / 2 ^ mb % 2 ^ eb
  let f := v % 2 ^ mb
  if ex = 2 ^ eb - 1 then (if f = 0 then .inf neg else .nan)
  else if ex = 0 then .fin neg f (1 - fpBias eb - mb)
  else .fin neg (2 ^ mb + f) (ex - fpBias eb - mb)

/-- m / 2^n rounded to the nearest integer, ties to even. -/
def roundShift (m n : Nat) : Nat :=
  let q := m / 2 ^ n
  let r := m % 2 ^ n
  if n = 0 then m
  else if 2 ^ (n - 1) < r ∨ (r = 2 ^ (n - 1) ∧ q % 2 = 1) then q + 1 else q

/-- The magnitude bits of m × 2^e in a format: infinity's code when it overflows; subnormals kept. -/
def fpRound (eb mb m : Nat) (e : Int) : Nat :=
  if m = 0 then 0
  else
    let emin : Int := 1 - fpBias eb
    let q : Int := max ((Nat.log2 m : Int) + e) emin - mb
    let mant := if q ≤ e then m * 2 ^ (e - q).toNat else roundShift m (q - e).toNat
    min ((q + mb - emin).toNat * 2 ^ mb + mant) ((2 ^ eb - 1) * 2 ^ mb)

/-- The quiet NaN of a format (R303). -/
def fpNan (eb mb : Nat) : Nat := (2 ^ eb - 1) * 2 ^ mb + 2 ^ (mb - 1)

def fpEncode (eb mb : Nat) : Fp → Nat
  | .nan => fpNan eb mb
  | .inf n => b2n n * 2 ^ (eb + mb) + (2 ^ eb - 1) * 2 ^ mb
  | .fin n m e => b2n n * 2 ^ (eb + mb) + fpRound eb mb m e

/-- The exact sum of two decoded numbers (R303). -/
def fpAdd : Fp → Fp → Fp
  | .nan, _ => .nan
  | _, .nan => .nan
  | .inf a, .inf b => if a = b then .inf a else .nan
  | .inf a, _ => .inf a
  | _, .inf b => .inf b
  | .fin a m e, .fin b n f =>
    let g := min e f
    let x : Int := (if a then -1 else 1) * ((m * 2 ^ (e - g).toNat : Nat) : Int)
    let y : Int := (if b then -1 else 1) * ((n * 2 ^ (f - g).toNat : Nat) : Int)
    let z := x + y
    if z = 0 then .fin (a && b) 0 g else .fin (z < 0) z.natAbs g

/-- fp32 add (R303). -/
def fp32Add (a b : Nat) : Nat := fpEncode 8 23 (fpAdd (fpDecode 8 23 a) (fpDecode 8 23 b))

/-- fp32 to bf16, ties to even; NaN becomes the quiet NaN. -/
def toBf16 (v : Nat) : Nat := fpEncode 8 7 (fpDecode 8 23 v)

/-- bf16 add: fp32 add of the two operands, rounded to bf16 (R303). -/
def bf16Add (a b : Nat) : Nat := toBf16 (fp32Add (a * 2 ^ 16) (b * 2 ^ 16))

end Sys2Proof.Machine
end

