-- ==== Sys2Proof/Machine/Target.lean ====
section
/-! DEFINITION. What a packet meets at its target: the lock check (R188–R191), discards at retired tiles and fenced fronds
(R264), tallies and the waits on them (R34, R149, R293–R295), run counts and holds (R296–R299), and the atomic unit
(R145, R301, R303, R318). -/

namespace Sys2Proof.Machine

/-! ### Locks (R188–R191) -/

/-- Rights as their bit in a lock (R188). -/
def rightRead : Nat := 1
def rightWrite : Nat := 2
def rightAtomic : Nat := 3

/-- A frank passes a lock for a right (R190). -/
def lockPasses (s : State) (l : Nat) (fr : Frank) (right : Nat) : Bool :=
  lockValid l && (tget [] s.fabric.routeSets (lockSet l)).contains fr.ctx && lockSelector l == fr.key && bit l right

/-- The locks that a range of a unit spans. -/
def locksOf (pc : Postcode) (off len : Nat) : List Nat :=
  if pcUnit pc = 0xB then (List.range ((off + len - 1) / 2 ^ 21 + 1 - off / 2 ^ 21)).map (off / 2 ^ 21 + ·)
  else [48 + pcTile pc]

/-- The first lock that refuses a request, a lock or key found with a parity error among them. -/
def lockCheck (s : State) (pc : Postcode) (off len : Nat) (fr : Frank) (right : Nat) : Option Nat :=
  let d := pcDie pc
  (locksOf pc off len).find? fun i =>
    (dieOf s d).badLocks.contains i || !lockPasses s (lockOf s d i) fr right
      || (dieOf s d).badKeys.contains (lockSelector (lockOf s d i))

/-- The postmaster rewrites a lock, and a key slot from a good copy on another frond, that a request met with a parity error
(chapter 9, Faults). -/
def rewriteStores (d lock : Nat) (s : State) : State :=
  let key := lockSelector (lockOf s d lock)
  let copy := allFronds.any fun f => f != d && dieUp s f && !(dieOf s f).badKeys.contains key
  onDie d (fun x => { x with
    badLocks := x.badLocks.filter (· != lock), badKeys := if copy then x.badKeys.filter (· != key) else x.badKeys }) s

/-- Count and journal a refusal, at most once per context and lock in 1 ms (R191). -/
def noteRefusal (d lock : Nat) (fr : Frank) (s : State) : State :=
  s |> countDie d 0 1
    |> limited 191 ((d * 2 ^ 16 + lock) * 2 ^ 20 + fr.ctx) (ticksUs 1000)
        (journalFrom (dieCtlPc (moduleNumber s) d) 0x5004 1 1 false [u32 fr.ctx, u8 fr.key, u16 lock])
    |> rewriteStores d lock

/-- Refuse a packet (R191). -/
def refuse (p : Pkt) (lock : Nat) (s : State) : State :=
  sendControl (mkRefusal p lock) (noteRefusal (pcDie p.dest) lock p.frank s)

/-- A packet's unit is a retired tile, or its frond is fenced (R264): the discard counter's index. -/
def discardIndex (s : State) (pc : Postcode) : Option Nat :=
  let d := pcDie pc
  if 84 ≤ d then none
  else if (dieOf s d).fenced then some 8
  else if pcUnit pc < 4 ∧ (dieOf s d).retired.contains (pcTile pc) then some 6
  else none

/-! ### Tallies (R34, R149, R293–R295) -/

def tallyOf (s : State) (d t : Nat) : Tally := tget {} (dieOf s d).tallies t

/-- End a TALLY_WAIT with the counts of its tally (R149). -/
def endWait (r c status : Nat) (s : State) : State :=
  match startedOf s r c with
  | none => s
  | some d =>
    let t := tallyOf s (pcDie (pcField d.bytes 0x10)) (descTally d.bytes)
    if d.status.isSome then s
    else onStarted r c (fun d => { d with status := some status, result := t.bytes, bytesDone := t.packets }) s

/-- A TALLY_WAIT looks at its tally: it ends when both thresholds are reached, or when the tally's word is bad (R149). -/
def tallyLook (r c : Nat) (s : State) : State :=
  match startedOf s r c with
  | none => s
  | some d =>
    if descType d.bytes ≠ 6 ∨ !d.acted ∨ d.status.isSome then s
    else
      let die := pcDie (pcField d.bytes 0x10)
      let t := tallyOf s die (descTally d.bytes)
      if t.bad then
        endWait r c stUncorrectable (journalRule 5 1 1 false 293 [u8 die, u16 (descTally d.bytes)] s)
      else if field d.bytes 0x18 8 ≤ t.bytes ∧ field d.bytes 0x14 4 ≤ t.packets then endWait r c stOk s
      else s

/-- Every wait on a tally looks again. -/
def tallyLooks (die t : Nat) (s : State) : State :=
  updates s.rings (fun e s =>
    updates (e.2.started.filter fun d => descType d.bytes == 6 && d.acted && d.status.isNone
        && pcDie (pcField d.bytes 0x10) == die && descTally d.bytes == t)
      (fun d s => tallyLook e.1 d.count s) s) s

/-- Count a delivered packet in its tally: bytes modulo 2^48 and packets modulo 2^32, together (R293, R294). -/
def tallyAdd (die t bytes : Nat) (s : State) : State :=
  if t = 0xFFFF then s
  else
    tallyLooks die t (onDie die (fun x => { x with
      tallies := tmod {} x.tallies t fun y => { y with
        bytes := (y.bytes + bytes) % 2 ^ 48
        packets := (y.packets + 1) % 2 ^ 32 } }) s)

/-- Replace both counts (R150); a bad tally word is rewritten. -/
def tallySet (die t bytes packets : Nat) (s : State) : State :=
  tallyLooks die t (onDie die (fun x => { x with
    tallies := tset x.tallies t { bytes := bytes, packets := packets, bad := false } }) s)

/-! ### Runs and holds (R296–R299) -/

def runMatch (m ring run : Nat) (x : RunCount) : Bool := x.module == m && x.ring == ring && x.run == run
def pktRunMatch (p : Pkt) (x : RunCount) : Bool := runMatch (pcModule p.src) (regRing p.reg) (regRun p.reg) x

/-- Packets of a packet's run that its die has settled. -/
def runCountOf (s : State) (d : Nat) (p : Pkt) : Nat :=
  match (dieOf s d).runs.find? (pktRunMatch p) with
  | some x => x.count
  | none => 0

def runStore (d : Nat) : Nat := if d < 84 then 4096 else 1024

/-- A registered packet whose run is not complete: it is held (R296). -/
def mustHold (s : State) (d : Nat) (p : Pkt) : Bool := p.registered && runCountOf s d p != regCount p.reg

/-- The store with room for one more count: the least recently updated count with no held packet waiting on it leaves a
full store (R298). -/
def runEvict (d : Nat) (x : Die) : List RunCount × Bool :=
  if x.runs.length < runStore d then (x.runs, false)
  else (eraseFirst (fun y => !(x.holds.any fun f => pktRunMatch f.pkt y)) x.runs, true)

/-- Settle a packet in its run (R296): a registered packet closes the run; another adds one, last in the order of
updates. -/
def settleRun (d : Nat) (p : Pkt) (s : State) : State :=
  if !regValid p.reg then s
  else if p.registered then onDie d (fun x => { x with runs := x.runs.filter fun y => !pktRunMatch p y }) s
  else
    match (dieOf s d).runs.find? (pktRunMatch p) with
    | some y => onDie d (fun x => { x with runs := (x.runs.filter fun z => !pktRunMatch p z) ++ [{ y with count := y.count + 1 }] }) s
    | none =>
      let ev := runEvict d (dieOf s d)
      onDie d (fun x => { x with
        runs := ev.1 ++ [{ module := pcModule p.src, ring := regRing p.reg, run := regRun p.reg, count := 1 }] })
        (if ev.2 then countDie d 4 1 s else s)

/-- The held packet whose run a settled packet has completed. -/
def heldReady (s : State) (d : Nat) (p : Pkt) : Option Flight :=
  (dieOf s d).holds.find? fun f =>
    pcModule f.pkt.src == pcModule p.src && regRing f.pkt.reg == regRing p.reg && regRun f.pkt.reg == regRun p.reg
      && runCountOf s d f.pkt == regCount f.pkt.reg

/-! ### The atomic unit (R145, R301, R303) -/

/-- A number of `n` bytes as two's complement. -/
def signedOf (n v : Nat) : Int := if 2 ^ (8 * n - 1) ≤ v then (v : Int) - 2 ^ (8 * n) else v

/-- The new value of an atomic. -/
def atomicValue (op size old operand compare : Nat) : Nat :=
  let m := 2 ^ (8 * size)
  let x := operand % m
  match op with
  | 0 => (old + x) % m
  | 1 => if signedOf size x < signedOf size old then x else old
  | 2 => if signedOf size old < signedOf size x then x else old
  | 3 => min old x
  | 4 => max old x
  | 5 => x
  | 6 => if old = compare % m then x else old
  | 7 => fp32Add old x
  | _ => bf16Add old x

/-- Poison in an atomic's word, or in its data unit in an encrypted granule (R388). -/
def atomicPoisoned (s : State) (pc : Postcode) (off : Nat) : Bool := wordPoisoned s pc off

/-- Perform an atomic at its target (R257, R388): the response's status, the old value, and the state. -/
def atomicPerform (p : Pkt) (s : State) : Nat × Nat × State :=
  let op := field p.body 0 1
  let size := field p.body 1 1
  if 8 < op ∨ !((if op ≤ 6 then size == 4 || size == 8 else if op = 7 then size == 4 else size == 2)) ∨ p.offset % size ≠ 0 then
    (2, 0, s)
  else
    let wd := widen s p.dest p.offset size
    let s := updates (wordsOf p.dest wd.1 wd.2) (senseWord p.dest) s
    if atomicPoisoned s p.dest p.offset then (1, 0, countEcc (pcDie p.dest) 3 1 s)
    else
      let old := leNat (plainBytes s p.dest p.offset size)
      let new := atomicValue op size old (field p.body 8 8) (field p.body 0x10 8)
      (0, old, writeMem p.dest p.offset (leBytes size new) [] s)

end Sys2Proof.Machine
end

