-- ==== Sys2Proof/Machine/Descriptors.lean ====
section
/-! DEFINITION. Descriptors as the engines execute them (R144–R154): NOP, COPY, ATOMIC, SPECTRAL, TALLY_WAIT, TALLY_SET,
their timeouts, and the steward cores' private queues (R323). LAUNCH and SELECT stand in `Launches` and
`SelectEngine`. -/

namespace Sys2Proof.Machine

/-! ### Pinned addresses (R173, R179) -/

/-- Where an engine other than a copy engine finds the leaf of an address: in the pin store, or in mode 2 among the pinned leaves that the
descriptor was dispatched with (R169, R171, R173). -/
def pinLook (s : State) (r : Nat) (d : Started) (va : Nat) : Option Leaf :=
  let g := ringOf s r
  if g.mode = 2 then d.leaves.find? (leafCovers g.ctx va) else pinLookup s g.ctx va

/-- The pieces of a range an engine other than a copy engine reaches: place references as they are, virtual addresses by the
leaves that `look` finds; or the status with which the descriptor fails. -/
def pinSpanFrom (look : Nat → Option Leaf) (write : Bool) : Nat → Nat → Nat → Except Nat (List (Target × Nat))
  | 0, _, _ => .ok []
  | fuel + 1, va, len =>
    if len = 0 then .ok []
    else
      match look va with
      | none => .error stNotTranslated
      | some l =>
        let t := leafPlace l va
        let n := min (min len (l.va + l.size - va)) (unitRoom t)
        if !(if write then l.w else l.r) then .error stNotTranslated
        else if 2 ^ 57 ≤ va ∨ !targetInUnit t then .error stInvalidPlace
        else
          match pinSpanFrom look write fuel (va + n) (len - n) with
          | .error e => .error e
          | .ok rest => .ok ((t, n) :: rest)

def pinSpan (look : Nat → Option Leaf) (a : Addr) (len : Nat) (write : Bool) : Except Nat (List (Target × Nat)) :=
  if a.phys then .ok [(.place a.pc a.off, len)] else pinSpanFrom look write (len + 1) a.off len

/-- Read the pieces of a source in T or F of one frond under a frank (R190): bytes and poison, or the status of a failure,
with the state. -/
def readPieces (frond : Nat) (fr : Frank) : List (Target × Nat) → State → Except Nat (List Byte × List Bool) × State
  | [], s => (.ok ([], []), s)
  | (t, n) :: rest, s =>
    match t with
    | .host _ _ => (.error stInvalidPlace, s)
    | .place pc off =>
      if !localMem (moduleNumber s) pc ∨ pcDie pc ≠ frond ∨ unitSize pc < off + n then (.error stInvalidPlace, s)
      else
        match lockCheck s pc off n fr rightRead with
        | some l => (.error stFrank, noteRefusal frond l fr s)
        | none =>
          let x := readMem pc off n s
          let y := readPieces frond fr rest x.2.2
          match y.1 with
          | .error e => (.error e, y.2)
          | .ok (b, p) => (.ok (x.1 ++ b, x.2.1 ++ p), y.2)

/-- Read a whole source range: poison in it completes the descriptor "uncorrectable read" (R386). -/
def readSource (frond : Nat) (fr : Frank) (look : Nat → Option Leaf) (a : Addr) (len : Nat) (s : State) :
    Except Nat (List Byte) × State :=
  match pinSpan look a len false with
  | .error e => (.error e, s)
  | .ok ps =>
    let x := readPieces frond fr ps s
    match x.1 with
    | .error e => (.error e, x.2)
    | .ok (b, bad) => if bad.any id then (.error stUncorrectable, x.2) else (.ok b, x.2)

/-- Count what a descriptor moves through a translation (R200): in its frond's unit, or in mode 2 in the edge die's. -/
def descCount (r : Nat) (engine : Postcode) (a : Addr) (len : Nat) (s : State) : State :=
  let g := ringOf s r
  if a.phys then s else hotSpan (copyUnit g r engine) g.ctx a.off len s

/-! ### Writing a result -/

/-- Note a write packet of a descriptor, with the bytes of its output that went before it. -/
def noteSent (r c : Nat) (pc : Postcode) (off pos : Nat) (s : State) : State :=
  onStarted r c (fun d => { d with sentAt := d.sentAt ++ [{ pc := pc, off := off / 64 * 64, pos := pos }] }) s

/-- Write packets of at most 4,096 payload bytes for bytes at an offset of a unit, `pos` bytes of the output before them. -/
def sendBytes (r c : Nat) (engine pc : Postcode) (tally : Nat) : Nat → Nat → Nat → List Byte → State → State
  | 0, _, _, _, s => s
  | fuel + 1, off, pos, bytes, s =>
    if bytes.isEmpty then s
    else
      let n := 4096 - off % 64
      sendBytes r c engine pc tally fuel (off + n) (pos + n) (bytes.drop n)
        (copySend r c (mkWrite engine pc off tally (frankOf s r) (bytes.take n) []) (noteSent r c pc off pos s))

/-- Write result bytes to the pieces of a destination: host memory through a copy engine (R146). -/
def sendPieces (r c : Nat) (engine : Postcode) (tally : Nat) : Nat → List (Target × Nat) → List Byte → State → State
  | _, [], _, s => s
  | pos, (t, n) :: rest, bytes, s =>
    let g := ringOf s r
    let s := match t with
      | .host a tr =>
        if mayIssue (fnOf s g.owner) then
          hostWrite g.owner a (bytes.take n) [] true (pasidFor s g.owner g.ctx) tr s
        else endStarted r c stAborted 0 s
      | .place pc off => sendBytes r c engine pc tally (n + 1) off pos (bytes.take n) s
    sendPieces r c engine tally (pos + n) rest (bytes.drop n) s

/-- End an ATOMIC, SELECT or SPECTRAL that has acted, once everything it waits for has come (R153). -/
def otherCheck (r c : Nat) (s : State) : State :=
  match startedOf s r c with
  | none => s
  | some d =>
    if !d.acted ∨ d.status.isSome then s
    else
      let s := sendLast r c s
      match startedOf s r c with
      | some d => if quiet s r d then endStarted r c stOk d.result s else s
      | none => s

/-- What a started descriptor does when something it may wait for has come. -/
def descProgress (r c : Nat) (s : State) : State :=
  match startedOf s r c with
  | none => s
  | some d =>
    if d.status.isSome then s
    else
      match descType d.bytes with
      | 1 => if d.acted then copyProgress copyFuel r c s else s
      | 2 | 3 | 5 => otherCheck r c s
      | _ => s

def ringProgress (r : Nat) (s : State) : State := updates (ringOf s r).started (fun d s => descProgress r d.count s) s

/-! ### The rows -/

/-- A row of a started descriptor: its ring and count name one of the row's type that has not ended. -/
def onDesc (ring count ty : Nat) (f : Started → State → State) (s : State) : Res :=
  if !validRing ring then .next s
  else
    match startedOf s ring count with
    | some d => if descType d.bytes = ty ∧ d.status = none then .next (f d s) else .next s
    | none => .next s

/-- NOP_DESCRIPTOR (R151). -/
def execNopDescriptor (ring count : Nat) (s : State) : Res :=
  onDesc ring count 0 (fun _ s => endStarted ring count stOk 0 s) s

/-- The copy takes a channel of its engine and moves on as far as it can. -/
def copyRun (r c : Nat) (s : State) : State :=
  match takeChannel r c s with
  | none => s
  | some s => copyProgress copyFuel r c (beginRelay r c s)

/-- Walk an address whose place the choice of an engine needs, by the ring's edge-die unit. -/
def placeWalk (r c : Nat) (a : Addr) (write : Bool) (s : State) : State :=
  match startWalk (ringDie r) (ringOf s r).ctx a.off false false (.copy r c a.off write false) s with
  | some s => onStarted r c (fun d => { d with walk := true }) s
  | none => s

/-- COPY (R144). An engine that is still open is chosen once the ring engine knows where the destination lies, and if that is not in T or F
of this module the source (R143): the ring's edge-die unit walks an address that it holds no translation of (DEDUCED, assumption 84). -/
def copyStep (r c : Nat) (s : State) : State :=
  match startedOf s r c with
  | none => s
  | some d =>
    if d.walk ∨ d.page.isSome then s
    else if d.engine ≠ noPostcode then copyRun r c s
    else
      match chooseCopy s r d.leaves d.bytes with
      | some e => copyRun r c (onStarted r c (fun d => { d with engine := e }) s)
      | none =>
        if (knownPlace s r d.leaves (addrAt d.bytes 0x20)).isNone then placeWalk r c (addrAt d.bytes 0x20) true s
        else placeWalk r c (addrAt d.bytes 0x10) false s

def execCopy (ring count : Nat) (s : State) : Res := onDesc ring count 1 (fun _ s => copyStep ring count s) s

/-- Where an ATOMIC's target lies (R145, R173, R179). -/
def atomicTarget (s : State) (r : Nat) (d : Started) : Except Nat (Postcode × Nat) :=
  let b := d.bytes
  let a := addrAt b 0x10
  if a.phys then .ok (a.pc, a.off)
  else
    match pinLook s r d a.off with
    | none => .error stNotTranslated
    | some l =>
      match leafPlace l a.off with
      | .host _ _ => .error stInvalidPlace
      | .place pc off =>
        if !l.a then .error stNotTranslated
        else if !targetInUnit (.place pc off) ∨ !memPlaceOk s pc off (atomicSize b) then .error stInvalidPlace
        else .ok (pc, off)

/-- Inject an atomic; with fetch, with REG or on the own module its response is awaited (R153). -/
def atomicStep (r : Nat) (d : Started) (s : State) : State :=
  if d.acted then s
  else
    match atomicTarget s r d with
    | .error e => endStarted r d.count e 0 s
    | .ok (pc, off) =>
      let waits := atomicFetch d.bytes || flagReg d.bytes || pcModule pc == moduleNumber s
      let t := newTag (.atomic r d.count pc) s
      let p : Pkt := {
        control := false, op := 3, dest := pc, src := d.engine, frank := frankOf s r, registered := flagReg d.bytes
        offset := off, tally := descTally d.bytes
        body := padTo 64 ((d.bytes.drop 0x20).take 24 ++ leBytes 8 t.1) }
      t.2 |> onStarted r d.count (fun d => { d with acted := true, bytesDone := atomicSize d.bytes, readsOut := b2n waits })
        |> descCount r d.engine (addrAt d.bytes 0x10) (atomicSize d.bytes)
        |> ringInject r d.count p
        |> otherCheck r d.count

/-- ATOMIC (R145). -/
def execAtomic (ring count : Nat) (s : State) : Res := onDesc ring count 2 (fun d s => atomicStep ring d s) s

/-! ### SPECTRAL (R147, R319, R320) -/

def sampleBytes (format : Nat) : Nat := if format = 1 then 4 else 2
def specOutBytes (format : Nat) : Nat := if format = 1 then 4 else 2

/-- Sample `i` as the number its bytes hold: two's complement for int16, the encoding's bits otherwise. -/
def sampleAt (format : Nat) (bs : List Byte) (i : Nat) : Int :=
  let n := sampleBytes format
  let v := field bs (i * n) n
  if format = 8 then signedOf 2 v else v

/-- Frames of a SPECTRAL (R320). -/
def frameCount (samples frame hop : Nat) : Nat := if samples < frame ∨ hop = 0 then 0 else (samples - frame) / hop + 1

/-- Where a frond's spectral table memory lies in `Memory.cells`. -/
def tableKey (f off : Nat) : Nat := 2 ^ 51 + f * 2 ^ 17 + off

/-- The features of every frame, each value as wide as the output format. -/
def features (rec table src : List Byte) (frames : Nat) : List Byte :=
  let fmt := field rec 0 1
  let len := field rec 4 2
  let hop := field rec 6 2
  let n := specOutBytes (field rec 0x0C 1)
  (List.range frames).flatMap fun i =>
    let xs := (List.range len).map fun j => sampleAt fmt src (i * hop + j)
    (List.range (field rec 0x0A 2)).flatMap fun b => leBytes n (Config.spectralBin xs (rec ++ table) b)

/-- The frond at which a SPECTRAL or SELECT executes once its source is translated. -/
def sourceFrond (s : State) (look : Nat → Option Leaf) (a : Addr) (dflt : Nat) : Nat :=
  if a.phys then pcDie a.pc
  else
    match look a.off with
    | some l => (match l.target with | .place pc _ => if localMem (moduleNumber s) pc then pcDie pc else dflt | _ => dflt)
    | none => dflt

def spectralStep (r : Nat) (d : Started) (s : State) : State :=
  if d.acted then s
  else
    let b := d.bytes
    let src := addrAt b 0x10
    let dst := addrAt b 0x20
    let look := pinLook s r d
    let f := if descEngine b = noPostcode then sourceFrond s look src (pcDie d.engine) else pcDie d.engine
    let eng := hubUnit (moduleNumber s) f 0xC
    let c := d.count
    match tfind (dieOf s f).slots (specSlot b) with
    | none => endStarted r c stInvalidDescriptor 0 s
    | some (rec, _) =>
      if (dieOf s f).badSlots.contains (specSlot b) then
        endStarted r c stInvalidDescriptor 0 (journalRule 8 1 1 false 319 [u8 f, u16 (specSlot b)]
          (onDie f (fun x => { x with badSlots := x.badSlots.filter (· != specSlot b) }) s))
      else
        let n := sampleBytes (field rec 0 1)
        let frames := frameCount (specSamples b) (field rec 4 2) (field rec 6 2)
        let fr := frankOf s r
        let used := frames * field rec 6 2 * n
        let outLen := frames * field rec 0x0A 2 * specOutBytes (field rec 0x0C 1)
        match readSource f fr look src (specSamples b * n) s with
        | (.error e, s) => endStarted r c e 0 s
        | (.ok bytes, s) =>
          match pinSpan look dst outLen true with
          | .error e => endStarted r c e 0 s
          | .ok ps =>
            let inFrond : Bool := ps.all fun p => match p.1 with
              | .place pc off => localMem (moduleNumber s) pc && pcDie pc == f && decide (off + p.2 ≤ unitSize pc)
              | .host _ _ => false
            if !inFrond then endStarted r c stInvalidPlace 0 s
            else
              let table := s.mem.getBytes (tableKey f (field rec 0x20 4)) (field rec 0x24 4)
              s |> onStarted r c (fun d => { d with acted := true, engine := eng, bytesDone := used, result := frames })
                |> descCount r eng src (specSamples b * n)
                |> descCount r eng dst outLen
                |> sendPieces r c eng (descTally b) 0 ps (features rec table bytes frames)
                |> otherCheck r c

/-- SPECTRAL (R320). -/
def execSpectral (ring count : Nat) (s : State) : Res := onDesc ring count 5 (fun d s => spectralStep ring d s) s

/-! ### Tallies (R149, R150) -/

/-- TALLY_WAIT (R149). -/
def execTallyWait (ring count : Nat) (s : State) : Res :=
  onDesc ring count 6 (fun d s => tallyLook ring d.count (onStarted ring d.count (fun d => { d with acted := true }) s)) s

/-- TALLY_WAIT_TIMEOUT (R149). -/
def execTallyWaitTimeout (ring count : Nat) (s : State) : Res :=
  onDesc ring count 6 (fun d s => if d.acted then endWait ring d.count stTimeout s else s) s

/-- The controller a TALLY_SET is addressed to (R150). -/
def tallySetDest (s : State) (pc : Postcode) : Postcode :=
  if isStorePc s pc then mkPostcode (pcModule pc) 0 0 0 else dieCtlPc (pcModule pc) (pcDie pc)

/-- Send the TALLY_SET control packet (R150, R255). -/
def tallySetStep (r : Nat) (d : Started) (s : State) : State :=
  if d.acted then s
  else
    let b := d.bytes
    s |> onStarted r d.count (fun d => { d with acted := true, readsOut := 1 })
      |> sendControl (mkControl 0x03 (tallySetDest s (pcField b 0x10)) d.engine (frankOf s r)
          [(0x18, u16 (descTally b)), (0x20, u64 (field b 0x18 8)), (0x28, u32 (field b 0x20 4))])

/-- TALLY_SET (R150). -/
def execTallySet (ring count : Nat) (s : State) : Res := onDesc ring count 7 (fun d s => tallySetStep ring d s) s

/-- TALLY_SET_TIMEOUT (R150): no acknowledgement for 10 ms. -/
def execTallySetTimeout (ring count : Nat) (s : State) : Res :=
  onDesc ring count 7 (fun d s =>
    if d.acted then returnToSender ring d.count (tallySetDest s (pcField d.bytes 0x10)) s else s) s

/-! ### Return to sender (R154, R155, R285) -/

/-- The place a tag's request went to. -/
def tagDest (r c : Nat) : TagFor → Option Postcode
  | .copy r' c' _ _ (.place pc _) _ => if r' = r ∧ c' = c then some pc else none
  | .atomic r' c' pc => if r' = r ∧ c' = c then some pc else none
  | _ => none

/-- The destination of the oldest thing a descriptor waits for: a receipt, then a read or awaited atomic. -/
def awaitedDest (s : State) (r : Nat) (d : Started) : Option Postcode :=
  match d.receipts with
  | pc :: _ => some pc
  | [] => if d.readsOut = 0 then none else s.fabric.tags.findSome? fun e => tagDest r d.count e.2

/-- A row about any unsettled descriptor that has not ended. -/
def onUnsettled (ring count : Nat) (f : Started → State → State) (s : State) : Res :=
  if !validRing ring then .next s
  else
    match startedOf s ring count with
    | some d => if d.status = none then .next (f d s) else .next s
    | none => .next s

/-- RECEIPT_TIMEOUT (R154): a receipt, read response or awaited atomic response is 10 ms late. -/
def execReceiptTimeout (ring count : Nat) (s : State) : Res :=
  onUnsettled ring count (fun d s => match awaitedDest s ring d with
    | some pc => returnToSender ring count pc s
    | none => s) s

/-- A place cannot be reached by this module's tables (R35, R273). -/
def unreachable (s : State) (pc : Postcode) : Bool :=
  if pcModule pc = moduleNumber s then !dieReachable s (pcDie pc) else !bit (moduleEntry s (pcModule pc)) 0

/-- Everything a descriptor waits for or holds, by destination. -/
def waitsOn (s : State) (r : Nat) (d : Started) : List Postcode :=
  d.receipts ++ (d.held ++ d.lastOf).map Pkt.dest ++ s.fabric.tags.filterMap (fun e => tagDest r d.count e.2)
    ++ (if 0 < d.localOut then
        s.fabric.flights.filterMap (fun e => if e.2.origin = .ring r d.count then some e.2.pkt.dest else none) else [])

/-- UNREACHABLE_TIMEOUT (R154): 100 µs after a destination was marked unreachable. -/
def execUnreachableTimeout (ring count : Nat) (s : State) : Res :=
  onUnsettled ring count (fun d s => match (waitsOn s ring d).find? (unreachable s) with
    | some pc => returnToSender ring count pc s
    | none => s) s

/-- RELAY_TIMEOUT (R285): no RELAY_DONE in time; the unreached place named is the last of the line. -/
def execRelayTimeout (ring count : Nat) (s : State) : Res :=
  onDesc ring count 1 (fun d s => match d.relay with
    | some id => (match tfind s.fabric.relays id with
      | some x => returnToSender ring count x.place.pc (onFabric (fun f => { f with relays := terase f.relays id }) s)
      | none => s)
    | none => s) s

/-! ### Steward queues (R323) -/

/-- Entries of a steward core's queue. -/
def stewardDepth : Nat := 64

/-- The frank and function of a steward core's queue: its pigeonhole's. -/
def stewardRing (s : State) (core : Nat) : Option Ring :=
  match (stewardOf s core).ph with
  | none => none
  | some h => match phOf s h with
    | none => none
    | some p => match tfind s.res.images p.image with
      | none => none
      | some i =>
        some { ringOf s (1024 + core) with
          state := .running, owner := (tget {} s.xlat.ctxs i.ctx).owner, ctx := i.ctx, key := i.key, mode := 0, physical := false }

/-- STEWARD_SUBMIT (R323): the core places one descriptor and names its completion array; a full queue makes it wait. -/
def execStewardSubmit (core array : Nat) (descriptor : List Byte) (s : State) : Res :=
  if 64 ≤ core then .next s
  else
    match stewardRing s core with
    | none => .next s
    | some g =>
      if !(stewardOf s core).running ∨ (stewardOf s core).halted ∨ (stewardOf s core).parked ∨ descriptor.length ≠ 64 ∨ stewardDepth ≤ g.started.length + g.fetched.length
          ∨ 2 ^ 21 < array + 32 * stewardDepth then .next s
      else
        let g := { g with fetched := g.fetched ++ [{ count := nextFetch g, bytes := descriptor }] }
        .next (onSteward core (fun c => { c with array := array }) (onRing (1024 + core) (fun _ => g) s))

end Sys2Proof.Machine
end

