-- ==== Sys2Proof/Machine/Sha.lean ====
section
/-! DEFINITION. SHA-384, the digest of firmware and placement images and of the attestation measurements (R126,
R324, R422). The spec names the algorithm; FIPS 180-4 gives it (PRESUMED, row 5 of the log). Its constants are
computed as FIPS 180-4 defines them: the first 64 fractional bits of roots of primes. -/

namespace Sys2Proof.Machine

/-- Whether `n` has no divisor from 2 up to `d`. -/
def noDivisor (n : Nat) : Nat → Bool
  | 0 => true
  | 1 => true
  | d + 2 => n % (d + 2) != 0 && noDivisor n (d + 1)

/-- The primes below 410: the first 80. -/
def primes80 : List Nat := (List.range 410).filter fun n => decide (2 ≤ n) && noDivisor n (min 20 (n - 1))

/-- The greatest number below 2^bits whose `p`-th power does not exceed `v`. -/
def rootFrom (p v : Nat) : Nat → Nat → Nat
  | 0, r => r
  | n + 1, r => let t := r + 2 ^ n; rootFrom p v n (if t ^ p ≤ v then t else r)

/-- The first 64 fractional bits of the square root and the cube root of a number. -/
def sqrtFrac (n : Nat) : Nat := rootFrom 2 (n * 2 ^ 128) 72 0 % 2 ^ 64
def cbrtFrac (n : Nat) : Nat := rootFrom 3 (n * 2 ^ 192) 72 0 % 2 ^ 64

def shaK : List Nat := primes80.map cbrtFrac

/-- The initial hash value of SHA-384: the ninth to sixteenth primes. -/
def sha384Init : List Nat := ((primes80.drop 8).take 8).map sqrtFrac

def w64 (n : Nat) : Nat := n % 2 ^ 64
def rotr64 (v n : Nat) : Nat := v / 2 ^ n + v % 2 ^ n * 2 ^ (64 - n)

def shaSmall0 (x : Nat) : Nat := rotr64 x 1 ^^^ rotr64 x 8 ^^^ x / 2 ^ 7
def shaSmall1 (x : Nat) : Nat := rotr64 x 19 ^^^ rotr64 x 61 ^^^ x / 2 ^ 6
def shaBig0 (x : Nat) : Nat := rotr64 x 28 ^^^ rotr64 x 34 ^^^ rotr64 x 39
def shaBig1 (x : Nat) : Nat := rotr64 x 14 ^^^ rotr64 x 18 ^^^ rotr64 x 41

/-- Extend the message schedule, newest first. -/
def shaExtend : Nat → List Nat → List Nat
  | 0, w => w
  | n + 1, w =>
    shaExtend n (w64 (shaSmall1 (nth 0 w 1) + nth 0 w 6 + shaSmall0 (nth 0 w 14) + nth 0 w 15) :: w)

def shaRound (s : List Nat) (kw : Nat × Nat) : List Nat :=
  match s with
  | [a, b, c, d, e, f, g, h] =>
    let ch := (e &&& f) ^^^ ((2 ^ 64 - 1 - e) &&& g)
    let t1 := h + shaBig1 e + ch + kw.1 + kw.2
    let maj := (a &&& b) ^^^ (a &&& c) ^^^ (b &&& c)
    [w64 (t1 + shaBig0 a + maj), a, b, c, w64 (d + t1), e, f, g]
  | _ => s

def shaBlock (k : List Nat) (h : List Nat) (block : List Nat) : List Nat :=
  let w := (shaExtend 64 ((chunks 8 16 block).map beNat).reverse).reverse
  let r := (k.zip w).foldl shaRound h
  (h.zip r).map fun p => w64 (p.1 + p.2)

/-- The 48-byte SHA-384 digest. -/
def sha384 (bs : List Byte) : List Byte :=
  let n := bs.length
  let pad := (112 + 128 - (n + 1) % 128) % 128
  let m := natBytes bs ++ [0x80] ++ List.replicate pad 0 ++ beBytes 16 (n * 8)
  let h := (chunks 128 (m.length / 128) m).foldl (shaBlock shaK) sha384Init
  ofNatBytes ((h.take 6).flatMap fun x => beBytes 8 x)

end Sys2Proof.Machine
end

