-- ==== Sys2Proof/Machine/Images.lean ====
section
/-! DEFINITION. Placement images: the container and its checks (R324–R329), the budget (R338), and where a region's bytes lie
once bound (R326, R340). -/

namespace Sys2Proof.Machine

/-! ### Sections (R324) -/

/-- A section as its kind, record count, offset and length. -/
structure Section where
  kind : Nat
  count : Nat
  off : Nat
  len : Nat
  deriving DecidableEq, Repr

def sectionsOf (b : List Byte) : List Section :=
  (List.range (field b 0x0C 2)).map fun i =>
    let o := 0x80 + 16 * i
    { kind := field b o 2, count := field b (o + 4) 4, off := field b (o + 8) 4, len := field b (o + 12) 4 }

def sectionBytes (b : List Byte) (x : Section) : List Byte := (b.drop x.off).take x.len

def findSection (l : List Section) (k : Nat) : Option Section := l.find? fun x => x.kind == k

/-- Size of a record of a section, 0 where its records have no fixed size. -/
def recordSize (k : Nat) : Nat :=
  match k with
  | 2 | 3 | 4 => 16
  | 5 => 24
  | 6 => 64
  | _ => 0

/-- Sections of the kinds R324 asks for, within the image, aligned, not overlapping each other nor the table. -/
def sectionsOk (b : List Byte) (l : List Section) : Bool :=
  let n := l.length
  let times (k : Nat) : Nat := l.countP fun x => x.kind == k
  decide (5 ≤ n ∧ n ≤ 8)
    && (l.all fun x => decide (1 ≤ x.kind ∧ x.kind ≤ 8) && x.off % 64 == 0 && decide (0x80 + 16 * n ≤ x.off ∧ x.off + x.len ≤ b.length)
        && (recordSize x.kind == 0 || x.len == x.count * recordSize x.kind))
    && ((List.range n).all fun i => field b (0x80 + 16 * i + 2) 2 == 0)
    && ([1, 2, 3, 4, 5].all fun k => times k == 1) && ([6, 7, 8].all fun k => decide (times k ≤ 1))
    && ((List.range n).all fun i => (List.range i).all fun j =>
        match l[i]?, l[j]? with
        | some x, some y => decide (x.off + x.len ≤ y.off ∨ y.off + y.len ≤ x.off)
        | _, _ => true)

/-- The records of a section. -/
def recordsOf (b : List Byte) (x : Section) : List (List Byte) :=
  (List.range x.count).map fun i => (b.drop (x.off + i * recordSize x.kind)).take (recordSize x.kind)

/-! ### Records (R325–R328, R319) -/

def readFrond (r : List Byte) : LogicalFrond :=
  { first := field r 0 4, tiles := field r 4 2, rows := field r 6 1, cols := field r 7 1, granules := field r 8 1
    adjacency := field r 9 1 }

def readRegion (r : List Byte) : Region :=
  { space := field r 0 1, rights := field r 1 1, frond := field r 2 2, granules := field r 4 2, va := field r 8 8 }

def readEntryRec (r : List Byte) : Entry :=
  { code := field r 0 4, first := field r 4 4, count := field r 8 4, maxArgs := field r 12 2, limitMs := field r 14 2 }

def readWeight (r : List Byte) : WeightRec :=
  { source := field r 0 8, length := field r 8 4, region := field r 12 2, stream := bit (field r 14 2) 0
    tile := field r 16 4, offset := field r 20 4 }

/-- Logical fronds numbered consecutively from 0 (R325); the first has no previous one to lie beside (DESIGN CHOICE, assumption 107). -/
def frondsOkFrom : Nat → Bool → List (List Byte) → Option Nat
  | n, _, [] => some n
  | n, isFirst, r :: t =>
    let f := readFrond r
    if f.first = n ∧ 1 ≤ f.tiles ∧ f.tiles ≤ 304 ∧ f.tiles = f.rows * f.cols ∧ 1 ≤ f.rows ∧ f.rows ≤ 16 ∧ 1 ≤ f.cols
        ∧ f.cols ≤ 19 ∧ f.granules ≤ 48 ∧ f.adjacency ≤ 2 ∧ (isFirst = true → f.adjacency = 0) ∧ field r 10 6 = 0 then
      frondsOkFrom (n + f.tiles) false t
    else none

/-- Granules of the field-store regions of a logical frond among the first `n` regions. -/
def granulesBefore (rs : List Region) (frond n : Nat) : Nat :=
  ((rs.take n).filter fun r => r.space == 1 && r.frond == frond).foldl (fun a r => a + r.granules) 0

/-- The region table obeys R326. -/
def regionsOk (fs : List LogicalFrond) (raw : List (List Byte)) : Bool :=
  let rs := raw.map readRegion
  decide (1 ≤ rs.length)
    && ((List.range rs.length).all fun i =>
      match rs[i]?, raw[i]? with
      | some r, some b =>
        field b 6 2 == 0 && decide (r.rights < 8)
          && (if i = 0 then r.space == 0 && r.frond == 0 && r.granules == 0 && r.va == 0
              else r.space == 1 && decide (r.frond < fs.length ∧ 1 ≤ r.granules ∧ r.granules ≤ 48)
                && r.va % 2 ^ 21 == 0 && decide (r.va + r.granules * 2 ^ 21 ≤ 2 ^ 57))
      | _, _ => false)
    && ((List.range fs.length).all fun f => match fs[f]? with
        | some lf => decide (granulesBefore rs f rs.length ≤ lf.granules)
        | none => false)

/-- An entry obeys R327. -/
def entryOk (tiles : Nat) (e : Entry) : Bool :=
  decide (1 ≤ e.count ∧ e.first + e.count ≤ tiles ∧ e.maxArgs ≤ 4096) && e.maxArgs % 8 == 0

/-- Bytes of a region: the scratchpad size, or its granules. -/
def regionBytes (scratch : Nat) (r : Region) : Nat := if r.space = 0 then scratch else r.granules * 2 ^ 21

/-- A weight record obeys R328; flag bits other than [0] are taken as reserved. -/
def weightOk (scratch tiles : Nat) (rs : List Region) (raw : List Byte) : Bool :=
  let w := readWeight raw
  match rs[w.region]? with
  | none => false
  | some r =>
    decide (field raw 14 2 ≤ 1) && decide (w.offset + w.length ≤ regionBytes scratch r)
      && (if r.space = 0 then decide (w.tile < tiles) else w.tile == 0)

/-- A spectral record obeys the table of R319. -/
def spectralOk (tables : Nat) (r : List Byte) : Bool :=
  let f (o n : Nat) : Nat := field r o n
  [8, 2, 1].contains (f 0 1) && decide (f 1 1 ≤ 3 ∧ f 2 1 ≤ 2 ∧ f 3 1 ≤ 1 ∧ 1 ≤ f 4 2 ∧ f 4 2 ≤ 4096 ∧ 1 ≤ f 6 2 ∧ f 6 2 ≤ f 4 2)
    && (List.range 7).any (fun i => f 8 2 == 2 ^ (6 + i)) && decide (f 4 2 ≤ f 8 2 ∧ 1 ≤ f 10 2 ∧ f 10 2 ≤ 512)
    && (f 2 1 != 0 || decide (f 10 2 ≤ f 8 2 / 2 + 1)) && [1, 2, 3].contains (f 12 1) && f 13 1 == 0
    && decide (2 * f 0x18 4 ≤ f 0x10 4 ∧ f 0x20 4 + f 0x24 4 ≤ tables) && f 0x28 8 == 0 && f 0x30 8 == 0 && f 0x38 8 == 0

/-- Two weight records overlap in one region. -/
def recsOverlap (a b : WeightRec) : Bool :=
  a.region == b.region && a.tile == b.tile && a.length != 0 && b.length != 0
    && decide (a.offset < b.offset + b.length ∧ b.offset < a.offset + a.length)

/-- Record `i` lies in an overlap group (R338). -/
def inGroup (ws : List WeightRec) (i : Nat) : Bool :=
  match ws[i]? with
  | none => false
  | some w => (List.range ws.length).any fun j => j != i && (match ws[j]? with | some v => recsOverlap w v | none => false)

/-- Table memory of a spectral front-end (R319). -/
def tableMemory : Nat := 131072

/-- The image that the postmaster's management processor runs, and the slot it came from. -/
def runningImage (s : State) : List Byte := (tget (0, []) s.post.running (b2n s.post.onE8)).2
def runningSlot (s : State) : Nat := (tget (0, []) s.post.running (b2n s.post.onE8)).1

/-- The tile-code revisions of the running firmware's header (R126). -/
def supportedRevisions (s : State) : List Nat :=
  ((List.range 8).map fun i => field (runningImage s) (0x14 + 2 * i) 2).filter (· != 0)

/-- Check and read an image in the order of R329; the error is the command's error code. -/
def parseImage (owner ctx length : Nat) (b : List Byte) (revisions : List Nat) (eRevision eImage : Nat) : Except Nat Image :=
  let f (o n : Nat) : Nat := field b o n
  if f 0 4 ≠ 0x4B575049 ∨ f 4 2 ≠ 1 then .error eImage
  else if !revisions.contains (f 6 2) then .error eRevision
  else if f 8 4 ≠ length ∨ 2 ^ 28 < length ∨ length < 0x80 then .error eImage
  else if (b.drop 0x40).take 48 ≠ sha384 (b.take 0x40 ++ b.drop 0x80) then .error eImage
  else
    let ss := sectionsOf b
    let recs (k : Nat) : List (List Byte) := match findSection ss k with | some x => recordsOf b x | none => []
    let whole (k : Nat) : List Byte := match findSection ss k with | some x => sectionBytes b x | none => []
    let fr := (recs 2).map readFrond
    let rs := (recs 3).map readRegion
    let es := (recs 4).map readEntryRec
    let ws := (recs 5).map readWeight
    let tiles := f 0x10 4
    let scratch := f 0x20 4
    let stew := f 0x17 1
    let ok :=
      sectionsOk b ss && f 0x24 28 == 0 && f 0x70 16 == 0
        && decide (1 ≤ f 0x0E 2 ∧ f 0x0E 2 ≤ 1024 ∧ 1 ≤ tiles ∧ tiles ≤ 25536 ∧ 1 ≤ f 0x14 2 ∧ f 0x14 2 ≤ 84 ∧ f 0x16 1 ≤ 159
            ∧ stew ≤ 4 ∧ scratch ≤ 1040384)
        && es.length == f 0x0E 2 && fr.length == f 0x14 2 && frondsOkFrom 0 true (recs 2) == some tiles
        && regionsOk fr (recs 3) && es.all (entryOk tiles) && (recs 5).all (weightOk scratch tiles rs)
        && ws.foldl (fun n w => n + w.length) 0 == f 0x18 8
        && ((List.range ws.length).all fun i => !inGroup ws i || (match ws[i]? with | some w => w.stream | none => true))
        && decide ((recs 6).length ≤ 64 ∧ (whole 7).length ≤ tableMemory) && (recs 6).all (spectralOk (whole 7).length)
        && (if stew = 0 then (findSection ss 8).isNone
            else match findSection ss 8 with | some x => x.count == 1 && decide (1 ≤ x.len ∧ x.len ≤ 2 ^ 21) | none => false)
    if ok then
      .ok { owner := owner, ctx := ctx, revision := f 6 2, length := length, tiles := tiles, key := f 0x16 1, stewards := stew
            declared := f 0x18 8, scratch := scratch, fronds := fr, regions := rs, entries := es, weights := ws
            spectral := recs 6, tables := whole 7, steward := whole 8 }
    else .error eImage

/-! ### Budget (R338, R339) -/

/-- The bytes covered by ranges sorted by start: each range adds what lies beyond those before it. -/
def coveredFrom : Nat → List (Nat × Nat) → Nat
  | _, [] => 0
  | upTo, (lo, hi) :: t => (hi - max lo upTo) + coveredFrom (max upTo hi) t

/-- Distinct region bytes covered by at least one weight record. -/
def coveredBytes (ws : List WeightRec) : Nat :=
  let keys := (ws.map fun w => (w.region, w.tile)).eraseDups
  keys.foldl (fun n k =>
    let rs := (ws.filter fun w => w.region == k.1 && w.tile == k.2).map fun w => (w.offset, w.offset + w.length)
    n + coveredFrom 0 (sortBy (fun a b => decide (a.1 < b.1)) rs)) 0

/-- The excess E, the budget B and the streamed bytes Q. -/
def excessOf (i : Image) : Nat := i.declared - coveredBytes i.weights
def budgetOf (i : Image) : Nat := coveredBytes i.weights
def streamedOf (i : Image) : Nat :=
  (List.range i.weights.length).foldl (fun n j =>
    if inGroup i.weights j then n + (match i.weights[j]? with | some w => w.length | none => 0) else n) 0

/-- Records loaded at creation: those outside every overlap group. -/
def loadedRecs (i : Image) : List Nat := (List.range i.weights.length).filter fun j => !inGroup i.weights j
def streamedRecs (i : Image) : List Nat := (List.range i.weights.length).filter (inGroup i.weights)

/-! ### Bound addresses -/

/-- The logical frond of a logical tile. -/
def frondOfTile (fs : List LogicalFrond) (t : Nat) : Nat :=
  (fs.findIdx? fun f => decide (f.first ≤ t ∧ t < f.first + f.tiles)).getD 0

/-- A logical tile's physical frond and tile. -/
def tileAt (p : Ph) (lt : Nat) : Nat × Nat := let v := tget 0 p.tileOf lt; (v / 320, v % 320)

/-- The place of a byte of a region: of logical tile `lt`'s scratchpad for region 0. -/
def regionPlace (own : Nat) (i : Image) (p : Ph) (region lt off : Nat) : Option (Postcode × Nat) :=
  match i.regions[region]? with
  | none => none
  | some r =>
    if r.space = 0 then
      let x := tileAt p lt
      if off < scratchBytes then some (scratchPc own x.1 x.2, off) else none
    else
      match p.bound[r.frond]? with
      | none => none
      | some b =>
        match b.granules[granulesBefore i.regions r.frond region + off / 2 ^ 21]? with
        | some g => if off < r.granules * 2 ^ 21 then some (fieldStorePc own b.frond, g * 2 ^ 21 + off % 2 ^ 21) else none
        | none => none

/-- Bytes from a region offset to the end of its granule, or of the scratchpad region. -/
def regionRoom (i : Image) (region off : Nat) : Nat :=
  match i.regions[region]? with
  | some r => if r.space = 0 then scratchBytes - off else 2 ^ 21 - off % 2 ^ 21
  | none => 0

/-- The fronds of a pigeonhole. -/
def phFronds (p : Ph) : List Nat := (p.bound.map Bound.frond).eraseDups

/-- The frank of a pigeonhole (R186). -/
def imageFrank (i : Image) : Frank := { ctx := i.ctx, key := i.key }
def imageOf (s : State) (p : Ph) : Option Image := tfind s.res.images p.image

/-- The logical tiles of an image that are bound to a physical tile. -/
def logicalAt (p : Ph) (frond tile : Nat) : Option Nat := (p.tileOf.find? fun e => e.2 == frond * 320 + tile).map Prod.fst

/-- The physical tile that serves a tile position (R42): the tile, or its row's spare when it is retired. -/
def physTile (s : State) (f t : Nat) : Option Nat :=
  let x := dieOf s f
  if x.lostTiles.contains t then none
  else if x.retired.contains t then
    (if x.retired.contains (t / 20 * 20 + 19) then none else some (t / 20 * 20 + 19))
  else some t

end Sys2Proof.Machine
end

