-- ==== Sys2Proof/Machine/Launches.lean ====
section
/-! DEFINITION. Launches and what runs in them (R148, R290, R311, R312, R322, R330–R334, R345): tile cores, the operator
library and steward cores act as the commands say, on the memory that the launch reaches. -/

namespace Sys2Proof.Machine

/-! Launch fault codes (R333). -/
def lfAccess : Nat := 0x0001
def lfPoison : Nat := 0x0003
def lfTime : Nat := 0x0004
def lfTranslate : Nat := 0x0005
def lfRefused : Nat := 0x0006
def lfStopped : Nat := 0x0007
def lfParity : Nat := 0x0008

def entryOf (s : State) (x : Launch) : Option Entry :=
  match phOf s x.ph with
  | none => none
  | some p => match imageOf s p with | some i => i.entries[x.entry]? | none => none

/-- First logical tile and tile count of a launch. -/
def launchRange (s : State) (x : Launch) : Nat × Nat :=
  match entryOf s x with | some e => (e.first, e.count) | none => (0, 0)

def inLaunch (s : State) (x : Launch) (lt : Nat) : Bool :=
  let r := launchRange s x
  decide (r.1 ≤ lt ∧ lt < r.1 + r.2)

def launchesOverlap (s : State) (x y : Launch) : Bool :=
  let a := launchRange s x; let b := launchRange s y
  x.ph == y.ph && decide (a.1 < b.1 + b.2 ∧ b.1 < a.1 + a.2)

/-! ### Weight records and channel 7 (R317, R341, R345) -/

/-- The copy engine of channel 7 for a record of a frond (R317, R341): the model's choice among the four. -/
def recordEngine (own f record : Nat) : Postcode := hubUnit own f (4 + record % 4)

/-- One piece of a record: where it goes, where it comes from and its length; `none` beyond the record's end. -/
def recordPiece (own : Nat) (i : Image) (p : Ph) (record pos : Nat) : Option (Target × Target × Nat) :=
  match i.weights[record]? with
  | none => none
  | some w =>
    match regionPlace own i p w.region w.tile (w.offset + pos) with
    | none => none
    | some (pc, off) =>
      let src := p.source.off + w.source + pos
      let n := min (min (w.length - pos) (regionRoom i w.region (w.offset + pos))) (min (4096 - off % 64) (4096 - src % 64))
      if n = 0 then none else some (.place p.source.pc src, .place pc off, n)

/-- Ask for one piece of a record with a tag (R341, R345). -/
def askPiece (i : Image) (p : Ph) (record pos : Nat) (tag : TagFor) (s : State) : State :=
  let own := moduleNumber s
  match recordPiece own i p record pos with
  | some (.place spc soff, .place dpc doff, n) =>
    let sp := readSpan s i.key (.place spc soff) (.place dpc doff) soff n
    let t := newTag tag s
    sendSealed (mkReadRequest (recordEngine own (pcDie dpc) record) spc sp.1 sp.2 t.1 (imageFrank i)) .none t.2
  | _ => s

/-- The bytes of a piece as its response holds them, decrypted where it streams from a store (R197). -/
def pieceBytes (s : State) (i : Image) (src dst : Target) (n : Nat) (bytes : List Byte) (bad : List Bool) :
    List Byte × List Bool :=
  match src with
  | .host _ _ => (bytes, bad)
  | .place pc off =>
    let sp := readSpan s i.key src dst off n
    let plain := match streamKey s i.key src dst, inStore s src with
      | some k, true => streamIn k pc sp.1 bytes
      | _, _ => bytes
    ((plain.drop (off - sp.1)).take n, (bad.drop (off - sp.1)).take n)

/-- The copy engine whose channel 7 moves the piece of a record at a position. -/
def recordAt (s : State) (p : Ph) (record pos : Nat) : Option Postcode :=
  match imageOf s p with
  | none => none
  | some i =>
    match recordPiece (moduleNumber s) i p record pos with
    | some (_, .place pc _, _) => some (recordEngine (moduleNumber s) (pcDie pc) record)
    | _ => none

/-- Ask for the piece of a record being loaded at its present position. -/
def loadAsk (h record : Nat) (s : State) : State :=
  match phOf s h with
  | none => s
  | some p =>
    match imageOf s p, p.loads.find? (fun l => l.record == record) with
    | some i, some l =>
      (match recordPiece (moduleNumber s) i p record l.issued with
       | some (_, _, n) =>
         askPiece i p record l.issued (.load h record l.issued n)
           (onPh h (fun p => { p with loads := p.loads.map fun l => if l.record = record then { l with outstanding := n } else l }) s)
       | none => onPh h (fun p => { p with loads := p.loads.filter fun l => l.record != record }) s)
    | _, _ => s

/-- Ask for the next piece of a record that a launch streams. -/
def streamAsk (l record : Nat) (s : State) : State :=
  match launchOf s l with
  | none => s
  | some x =>
    match phOf s x.ph with
    | none => s
    | some p =>
      match imageOf s p with
      | none => s
      | some i =>
        let pos := tget 0 x.streamAt record
        match recordPiece (moduleNumber s) i p record pos with
        | some (_, _, n) => askPiece i p record pos (.stream l record pos n) (onLaunch l (fun x => { x with reading := x.reading ++ [record] }) s)
        | none => s

/-- Loads and streams that may use a channel 7, each with its engine and whether it holds the channel: loads first, in the order of
their pigeonholes, then the streams of launches in theirs (R317; the order among loads and among streams is the model's, assumption 103). -/
def channelLoads (s : State) : List (Postcode × Nat × Nat × Bool) :=
  s.res.phs.flatMap fun e => if e.2.state ≠ .loading then [] else e.2.loads.filterMap fun l =>
    (recordAt s e.2 l.record l.issued).map fun q => (q, e.1, l.record, l.outstanding != 0)
def channelStreams (s : State) : List (Postcode × Nat × Nat × Bool) :=
  s.res.launches.flatMap fun e => match phOf s e.2.ph with
    | some p => e.2.streams.filterMap fun j =>
        (recordAt s p j (tget 0 e.2.streamAt j)).map fun q => (q, e.1, j, e.2.reading.contains j)
    | none => []

/-- Channel 7 of an engine takes its next work when it is free: a load, or a stream read while no load is queued (R317). -/
def channel7 (engine : Postcode) (s : State) : State :=
  let loads := (channelLoads s).filter fun q => q.1 == engine
  let streams := (channelStreams s).filter fun q => q.1 == engine
  if (loads ++ streams).any fun q => q.2.2.2 then s
  else
    match loads, streams with
    | (_, h, record, _) :: _, _ => loadAsk h record s
    | [], (_, l, record, _) :: _ => streamAsk l record s
    | [], [] => s

/-- Every channel 7 with work queued takes it when it is free. -/
def channels7 (s : State) : State :=
  updates ((channelLoads s ++ channelStreams s).map fun q => q.1).eraseDups channel7 s

/-! ### Ends -/

/-- A launch ends with a status for its descriptor, and leaves the controller. -/
def endLaunch (l status result : Nat) (s : State) : State :=
  match launchOf s l with
  | none => s
  | some x =>
    endStarted x.ring x.count status result
      (when (!x.streams.isEmpty) channels7 (onRes (fun r => { r with launches := terase r.launches l }) s))

/-- Replace `n` bytes of memory by free values. -/
def scrambleBytes (key n : Nat) (s : State) : State :=
  let x := freshBytes n s
  onMem (fun m => m.putBytes key x.1) x.2

/-- The bytes of a launch's writable regions are undefined after a fault (R333): the scratchpad regions of its tiles and the
pigeonhole's field-store regions, where the region's rights grant W. -/
def scrambleRegions (x : Launch) (s : State) : State :=
  match phOf s x.ph with
  | none => s
  | some p =>
    match imageOf s p with
    | none => s
    | some i =>
      let own := moduleNumber s
      let rg := launchRange s x
      updates ((List.range i.regions.length).zip i.regions) (fun nr s =>
        if !bit nr.2.rights 1 then s
        else if nr.2.space = 0 then
          updates ((List.range rg.2).map (rg.1 + ·)) (fun lt s =>
            let t := tileAt p lt
            scrambleBytes (scratchKey t.1 t.2 0) i.scratch s) s
        else
          updates (List.range nr.2.granules) (fun g s =>
            match regionPlace own i p nr.1 0 (g * 2 ^ 21) with
            | some (pc, off) => scrambleBytes (memKey pc off) (2 ^ 21) s
            | none => s) s) s

/-- A tile of a launch faults (R333): every tile stops, and the LAUNCH completes "launch fault". -/
def faultLaunch (l tile code : Nat) (s : State) : State :=
  match launchOf s l with
  | none => s
  | some x =>
    if !x.running then s
    else
      let p := phOf s x.ph
      let at_ := match p with | some p => tileAt p tile | none => (0, 0)
      s |> scrambleRegions x
        |> when (code == lfParity) (onDie at_.1 (fun d => { d with tileFaults := tcount d.tileFaults at_.2 1 }))
        |> journalFrom (frondCtlPc (moduleNumber s) at_.1) 0x8003 1 1 false [u16 x.ph, u16 tile, u16 code]
        |> endLaunch l stLaunchFault (tile % 2 ^ 16 + code * 2 ^ 16)

/-- Stop the running launches of a pigeonhole that satisfy `q` with code 0x0007 (R347, R452), answering how many. -/
def stopLaunches (h : Nat) (q : Launch → Bool) (s : State) : Nat × State :=
  let ls := s.res.launches.filter fun e => e.2.ph == h && e.2.running && q e.2
  (ls.length, updates ls (fun e s => faultLaunch e.1 (launchRange s e.2).1 lfStopped s) s)

/-- Launches of a pigeonhole that have not started complete "not resident" (R347). -/
def dropQueued (h : Nat) (s : State) : State :=
  updates (s.res.launches.filter fun e => e.2.ph == h && !e.2.running) (fun e s => endLaunch e.1 stNotResident 0 s) s

/-- The launches of a pigeonhole that satisfy `q` end "return to sender" with a postcode (R395, R396). -/
def returnLaunches (h : Nat) (q : Launch → Bool) (pc : Postcode) (s : State) : State :=
  updates (s.res.launches.filter fun e => e.2.ph == h && e.2.running && q e.2) (fun e s =>
    endLaunch e.1 stReturn pc.toNat s) s

/-- A launch whose tiles have all returned settles once its writes to the own module are delivered and its other writes are
injected (R332). -/
def launchCheck (l : Nat) (s : State) : State :=
  match launchOf s l with
  | none => s
  | some x => if x.ended ∧ x.localOut = 0 ∧ x.streamOut = 0 ∧ x.readsOut = 0 ∧ !awaitsInjection s (.launch l) then endLaunch l stOk 0 s else s

/-! ### The argument block (R148, R169) -/

def launchDesc (s : State) (x : Launch) : List Byte :=
  match startedOf s x.ring x.count with | some d => d.bytes | none => []

/-- Where an argument block's address leads: in mode 2 as the ring engine translated it at fetch (R171), else by the ring's edge-die unit. -/
def argsResolve (s : State) (x : Launch) (va : Nat) : Option (Option (Target × Nat)) :=
  if (ringOf s x.ring).mode ≠ 2 then ringResolve s x.ring va false
  else
    some (match (startedOf s x.ring x.count).bind fun d => d.leaves.find? (leafCovers (ringOf s x.ring).ctx va) with
      | some l => if l.r && targetInUnit (leafPlace l va) then some (leafPlace l va, l.va + l.size - va) else none
      | none => none)

/-- Fetch the next piece of an argument block: from its place, or through the ring's edge-die unit. -/
def argsNext (l : Nat) (s : State) : State :=
  match launchOf s l with
  | none => s
  | some x =>
    if x.argsReady then s
    else if x.argLen ≤ x.args.length then onLaunch l (fun x => { x with argsReady := true }) s
    else
      let a := addrAt (launchDesc s x) 0x18
      let left := x.argLen - x.args.length
      let k := (ringOf s x.ring).owner
      let ask (t : Target) (room : Nat) (va : Option Nat) : State :=
        let told (n : Nat) (s : State) : State := match va with
          | some va => hotSpan (ringDie x.ring) (ringOf s x.ring).ctx va n s
          | none => s
        match t with
        | .host h tr =>
          if canRead s k then
            let n := pieceLen h (min left room) (fnOf s k).maxRead
            hostRead k h n (pasidFor s k (ringOf s x.ring).ctx) tr (.args l x.args.length) (told n s)
          else s
        | .place pc off =>
          let g := newTag (.args l) s
          sendSealed (mkReadRequest (ringEnginePc (moduleNumber s) (ringDie x.ring - 96)) pc off (min left (min room 4096)) g.1
            (frankOf s x.ring)) .none (told (min left (min room 4096)) g.2)
      if a.phys then ask (.place a.pc (a.off + x.args.length)) (2 ^ 48) none
      else
        let va := a.off + x.args.length
        match argsResolve s x va with
        | none => (match ringWalk x.ring va (.args l) s with | some s => s | none => s)
        | some none => endLaunch l stNotTranslated 0 s
        | some (some (t, room)) => ask t room (some va)

/-- The next piece of an argument block lies in host memory, and no read of it is outstanding: what waits for a tag (R90). -/
def argsAtHost (s : State) (l : Nat) (x : Launch) : Bool :=
  let a := addrAt (launchDesc s x) 0x18
  !x.argsReady && !a.phys
    && (match argsResolve s x (a.off + x.args.length) with | some (some (t, _)) => t.isHost | _ => false)
    && !((hostPortOf s ((ringOf s x.ring).owner / 64)).reads.any fun e => match e.2.purpose with | .args m _ => m == l | _ => false)

/-- A piece of an argument block has arrived. -/
def argsData (l : Nat) (bytes : List Byte) (bad : Bool) (s : State) : State :=
  match launchOf s l with
  | none => s
  | some x =>
    if bad then endLaunch l stUncorrectable 0 s
    else argsNext l (onLaunch l (fun y => { y with args := (x.args ++ bytes).take x.argLen }) s)

/-- LAUNCH (R148, R330): the checks in their order, then the queue of the granting controller. -/
def launchStep (r : Nat) (d : Started) (s : State) : State :=
  let b := d.bytes
  let c := d.count
  let owner := (ringOf s r).owner
  if d.acted then s
  else
    match phOf s (launchPh b) with
    | none => endStarted r c stNotResident 0 s
    | some p =>
      if !p.stamp then endStarted r c stNotResident 0 s
      else if !p.claims.contains owner then endStarted r c stInvalidPlace 0 s
      else
        match imageOf s p with
        | none => endStarted r c stNotResident 0 s
        | some i =>
          match i.entries[launchEntry b]? with
          | none => endStarted r c stInvalidDescriptor 0 s
          | some e =>
            if e.maxArgs < launchArgs b then endStarted r c stInvalidDescriptor 0 s
            else
              let id := s.res.nextLaunch
              let inline_ := decide (launchArgs b ≤ 24)
              let x : Launch := { ph := launchPh b, entry := launchEntry b, argLen := launchArgs b, ring := r, count := c
                                  args := if inline_ then (b.drop 0x28).take (launchArgs b) else [], argsReady := inline_ }
              s |> onRes (fun q => { q with launches := tset q.launches id x, nextLaunch := id + 1 })
                |> onStarted r c (fun d => { d with acted := true, launch := some id })
                |> argsNext id

def execLaunch (ring count : Nat) (s : State) : Res := onDesc ring count 4 (fun d s => launchStep ring d s) s

/-! ### Grant (R330, R331, R345) -/

/-- Overlap-group records that a launch's tiles use: of its own tiles' scratchpads, or of a field store of their fronds. -/
def streamsOf (s : State) (x : Launch) : List Nat :=
  match phOf s x.ph with
  | none => []
  | some p =>
    match imageOf s p with
    | none => []
    | some i =>
      let rg := launchRange s x
      let fs := ((List.range rg.2).map fun k => frondOfTile i.fronds (rg.1 + k)).eraseDups
      (streamedRecs i).filter fun j => match i.weights[j]? with
        | none => false
        | some w => if w.region = 0 then inLaunch s x w.tile
          else (match i.regions[w.region]? with | some r => fs.contains r.frond | none => false)

/-- What is written to the launch control area of one tile (R331), by scratchpad offset. -/
def controlArea (s : State) (x : Launch) (lt : Nat) : List (Nat × List Byte) :=
  let r := launchRange s x
  [(0xFE000, pack [u16 x.entry, u16 x.argLen, u32 lt, u32 r.1, u32 r.2, u16 x.ph]), (0xFE018, leBytes 8 s.time.rackTime),
    (0xFF000, x.args)]

/-- A launch may start: its tiles are idle and no earlier waiting launch overlaps it (R330), and the arrays are not gated (R45). -/
def mayGrant (s : State) (h l : Nat) (x : Launch) : Bool :=
  x.ph == h && !x.running && x.argsReady && !s.power.arraysGated
    && (match phOf s h with | some p => p.stamp | none => false)
    && !(s.res.launches.any fun e => e.1 != l && launchesOverlap s x e.2 && (e.2.running || decide (e.1 < l)))

/-- Grant a launch: the control areas are written, the tiles begin, and the stream reads of overflow mode go out. -/
def launchGrant (h l : Nat) (s : State) : State :=
  match launchOf s l with
  | none => s
  | some x =>
    if !mayGrant s h l x then s
    else
      match phOf s h with
      | none => s
      | some p =>
        match imageOf s p with
        | none => s
        | some i =>
          let rg := launchRange s x
          let st := streamsOf s x
          let s := updates ((List.range rg.2).map (rg.1 + ·)) (fun lt s =>
            let t := tileAt p lt
            updates (controlArea s x lt) (fun w s => writeMem (scratchPc (moduleNumber s) t.1 t.2) w.1 w.2 [] s) s) s
          let s := onLaunch l (fun x => { x with running := true, streams := st, readsOut := st.length }) s
          when (!st.isEmpty) channels7 s

/-- LAUNCH_GRANT (R331). -/
def execLaunchGrant (pigeonhole launch : Nat) (s : State) : Res :=
  if 4096 ≤ pigeonhole then .next s else .next (launchGrant pigeonhole launch s)

/-- A stream read's data has arrived: it goes to its range. The record's next piece is asked for at once, but the channel is given up
after each 64 KiB of the record and at its end (R317). -/
def streamData (l record pos : Nat) (bytes : List Byte) (bad : List Bool) (s : State) : State :=
  match launchOf s l with
  | none => s
  | some x =>
    match phOf s x.ph with
    | none => s
    | some p =>
      match imageOf s p with
      | none => s
      | some i =>
        match recordPiece (moduleNumber s) i p record pos with
        | some (src, .place pc off, n) =>
          let y := pieceBytes s i src (.place pc off) n bytes bad
          let e := recordEngine (moduleNumber s) (pcDie pc) record
          let s := sendSealed (mkWrite e pc off 0xFFFF (imageFrank i) y.1 y.2)
            (.stream l) (onLaunch l (fun x => { x with
              streamOut := x.streamOut + 1, streamAt := tset x.streamAt record (pos + n), reading := x.reading.filter (· != record) }) s)
          if (recordAt s p record (pos + n)).isNone then
            channel7 e (onLaunch l (fun x => { x with streams := x.streams.filter (· != record), readsOut := x.readsOut - 1 }) s)
          else if pos / 65536 = (pos + n) / 65536 then streamAsk l record s
          else channels7 s
        | _ => s

/-- STREAM_READ_TIMEOUT (R345): the LAUNCH completes "return to sender" with the weight source's postcode. -/
def execStreamReadTimeout (launch : Nat) (s : State) : Res :=
  .next (match launchOf s launch with
    | none => s
    | some x =>
      if !x.running ∨ x.reading.isEmpty then s
      else
        match phOf s x.ph with
        | none => s
        | some p =>
          channels7 (returnToSender x.ring x.count p.source.pc (onRes (fun r => { r with launches := terase r.launches launch }) s)))

/-! ### Tiles (R290, R311, R312) -/

/-- The running launch whose range holds a physical tile, with the logical tile. -/
def launchAt (s : State) (f t : Nat) : Option (Nat × Nat) :=
  s.res.launches.findSome? fun e =>
    if !e.2.running ∨ e.2.ended then none
    else
      match phOf s e.2.ph with
      | none => none
      | some p => match logicalAt p f t with
        | some lt => if inLaunch s e.2 lt then some (e.1, lt) else none
        | none => none

/-- A tile core's load or store of its own scratchpad; a load's operand gives its length. -/
def tileAccess (f t : Nat) (write : Bool) (off : Nat) (bytes : List Byte) (s : State) : State :=
  match launchAt s f t with
  | none => s
  | some (l, lt) =>
    let pc := scratchPc (moduleNumber s) f t
    if scratchBytes < off + bytes.length then faultLaunch l lt lfAccess s
    else if write then
      (if 0xFE000 < off + bytes.length then faultLaunch l lt lfAccess s else writeMem pc off bytes [] s)
    else
      let x := readMem pc off bytes.length s
      if x.2.1.any id then faultLaunch l lt lfPoison x.2.2 else x.2.2

/-- TILE_CORE_ACCESS (R290). -/
def execTileCoreAccess (frond tile : Nat) (write : Bool) (offset : Nat) (bytes : List Byte) (s : State) : Res :=
  if 84 ≤ frond ∨ 320 ≤ tile then .next s else .next (tileAccess frond tile write offset bytes s)

/-- LAUNCH_END (R332). -/
def execLaunchEnd (launch : Nat) (s : State) : Res :=
  .next (match launchOf s launch with
    | some x => if x.running then launchCheck launch (onLaunch launch (fun x => { x with ended := true }) s) else s
    | none => s)

/-- TILE_FAULT (R333). -/
def execTileFault (launch tile code : Nat) (s : State) : Res :=
  if code < 1 ∨ 8 < code then .next s
  else .next (match launchOf s launch with
    | some x => if inLaunch s x tile then faultLaunch launch tile code s else s
    | none => s)

/-- ENTRY_TIME_LIMIT (R333): only an entry with a limit can exceed it. -/
def execEntryTimeLimit (launch tile : Nat) (s : State) : Res :=
  .next (match launchOf s launch with
    | some x => (match entryOf s x with
      | some e => if e.limitMs ≠ 0 ∧ inLaunch s x tile then faultLaunch launch tile lfTime s else s
      | none => s)
    | none => s)

/-! ### The operator library (R295, R334) -/

/-- Bytes of an element of a format (R313). -/
def formatBytes (f : Nat) : Nat := match f with | 1 | 7 => 4 | 2 | 3 | 8 => 2 | _ => 1

/-- The pieces an operand names for one tile; or the launch fault code. -/
def operandPieces (s : State) (i : Image) (p : Ph) (lt : Nat) (o : List Byte) (write : Bool) (len : Nat) :
    Except Nat (List (Target × Nat)) :=
  match field o 0 1 with
  | 0 => .ok []
  | 1 =>
    let region := field o 4 2
    let rec go : Nat → Nat → Nat → Except Nat (List (Target × Nat))
      | 0, _, _ => .ok []
      | fuel + 1, off, left =>
        if left = 0 then .ok []
        else
          match regionPlace (moduleNumber s) i p region lt off with
          | none => .error lfTranslate
          | some (pc, at_) =>
            let n := min left (regionRoom i region off)
            match go fuel (off + n) (left - n) with
            | .ok r => .ok ((.place pc at_, n) :: r)
            | .error e => .error e
    go (len + 1) (field o 8 8) len
  | _ =>
    match pinSpan (pinLookup s i.ctx) { phys := false, pc := 0, off := field o 8 8 } len write with
    | .ok l => .ok l
    | .error _ => .error lfTranslate

/-- A host range cut at a read limit and at 4 KiB boundaries (R94). -/
def hostCuts (limit : Nat) : Nat → Nat → Nat → List (Nat × Nat)
  | 0, _, _ => []
  | fuel + 1, a, n =>
    if n = 0 then []
    else
      let m := max 1 (pieceLen a n limit)
      (a, m) :: hostCuts limit fuel (a + m) (n - m)

/-- Ask for the operand pieces in host memory that the tags of R90 allow now. -/
def operandKick (l : Nat) (s : State) : State :=
  match launchOf s l with
  | none => s
  | some x =>
    let k := (ringOf s x.ring).owner
    updates x.hostLeft (fun c s =>
      if canRead s k then
        hostRead k c.addr c.len c.pasid c.translated (.operand l) (onLaunch l (fun x => { x with hostLeft := x.hostLeft.drop 1 }) s)
      else s) s

/-- An operator of a tile reads or writes one operand. An input with a tally waits until the tally holds the operand's bytes, and reads of
host memory go as the tags of R90 allow; an output's bytes are the operator's own result. While the function may not
issue requests, an operand in host memory ends the LAUNCH "aborted by host" (R100). Its transfers take no copy channel (DESIGN CHOICE,
assumption 102). -/
def operatorCall (l lt j : Nat) (write : Bool) (bytes : List Byte) (s : State) : State :=
  match launchOf s l with
  | none => s
  | some x =>
    match phOf s x.ph with
    | none => s
    | some p =>
      match imageOf s p with
      | none => s
      | some i =>
        if !x.running ∨ x.ended ∨ !x.streams.isEmpty ∨ x.streamOut ≠ 0 ∨ !inLaunch s x lt ∨ field x.args 4 1 ≤ j then s
        else
          let o := (x.args.drop (8 + 24 * j)).take 24
          let tally := field o 2 2
          let size := field o 0x10 8 * formatBytes (field o 1 1)
          let f := (tileAt p lt).1
          let eng := hubUnit (moduleNumber s) f (4 + lt % 4)
          let fr := imageFrank i
          let k := (ringOf s x.ring).owner
          if write ∧ size < bytes.length then s
          else if !write ∧ tally ≠ 0xFFFF ∧ (tallyOf s f tally).bytes < size then s
          else
            match operandPieces s i p lt o write (if write then bytes.length else size) with
            | .error e => faultLaunch l lt e s
            | .ok ps =>
              let s' := if 2 ≤ field o 0 1 then hotSpan f i.ctx (field o 8 8) (if write then bytes.length else size) s else s
              if !(ps.all fun tn => !tn.1.isHost) && !mayIssue (fnOf s k) then endLaunch l stAborted 0 s
              else if write then
                (ps.foldl (fun (acc : List Byte × State) tn =>
                  let now := acc.1.take tn.2
                  (acc.1.drop tn.2, match tn.1 with
                    | .host a tr => hostWrite k a now [] true (pasidFor s k i.ctx) tr acc.2
                    | .place pc off =>
                      let mine := pcModule pc == moduleNumber s
                      updates ((List.range (tn.2 / 4032 + 1)).filter fun q => q * 4032 < now.length) (fun q s =>
                        sendSealed (mkWrite eng pc (off + q * 4032) tally fr ((now.drop (q * 4032)).take 4032) []) (.launch l)
                          (onLaunch l (fun x => { x with localOut := if mine then x.localOut + 1 else x.localOut }) s)) acc.2))
                  (bytes, s')).2
              else
                updates ps (fun tn s => match tn.1 with
                  | .host a tr =>
                    let cs := (hostCuts (fnOf s k).maxRead (tn.2 + 1) a tn.2).map fun c =>
                      ({ addr := c.1, len := c.2, translated := tr, pasid := pasidFor s k i.ctx } : HostPiece)
                    operandKick l (onLaunch l (fun x => { x with readsOut := x.readsOut + cs.length, hostLeft := x.hostLeft ++ cs }) s)
                  | .place pc off =>
                    updates ((List.range (tn.2 / 4096 + 1)).filter fun q => q * 4096 < tn.2) (fun q s =>
                      let t := newTag (.operand l) s
                      sendSealed (mkReadRequest eng pc (off + q * 4096) (min 4096 (tn.2 - q * 4096)) t.1 fr) .none
                        (onLaunch l (fun x => { x with readsOut := x.readsOut + 1 }) t.2)) s) s'

/-- OPERATOR_LIBRARY_CALL (R334). -/
def execOperatorLibraryCall (launch tile operand : Nat) (write : Bool) (bytes : List Byte) (s : State) : Res :=
  .next (operatorCall launch tile operand write bytes s)

/-- An operand's read has returned: poison in it completes the LAUNCH "uncorrectable read" (R386), or "poisoned data" when it came
with a completion from the host (R108). -/
def operandData (l : Nat) (bad fromHost : Bool) (s : State) : State :=
  match launchOf s l with
  | none => s
  | some _ =>
    if bad then endLaunch l (if fromHost then stPoisoned else stUncorrectable) 0 s
    else launchCheck l (onLaunch l (fun x => { x with readsOut := x.readsOut - 1 }) s)

/-! ### Steward cores (R322) -/

/-- Where an address of a core's field-store window lies: regions in their order, each at its number of granules. -/
def stewardPlaceFrom (own : Nat) (i : Image) (p : Ph) : Nat → List Region → Nat → Option (Postcode × Nat)
  | _, [], _ => none
  | n, r :: t, off =>
    if r.space = 0 then stewardPlaceFrom own i p (n + 1) t off
    else if off < r.granules * 2 ^ 21 then regionPlace own i p n 0 off
    else stewardPlaceFrom own i p (n + 1) t (off - r.granules * 2 ^ 21)

/-- A load or store of a core: its L2, or its pigeonhole's regions under the pigeonhole's frank (R190). -/
def stewardAccess (core : Nat) (write : Bool) (addr : Nat) (bytes : List Byte) (s : State) : State :=
  let c := stewardOf s core
  if !c.running ∨ c.halted ∨ c.parked then s
  else if addr + bytes.length ≤ 2 ^ 21 then
    (if write then onMem (fun m => m.putBytes (stewardKey core addr) bytes) s else s)
  else
    match c.ph with
    | none => s
    | some h =>
      match phOf s h with
      | none => s
      | some p =>
        match imageOf s p with
        | none => s
        | some i =>
          if addr < 2 ^ 32 then s
          else
            match stewardPlaceFrom (moduleNumber s) i p 0 i.regions (addr - 2 ^ 32) with
            | none => s
            | some (pc, off) =>
              let n := bytes.length
              match lockCheck s pc off n (imageFrank i) (if write then rightWrite else rightRead) with
              | some lk => noteRefusal (pcDie pc) lk (imageFrank i) s
              | none => if write then writeMem pc off bytes [] s else (readMem pc off n s).2.2

/-- STEWARD_CORE_ACCESS (R322). -/
def execStewardCoreAccess (core : Nat) (write : Bool) (address : Nat) (bytes : List Byte) (s : State) : Res :=
  if 64 ≤ core then .next s else .next (stewardAccess core write address bytes s)

/-- STEWARD_CORE_EXCEPTION (R322): journalled, and the core halts. -/
def execStewardCoreException (core : Nat) (s : State) : Res :=
  if 64 ≤ core then .next s
  else if !(stewardOf s core).running ∨ (stewardOf s core).halted ∨ (stewardOf s core).parked then .next s
  else .next (s |> onSteward core (fun c => { c with halted := true })
    |> journalFrom (stewardPc (moduleNumber s) core) 0x8FFF 1 1 false [u16 322, u8 core])

end Sys2Proof.Machine
end

