-- ==== Sys2Proof/Machine/Placement.lean ====
section
/-! DEFINITION. Pigeonholes: placement (R340), locks (R189), pins (R172), spectral slots (R319), steward cores (R322), loading
and the stamp (R341, R342), cancellation (R344), eviction (R347) and loss (R336, R348). -/

namespace Sys2Proof.Machine

/-! ### Transitions (R335, R336) -/

def phCode : PhState → Nat
  | .loading => 1 | .resident => 2 | .suspended => 3 | .evicting => 4 | .lost => 5

/-- Enter a state, journalled with the pigeonhole, the old and new states and the cause (R336). The cause is the rule's
number. -/
def phEnter (h : Nat) (st : PhState) (cause : Nat) (pldm : Bool) (s : State) : State :=
  match phOf s h with
  | none => s
  | some p =>
    if p.state = st then s
    else
      journal 0x8002 4 1 pldm [u16 h, u8 (phCode p.state), u8 (phCode st), u16 cause]
        (onPh h (fun p => { p with state := st, stamp := decide (st = .resident) }) s)

/-! ### What is free (R340) -/

/-- Physical tiles, as frond × 320 + tile, and granules, as frond × 48 + granule, bound to pigeonholes. -/
def boundTiles (s : State) : List Nat := s.res.phs.flatMap fun e => e.2.tileOf.map Prod.snd
def boundGranules (s : State) : List Nat :=
  s.res.phs.flatMap fun e => e.2.bound.flatMap fun b => b.granules.map (b.frond * 48 + ·)

/-- A placement under way: bindings so far with their tiles. -/
structure Placing where
  bound : List Bound := []
  tiles : Tab Nat := []
  deriving DecidableEq, Repr

/-- A tile position of a frond is free for a placement. -/
def positionFree (s : State) (busy : List Nat) (f t : Nat) : Bool :=
  match physTile s f t with
  | some p => !busy.contains (f * 320 + p)
  | none => false

/-- The first free rectangle by row-major order of its north-west corner. -/
def rectangleAt (s : State) (busy : List Nat) (f rows cols : Nat) : Option Nat :=
  (List.range 320).find? fun o =>
    decide (o % 20 + cols ≤ 19 ∧ o / 20 + rows ≤ 16)
      && (List.range rows).all fun r => (List.range cols).all fun c => positionFree s busy f (o + 20 * r + c)

/-- The adjacency rule of R325. -/
def adjacent (prev : Option Nat) (a f : Nat) : Bool :=
  match a, prev with
  | 0, _ => true
  | 1, some p => frondNeighbour p 1 == some f
  | 2, some p => frondNeighbour p 2 == some f
  | _, _ => false

/-- Bind one logical frond. -/
def placeFrond (s : State) (lf : LogicalFrond) (pl : Placing) : Option Placing :=
  let busy := boundTiles s ++ pl.tiles.map Prod.snd
  let used := boundGranules s ++ pl.bound.flatMap fun b => b.granules.map (b.frond * 48 + ·)
  let prev := pl.bound.getLast?.map Bound.frond
  (frondsInService s).findSome? fun f =>
    let gs := ((List.range 48).filter fun g => !used.contains (f * 48 + g)).take lf.granules
    if adjacent prev lf.adjacency f ∧ gs.length = lf.granules then
      match rectangleAt s busy f lf.rows lf.cols with
      | none => none
      | some o =>
        let ts := (List.range lf.tiles).filterMap fun i =>
          (physTile s f (o + 20 * (i / max 1 lf.cols) + i % max 1 lf.cols)).map fun p => (lf.first + i, f * 320 + p)
        some { bound := pl.bound ++ [{ frond := f, origin := o, granules := gs }], tiles := pl.tiles ++ ts }
    else none

/-- Bind every logical frond in record order. -/
def placeAll (s : State) : List LogicalFrond → Placing → Option Placing
  | [], pl => some pl
  | lf :: t, pl => match placeFrond s lf pl with | some pl => placeAll s t pl | none => none

/-! ### Pins, locks, slots and cores -/

/-- The pins of an image's mapped granules (R172, R326). -/
def phPins (own h : Nat) (i : Image) (p : Ph) : List Pin :=
  ((List.range i.regions.length).zip i.regions).flatMap fun nr =>
    if nr.2.space = 0 ∨ nr.2.va = 0 then []
    else
      (List.range nr.2.granules).filterMap fun g =>
        (regionPlace own i p nr.1 0 (g * 2 ^ 21)).map fun pl =>
          let va := nr.2.va + g * 2 ^ 21
          { ctx := i.ctx, va := va, size := 2 ^ 21, count := 0, programmed := some h
            leaf := some { ctx := i.ctx, va := va, size := 2 ^ 21, target := .place pl.1 pl.2
                           r := bit nr.2.rights 0, w := bit nr.2.rights 1, a := bit nr.2.rights 2 } }

def lockWord (set_ key rights : Nat) : Nat := 1 + 2 * (rights % 8) + 16 * (set_ % 64) + 2 ^ 16 * (key % 256)

/-- The rights of granule index `n` of a logical frond, from the region that covers it; none where no region does. -/
def granuleRights (i : Image) (frond n : Nat) : Nat :=
  match (List.range i.regions.length).find? (fun j => match i.regions[j]? with
    | some r => r.space == 1 && r.frond == frond && decide (granulesBefore i.regions frond j ≤ n ∧
        n < granulesBefore i.regions frond j + r.granules)
    | none => false) with
  | some j => (match i.regions[j]? with | some r => r.rights | none => 0)
  | none => 0

/-- Write a pigeonhole's locks (R189). -/
def writeLocks (set_ : Nat) (i : Image) (p : Ph) (s : State) : State :=
  let s := updates ((List.range p.bound.length).zip p.bound) (fun nb s =>
    updates ((List.range nb.2.granules.length).zip nb.2.granules) (fun ng s =>
      onDie nb.2.frond (fun d => { d with locks := tset d.locks ng.2 (lockWord set_ i.key (granuleRights i nb.1 ng.1)) }) s) s) s
  let rights := match i.regions.head? with | some r => r.rights | none => 0
  updates p.tileOf (fun e s => onDie (e.2 / 320) (fun d => { d with
    locks := tset d.locks (48 + e.2 % 320) (lockWord set_ i.key rights) }) s) s

/-- Clear V on a pigeonhole's locks (R189). -/
def clearLocks (p : Ph) (s : State) : State :=
  let off (d i : Nat) (s : State) : State := onDie d (fun x => { x with locks := tset x.locks i (setBit (tget 0 x.locks i) 0 false) }) s
  let s := updates p.bound (fun b s => updates b.granules (fun g s => off b.frond g s) s) s
  updates p.tileOf (fun e s => off (e.2 / 320) (48 + e.2 % 320) s) s

/-- Spectral slots fit on a frond: each is empty or holds the same record, and its tables are not another image's. -/
def slotsFit (s : State) (i : Image) (f : Nat) : Bool :=
  let d := dieOf s f
  ((List.range i.spectral.length).zip i.spectral).all (fun nr => match tfind d.slots nr.1 with
    | none => true
    | some (r, _) => r == nr.2)
  && (i.tables.isEmpty || d.slots.all fun e => e.2.2.all fun h => match phOf s h with
      | some p => (match imageOf s p with | some j => j.tables.isEmpty || j.tables == i.tables | none => true)
      | none => true)

def fillSlots (h : Nat) (i : Image) (p : Ph) (s : State) : State :=
  updates (phFronds p) (fun f s =>
    let s := if i.tables.isEmpty then s else onMem (fun m => m.putBytes (tableKey f 0) i.tables) s
    updates ((List.range i.spectral.length).zip i.spectral) (fun nr s => onDie f (fun d => { d with
      slots := tset d.slots nr.1 (nr.2, (match tfind d.slots nr.1 with | some (_, hs) => hs | none => []) ++ [h]) }) s) s) s

def emptySlots (h : Nat) (p : Ph) (s : State) : State :=
  updates (phFronds p) (fun f s => onDie f (fun d => { d with
    slots := d.slots.filterMap fun e =>
      let hs := e.2.2.filter (· != h)
      if e.2.2.contains h ∧ hs.isEmpty then none else some (e.1, (e.2.1, hs)) }) s) s

/-- Free steward cores, of the edge dies nearest the pigeonhole's fronds first (R322). -/
def freeCores (s : State) (fs : List Nat) : List Nat :=
  let near (e : Nat) : Nat := leastOf ((attachments e).flatMap fun a => fs.map fun f => gridDist a.1 f)
  let dies := sortBy (fun a b => decide (near a < near b)) ((List.range 16).filter fun e => dieUp s (96 + e))
  (dies.flatMap fun e => (List.range 4).map (4 * e + ·)).filter fun c => (stewardOf s c).ph.isNone

def assignCores (h : Nat) (i : Image) (cores : List Nat) (s : State) : State :=
  updates cores (fun c s => onMem (fun m => m.putBytes (stewardKey c 0) i.steward)
    (onSteward c (fun _ => { ph := some h }) s)) s

/-! ### Loading (R341–R344) -/

/-- Bytes of some records. -/
def recordsLength (i : Image) (rs : List Nat) : Nat :=
  rs.foldl (fun n j => n + (match i.weights[j]? with | some w => w.length | none => 0)) 0

/-- Begin loading some records: more than are loading already add to the target. -/
def startLoads (h : Nat) (rs : List Nat) (s : State) : State :=
  match phOf s h with
  | none => s
  | some p =>
    match imageOf s p with
    | none => s
    | some i =>
      let s := onPh h (fun p => { p with
        loads := p.loads ++ (rs.filter fun j => (recordAt s p j 0).isSome).map fun j => { record := j }
        target := p.target + recordsLength i rs }) s
      channels7 s

/-- Cancel a load (R344): the reads stop, and the command's end is kept until LOAD_CANCEL. A reload makes the pigeonhole Lost
(R348). -/
def returnAll (h : Nat) (pc : Postcode) (s : State) : State := returnLaunches h (fun _ => true) pc s

/-- A pigeonhole becomes Lost (R336): queued launches end "not resident", and its stewards stop. -/
def phLose (h cause : Nat) (s : State) : State :=
  match phOf s h with
  | none => s
  | some p =>
    s |> onPh h (fun p => { p with loads := [], cancel := none })
      |> dropQueued h
      |> updates p.stewards (fun c s => onSteward c (fun x => { x with running := false }) s)
      |> phEnter h .lost cause true
      |> when (!p.loads.isEmpty) channels7

def cancelLoad (h e cause : Nat) (s : State) : State :=
  match phOf s h with
  | none => s
  | some p =>
    if p.state ≠ .loading then s
    else if p.lb.isNone then phLose h cause s
    else channels7 (phEnter h .evicting cause false (onPh h (fun p => { p with cancel := some e, loads := [] }) s))

/-- A load's data has arrived from its source (R341): poisoned data is read again once, then cancels the load. -/
def loadData (h record pos : Nat) (bytes : List Byte) (bad : List Bool) (s : State) : State :=
  match phOf s h with
  | none => s
  | some p =>
    match imageOf s p, p.loads.find? (fun l => l.record == record) with
    | some i, some l =>
      if p.state ≠ .loading ∨ l.issued ≠ pos then s
      else
        match recordPiece (moduleNumber s) i p record pos with
        | some (src, .place pc off, n) =>
          let y := pieceBytes s i src (.place pc off) n bytes bad
          let set_ (f : Loading → Loading) (s : State) : State :=
            onPh h (fun p => { p with loads := p.loads.map fun l => if l.record = record then f l else l }) s
          if y.2.any id then
            let s := journal 0x8FFF 1 1 false [u16 341, u16 h, u32 record] s
            if l.reread then cancelLoad h eImage 344 s else loadAsk h record (set_ (fun l => { l with reread := true }) s)
          else
            let w := mkWrite (recordEngine (moduleNumber s) (pcDie pc) record) pc off 0xFFFF (imageFrank i) y.1 y.2
            let s := sendSealed w (.load h record) (set_ (fun l => { l with issued := pos + n, outstanding := 0, retried := false }) s)
            let len := match i.weights[record]? with | some w => w.length | none => 0
            -- A pigeonhole abort stops at each 64 MiB of weights (R125).
            let before := p.residency / 2 ^ 26
            let after := (p.residency + n) / 2 ^ 26
            let aborts : Bool := match p.lb with | some lb => (lbOf s lb).abort && decide (before < after) | none => false
            let s := match p.lb with
              | some lb => onLb lb (fun b => { b with safePoints := after }) s
              | none => s
            if aborts then cancelLoad h eAborted 344 s
            else if pos + n < len then loadAsk h record s
            else channel7 (recordEngine (moduleNumber s) (pcDie pc) record)
              (onPh h (fun p => { p with loads := p.loads.filter fun l => l.record != record }) s)
        | _ => s
    | _, _ => s

/-- A load packet has been delivered: the residency counter (R342). -/
def loadDelivered (h bytes : Nat) (s : State) : State := onPh h (fun p => { p with residency := p.residency + bytes }) s

/-- Load every record outside the overlap groups again, on the tiles and granules bound (R348), with retirements applied. -/
def reload (h cause : Nat) (s : State) : State :=
  match phOf s h with
  | none => s
  | some p =>
    match imageOf s p with
    | none => s
    | some i =>
      let tiles : List (Option (Nat × Nat)) := (List.range i.fronds.length).flatMap fun n =>
        match i.fronds[n]?, p.bound[n]? with
        | some lf, some b => (List.range lf.tiles).map fun k =>
            (physTile s b.frond (b.origin + 20 * (k / max 1 lf.cols) + k % max 1 lf.cols)).map fun t => (lf.first + k, b.frond * 320 + t)
        | _, _ => []
      match routeSetOf s i.ctx with
      | none => phLose h cause s
      | some set_ =>
        if tiles.any Option.isNone ∨ (phFronds p).any (fun f => !dieUp s f) then phLose h cause s
        else
          let p' := { p with tileOf := tiles.filterMap id }
          s |> phEnter h .loading cause false
            |> onPh h (fun p => { p with tileOf := p'.tileOf, residency := 0, target := 0, loads := [] })
            |> writeLocks set_ i p'
            |> fillSlots h i p'
            |> startLoads h (loadedRecs i)

/-! ### Eviction (R347) -/

/-- Write zero to every scratchpad and granule of a pigeonhole. -/
def zeroPh (p : Ph) (s : State) : State :=
  let s := updates p.tileOf (fun e s => zeroScratch (e.2 / 320) (e.2 % 320) s) s
  updates p.bound (fun b s => updates b.granules (fun g s => zeroGranule b.frond g s) s) s

/-- The steps of R347; the number is free afterwards. A PH_CREATE that still waits ends with the error that cancelled its load,
"aborted" where another command evicts the pigeonhole (DESIGN CHOICE). -/
def evict (h : Nat) (s : State) : State :=
  match phOf s h with
  | none => s
  | some p =>
    let s := postWaiting? p.lb 0x0304 (p.cancel.getD eAborted) [] s
    let s := phEnter h .evicting 347 false s
    let s := (stopLaunches h (fun _ => true) (dropQueued h s)).2
    let s := updates p.stewards (fun c s =>
      onRing (1024 + c) (fun _ => {}) (zeroRange (stewardKey c 0) (stewardKey c 0 + 2 ^ 21) (onSteward c (fun _ => {}) s))) s
    s |> clearLocks p
      |> zeroPh p
      |> onXlat (fun x => { x with pins := x.pins.filter fun q => q.programmed != some h })
      |> emptySlots h p
      |> journal 0x8002 4 1 false [u16 h, u8 4, u8 0, u16 347]
      |> onRes (fun r => { r with phs := terase r.phs h })
      |> when (!p.loads.isEmpty) channels7

/-- Take a function's claim off a pigeonhole; the last claim evicts it. Answers the claims left. -/
def releaseClaim (k h : Nat) (s : State) : Nat × State :=
  match phOf s h with
  | none => (0, s)
  | some p =>
    let cs := p.claims.filter (· != k)
    let s := onPh h (fun p => { p with claims := cs }) s
    (cs.length, if cs.isEmpty ∧ p.state ≠ .evicting then evict h s else s)

/-! ### Quotas (R92, R337) -/

/-- Claims, rings and contexts a function may hold: a PF0's share is the whole pool (DESIGN CHOICE). -/
def claimQuota (s : State) (k : Nat) : Nat := if k % 64 = 0 then 4096 else (fnOf s k).quotaClaims
def ringQuota (s : State) (k : Nat) : Nat := if k % 64 = 0 then 1024 else (fnOf s k).quotaRings
def contextQuota (s : State) (k : Nat) : Nat := if k % 64 = 0 then 4096 else (fnOf s k).quotaContexts
def claimsOf (s : State) (k : Nat) : Nat := s.res.phs.countP fun e => e.2.claims.contains k
def contextsOf (s : State) (k : Nat) : Nat := s.xlat.ctxs.countP fun e => e.2.owner == k
def ringsHeldBy (s : State) (k : Nat) : Nat := (ringsOwned s k).length

end Sys2Proof.Machine
end

