-- ==== Sys2Proof/Machine/CmdRing.lean ====
section
/-! DEFINITION. The ring commands 0x0101–0x010A (R39, R44, R92, R97, R123, R134–R137, R155, R160). -/

namespace Sys2Proof.Machine

/-- A ring of a requester (R116). -/
def ownRing (s : State) (who : Option Nat) (r : Nat) : Bool :=
  decide (r < 1024) && (ringOf s r).state != .free && who == some (ringOf s r).owner

/-- Run `f` on a ring that the requester owns, else end "not found". -/
def withRing (op : Nat) (f : Nat → List Byte → State → CmdOut) (who : Option Nat) (a : List Byte) (s : State) : CmdOut :=
  if ownRing s who (arg op a 0) then f (arg op a 0) a s else err eNotFound s

/-- Give up a ring: its state is cleared. What it had in flight goes on and belongs to no ring any more; the tags of its
requests find it free. -/
def freeRing (r : Nat) (s : State) : State :=
  s |> onRing r (fun _ => {})
    |> onFabric (fun x => { x with
        flights := tmap (fun _ f => match f.origin with | .ring q _ => if q = r then { f with origin := .none } else f | _ => f) x.flights
        relays := x.relays.filter fun e => e.2.ring != r })
    |> onRes (fun x => { x with launches := tmap (fun _ l => if l.ring = r then { l with ring := 4096 } else l) x.launches })
    |> settleWaits

/-- The tags left by an earlier owner's requests of a ring. -/
def dropRingTags (r : Nat) (s : State) : State :=
  onFabric (fun x => { x with tags := x.tags.filter fun e => match e.2 with
    | .copy q .. | .atomic q .. | .fetch q .. => q != r
    | _ => true }) s

/-- RING_ALLOC (R135): the lowest free rings of the edge die, or of every edge die in service. A VF's ring has no local slot
before RING_BIND gives it one. -/
def ringAlloc (who : Option Nat) (a : List Byte) (s : State) : CmdOut :=
  let k := who.getD 0
  let n := arg 0x0101 a 0
  let e := arg 0x0101 a 1
  let pool := if e = 0xFF then List.range 1024 else (List.range 64).map (64 * e + ·)
  let free := (pool.filter fun r => (ringOf s r).state == .free && dieUp s (96 + r / 64)).take n
  if free.length < n ∨ ringQuota s k < ringsHeldBy s k + n then err eNoResource s
  else
    .done 0 (pack (free.map u16)) (updates free (fun r s => onRing r (fun _ =>
      { state := .allocated, owner := k, slot := if k % 64 = 0 then 0 else 0xFF }) (dropRingTags r s)) s)

def execRingAlloc (lb : Nat) (s : State) : Res := runCmd 0x0101 anyArgs ringAlloc lb s

/-- RING_FREE (R135): a ring that is not running, held or completion full. -/
def execRingFree (lb : Nat) (s : State) : Res :=
  runCmd 0x0102 anyArgs (withRing 0x0102 fun r _ s =>
    if ringLive (ringOf s r).state then err eBusyObject s else ok0 (freeRing r s)) lb s

/-- RING_BIND (R92, R96, R97, R137): a ring of the PF0, or of a VF of its port. A ring configured with a context of another
function goes back to Allocated, since only the function of a context may use it (R163). -/
def ringBind (who : Option Nat) (a : List Byte) (s : State) : CmdOut :=
  let r := arg 0x0103 a 0
  let pf := who.getD 0
  let t := pf / 64 * 64 + arg 0x0103 a 1
  let slot := arg 0x0103 a 2
  let v := arg 0x0103 a 3
  let g := ringOf s r
  let keeps := (tget {} s.xlat.ctxs g.ctx).owner == t && g.state != .allocated
  if 1024 ≤ r ∨ g.state = .free ∨ g.owner / 64 ≠ pf / 64 ∨ !fnEnabled s t then err eNotFound s
  else if ringLive g.state ∨ (t % 64 ≠ 0 ∧ s.rings.any fun e => e.1 != r && e.2.state != .free && e.2.owner == t && e.2.slot == slot) then
    err eBusyObject s
  else if g.state ≠ .allocated ∧ g.ctx ≠ 0 ∧ !(fnOf s t).pasid then err eNotPermitted s
  else
    ok0 (onRing r (fun g =>
      if keeps then { g with owner := t, slot := slot, vector := v }
      else { state := .allocated, owner := t, slot := slot, vector := v, physical := g.physical, runs := g.runs }) s)

def execRingBind (lb : Nat) (s : State) : Res := runCmd 0x0103 anyArgs ringBind lb s

/-- RING_CONFIG (R97, R136, R160): the ring's counts are 0 and N = 1, W = 0; hot-page reports still owed to its old array go. -/
def ringConfig (r : Nat) (a : List Byte) (s : State) : CmdOut :=
  let x := arg 0x0104 a
  let g := ringOf s r
  let ctx := x 3
  match tfind s.xlat.ctxs ctx with
  | none => err eNotFound s
  | some c =>
    if c.owner ≠ g.owner then err eNotFound s
    else if ctx ≠ 0 ∧ !(fnOf s g.owner).pasid then err eNotPermitted s
    else if g.state ≠ .allocated ∧ g.state ≠ .stopped then err eBusyObject s
    else
      ok0 (onRing r (fun g => {
        state := .stopped, owner := g.owner, slot := g.slot, vector := g.vector, physical := g.physical, runs := g.runs
        mode := x 1, key := x 2, ctx := ctx, entries := x 4, cqEntries := x 5, base := x 6, cqBase := x 7 })
        (onXlat (fun x => { x with hot := x.hot.map fun h => if h.ring = r then { h with due := [] } else h }) s))

def execRingConfig (lb : Nat) (s : State) : Res := runCmd 0x0104 anyArgs (withRing 0x0104 ringConfig) lb s

/-- RING_SET_PHYSICAL (R39). -/
def execRingSetPhysical (lb : Nat) (s : State) : Res :=
  runCmd 0x0105 anyArgs (withRing 0x0105 fun r a s =>
    ok0 (onRing r (fun g => { g with physical := arg 0x0105 a 1 == 1 }) s)) lb s

/-- RING_START (R135): from Stopped or Error, with its context registered. -/
def execRingStart (lb : Nat) (s : State) : Res :=
  runCmd 0x0106 anyArgs (withRing 0x0106 fun r _ s =>
    let g := ringOf s r
    if g.state = .allocated ∨ (tfind s.xlat.ctxs g.ctx).isNone then err eBusyObject s
    else if g.state = .stopped ∨ g.state = .error then
      ok0 (ringRestate r (onRing r (fun g => { g with state := .running, reason := 0, fetched := [], fetching := false, ran := true }) s))
    else ok0 s) lb s

/-- RING_STOP (R135): no further descriptor starts; the command ends when those started have ended. -/
def ringStop (who : Option Nat) (a : List Byte) (s : State) : CmdOut :=
  withRing 0x0107 (fun r _ s =>
    let g := ringOf s r
    if ringLive g.state then
      .wait (onRing r (fun g => { g with state := .stopped, fetched := [], fetching := false, stopLb := who }) s)
    else .done 0 (pack [u32 (firstNotStarted g)]) s) who a s

/-- RING_STOP (R135). -/
def execRingStop (lb : Nat) (s : State) : Res :=
  match runCmd 0x0107 anyArgs ringStop lb s with
  | .next s' => .next (if runningFresh s lb 0x0107 && waitingOn s' lb 0x0107 then stopCheck (arg 0x0107 (cmdArgs (lbOf s lb)) 0) s' else s')
  | r => r

/-- RING_QUERY (R134). -/
def execRingQuery (lb : Nat) (s : State) : Res :=
  runCmd 0x0108 anyArgs (withRing 0x0108 fun r _ s =>
    let g := ringOf s r
    .done 0 (pack [u8 (ringCode g.state), u32 g.head, u32 g.tail, u32 g.cqWritten, u32 (heldCount g)]) s) lb s

/-- RING_ACK_LOSS (R155): the accounting toward the die restarts with the next run, and the held packets are released: one at a time
awaits its receipt (R297), and the answer counts them all. -/
def ringAckLoss (r : Nat) (a : List Byte) (s : State) : CmdOut :=
  let k := destKey (BitVec.ofNat 32 (arg 0x0109 a 1))
  let x := runOf (ringOf s r) k
  let n := (ringOf s r).started.foldl (fun n d => n + d.held.countP fun p => destKey p.dest == k) 0
  if !x.lost then .done 0 (pack [u32 0]) s
  else
    let s := onRing r (fun g =>
      let g := setRun { x with lost := false, awaiting := false, run := (x.run + 1) % 32, sent := 0 } g
      { g with status := if g.runs.any RunTo.lost then g.status else setBit g.status 3 false }) s
    .done 0 (pack [u32 n]) (releaseHeld r s)

def execRingAckLoss (lb : Nat) (s : State) : Res := runCmd 0x0109 anyArgs (withRing 0x0109 ringAckLoss) lb s

/-- RING_MODERATE (R160): the time runs while an entry is not yet signalled, unless W is 0. -/
def execRingModerate (lb : Nat) (s : State) : Res :=
  runCmd 0x010A anyArgs (withRing 0x010A fun r a s =>
    ok0 (onRing r (fun g => { g with
      modCount := arg 0x010A a 1, modTime := arg 0x010A a 2
      timerOn := decide (0 < g.unsignalled ∧ 0 < arg 0x010A a 2) }) s)) lb s

end Sys2Proof.Machine
end

