-- ==== Sys2Proof/Machine/CmdXlat.lean ====
section
/-! DEFINITION. The translation and protection commands 0x0201–0x020B (R117, R123, R163, R164, R172, R180–R183, R187,
R193–R195, R200). -/

namespace Sys2Proof.Machine

/-- A context of a requester (R116, R163). -/
def ownCtx (s : State) (who : Option Nat) (ctx : Nat) : Bool :=
  match tfind s.xlat.ctxs ctx with
  | some c => who == some c.owner
  | none => false

/-- Run `f` on a context that the requester owns, else end "not found". -/
def withCtx (op i : Nat) (f : Nat → List Byte → State → CmdOut) (who : Option Nat) (a : List Byte) (s : State) : CmdOut :=
  if ownCtx s who (arg op a i) then f (arg op a i) a s else err eNotFound s

/-- Run a command that waits, and then what it waits for, once it is marked as waiting. -/
def runThen (op : Nat) (f : Cmd) (after : List Byte → State → State) (lb : Nat) (s : State) : Res :=
  match runCmd op anyArgs f lb s with
  | .next s' => .next (if runningFresh s lb op && waitingOn s' lb op then after (cmdArgs (lbOf s lb)) s' else s')
  | r => r

/-- CTX_CREATE (R116, R163). -/
def ctxCreate (who : Option Nat) (a : List Byte) (s : State) : CmdOut :=
  let ctx := arg 0x0201 a 0
  let k := who.getD 0
  if (tfind s.xlat.ctxs ctx).isSome then err eBusyObject s
  else if 4096 ≤ s.xlat.ctxs.length ∨ contextQuota s k ≤ contextsOf s k then err eNoResource s
  else ok0 (onXlat (fun x => { x with ctxs := tset x.ctxs ctx { owner := k, root := arg 0x0201 a 1 } }) s)

def execCtxCreate (lb : Nat) (s : State) : Res := runCmd 0x0201 anyArgs ctxCreate lb s

/-- A configured ring carries a context. -/
def ringsUseCtx (s : State) (ctx : Nat) : Bool :=
  s.rings.any fun e => decide (e.1 < 1024) && e.2.state != .free && e.2.state != .allocated && e.2.ctx == ctx

/-- Drop everything cached for a context: leaves, lines, and with `pins` its PIN_RANGE pins (R103, R174). -/
def forgetCtx (ctx : Nat) (pins : Bool) (s : State) : State :=
  s |> dropLeaves ctx 0 0 false |> dropLines ctx 0 0 true
    |> onXlat (fun x => { x with pins := x.pins.filter fun p => !(pins && p.ctx == ctx && p.programmed.isNone) })

/-- CTX_DESTROY (R163). -/
def execCtxDestroy (lb : Nat) (s : State) : Res :=
  runCmd 0x0202 anyArgs (withCtx 0x0202 0 fun ctx _ s =>
    if ringsUseCtx s ctx then err eBusyObject s
    else ok0 (forgetCtx ctx true (restartWalks ctx s) |> onXlat fun x => { x with
      ctxs := terase x.ctxs ctx, hot := x.hot.filter fun h => h.ctx != ctx })) lb s

/-- CTX_SET_ROOT (R164): a TABLE_SYNC and then an invalidation of the whole context, which together drop and wait for all that
either does. -/
def execCtxSetRoot (lb : Nat) (s : State) : Res :=
  runThen 0x0203 (withCtx 0x0203 0 fun ctx a s =>
      .wait (onXlat (fun x => { x with ctxs := tmod {} x.ctxs ctx fun c => { c with root := arg 0x0203 a 1 } }) s))
    (fun a s => settleWaits (beginInvalidate (.command lb) (arg 0x0203 a 0) 0 0 false s)) lb s

/-- TLB_INVALIDATE (R180). -/
def execTlbInvalidate (lb : Nat) (s : State) : Res :=
  runThen 0x0204 (withCtx 0x0204 0 fun _ _ s => .wait s)
    (fun a s => settleWaits (beginInvalidate (.command lb) (arg 0x0204 a 0) (arg 0x0204 a 1) (arg 0x0204 a 2) false s)) lb s

/-- TLB_INVALIDATE_BCAST (R183): the own module first. -/
def execTlbInvalidateBcast (lb : Nat) (s : State) : Res :=
  runThen 0x0205 (withCtx 0x0205 0 fun _ _ s => .wait s)
    (fun a s => settleWaits (beginInvalidate (.command lb) (arg 0x0205 a 0) (arg 0x0205 a 3) (arg 0x0205 a 4) false s)) lb s

/-- TABLE_SYNC (R181). -/
def execTableSync (lb : Nat) (s : State) : Res :=
  runThen 0x0206 (withCtx 0x0206 0 fun _ _ s => .wait s)
    (fun a s => settleWaits (beginInvalidate (.command lb) (arg 0x0206 a 0) 0 0 true s)) lb s

/-- PIN_RANGE (R172). -/
def execPinRange (lb : Nat) (s : State) : Res :=
  runThen 0x0207 (withCtx 0x0207 0 fun _ a s =>
      .wait (onLb lb (fun l => { l with progress := arg 0x0207 a 1, waitingFor := [] }) s))
    (fun _ s => pinNext lb s) lb s

/-- UNPIN_RANGE (R172). -/
def execUnpinRange (lb : Nat) (s : State) : Res :=
  runCmd 0x0208 anyArgs (withCtx 0x0208 0 fun ctx a s =>
    let va := arg 0x0208 a 1
    let len := arg 0x0208 a 2
    let ps := s.xlat.pins.filter fun p => p.ctx == ctx && p.programmed.isNone && decide (0 < len ∧ va < p.va + p.size ∧ p.va < va + len)
    .done 0 (pack [u32 ps.length]) (updates ps (fun p s => unpinPage ctx p.va s) s)) lb s

/-! ### Keys (R187, R193–R195) -/

/-- A slot is bound (R194). -/
def slotBound (s : State) (slot : Nat) : Bool :=
  if slot ≤ 159 then
    (s.rings.any fun e => decide (e.1 < 1024) && e.2.state != .free && e.2.state != .allocated && e.2.key == slot)
      || s.fabric.dies.any fun e => e.2.locks.any fun l => lockValid l.2 && lockSelector l.2 == slot
  else !(tget [] s.fabric.routeSets (slot - 160)).isEmpty

/-- Every engine's packet counter of a link slot starts again at 0 (R198). -/
def resetGcm (slot : Nat) (s : State) : State :=
  onFabric (fun x => { x with dies := tmap (fun _ d => { d with
    gcm := if 160 ≤ slot then d.gcm.filter fun e => e.1 % 64 != slot - 160 else d.gcm }) x.dies }) s

/-- Load or replace a key in every crypto unit. -/
def loadKey (slot kind : Nat) (key : List Byte) (s : State) : State :=
  let old := tfind s.fabric.keys slot
  let k : KeySlot := match old with
    | some o => if 160 ≤ slot ∧ slotBound s slot then
        { kind := kind, key := key, phase := !o.phase, previous := some o.key, switchedRecently := true }
      else { kind := kind, key := key, phase := o.phase }
    | none => { kind := kind, key := key }
  s |> onFabric (fun x => { x with
        keys := tset x.keys slot k
        dies := tmap (fun _ d => { d with badKeys := d.badKeys.filter (· != slot) }) x.dies })
    |> resetGcm slot

/-- KEY_LOAD (R193, R195). -/
def keyLoad (_ : Option Nat) (a : List Byte) (s : State) : CmdOut :=
  let slot := arg 0x0209 a 0
  let recent : Bool := match tfind s.fabric.keys slot with | some k => k.switchedRecently | none => false
  if slotBound s slot ∧ (arg 0x0209 a 2 = 0 ∨ (160 ≤ slot ∧ recent)) then err eBusyObject s
  else ok0 (loadKey slot (arg 0x0209 a 1) ((a.drop 3).take 64) s)

/-- KEY_LOAD (R193); its command frame is zero before it ends (R117). -/
def execKeyLoad (lb : Nat) (s : State) : Res :=
  match runCmd 0x0209 anyArgs keyLoad lb s with
  | .next s' => .next (if runningFresh s lb 0x0209 then onLb lb (fun l => { l with cmd := [] }) s' else s')
  | r => r

/-- KEY_CLEAR (R194). -/
def keyClear (_ : Option Nat) (a : List Byte) (s : State) : CmdOut :=
  let slot := arg 0x020A a 0
  if slotBound s slot then err eBusyObject s
  else ok0 (onFabric (fun x => { x with keys := terase x.keys slot }) s)

def execKeyClear (lb : Nat) (s : State) : Res := runCmd 0x020A anyArgs keyClear lb s

/-! ### HOTPAGE_CONFIG (R200) -/

/-- HOTPAGE_CONFIG (R200, R201): a ring that is not configured, or was started, is no report ring and is not found (assumption 94). -/
def hotpageConfig (who : Option Nat) (a : List Byte) (s : State) : CmdOut :=
  let k := who.getD 0
  let ring := arg 0x020B a 0
  let ctx := arg 0x020B a 2
  if !ownRing s who ring ∨ !ownCtx s who ctx ∨ !((ringOf s ring).state == .stopped && !(ringOf s ring).ran) then err eNotFound s
  else
    ok0 (onXlat (fun x => { x with
      hot := (x.hot.filter fun h => !(h.owner == k && h.ctx == ctx))
        ++ [{ owner := k, ctx := ctx, ring := ring, windowMs := arg 0x020B a 1, threshold := arg 0x020B a 3 }] }) s)

def execHotpageConfig (lb : Nat) (s : State) : Res := runCmd 0x020B anyArgs hotpageConfig lb s

end Sys2Proof.Machine
end

