-- ==== Sys2Proof/Machine/CmdModule.lean ====
section
/-! DEFINITION. The module and function commands 0x0001–0x0005 (R92, R123). -/

namespace Sys2Proof.Machine

def execNop (lb : Nat) (s : State) : Res := runCmd 0x0001 anyArgs (fun _ _ s => ok0 s) lb s

/-- The version of the running firmware: its image header's, or that of the boot-ROM recovery firmware. -/
def firmwareVersion (s : State) : Nat :=
  if s.power.romRecovery then Config.recoveryVersion % 2 ^ 32 else field (runningImage s) 0x08 4

/-- GET_VERSION's result (R123); the interface version is that of LB_INFO (R110). -/
def versionBytes (s : State) : List Byte :=
  pack ([u32 (firmwareVersion s), u8 (runningSlot s)]
    ++ (List.range 8).map (fun i => u16 (field (runningImage s) (0x14 + 2 * i) 2)) ++ [u16 1])

def execGetVersion (lb : Nat) (s : State) : Res := runCmd 0x0002 anyArgs (fun _ _ s => .done 0 (versionBytes s) s) lb s

/-- GET_MODULE_INFO's result (R123). -/
def infoBytes (s : State) : List Byte :=
  pack [u16 (moduleNumber s), u8 s.power.verdict, u8 (powerCode s), u8 (frondsInService s).length, u32 (activeTiles s)
    , u8 (postEdge s), u8 (b2n s.post.standby)]

def execGetModuleInfo (lb : Nat) (s : State) : Res := runCmd 0x0003 anyArgs (fun _ _ s => .done 0 (infoBytes s) s) lb s

/-- What the quotas of a kind add up to over the VFs other than one. -/
def quotaSum (s : State) (but : Nat) (q : Fn → Nat) : Nat :=
  s.host.fns.foldl (fun n e => if e.1 = but ∨ e.1 % 64 = 0 then n else n + q e.2) 0

/-- FN_SET_QUOTA (R92): quotas beyond what the module's pools hold end "no resource". -/
def fnSetQuota (who : Option Nat) (a : List Byte) (s : State) : CmdOut :=
  let k := who.getD 0 / 64 * 64 + arg 4 a 0
  let rings := arg 4 a 1
  let ctxs := arg 4 a 2
  let claims := arg 4 a 3
  if 1024 < quotaSum s k Fn.quotaRings + rings ∨ 4096 < quotaSum s k Fn.quotaContexts + ctxs ∨ 4096 < claims then
    err eNoResource s
  else ok0 (onFn k (fun f => { f with quotaRings := rings, quotaContexts := ctxs, quotaClaims := claims }) s)

def execFnSetQuota (lb : Nat) (s : State) : Res := runCmd 0x0004 anyArgs fnSetQuota lb s

/-- FN_QUERY: each quota with its use; the fourth is the function's one letterbox (R44), in use by this command.
R123 lists "the four quotas and the use of each": each use follows its quota (DESIGN CHOICE, assumption 78). -/
def fnQuery (who : Option Nat) (a : List Byte) (s : State) : CmdOut :=
  let k := who.getD 0
  let n := arg 5 a 0
  let t := if n = 0 then k else k / 64 * 64 + n
  if 63 < n ∨ !fnEnabled s t ∨ (k % 64 ≠ 0 ∧ t ≠ k) then err eNotFound s
  else
    .done 0 (pack [u16 (ringQuota s t), u16 (ringsHeldBy s t), u16 (contextQuota s t), u16 (contextsOf s t)
      , u16 (claimQuota s t), u16 (claimsOf s t), u16 1, u16 1]) s

def execFnQuery (lb : Nat) (s : State) : Res := runCmd 0x0005 anyArgs fnQuery lb s

end Sys2Proof.Machine
end

