-- ==== Sys2Proof/Machine/Residency.lean ====
section
/-! DEFINITION. Image and pigeonhole commands (R123, R329, R335–R349, R452), and what happens to a load as time passes. -/

namespace Sys2Proof.Machine

/-- An image of a requester (R116). -/
def ownImage (s : State) (who : Option Nat) (h : Nat) : Option Image :=
  match tfind s.res.images h with
  | some i => if who = some i.owner then some i else none
  | none => none

/-- A pigeonhole that a requester claims (R116). -/
def claimedPh (s : State) (who : Option Nat) (h : Nat) : Option Ph :=
  match phOf s h, who with
  | some p, some k => if p.claims.contains k then some p else none
  | _, _ => none

/-! ### IMAGE_LOAD, IMAGE_DROP, IMAGE_QUERY -/

/-- The result data of IMAGE_LOAD. -/
def imageResult (h : Nat) (i : Image) : List Fld := [u32 h, u32 i.tiles, u64 i.declared, u16 i.revision]

/-- Check the image read (R329) and keep it. -/
def imageDone (lb : Nat) (s : State) : State :=
  let l := lbOf s lb
  let a := cmdArgs l
  match parseImage lb (arg 0x0301 a 1) (arg 0x0301 a 2) l.buffer (supportedRevisions s) eRevision eImage with
  | .error e => postWaiting lb 0x0301 e [] s
  | .ok i =>
    let h := s.res.nextHandle
    postWaiting lb 0x0301 0 (pack (imageResult h i))
      (onRes (fun r => { r with images := tset r.images h i, nextHandle := h + 1 }) s)

/-- A read for a letterbox command is outstanding. -/
def imageBusy (s : State) (lb : Nat) : Bool :=
  (s.fabric.tags.any fun e => match e.2 with | .image l _ _ => l == lb | _ => false)
    || ((hostPortOf s (lb / 64)).reads.any fun e => match e.2.purpose with | .image l _ => l == lb | _ => false)

/-- Ask for the next piece of the image, or check it once it is whole (R121). -/
def imageNext (lb : Nat) (s : State) : State :=
  let l := lbOf s lb
  let a := cmdArgs l
  let pos := l.buffer.length
  let len := arg 0x0301 a 2
  if !waitingOn s lb 0x0301 ∨ imageBusy s lb then s
  else if len ≤ pos then imageDone lb s
  else if field a 0 1 = 0 then
    let at_ := arg 0x0301 a 3 + pos
    if !(fnOf s lb).busMaster then postWaiting lb 0x0301 eAbortedByHost [] s
    else if canRead s lb then
      hostRead lb at_ (pieceLen at_ (len - pos) (fnOf s lb).maxRead) (pasidFor s lb (arg 0x0301 a 1)) false (.image lb pos) s
    else s
  else
    let off := arg 0x0301 a 5 + pos
    let n := min (len - pos) 4096
    let t := newTag (.image lb pos n) s
    sendSealed (mkReadRequest (ringEnginePc (moduleNumber s) (postEdge s)) (BitVec.ofNat 32 (arg 0x0301 a 3)) off n t.1
      { ctx := arg 0x0301 a 1, key := 0 }) .none t.2

/-- A piece of the image has arrived; an abort takes effect at a safe point, every 4 MiB (R125). -/
def imageData (lb pos : Nat) (bytes : List Byte) (bad : Bool) (s : State) : State :=
  let l := lbOf s lb
  if !waitingOn s lb 0x0301 then s
  else if l.buffer.length ≠ pos then imageNext lb s
  else if bad then postWaiting lb 0x0301 eImage [] s
  else
    let b := l.buffer ++ bytes
    let n := b.length / 2 ^ 22
    let s := onLb lb (fun l => { l with buffer := b, safePoints := n }) s
    if l.abort ∧ l.safePoints < n then postWaiting lb 0x0301 eAborted [] s else imageNext lb s

def imageLoadStart (who : Option Nat) (a : List Byte) (s : State) : CmdOut :=
  match tfind s.xlat.ctxs (arg 0x0301 a 1) with
  | some c => if who = some c.owner then .wait s else err eNotFound s
  | none => err eNotFound s

/-- IMAGE_LOAD (R329). -/
def execImageLoad (lb : Nat) (s : State) : Res :=
  match runCmd 0x0301 anyArgs imageLoadStart lb s with
  | .next s' => .next (if runningFresh s lb 0x0301 then imageNext lb s' else s')
  | r => r

def phUsing (s : State) (h : Nat) : Nat := s.res.phs.countP fun e => e.2.image == h

def imageDrop (who : Option Nat) (a : List Byte) (s : State) : CmdOut :=
  let h := arg 0x0302 a 0
  match ownImage s who h with
  | none => err eNotFound s
  | some _ =>
    if 0 < phUsing s h then err eBusyObject s
    else ok0 (onRes (fun r => { r with images := terase r.images h }) s)

def execImageDrop (lb : Nat) (s : State) : Res := runCmd 0x0302 anyArgs imageDrop lb s

def imageQuery (who : Option Nat) (a : List Byte) (s : State) : CmdOut :=
  let h := arg 0x0303 a 0
  match ownImage s who h with
  | none => err eNotFound s
  | some i => .done 0 (pack (imageResult h i ++ [u16 (phUsing s h)])) s

def execImageQuery (lb : Nat) (s : State) : Res := runCmd 0x0303 anyArgs imageQuery lb s

/-! ### PH_CREATE (R338–R341) -/

/-- A weight source: a store memory unit, or a field store of any module (R341). -/
def weightSourceOk (s : State) (pc : Postcode) : Bool :=
  isStorePc s pc || (validPostcode pc && isTilePc s pc && pcUnit pc == 0xB)

/-- The checks on the budget (R339): the error with its result data. -/
def budgetError (i : Image) (allow : Bool) : Option (Nat × List Byte) :=
  let e := excessOf i
  if e = 0 ∨ (allow ∧ e ≤ budgetOf i / 8) then none
  else some (eBudget, pack [u64 e, u32 ((e + 1040383) / 1040384)])

/-- PH_CREATE up to the start of the loads; its result comes with the stamp (R342). -/
def phCreate (who : Option Nat) (a : List Byte) (s : State) : CmdOut :=
  let own := moduleNumber s
  let k := who.getD 0
  let pc := BitVec.ofNat 32 (arg 0x0304 a 2)
  match ownImage s who (arg 0x0304 a 0) with
  | none => err eNotFound s
  | some i =>
    if !weightSourceOk s pc then err eRange s
    else
      match budgetError i (arg 0x0304 a 1 == 1) with
      | some e => .done e.1 e.2 s
      | none =>
        match routeSetOf s i.ctx with
        | none => err eRouteSet s
        | some set_ =>
          match tfree s.res.phs 0 4096, placeAll s i.fronds {} with
          | some h, some pl =>
            let p : Ph := {
              image := arg 0x0304 a 0, overflow := decide (0 < excessOf i)
              source := { pc := pc, off := arg 0x0304 a 4 }
              bound := pl.bound, tileOf := pl.tiles, claims := [k], order := s.res.nextOrder, lb := who }
            let pins := phPins own h i p
            let cores := (freeCores s (phFronds p)).take i.stewards
            if claimQuota s k ≤ claimsOf s k ∨ pinStoreSize < s.xlat.pins.length + pins.length
                ∨ (phFronds p).any (fun f => !slotsFit s i f) ∨ cores.length < i.stewards then err eNoResource s
            else
              .wait (s |> onRes (fun r => { r with phs := tset r.phs h { p with stewards := cores }, nextOrder := r.nextOrder + 1 })
                |> journal 0x8002 4 1 false [u16 h, u8 0, u8 1, u16 340]
                |> onXlat (fun x => { x with pins := x.pins ++ pins })
                |> writeLocks set_ i p
                |> fillSlots h i p
                |> assignCores h i cores
                |> startLoads h (loadedRecs i))
          | _, _ => err eNoResource s

/-- PH_CREATE (R339). -/
def execPhCreate (lb : Nat) (s : State) : Res := runCmd 0x0304 anyArgs phCreate lb s

/-! ### Claims (R337) -/

def phClaim (who : Option Nat) (a : List Byte) (s : State) : CmdOut :=
  let h := arg 0x0305 a 0
  let k := who.getD 0
  match phOf s h with
  | none => err eNotFound s
  | some p =>
    if k % 64 ≠ 0 ∧ ¬p.claims.contains (k / 64 * 64) then err eNotFound s
    else if p.claims.contains k then .done 0 (pack [u16 p.claims.length]) s
    else if claimQuota s k ≤ claimsOf s k then err eNoResource s
    else .done 0 (pack [u16 (p.claims.length + 1)]) (onPh h (fun p => { p with claims := p.claims ++ [k] }) s)

def execPhClaim (lb : Nat) (s : State) : Res := runCmd 0x0305 anyArgs phClaim lb s

def phRelease (who : Option Nat) (a : List Byte) (s : State) : CmdOut :=
  let h := arg 0x0306 a 0
  match claimedPh s who h with
  | none => err eNotFound s
  | some _ =>
    let x := releaseClaim (who.getD 0) h s
    .done 0 (pack [u16 x.1, u8 (b2n (phOf x.2 h).isNone)]) x.2

def execPhRelease (lb : Nat) (s : State) : Res := runCmd 0x0306 anyArgs phRelease lb s

/-- PH_EVICT (R347): PF0 names a pigeonhole that it claims (R116). -/
def phEvict (who : Option Nat) (a : List Byte) (s : State) : CmdOut :=
  match claimedPh s who (arg 0x0307 a 0) with
  | none => err eNotFound s
  | some _ => ok0 (evict (arg 0x0307 a 0) s)

def execPhEvict (lb : Nat) (s : State) : Res := runCmd 0x0307 anyArgs phEvict lb s

def phQuery (who : Option Nat) (a : List Byte) (s : State) : CmdOut :=
  match claimedPh s who (arg 0x0309 a 0) with
  | none => err eNotFound s
  | some p =>
    let tiles := match imageOf s p with | some i => i.tiles | none => 0
    .done 0 (pack [u8 (phCode p.state), u8 (b2n p.stamp), u8 (b2n p.overflow), u32 p.image, u32 tiles, u16 p.claims.length]) s

def execPhQuery (lb : Nat) (s : State) : Res := runCmd 0x0309 anyArgs phQuery lb s

/-! ### PH_STOP (R452) -/

/-- Where an answer to a stop goes: a letterbox, or 2^32 plus the postcode that sent PH_STOP. -/
def stopAnswer (who h count : Nat) (s : State) : State :=
  if who < 2 ^ 32 then postWaiting who 0x0308 0 (pack [u32 count]) s
  else sendControl (mkControl 0x06 (BitVec.ofNat 32 (who - 2 ^ 32)) (postPc s) {} [(0x18, u16 h), (0x1C, u32 count)]) s

/-- Send one PH_STOP to each frond controller of a pigeonhole in service (R453) and wait for their answers. -/
def stopSend (who h : Nat) (s : State) : State :=
  match phOf s h with
  | none => stopAnswer who h 0 s
  | some p =>
    let fs := (phFronds p).filter (dieUp s)
    if fs.isEmpty then stopAnswer who h 0 s
    else
      updates fs (fun f s => sendControl (mkControl 0x05 (frondCtlPc (moduleNumber s) f) (postPc s) {} [(0x18, u16 h)]) s)
        (onRes (fun r => { r with stops := r.stops ++ [(who, h, fs, 0)] }) s)

/-- A PH_STOP_DONE has come from a frond controller, or from another module's postmaster, which is awaited as 2^20 plus its
module number. -/
def stopDone (src : Postcode) (h count : Nat) (s : State) : State :=
  let key := if pcModule src = moduleNumber s then pcDie src else 2 ^ 20 + pcModule src
  match s.res.stops.find? (fun e => e.2.1 == h && e.2.2.1.contains key) with
  | none => s
  | some (who, _, left, n) =>
    let left' := left.filter (· != key)
    let rest := eraseFirst (fun e => e.2.1 == h && e.2.2.1.contains key) s.res.stops
    if left'.isEmpty then stopAnswer who h (n + count) (onRes (fun r => { r with stops := rest }) s)
    else onRes (fun r => { r with stops := rest ++ [(who, h, left', n + count)] }) s

/-- A frond controller acts on PH_STOP: the launches with tiles on its frond stop, and it answers. -/
def stopAtFrond (f h : Nat) (replyTo src : Postcode) (s : State) : State :=
  let onFrond (x : Launch) : Bool := match phOf s h with
    | some p =>
      let r := launchRange s x
      p.tileOf.any fun e => decide (r.1 ≤ e.1 ∧ e.1 < r.1 + r.2) && e.2 / 320 == f
    | none => false
  let x := stopLaunches h onFrond s
  sendControl (mkControl 0x06 replyTo src {} [(0x18, u16 h), (0x1C, u32 x.1)]) x.2

/-- The command: on this module, or toward the postmaster of another through both its edge dies. -/
def phStop (who : Option Nat) (a : List Byte) (s : State) : CmdOut :=
  let m := arg 0x0308 a 0
  let h := arg 0x0308 a 1
  if m = 0xFFFF ∨ m = moduleNumber s then
    match claimedPh s who h with
    | none => err eNotFound s
    | some _ => .wait s
  else if !bit (moduleEntry s m) 0 then err eUnreachable s
  else
    .wait (updates [0, 8] (fun e s => sendControl (mkControl 0x05 (mgmtPc m e) (postPc s) {} [(0x18, u16 h)]) s)
      (onRes (fun r => { r with stops := r.stops ++ [(who.getD 0, h, [2 ^ 20 + m], 0)] }) s))

/-- PH_STOP (R452). -/
def execPhStop (lb : Nat) (s : State) : Res :=
  match runCmd 0x0308 anyArgs phStop lb s with
  | .next s' =>
    let a := cmdArgs (lbOf s lb)
    let here := arg 0x0308 a 0 == 0xFFFF || arg 0x0308 a 0 == moduleNumber s
    .next (if runningFresh s lb 0x0308 && here && waitingOn s' lb 0x0308 then stopSend lb (arg 0x0308 a 1) s' else s')
  | r => r

/-! ### FREE_MAP_READ (R340) -/

/-- A tile's bit: active, in service and bound to no pigeonhole. -/
def tileFree (s : State) (busy : List Nat) (f t : Nat) : Bool :=
  dieUp s f && decide (t % 20 ≠ 19) && !(dieOf s f).retired.contains t && !busy.contains (f * 320 + t)

def freeMapOf (s : State) (busy : List Nat) (f : Nat) : List Byte :=
  leBytes 40 ((List.range 320).foldl (fun n t => if tileFree s busy f t then n + 2 ^ t else n) 0)

def freeMapRead (_ : Option Nat) (a : List Byte) (s : State) : CmdOut :=
  let busy := boundTiles s
  .done 0 ((List.range (arg 0x030A a 1)).flatMap fun i => freeMapOf s busy (arg 0x030A a 0 + i)) s

def execFreeMapRead (lb : Nat) (s : State) : Res := runCmd 0x030A anyArgs freeMapRead lb s

/-! ### A load as time passes (R342–R344, R336) -/

def onPigeonhole (h : Nat) (f : Ph → State → State) (s : State) : Res :=
  if 4096 ≤ h then .next s
  else .next (match phOf s h with | some p => f p s | none => s)

/-- The four steps of R342. -/
def becomeResident (h : Nat) (p : Ph) (s : State) : State :=
  if p.state ≠ .loading ∨ p.residency < p.target ∨ !p.loads.isEmpty then s
  else
    match imageOf s p with
    | none => s
    | some i =>
      s |> updates p.stewards (fun c s => onSteward c (fun x => { x with running := true, halted := false }) s)
        |> phEnter h .resident 342 false
        |> onPh h (fun p => { p with lb := none })
        |> postWaiting? p.lb 0x0304 0 (pack [u16 h, u32 i.tiles, u8 (b2n p.overflow), u64 (streamedOf i)])

/-- RESIDENCY_TARGET_REACHED (R342). -/
def execResidencyTargetReached (pigeonhole : Nat) (s : State) : Res := onPigeonhole pigeonhole (becomeResident pigeonhole) s

/-- PH_CREATE_TIMEOUT (R343): the command ends "timeout" and its load is cancelled. -/
def execPhCreateTimeout (pigeonhole : Nat) (s : State) : Res :=
  onPigeonhole pigeonhole (fun p s =>
    if p.state ≠ .loading ∨ p.lb.isNone then s
    else s |> cancelLoad pigeonhole eTimeout 343
      |> onPh pigeonhole (fun p => { p with lb := none })
      |> postWaiting? p.lb 0x0304 eTimeout []) s

/-- LOAD_CANCEL (R344): the reads of a cancelled load have been answered, or 10 ms have passed. -/
def execLoadCancel (pigeonhole : Nat) (s : State) : Res :=
  onPigeonhole pigeonhole (fun p s => if p.state = .evicting ∧ p.cancel.isSome then evict pigeonhole s else s) s

/-- The tags of a pigeonhole's load reads that satisfy `q` are given up: their responses come late. -/
def dropLoadTags (h : Nat) (q : Nat → Bool) (s : State) : State :=
  onFabric (fun x => { x with tags := x.tags.filter fun e => match e.2 with | .load g r _ _ => !(g == h && q r) | _ => true }) s

/-- LOAD_READ_TIMEOUT (R344): one retry, then the load ends "timeout". -/
def execLoadReadTimeout (pigeonhole record : Nat) (s : State) : Res :=
  onPigeonhole pigeonhole (fun p s =>
    match p.loads.find? (fun l => l.record == record) with
    | none => s
    | some l =>
      if p.state ≠ .loading ∨ l.outstanding = 0 then s
      else
        let s := journalRule 8 1 1 false 344 [u16 pigeonhole, u32 record]
          (dropLoadTags pigeonhole (· == record) s)
        if l.retried then cancelLoad pigeonhole eTimeout 344 s
        else loadAsk pigeonhole record (onPh pigeonhole (fun p => { p with
          loads := p.loads.map fun l => if l.record = record then { l with retried := true } else l }) s)) s

/-- STAMP_ERROR (R336): the stamp is cleared and every record is loaded again. -/
def execStampError (pigeonhole : Nat) (s : State) : Res :=
  onPigeonhole pigeonhole (fun p s =>
    if p.state = .resident ∨ p.state = .loading then
      s |> journalRule 8 1 1 false 336 [u16 pigeonhole] |> dropLoadTags pigeonhole (fun _ => true) |> reload pigeonhole 336
    else s) s

end Sys2Proof.Machine
end

