-- ==== Sys2Proof/Machine/Firmware.lean ====
section
/-! DEFINITION. Firmware slots, the boot selector, and the staging of an image from host memory (R121, R125–R127, R391). -/

namespace Sys2Proof.Machine

/-! ### Slots -/

def selectorOf (s : State) (d i : Nat) : BootSel := tget {} s.post.boot (2 * d + i)

/-- The newer valid copy of a die's boot selector (R127), as R79 has it for repair maps. -/
def newerSelector (s : State) (d : Nat) : Option Nat :=
  let a := selectorOf s d 0
  let b := selectorOf s d 1
  if a.valid && b.valid then some (if after32 b.sequence a.sequence then 1 else 0)
  else if a.valid then some 0
  else if b.valid then some 1
  else none

/-- The slot that the boot selector of die 0 (E0) or 1 (E8) names active, slot A where no copy is valid, and the other. -/
def activeSlot (s : State) (d : Nat) : Nat := match newerSelector s d with | some i => (selectorOf s d i).slot | none => 0
def inactiveSlot (s : State) (d : Nat) : Nat := 1 - activeSlot s d

def fwSlotOf (s : State) (d slot : Nat) : FwSlot := tget {} s.post.fw (2 * d + slot)
def onSlot (d slot : Nat) (f : FwSlot → FwSlot) (s : State) : State :=
  onPost (fun p => { p with fw := tmod {} p.fw (2 * d + slot) f }) s

def onInactive (f : FwSlot → FwSlot) (s : State) : State :=
  updates (mramDies s) (fun d s => onSlot d (inactiveSlot s d) f s) s

def firmwareMax : Nat := 24 * 2 ^ 20
def imageVersion (b : List Byte) : Nat := field b 0x08 4
def securityVersion (b : List Byte) : Nat := field b 0x0C 4

/-- Format, length and digest of an image, and its signature (R126). -/
def firmwareValid (b : List Byte) : Bool :=
  decide (0x100 ≤ b.length) && field b 0 4 == 0x4B574657 && field b 4 2 == 1 && field b 6 2 == 1
    && field b 0x10 4 == b.length && decide (b.length ≤ firmwareMax)
    && field b 0x24 28 == 0 && field b 0xD0 48 == 0
    && ((b.drop 0x40).take 48 == sha384 (b.drop 0x100))
    && Config.signatureValid (b.take 0x70) ((b.drop 0x70).take 96)

/-- What the checks of FW_VERIFY find: an error, or the image (R127). -/
def verifyStaged (s : State) : Except Nat (List Byte) :=
  let xs := (mramDies s).map fun d => fwSlotOf s d (inactiveSlot s d)
  match xs with
  | [] => .error eImage
  | x :: _ =>
    if !(xs.all fun y => decide (1 ≤ y.state) && y.valid && y.image == x.image && firmwareValid y.image) then .error eImage
    else if securityVersion x.image < s.post.floor then .error eRollback
    else .ok x.image

/-- Write a die's older selector copy with the next sequence number. A torn write leaves that copy's CRC wrong, and the other copy as
it was (R127). -/
def writeSelector (ok : Bool) (d slot : Nat) (s : State) : State :=
  let n := newerSelector s d
  let b : BootSel := { slot := slot, sequence := ((match n with | some i => (selectorOf s d i).sequence | none => 0) + 1) % 2 ^ 32 }
  let crc := if ok then b.check else (b.check + 1) % 2 ^ 32
  onPost (fun p => { p with boot := tset p.boot (2 * d + (match n with | some i => 1 - i | none => 0)) { b with crc := crc } }) s

/-- Name the inactive slots active, and raise the floor (R127). The image that was active needs FW_VERIFY again, which holds it to
the floor (DESIGN CHOICE). -/
def selectStaged (image : List Byte) (s : State) : State :=
  updates (mramDies s) (fun d s =>
    let new := inactiveSlot s d
    s |> onSlot d (1 - new) (fun x => if x.state = 3 then { x with state := 1 } else x)
      |> onSlot d new (fun x => { x with state := 3 })
      |> writeSelector true d new)
    (onPost (fun p => { p with floor := max p.floor (securityVersion image) }) s)

/-! ### FW_STAGE (R121, R125, R127) -/

/-- End a staging; on anything but success the inactive slot is left empty. -/
def stageEnd (lb e : Nat) (s : State) : State :=
  let b := (lbOf s lb).buffer
  let s := if e = 0 then onInactive (fun _ => { state := 1, image := b }) s else onInactive (fun _ => {}) s
  postWaiting lb 0x0702 e [] s

def stageBusy (s : State) (lb : Nat) : Bool :=
  (hostPortOf s (lb / 64)).reads.any fun e => match e.2.purpose with | .firmware l _ => l == lb && !e.2.discard | _ => false

/-- The PASID of a staging's reads: the named context's, and none on the diagnostic PF (R107, R121). -/
def stagePasid (s : State) (lb ctx : Nat) : Option Nat := if inSafe s then none else pasidFor s lb ctx

/-- Read the next piece of the image, or end the staging once it is whole. -/
def stageNext (lb : Nat) (s : State) : State :=
  let l := lbOf s lb
  let a := cmdArgs l
  let pos := l.buffer.length
  let len := arg 0x0702 a 1
  if !waitingOn s lb 0x0702 ∨ stageBusy s lb then s
  else if len ≤ pos then stageEnd lb 0 s
  else if !mayIssue (fnOf s lb) then stageEnd lb eAbortedByHost s
  else if canRead s lb then
    let at_ := arg 0x0702 a 2 + pos
    hostRead lb at_ (pieceLen at_ (len - pos) (fnOf s lb).maxRead) (stagePasid s lb (arg 0x0702 a 0)) false (.firmware lb pos) s
  else s

/-- A piece has arrived and is written to both MRAMs; an abort takes effect at a safe point, every 1 MiB. -/
def stageData (lb pos : Nat) (bytes : List Byte) (s : State) : State :=
  let l := lbOf s lb
  if !waitingOn s lb 0x0702 then s
  else if l.buffer.length ≠ pos then stageNext lb s
  else if l.mramBad then stageEnd lb eMram (mramFailed 0 s)
  else
    let b := l.buffer ++ bytes
    let n := b.length / 2 ^ 20
    let s := onLb lb (fun l => { l with buffer := b, safePoints := n }) s
    if l.abort ∧ l.safePoints < n then stageEnd lb eAborted s else stageNext lb s

end Sys2Proof.Machine
end

