-- ==== Sys2Proof/Machine/Relays.lean ====
section
/-! DEFINITION. The relay of a fan-out past its first place (R284, R285), and what the own module does when a packet of its
own has been delivered (R153, R332, R342). -/

namespace Sys2Proof.Machine

/-! ### Relay hops -/

def hopOf (s : State) (h : Nat) : Option RelayHop := tfind s.fabric.hops h
def onHop (h : Nat) (f : RelayHop → RelayHop) (s : State) : State :=
  onFabric (fun x => { x with hops := x.hops.map fun e => if e.1 = h then (h, f e.2) else e }) s
def dropHop (h : Nat) (s : State) : State := onFabric (fun x => { x with hops := terase x.hops h }) s

/-- RELAY_DONE to the issuing engine (R285): status 0 done, 1 refused, 2 unreachable. -/
def sendRelayDone (engine issuer : Postcode) (fr : Frank) (id status : Nat) (failing : Postcode) (bytes : Nat) (s : State) : State :=
  sendControl (mkControl 0x21 issuer engine fr
    [(0x18, u16 id), (0x1A, u8 status), (0x1C, u32 failing.toNat), (0x20, u64 bytes)]) s

/-- Ask for the next piece of a hop's chunk from the previous place. -/
def hopAsk (h : Nat) (s : State) : State :=
  match hopOf s h with
  | none => s
  | some x =>
    if x.readsOut ≠ 0 ∨ x.len ≤ x.issued then s
    else
      let off := x.offset + x.chunk + x.issued
      let n := min (x.len - x.issued) (4096 - off % 64)
      let t := newTag (.hop h x.issued n) s
      sendSealed (mkReadRequest x.engine x.previous off n t.1 x.frank) .none
        (onHop h (fun x => { x with issued := x.issued + n, readsOut := 1 }) t.2)

/-- Bytes of a line that have reached its last place on this module. -/
def relayedBytes (s : State) (issuer : Postcode) (id : Nat) : Nat :=
  match s.fabric.relayed.find? (fun e => e.1 == issuer.toNat && e.2.1 == id) with
  | some e => e.2.2
  | none => 0

/-- A chunk has reached the last place: after the last chunk RELAY_DONE goes (R285 step 3). -/
def relayLast (engine issuer : Postcode) (fr : Frank) (id len total : Nat) (s : State) : State :=
  let n := relayedBytes s issuer id + len
  let others := s.fabric.relayed.filter fun e => !(e.1 == issuer.toNat && e.2.1 == id)
  if total ≤ n then
    sendRelayDone engine issuer fr id 0 0 n (onFabric (fun x => { x with relayed := others }) s)
  else onFabric (fun x => { x with relayed := others ++ [(issuer.toNat, id, n)] }) s

/-- A RELAY as the packet carries it. -/
structure RelayMsg where
  issuer : Postcode
  left : Nat
  mode : Nat
  direction : Nat
  offset : Nat
  chunk : Nat
  len : Nat
  previous : Postcode
  tally : Nat
  id : Nat
  total : Nat
  frank : Frank
  deriving DecidableEq, Repr

def readRelay (p : Pkt) : RelayMsg :=
  { issuer := BitVec.ofNat 32 (ctlArg p 0x18 4), left := ctlArg p 0x1C 1, mode := ctlArg p 0x1D 1, direction := ctlArg p 0x1E 1
    offset := ctlArg p 0x20 8, chunk := ctlArg p 0x28 4, len := ctlArg p 0x2C 4, previous := BitVec.ofNat 32 (ctlArg p 0x30 4)
    tally := ctlArg p 0x34 2, id := ctlArg p 0x36 2, total := ctlArg p 0x38 8, frank := p.frank }

/-- The place after the previous one, as the engine that holds a RELAY sees it: in mode 3 the engine of the next module
takes its own place of the same die and unit. -/
def relayPlace (s : State) (m : RelayMsg) : Option Postcode :=
  let own := moduleNumber s
  if m.mode = 3 ∧ pcModule m.previous ≠ own then
    some (mkPostcode own (pcDie m.previous) (pcTile m.previous) (pcUnit m.previous))
  else nextPlace s m.mode m.direction m.previous

/-- A relayed chunk goes on from the engine of `engine`'s frond. -/
def relayStep (engine : Postcode) (m : RelayMsg) (s : State) : State :=
  if m.left = 0 then relayLast engine m.issuer m.frank m.id m.len m.total s
  else
    match relayPlace s m with
    | none => sendRelayDone engine m.issuer m.frank m.id 2 m.previous (relayedBytes s m.issuer m.id) s
    | some q =>
      if unreachable s q then sendRelayDone engine m.issuer m.frank m.id 2 q (relayedBytes s m.issuer m.id) s
      else if pcModule q ≠ moduleNumber s ∨ pcDie q ≠ pcDie engine then
        sendRelay engine q m.frank m.issuer m.left m.mode m.direction m.offset m.chunk m.len m.tally m.id m.total m.previous s
      else
        let h := s.fabric.nextHop
        let x : RelayHop := {
          issuer := m.issuer, relayId := m.id, left := m.left, mode := m.mode, direction := m.direction, offset := m.offset
          chunk := m.chunk, len := m.len, total := m.total, previous := m.previous, place := q, tally := m.tally
          frank := m.frank, engine := engine }
        hopAsk h (onFabric (fun f => { f with hops := tset f.hops h x, nextHop := h + 1 }) s)

/-- A hop that has written its whole chunk passes the relay on. -/
def hopCheck (h : Nat) (s : State) : State :=
  match hopOf s h with
  | none => s
  | some x =>
    if x.issued < x.len ∨ x.readsOut ≠ 0 ∨ x.localOut ≠ 0 then s
    else relayStep x.engine {
      issuer := x.issuer, left := x.left - 1, mode := x.mode, direction := x.direction, offset := x.offset, chunk := x.chunk
      len := x.len, previous := x.place, tally := x.tally, id := x.relayId, total := x.total, frank := x.frank } (dropHop h s)

/-- A piece of a hop's chunk has arrived from the previous place: it is written at this one, poison with it. -/
def hopData (h pos : Nat) (bytes : List Byte) (bad : List Bool) (s : State) : State :=
  match hopOf s h with
  | none => s
  | some x =>
    s |> onHop h (fun x => { x with readsOut := 0, localOut := x.localOut + 1 })
      |> sendSealed (mkWrite x.engine x.place (x.offset + x.chunk + pos) x.tally x.frank bytes bad) (.hop h)
      |> hopAsk h

/-- A read or write of a hop was refused (R285). -/
def hopRefused (h : Nat) (place : Postcode) (s : State) : State :=
  match hopOf s h with
  | none => s
  | some x => sendRelayDone x.engine x.issuer x.frank x.relayId 1 place (relayedBytes s x.issuer x.relayId) (dropHop h s)

/-- RELAY_DONE at the issuing engine (R285). -/
def relayDone (p : Pkt) (s : State) : State :=
  let id := ctlArg p 0x18 2
  match tfind s.fabric.relays id with
  | none => s
  | some x =>
    match startedOf s x.ring x.count with
    | none => onFabric (fun f => { f with relays := terase f.relays id }) s
    | some d =>
      if d.engine ≠ p.dest then s
      else
        let s := onFabric (fun f => { f with relays := terase f.relays id }) s
        let failing := BitVec.ofNat 32 (ctlArg p 0x1C 4)
        match ctlArg p 0x1A 1 with
        | 0 => endStarted x.ring x.count (if d.poisoned then stPoisoned else stOk) 0 s
        | 1 => endStarted x.ring x.count stFrank failing.toNat s
        | _ => returnToSender x.ring x.count failing s

/-! ### Deliveries on the own module -/

/-- The internal delivery count of R153, and the residency counter of R342, for a packet just delivered with `bytes` written. -/
def localDone (o : Origin) (p : Pkt) (bytes : Nat) (s : State) : State :=
  match o with
  | .ring r c =>
    if p.op = 0 then descProgress r c (onStarted r c (fun d => { d with localOut := d.localOut - 1 }) s)
    else onStarted r c (fun d => { d with localOut := d.localOut - 1 }) s
  | .launch l => launchCheck l (onLaunch l (fun x => { x with localOut := x.localOut - 1 }) s)
  | .stream l => launchCheck l (onLaunch l (fun x => { x with streamOut := x.streamOut - 1 }) s)
  | .load h _ => loadDelivered h bytes s
  | .hop h => hopCheck h (onHop h (fun x => { x with localOut := x.localOut - 1 }) s)
  | _ => s

/-- The bytes of a write that its tally counts (R257). -/
def writtenBytes (p : Pkt) : Nat := p.body.length - p.lead - p.trail

/-- What a die does once a write, an atomic or a merged list is delivered: its tally, its receipt, its run (R293, R296). -/
def delivered (o : Origin) (p : Pkt) (bytes : Nat) (s : State) : State :=
  let d := pcDie p.dest
  s |> tallyAdd d p.tally bytes
    |> when p.registered (sendControl (mkReceipt p))
    |> settleRun d p
    |> localDone o p bytes

end Sys2Proof.Machine
end

