-- ==== Sys2Proof/Machine/SelectEngine.lean ====
section
/-! DEFINITION. The select engines (R146, R350–R364, R259): the total order, rows and lists, tagged output, merge contexts and
the park. -/

namespace Sys2Proof.Machine

/-! ### Keys and entries (R351–R353) -/

/-- The rank of a key: greater ranks are greater keys; every NaN ranks alike above +∞. -/
def keyRank (format key : Nat) : Int :=
  let float (w inf : Nat) : Int :=
    let mag := key % 2 ^ (w - 1)
    if inf < mag then 2 ^ 40 else if 2 ^ (w - 1) ≤ key then -(mag : Int) else mag
  match format % 64 with
  | 1 => float 32 0x7F800000
  | 2 => float 16 0x7C00
  | 3 => float 16 0x7F80
  | 7 => signedOf 4 key
  | 8 => signedOf 2 key
  | _ => key

def isNan (format key : Nat) : Bool := decide (format % 64 ≤ 3) && keyRank format key == 2 ^ 40

/-- An entry: its key and its index. -/
abbrev SelEntry := Nat × Nat

/-- One entry ranks before another (R353): `flags` [0] selects the greatest keys; equal keys rank by the lower index. -/
def ranksBefore (format flags : Nat) (a b : SelEntry) : Bool :=
  let x := keyRank format a.1; let y := keyRank format b.1
  if x = y then decide (a.2 < b.2) else if bit flags 0 then decide (y < x) else decide (x < y)

/-- The best `k` of some entries, best first; NaN entries dropped under flag [1] (R354). -/
def bestOf (format flags k : Nat) (l : List SelEntry) : List SelEntry :=
  (sortBy (ranksBefore format flags) (l.filter fun e => !(bit flags 1 && isNan format e.1))).take k

/-- An entry's bytes (R352). -/
def selEntryBytes (format : Nat) (e : SelEntry) : List Byte :=
  leBytes 4 e.1 ++ (if bit format 6 then leBytes 4 0 ++ leBytes 8 e.2 else leBytes 4 e.2)

def readSelEntry (format : Nat) (b : List Byte) : SelEntry :=
  (field b 0 (keyBytes format), if bit format 6 then field b 8 8 else field b 4 4)

/-! ### The merge tag (R259) -/

def tagGroup (b : List Byte) : Nat := field b 0 2
def tagFormat (b : List Byte) : Nat := field b 2 1
def tagFlags (b : List Byte) : Nat := field b 3 1 % 4
def tagK (b : List Byte) : Nat := field b 4 4
def tagEntries (b : List Byte) : Nat := field b 8 4
def tagSources (b : List Byte) : Nat := field b 0x0C 2

/-- The tag is consistent with a payload of `len` bytes. -/
def tagOk (b : List Byte) (len : Nat) : Bool :=
  keyFormatOk (tagFormat b) && decide (1 ≤ tagK b ∧ tagK b ≤ 4194304 ∧ tagEntries b ≤ tagK b ∧ 1 ≤ tagSources b
    ∧ 16 + tagEntries b * entryBytes (tagFormat b) ≤ len)

/-- The entries of a tagged list. -/
def tagList (b : List Byte) : List SelEntry :=
  let n := entryBytes (tagFormat b)
  (List.range (tagEntries b)).map fun i => readSelEntry (tagFormat b) (b.drop (16 + i * n))

/-- A tagged list's bytes, padded to a multiple of 64 (R358). -/
def taggedBytes (group format flags k sources : Nat) (l : List SelEntry) : List Byte :=
  let b := leBytes 2 group ++ leBytes 1 format ++ leBytes 1 (flags % 4) ++ leBytes 4 k ++ leBytes 4 l.length
    ++ leBytes 2 sources ++ leBytes 2 0 ++ l.flatMap (selEntryBytes format)
  padTo (roundUp b.length 64) b

/-- An untagged output: k entries, those beyond the valid ones with key 0 and an index of all ones (R354). -/
def untaggedBytes (format k : Nat) (l : List SelEntry) : List Byte :=
  (l ++ List.replicate (k - l.length) (0, 2 ^ 64 - 1)).flatMap (selEntryBytes format)

/-! ### Counters (R356, R364) -/

/-- Elements that an engine takes per cycle, as cycles per 16 elements: the rate R(k) of R356. -/
def selRate (k : Nat) : Nat := if k ≤ 64 then 16 else max 1 (1024 / 2 ^ (Nat.log2 (k - 1) + 1))

/-- Busy time in ns of some cycles at 1.6 GHz. -/
def cyclesNs (n : Nat) : Nat := n * 10 / 16

def selBusy (die unit cycles : Nat) (s : State) : State := countSelect die (8 * (unit - 8) + 4) (cyclesNs cycles) s

/-- Cycles of a row (R355, R356). -/
def rowCycles (n k : Nat) : Nat :=
  let r := selRate k
  let p := (n + 65535) / 65536
  (n + r - 1) / r + (if 1 < p then p * min k 65536 / r else 0)

/-! ### Reading the source (R350, R355, R357) -/

/-- The elements of a row's pieces with their indices; a wide index names the unit and the element in it. -/
def rowEntries (format : Nat) : Nat → List (Target × Nat) → List Byte → List SelEntry
  | _, [], _ => []
  | j, (t, n) :: rest, bytes =>
    let kb := keyBytes format
    let cnt := n / kb
    let here := (List.range cnt).map fun i =>
      (field bytes (i * kb) kb, if bit format 6 then
        (match t with | .place pc off => pc.toNat * 2 ^ 32 + (off / kb + i) % 2 ^ 32 | .host _ _ => j + i) else j + i)
    here ++ rowEntries format (j + cnt) rest (bytes.drop (cnt * kb))

/-- Read the row of a SELECT: its entries, or the status of a failure. -/
def readRow (f : Nat) (fr : Frank) (look : Nat → Option Leaf) (b : List Byte) (s : State) : Except Nat (List SelEntry) × State :=
  let a := addrAt b 0x10
  let len := selLen b * keyBytes (selFormat b)
  match pinSpan look a len false with
  | .error e => (.error e, s)
  | .ok ps =>
    let x := readSource f fr look a len s
    match x.1 with
    | .error e => (.error e, x.2)
    | .ok bytes => (.ok (rowEntries (selFormat b) 0 ps bytes), x.2)

/-- Read `n` tagged lists one after another, each from the first 64-byte boundary after the one before (R357): entries and
summed Sources; `tell` counts each list's bytes. -/
def readLists (f : Nat) (fr : Frank) (look : Nat → Option Leaf) (tell : Addr → Nat → State → State) (b : List Byte) :
    Nat → Addr → State → Except Nat (List SelEntry × Nat) × State
  | 0, _, s => (.ok ([], 0), s)
  | n + 1, a, s =>
    let x := readSource f fr look a 16 s
    match x.1 with
    | .error e => (.error e, x.2)
    | .ok tag =>
      let len := 16 + tagEntries tag * entryBytes (tagFormat tag)
      if tagFormat tag ≠ selFormat b ∨ tagFlags tag ≠ selFlags b % 4 ∨ !tagOk tag len then (.error stInvalidDescriptor, x.2)
      else
        let y := readSource f fr look a len x.2
        match y.1 with
        | .error e => (.error e, y.2)
        | .ok bytes =>
          let z := readLists f fr look tell b n { a with off := roundUp (a.off + len) 64 } (tell a len y.2)
          match z.1 with
          | .error e => (.error e, z.2)
          | .ok (l, m) => (.ok (tagList bytes ++ l, tagSources tag + m), z.2)

/-! ### Writing the output (R146, R350, R358) -/

/-- Where the output goes. -/
inductive SelDest where
  | at_ (ps : List (Target × Nat))
  | bad (status : Nat)
  | walk (va : Nat)
  deriving DecidableEq, Repr

/-- In mode 1 a destination is host memory, reached as a COPY reaches it (R146, R170); but only a COPY may fault on a page (R144), so a page
that may not be written is "not translated" (DEDUCED, assumption 90). -/
def selDestFrom (s : State) (r : Nat) (d : Started) : Nat → Nat → Nat → SelDest
  | 0, _, _ => .at_ []
  | fuel + 1, va, len =>
    if len = 0 then .at_ []
    else
      match copyLeaf s r d va with
      | none => .walk va
      | some l =>
        if !l.w then .bad stNotTranslated
        else
          let n := min len (l.va + l.size - va)
          match selDestFrom s r d fuel (va + n) (len - n) with
          | .at_ ps => .at_ ((leafPlace l va, n) :: ps)
          | e => e

def selDest (s : State) (r : Nat) (d : Started) (engine : Postcode) (a : Addr) (len : Nat) : SelDest :=
  if !a.phys ∧ (ringOf s r).mode = 1 then selDestFrom s r { d with engine := engine } (len + 1) a.off len
  else
    match pinSpan (pinLook s r d) a len true with
    | .ok ps => .at_ ps
    | .error e => .bad e

/-- One tagged list in one packet (R358); lead and trail are 0. -/
def mkPartial (engine pc : Postcode) (off tally : Nat) (fr : Frank) (bytes : List Byte) : Pkt :=
  { control := false, op := 0, dest := pc, src := engine, frank := fr, offset := off, tally := tally, partialList := true
    body := bytes }

/-- Write a SELECT's list and let it settle: `used` elements or entries were consumed, `sources` lists merged. -/
def selOutput (r c : Nat) (engine : Postcode) (l : List SelEntry) (sources used : Nat) (s : State) : State :=
  match startedOf s r c with
  | none => s
  | some d =>
    if d.status.isSome then s
    else
    let b := d.bytes
    let dst := addrAt b 0x20
    let tagged := bit (selFlags b) 3
    -- A sum of Sources that the tag's 16 bits cannot hold is left open.
    let src := if tagged && decide (65536 ≤ sources) then freshNat 65536 s else (sources, s)
    let s := src.2
    let bytes := if tagged then taggedBytes (selGroup b) (selFormat b) (selFlags b) (selK b) src.1 l
      else untaggedBytes (selFormat b) (selK b) l
    let went (s : State) : State := descCount r engine dst bytes.length (onStarted r c (fun d => { d with
      acted := true, engine := engine, readsOut := 0, bytesDone := used, result := l.length }) s)
    match selDest s r d engine dst bytes.length with
    | .bad e => endStarted r c e 0 s
    | .walk va => copyWalk r c engine va true s
    | .at_ ps =>
      let inUnit : Bool := ps.all fun p => match p.1 with
        | .place pc off => isSelectUnit pc || memPlaceOk s pc off p.2
        | .host _ _ => true
      if !inUnit then endStarted r c stInvalidPlace 0 s
      else
        match tagged, ps with
        | true, [(.place pc off, _)] =>
          otherCheck r c (copySend r c (mkPartial engine pc off (descTally b) (frankOf s r) bytes) (noteSent r c pc off 0 (went s)))
        | _, _ => otherCheck r c (sendPieces r c engine (descTally b) 0 ps bytes (went s))

/-! ### Merge contexts (R359–R363) -/

def mergesOf (s : State) (die unit : Nat) : List MergeCtx := tget [] (dieOf s die).merges unit
def onMerges (die unit : Nat) (f : List MergeCtx → List MergeCtx) (s : State) : State :=
  onDie die (fun x => { x with merges := tset x.merges unit (f (tget [] x.merges unit)) }) s
def parkOf (s : State) (die unit : Nat) : List Flight := tget [] (dieOf s die).parks unit
def onPark (die unit : Nat) (f : List Flight → List Flight) (s : State) : State :=
  onDie die (fun x => { x with parks := tset x.parks unit (f (tget [] x.parks unit)) }) s

/-- Lists that an engine parks (R362). -/
def parkSize : Nat := 32

/-- A list leaves the park, or finds it full: it is counted and journalled (R362, R365). -/
def parkDiscard (die unit : Nat) (s : State) : State :=
  journalFrom (hubUnit (moduleNumber s) die unit) 0x8FFF 1 1 false [u16 362, u8 unit]
    (countSelect die (8 * (unit - 8) + 2) 1 s)

def parkList (die unit : Nat) (f : Flight) (s : State) : State :=
  if parkSize ≤ (parkOf s die unit).length then parkDiscard die unit s
  else countSelect die (8 * (unit - 8) + 1) 1 (onPark die unit (· ++ [f]) s)

/-- The frank check of a list against its context's ring (R360 step 2). -/
def mergeFrankOk (s : State) (c : MergeCtx) (fr : Frank) : Bool :=
  let g := ringOf s c.ring
  match routeSetOf s g.ctx with
  | some set_ => (tget [] s.fabric.routeSets set_).contains fr.ctx && fr.key == g.key
  | none => false

/-- The context of a group closes: its list goes to the SELECT's destination (R361). -/
def closeContext (die unit : Nat) (c : MergeCtx) (s : State) : State :=
  selOutput c.ring c.count (hubUnit (moduleNumber s) die unit) c.list c.sources c.consumed
    (onMerges die unit (fun l => l.filter fun x => x.group != c.group) s)

/-- Merge one accepted list (R361): it is delivered once merged. -/
def mergeList (die unit : Nat) (c : MergeCtx) (f : Flight) (s : State) : State :=
  let b := f.pkt.body
  let n := tagEntries b
  let c' := { c with
    got := c.got + tagSources b
    consumed := c.consumed + n
    list := bestOf c.format c.flags c.k (c.list ++ tagList b) }
  let s := s |> onMerges die unit (fun l => l.map fun x => if x.group = c.group then c' else x)
    |> countSelect die (8 * (unit - 8)) 1
    |> selBusy die unit (n + c.k)
    |> delivered f.origin f.pkt (writtenBytes f.pkt)
  if c'.got = c'.sources then closeContext die unit c' s else s

/-- A list at a select engine after stage D (R360). A registered list whose run is incomplete is held first (R296). -/
def listArrive (f : Flight) (s : State) : State :=
  let p := f.pkt
  let die := pcDie p.dest
  let unit := pcUnit p.dest
  match (mergesOf s die unit).find? (fun c => c.group == tagGroup p.body) with
  | none => parkList die unit f s
  | some c =>
    if !mergeFrankOk s c p.frank then refuse p 0xFFFF s
    else if tagFormat p.body ≠ c.format ∨ tagFlags p.body ≠ c.flags ∨ c.sources < tagSources p.body then
      deadLetter die 0x11 f.via p s
    else if c.sources < c.got + tagSources p.body then parkList die unit f s
    else if mustHold s die p then onDie die (fun x => { x with holds := x.holds ++ [f] }) s
    else mergeList die unit c f s

/-- A parked list is taken now: its context is open and has room for it, or turns it away for good. -/
def parkedGoes (s : State) (die unit : Nat) (f : Flight) : Bool :=
  match (mergesOf s die unit).find? (fun c => c.group == tagGroup f.pkt.body) with
  | some c => decide (c.got + tagSources f.pkt.body ≤ c.sources) || decide (c.sources < tagSources f.pkt.body)
      || !mergeFrankOk s c f.pkt.frank
  | none => false

/-- Take the parked lists of a group in arrival order (R362); those that still do not fit keep their places. -/
def takeParked (die unit group : Nat) (s : State) : State :=
  updates ((parkOf s die unit).filter fun f => tagGroup f.pkt.body == group) (fun f s =>
    if parkedGoes s die unit f then listArrive f (onPark die unit (eraseFirst (· == f)) s) else s) s

/-- Open a merge context (R359); the lists parked for it join at once (R362). -/
def openContext (r : Nat) (d : Started) (s : State) : State :=
  let b := d.bytes
  let e := pcField b 0x10
  let group := field b 0x18 2
  if contextBusy s e group then s
  else
    let c : MergeCtx := {
      group := group, ring := r, count := d.count, sources := selLen b, k := selK b, format := selFormat b
      flags := selFlags b % 4 }
    s |> onStarted r d.count (fun d => { d with acted := true, engine := e, readsOut := 1 })
      |> onMerges (pcDie e) (pcUnit e) (· ++ [c])
      |> takeParked (pcDie e) (pcUnit e) group

/-- SELECT (R350–R359): select from a row, merge lists from memory, or open a context. -/
def selectStep (r : Nat) (d : Started) (s : State) : State :=
  let b := d.bytes
  let own := moduleNumber s
  if d.acted ∨ d.walk then s
  else if selContext own b then openContext r d s
  else
    let a := addrAt b 0x10
    let look := pinLook s r d
    let f := if descEngine b = noPostcode then sourceFrond s look a (pcDie d.engine) else pcDie d.engine
    let unit := pcUnit d.engine
    let engine := hubUnit own f unit
    let fr := frankOf s r
    if bit (selFlags b) 2 then
      match readLists f fr look (descCount r engine) b (selLen b) a s with
      | (.error e, s) => endStarted r d.count e 0 s
      | (.ok (l, m), s) =>
        selOutput r d.count engine (bestOf (selFormat b) (selFlags b) (selK b) l) m l.length
          (selBusy f unit (l.length / selRate (selK b)) s)
    else
      match readRow f fr look b s with
      | (.error e, s) => endStarted r d.count e 0 s
      | (.ok l, s) =>
        selOutput r d.count engine (bestOf (selFormat b) (selFlags b) (selK b) l) 1 (selLen b)
          (selBusy f unit (rowCycles (selLen b) (selK b)) (descCount r engine a (selLen b * keyBytes (selFormat b)) s))

/-- A SELECT's output goes to host memory (R146): always in mode 1, and where its destination's pin says so. -/
def selToHost (s : State) (r : Nat) (d : Started) : Bool :=
  let a := addrAt d.bytes 0x20
  let g := ringOf s r
  !a.phys && (g.mode == 1 || match pinLook s r d a.off with
    | some l => l.target.isHost
    | none => false)

/-- A descriptor goes on after a walk or a page response. -/
def descResume (r c : Nat) (s : State) : State :=
  match startedOf s r c with
  | none => s
  | some d =>
    if d.acted ∨ d.status.isSome then descProgress r c s
    else match descType d.bytes with
      | 1 => copyStep r c s
      | 3 => selectStep r d s
      | _ => descProgress r c s

/-- A page that a walk did not find: a copy asks the host for it, and nothing else may (R99, R144). -/
def pageMissing (r c va : Nat) (write : Bool) (s : State) : State :=
  match startedOf s r c with
  | none => s
  | some d => if descType d.bytes = 1 then pageFault r c va write s else endStarted r c stNotTranslated 0 s

/-! ### Time limits (R362, R363) -/

def onSelectEngine (die engine : Nat) (f : State → State) (s : State) : Res :=
  if 84 ≤ die ∨ 2 ≤ engine then .next s else .next (f s)

/-- PARK_EXPIRY (R362): the `index`-th parked list of an engine. -/
def execParkExpiry (die engine index : Nat) (s : State) : Res :=
  onSelectEngine die engine (fun s =>
    if index < (parkOf s die (8 + engine)).length then
      parkDiscard die (8 + engine) (onPark die (8 + engine) (fun l => l.eraseIdx index) s)
    else s) s

/-- MERGE_CONTEXT_EXPIRY (R363). -/
def execMergeContextExpiry (die engine group : Nat) (s : State) : Res :=
  onSelectEngine die engine (fun s =>
    match (mergesOf s die (8 + engine)).find? (fun c => c.group == group) with
    | none => s
    | some c =>
      s |> onMerges die (8 + engine) (fun l => l.filter fun x => x.group != group)
        |> countSelect die (8 * engine + 3) 1
        |> onStarted c.ring c.count (fun d => { d with readsOut := 0 })
        |> endStarted c.ring c.count stReturn ((hubUnit (moduleNumber s) die (8 + engine)).toNat + c.got * 2 ^ 32)) s

end Sys2Proof.Machine
end

