-- ==== Sys2Proof/Machine/Delivery.lean ====
section
/-! DEFINITION. Packets at their destination die (R150, R153, R183, R190–R192, R255–R266, R285, R293–R303, R323, R452): stage D,
then what each operation and each control opcode does. -/

namespace Sys2Proof.Machine

/-! ### Stage D (R264) -/

/-- The part of stage D that needs no payload: a packet whose authentication fails is checked as far as its header goes. -/
def stageDHeader (p : Pkt) : Option Nat :=
  let sel := decide (pcDie p.dest < 84) && (pcUnit p.dest == 8 || pcUnit p.dest == 9)
  if !acceptsData p.dest p.op p.partialList then some 0x0E
  else if p.tally ≠ 0xFFFF ∧ (p.op = 1 ∨ p.op = 2 ∨ p.op = 4 ∨ tallyCount (pcDie p.dest) ≤ p.tally) then some 0x0F
  else if p.op = 0 ∧ (if sel then 0x10000 ≤ p.offset else unitSize p.dest < offsetEnd p 0) then some 0x10
  else none

/-- The rules on a request's tag and length that ciphertext hides from stage B (R257). -/
def openedBad (p : Pkt) : Option Nat :=
  if p.op = 1 ∧ 2 ^ 48 ≤ field p.body 8 8 then some 0x04
  else if p.op = 3 ∧ 2 ^ 48 ≤ field p.body 0x18 8 then some 0x04
  else if p.op = 1 ∧ (field p.body 0 2 < 1 ∨ 4096 < field p.body 0 2) then some 0x06
  else none

/-- Bytes an atomic touches. -/
def atomicBytes (p : Pkt) : Nat := field p.body 1 1

/-- Accept a packet at its destination die, opened; or the reason it is dead-lettered. -/
def accept (s : State) (p : Pkt) : Except Nat Pkt :=
  let p := stripTunnel p
  if p.control then
    match stageD p 0 true with
    | some r => .error r
    | none => .ok p
  else
    match stageDHeader p, openPkt s p with
    | some r, _ => .error r
    | none, none => .error 0x12
    | none, some q =>
      match (if p.encrypted then openedBad q else none), stageD q (atomicBytes q) (tagOk q.body q.body.length) with
      | some r, _ => .error r
      | none, some r => .error r
      | none, none => .ok q

/-! ### Requests that come to nothing -/

/-- A request given by its tag was refused, or discarded at a retired tile or fenced frond. R162 lists no reason for a descriptor fetch that
comes to nothing this way; it takes reason 0x02, that of a fetch without usable data (DESIGN CHOICE, assumption 91). -/
def tagFailed (n : Nat) (refused : Bool) (place : Postcode) (s : State) : State :=
  match tfind s.fabric.tags n with
  | none => s
  | some t =>
    let s := readReturned (2 ^ 20 + n) (takeTag n s)
    match t with
    | .copy r c pos _ _ _ =>
      if refused then copyFail r c stFrank (onStarted r c (fun d => { d with
        bytesDone := if d.status.isSome then d.bytesDone else pos }) s)
      else returnToSender r c place s
    | .atomic r c _ =>
      if refused then endStarted r c stFrank 0 (onStarted r c (fun d => { d with readsOut := 0, bytesDone := 0 }) s)
      else returnToSender r c place s
    | .fetch r first m => fetchData r first m false [] s
    | .load h _ _ _ => cancelLoad h (if refused then eNotPermitted else eTimeout) 344 s
    | .stream l _ _ _ => if refused then faultLaunch l (match launchOf s l with | some x => (launchRange s x).1 | none => 0) lfRefused s
        else endLaunch l stReturn place.toNat s
    | .hop h _ _ => if refused then hopRefused h place s else (match hopOf s h with
        | some x => sendRelayDone x.engine x.issuer x.frank x.relayId 2 place (relayedBytes s x.issuer x.relayId) (dropHop h s)
        | none => s)
    | .args l => endLaunch l (if refused then stFrank else stReturn) (if refused then 0 else place.toNat) s
    | .operand l => faultLaunch l (match launchOf s l with | some x => (launchRange s x).1 | none => 0) lfRefused s
    | .image lb _ _ => postWaiting lb 0x0301 (if refused then eNotPermitted else eTimeout) [] s

/-- The tag that a request carries (R257). -/
def requestTag (p : Pkt) : Nat := if p.op = 1 then field p.body 8 8 else field p.body 0x18 8

/-- A frond controller reports a discarded request to the issuing engine on its own module (R264); another module learns by
its timer. -/
def discardReport (o : Origin) (p : Pkt) (s : State) : State :=
  match o with
  | .ring r c => if p.op = 0 then returnToSender r c p.dest s else tagFailed (requestTag p) false p.dest s
  | .launch l | .stream l => endLaunch l stReturn p.dest.toNat s
  | .load h _ => cancelLoad h eTimeout 344 s
  | .hop h => (match hopOf s h with
      | some x => sendRelayDone x.engine x.issuer x.frank x.relayId 2 p.dest (relayedBytes s x.issuer x.relayId) (dropHop h s)
      | none => s)
  | _ => if pcModule p.src = moduleNumber s ∧ p.op = 1 then tagFailed (requestTag p) false p.dest s
      else if p.control ∧ p.op = 3 ∧ pcModule p.src = moduleNumber s then
        -- a TALLY_SET: the descriptor that awaits its acknowledgement
        updates s.rings (fun e s => updates (e.2.started.filter fun d => descType d.bytes == 7 && d.acted && d.status.isNone
          && d.engine == p.src && frankOf s e.1 == p.frank && descTally d.bytes == ctlArg p 0x18 2 && tallySetDest s (pcField d.bytes 0x10) == p.dest)
          (fun d s => returnToSender e.1 d.count p.dest s) s) s
      else s

/-! ### The frame of the delivery rows -/

/-- A row that takes a packet which has reached its destination die's output (R264): whatever the row, a packet that fails
stage D is dead-lettered and one for a retired tile or fenced frond is discarded; another is acted on by the row of its own
kind, with the packet opened. -/
def onArrival (kind : Pkt → Bool) (f : Flight → State → State) (pid : Nat) (s : State) : Res :=
  match flightOf s pid with
  | none => .next s
  | some x =>
    match x.loc with
    | .eject d =>
      match accept s x.pkt with
      | .error r => .next (deadLetter d r x.via x.pkt (dropFlight pid s))
      | .ok p =>
        if !kind p then .next s
        else
          let s := dropFlight pid s
          match discardIndex s p.dest with
          | some i => .next (discardReport x.origin p (countDie d i 1 s))
          | none => .next (f { x with pkt := p } s)
    | _ => .next s

def isData (op : Nat) (p : Pkt) : Bool := !p.control && p.op == op
def isControl (op : Nat) (p : Pkt) : Bool := p.control && p.op == op
def toSelect (p : Pkt) : Bool := decide (pcDie p.dest < 84) && (pcUnit p.dest == 8 || pcUnit p.dest == 9)

/-! ### Writes, atomics and what they hold up -/

/-- The right that a packet needs at its lock (R190); a load's write needs W as any other (DEDUCED, assumption 23). -/
def rightOf (p : Pkt) : Nat :=
  match p.op with
  | 0 => rightWrite
  | 1 => rightRead
  | _ => rightAtomic

/-- The range of its unit that a request touches. -/
def touched (p : Pkt) : Nat × Nat :=
  match p.op with
  | 0 => (p.offset + p.lead, writtenBytes p)
  | 1 => (p.offset, field p.body 0 2)
  | _ => (p.offset, max 1 (atomicBytes p))

/-- Poison of a payload by byte (R260). -/
def bytePoison (p : Pkt) : List Bool :=
  match p.poison with
  | none => []
  | some m => (List.range p.body.length).map fun i => bit m.toNat (i / 64)

/-- Write a packet's bytes, and deliver it. -/
def writePacket (f : Flight) (s : State) : State :=
  let p := f.pkt
  let n := writtenBytes p
  delivered f.origin p n
    (writeMem p.dest (p.offset + p.lead) ((p.body.drop p.lead).take n) (((bytePoison p).drop p.lead).take n) s)

/-- Perform an atomic, answer it, and settle it in its run (R257, R296, R301). -/
def atomicPacket (f : Flight) (s : State) : State :=
  let p := f.pkt
  let x := atomicPerform p s
  let body := padTo 64 (leBytes 8 x.2.1 ++ leBytes 1 x.1)
  let s := if x.1 = 0 then delivered f.origin p (atomicBytes p) x.2.2
    else localDone f.origin p 0 (settleRun (pcDie p.dest) p x.2.2)
  sendSealed (mkResponse p 4 (field p.body 0x18 8) 0 body none) .none s

/-- A packet past its lock check: a registered one waits for its run (R296). -/
def holdOr (f : Flight) (go : State → State) (s : State) : State :=
  let d := pcDie f.pkt.dest
  if mustHold s d f.pkt then onDie d (fun x => { x with holds := x.holds ++ [f] }) s else go s

/-- Deliver a held packet by its kind. -/
def deliverHeld (f : Flight) (s : State) : State :=
  if toSelect f.pkt then listArrive f s else if f.pkt.op = 3 then atomicPacket f s else writePacket f s

/-- Deliver the held packets of a die whose runs are complete. -/
def releaseHolds (d : Nat) : Nat → State → State
  | 0, s => s
  | n + 1, s =>
    match (dieOf s d).holds.find? (fun f => !mustHold s d f.pkt) with
    | none => s
    | some f => releaseHolds d n (deliverHeld f (onDie d (fun x => { x with holds := eraseFirst (· == f) x.holds }) s))

/-- Every die that a delivery may have settled a packet at. -/
def settled (d : Nat) (s : State) : State := releaseHolds d 65 s

/-- The lock check of a request (R190). -/
def locked (f : Flight) (go : State → State) (s : State) : State :=
  let t := touched f.pkt
  match lockCheck s f.pkt.dest t.1 t.2 f.pkt.frank (rightOf f.pkt) with
  | some l => refuse f.pkt l s
  | none => go s

/-- DATA_PACKET_DELIVERY (R293). -/
def execDataPacketDelivery (pid : Nat) (s : State) : Res :=
  onArrival (fun p => isData 0 p && !toSelect p)
    (fun f s => settled (pcDie f.pkt.dest) (locked f (holdOr f (writePacket f)) s)) pid s

/-- ATOMIC_PACKET (R301). -/
def execAtomicPacket (pid : Nat) (s : State) : Res :=
  onArrival (isData 3) (fun f s => settled (pcDie f.pkt.dest) (locked f (holdOr f (atomicPacket f)) s)) pid s

/-- PARTIAL_LIST_ARRIVAL (R360). -/
def execPartialListArrival (pid : Nat) (s : State) : Res :=
  onArrival (fun p => isData 0 p && toSelect p) (fun f s => settled (pcDie f.pkt.dest) (listArrive f s)) pid s

/-- SELECT (R355). -/
def execSelect (ring count : Nat) (s : State) : Res :=
  onDesc ring count 3 (fun d s => settled (pcDie d.engine) (selectStep ring d s)) s

/-- HOLD_DISCARD (R299): the `index`-th held packet of a die; its run's count stays (DEDUCED). -/
def execHoldDiscard (die index : Nat) (s : State) : Res :=
  if !isDie die then .next s
  else
    match (dieOf s die).holds[index]? with
    | none => .next s
    | some f =>
      .next (s |> onDie die (fun x => { x with holds := x.holds.eraseIdx index })
        |> countDie die 3 1
        |> journalFrom (dieCtlPc (moduleNumber s) die) 0x8001 1 1 false [u32 f.pkt.src.toNat, u32 f.pkt.reg])

/-! ### Read requests and responses (R257) -/

/-- A read request past its checks: its data goes back to the requesting engine. -/
def readPacket (f : Flight) (s : State) : State :=
  let p := f.pkt
  let n := field p.body 0 2
  let x := readMem p.dest p.offset n s
  let len := roundUp n 64
  sendSealed (mkResponse p 2 (field p.body 8 8) (len - n) (padTo len x.1) (poisonMask x.2.1)) .none
    (settleRun (pcDie p.dest) p x.2.2)

/-- READ_REQUEST_PACKET (R257). -/
def execReadRequestPacket (pid : Nat) (s : State) : Res :=
  onArrival (isData 1) (fun f s => settled (pcDie f.pkt.dest) (locked f (readPacket f) s)) pid s

/-- A descriptor still waits for the response of a tag; a launch, load or command looks for itself. -/
def tagAwaited (s : State) : TagFor → Bool
  | .copy r c _ _ _ _ => (match startedOf s r c with | some d => d.status.isNone | none => false)
  | .atomic r c _ => (match startedOf s r c with | some d => d.status.isNone && d.readsOut != 0 | none => false)
  | _ => true

/-- The ring of a tag has been freed (counter 5 of group 0x0800). -/
def tagRingFree (s : State) : TagFor → Bool
  | .copy r _ _ _ _ _ | .atomic r _ _ | .fetch r _ _ => (ringOf s r).state == .free && decide (r < 1024)
  | _ => false

/-- Count a response that nothing waits for (R257). -/
def lateResponse (p : Pkt) (t : Option TagFor) (s : State) : State :=
  countDie (pcDie p.dest) (match t with | some t => if tagRingFree s t then 5 else 2 | none => 2) 1 s

/-- The data of a read goes to whatever asked for it. -/
def readData (t : TagFor) (bytes : List Byte) (bad : List Bool) (s : State) : State :=
  let any := bad.any id
  match t with
  | .copy r c pos len src dst => copyData r c pos len src dst bytes bad s
  | .atomic _ _ _ => s
  | .fetch r first n => fetchData r first n (!any) bytes s
  | .load h record pos _ => loadData h record pos bytes bad s
  | .stream l record pos _ => streamData l record pos bytes bad s
  | .hop h pos _ => hopData h pos bytes bad s
  | .args l => argsData l bytes any s
  | .operand l => operandData l any false s
  | .image lb pos _ => imageData lb pos bytes any s

/-- A read response at its engine. -/
def responseArrive (p : Pkt) (s : State) : State :=
  match tfind s.fabric.tags p.offset with
  | none => lateResponse p none s
  | some t =>
    let aw := tagAwaited s t
    let s := readReturned (2 ^ 20 + p.offset) (takeTag p.offset s)
    if !aw ∨ tagRingFree s t then lateResponse p (some t) s
    else
      let n := p.body.length - p.trail
      readData t (p.body.take n) ((bytePoison p).take n) s

/-- READ_RESPONSE_PACKET (R257). -/
def execReadResponsePacket (pid : Nat) (s : State) : Res := onArrival (isData 2) (fun f s => responseArrive f.pkt s) pid s

/-- An atomic response at its ring engine (R153). -/
def atomicResponse (p : Pkt) (s : State) : State :=
  let status := field p.body 8 1
  match tfind s.fabric.tags p.offset with
  | some (.atomic r c dest) =>
    let s := takeTag p.offset s
    if tagAwaited s (.atomic r c dest) then
      match startedOf s r c with
      | none => s
      | some d =>
        let s := onStarted r c (fun d => { d with readsOut := 0 }) s
        match status with
        | 0 => otherCheck r c (onStarted r c (fun d => { d with result := if atomicFetch d.bytes then field p.body 0 8 else 0 }) s)
        | 1 =>
          -- The response stands for the receipt that a registered atomic not performed does not earn (DEDUCED).
          let s := if d.receipts.isEmpty then s else receiptArrived r p.src s
          endStarted r c stPoisoned 0 (onStarted r c (fun x => { x with held := [], bytesDone := 0 }) s)
        | _ => returnToSender r c dest s
    else
      let s := lateResponse p (some (.atomic r c dest)) s
      if status ≠ 0 then journalFrom p.dest 0x5FFF 1 1 false [u16 153, u16 r, u32 p.src.toNat, u8 status] s else s
  | _ => lateResponse p none s

/-- ATOMIC_RESPONSE_PACKET (R153). -/
def execAtomicResponsePacket (pid : Nat) (s : State) : Res := onArrival (isData 4) (fun f s => atomicResponse f.pkt s) pid s

/-! ### Receipts and refusals (R154, R191) -/

/-- RECEIPT (R154). -/
def execReceipt (pid : Nat) (s : State) : Res :=
  onArrival (isControl 0x01) (fun f s =>
    let p := f.pkt
    let r := regRing (ctlArg p 0x18 4)
    if !regValid (ctlArg p 0x18 4) then s
    else if (ringOf s r).state = .free then countDie (pcDie p.dest) 5 1 s
    else ringProgress r (receiptArrived r p.src s)) pid s

/-- The descriptor whose write packet was refused, by ring and count, and its Bytes done: the bytes that passed before the packet, or for a
SELECT the elements consumed (R156, R158). The notice names the frank, the place, the offset and, on a ring, the run. -/
def refusedWrite (s : State) (p : Pkt) : Option (Nat × Nat × Nat) :=
  let reg := ctlArg p 0x18 4
  let off := ctlArg p 0x20 6
  s.rings.findSome? fun e =>
    if (if regValid reg then e.1 != regRing reg else decide (e.1 < 1024)) || frankOf s e.1 != p.frank then none
    else e.2.started.findSome? fun d =>
      if d.engine ≠ p.dest then none
      else
        (d.sentAt.find? fun q => q.pc == p.src && q.off == off && (!regValid reg || q.run == some (regRun reg))).map fun q =>
          (e.1, d.count, if descType d.bytes = 3 then d.bytesDone else q.pos)

/-- A tag's ring is the one that a refused request names, under its frank. -/
def refusedRing (s : State) (p : Pkt) (r : Nat) : Bool :=
  let reg := ctlArg p 0x18 4
  (if regValid reg then r == regRing reg else decide (1024 ≤ r)) && frankOf s r == p.frank

/-- The tag of a refused read or atomic. -/
def refusedTag (s : State) (p : Pkt) : Option Nat :=
  let off := ctlArg p 0x20 6
  (s.fabric.tags.find? fun e => match e.2 with
    | .copy r c _ n (.place pc o) dst => refusedRing s p r && pc == p.src
        && (match startedOf s r c with | some d => d.engine == p.dest | none => true) && decide ((readSpan s (ringOf s r).key (.place pc o) dst o n).1 = off)
    | .atomic r c pc => refusedRing s p r && pc == p.src && (match startedOf s r c with
        | some d => (match atomicTarget s r d with | .ok q => q.2 == off | .error _ => true)
        | none => false)
    | .hop h pos _ => (match hopOf s h with
        | some x => x.previous == p.src && decide (x.offset + x.chunk + pos = off)
        | none => false)
    | .load h record pos _ => (match phOf s h with
        | some q => (match imageOf s q with
          | some i => (match recordPiece (moduleNumber s) i q record pos with
            | some (.place pc o, .place dpc doff, n) =>
              pc == p.src && decide ((readSpan s i.key (.place pc o) (.place dpc doff) o n).1 = off)
            | _ => false)
          | none => false)
        | none => false)
    | .stream l _ _ _ => (match launchOf s l with
        | some x => (match phOf s x.ph with | some q => q.source.pc == p.src | none => false)
        | none => false)
    | .fetch r _ _ => frankOf s r == p.frank
    | .args l => (match launchOf s l with | some x => frankOf s x.ring == p.frank | none => false)
    | .operand l => (match launchOf s l with
        | some x => (match phOf s x.ph with
          | some q => (match imageOf s q with | some i => imageFrank i == p.frank | none => false)
          | none => false)
        | none => false)
    | .image lb _ _ => p.frank.ctx == arg 0x0301 (cmdArgs (lbOf s lb)) 1
    | _ => false).map Prod.fst

/-- Count and journal a refusal for a descriptor that has settled (R191). -/
def lateRefusal (p : Pkt) (s : State) : State :=
  journalFrom p.dest 0x5004 1 1 false [u32 p.frank.ctx, u8 p.frank.key, u16 (ctlArg p 0x1E 2)] (countDie (pcDie p.dest) 1 1 s)

/-- The launch, load or hop of this module whose write without a ring was refused. -/
def refusedOther (p : Pkt) (s : State) : State :=
  match s.fabric.hops.find? (fun e => e.2.engine == p.dest && e.2.place == p.src) with
  | some e => hopRefused e.1 p.src s
  | none =>
    match s.res.launches.find? (fun e => e.2.running && (match phOf s e.2.ph with
        | some q => (match imageOf s q with | some i => imageFrank i == p.frank | none => false)
        | none => false)) with
    | some e => faultLaunch e.1 (launchRange s e.2).1 lfRefused s
    | none =>
      match s.res.phs.find? (fun e => e.2.state == .loading && (match imageOf s e.2 with
          | some i => imageFrank i == p.frank | none => false)) with
      | some e => cancelLoad e.1 eNotPermitted 344 s
      | none => lateRefusal p s

/-- The TALLY_SET descriptor, by ring and count, that awaits a packet from its controller under its frank (R150, R255): the
first by ring and count, since a REFUSAL names no tally. -/
def tallySetter (s : State) (p : Pkt) (q : Started → Bool) : Option (Nat × Nat) :=
  s.rings.findSome? fun e => (e.2.started.find? fun d => descType d.bytes == 7 && d.acted && d.status.isNone && frankOf s e.1 == p.frank
    && d.engine == p.dest && q d && tallySetDest s (pcField d.bytes 0x10) == p.src).map fun d => (e.1, d.count)

/-- A REFUSAL at the issuing engine (R191). -/
def refusalArrive (p : Pkt) (s : State) : State :=
  let op := ctlArg p 0x1C 1
  if op = 0x83 then
    match tallySetter s p (fun _ => true) with
    | some (r, c) => endStarted r c stFrank 0 (onStarted r c (fun d => { d with readsOut := 0 }) s)
    | none => lateRefusal p s
  else if op = 1 ∨ op = 3 then
    match refusedTag s p with
    | some n =>
      (match tfind s.fabric.tags n with
       | some t => if tagAwaited s t then tagFailed n true p.src s else lateRefusal p (takeTag n s)
       | none => s)
    | none => lateRefusal p s
  else
    match refusedWrite s p with
    | some (r, c, pos) =>
      (match startedOf s r c with
       | some d => if d.status.isSome then lateRefusal p s
           else endStarted r c stFrank 0 (onStarted r c (fun d => { d with bytesDone := pos }) s)
       | none => s)
    | none => if regValid (ctlArg p 0x18 4) then lateRefusal p s else refusedOther p s

/-- REFUSAL (R191). -/
def execRefusal (pid : Nat) (s : State) : Res := onArrival (isControl 0x02) (fun f s => refusalArrive f.pkt s) pid s

/-! ### TALLY_SET (R150, R192) -/

/-- A die grants a TALLY_SET to a frank: a frond by a valid lock with W, an edge die by a route set that holds the context. -/
def tallySetAllowed (s : State) (d : Nat) (fr : Frank) : Bool :=
  if d < 84 then
    (List.range 368).any fun i => !(dieOf s d).badLocks.contains i && lockPasses s (lockOf s d i) fr rightWrite
  else (routeSetOf s fr.ctx).isSome

/-- TALLY_SET_PACKET (R150). -/
def execTallySetPacket (pid : Nat) (s : State) : Res :=
  onArrival (isControl 0x03) (fun f s =>
    let p := f.pkt
    let d := pcDie p.dest
    if tallySetAllowed s d p.frank then
      sendControl (mkControl 0x04 p.src p.dest p.frank [(0x18, u16 (ctlArg p 0x18 2))])
        (tallySet d (ctlArg p 0x18 2) (ctlArg p 0x20 8) (ctlArg p 0x28 4) s)
    else refuse p 0xFFFF s) pid s

/-- TALLY_SET_ACK (R150). -/
def execTallySetAck (pid : Nat) (s : State) : Res :=
  onArrival (isControl 0x04) (fun f s =>
    let p := f.pkt
    match tallySetter s p (fun d => descTally d.bytes == ctlArg p 0x18 2) with
    | some (r, c) => endStarted r c stOk 0 (onStarted r c (fun d => { d with readsOut := 0 }) s)
    | none => countDie (pcDie p.dest) 2 1 s) pid s

/-! ### Management opcodes (R255) -/

/-- The packet has reached the acting postmaster; the standby and other management processors consume their copies. -/
def atPostmaster (s : State) (p : Pkt) : Bool := pcDie p.dest == 96 + postEdge s && pcUnit p.dest == 5

/-- PH_STOP_PACKET (R452). -/
def execPhStopPacket (pid : Nat) (s : State) : Res :=
  onArrival (isControl 0x05) (fun f s =>
    let p := f.pkt
    let h := ctlArg p 0x18 2
    if pcDie p.dest < 84 then stopAtFrond (pcDie p.dest) h p.src p.dest s
    else if atPostmaster s p then stopSend (2 ^ 32 + p.src.toNat) h s
    else s) pid s

/-- PH_STOP_DONE (R255). -/
def execPhStopDone (pid : Nat) (s : State) : Res :=
  onArrival (isControl 0x06) (fun f s =>
    if atPostmaster s f.pkt then stopDone f.pkt.src (ctlArg f.pkt 0x18 2) (ctlArg f.pkt 0x1C 4) s else s) pid s

/-- INVALIDATE (R183): the acting postmaster invalidates and answers; a module that does not hold the context answers at
once. -/
def execInvalidate (pid : Nat) (s : State) : Res :=
  onArrival (isControl 0x07) (fun f s =>
    let p := f.pkt
    let ctx := ctlArg p 0x18 4
    if !atPostmaster s p then s
    else
      match tfind s.xlat.ctxs ctx with
      | none => sendControl (mkControl 0x08 p.src p.dest {} [(0x18, u32 ctx)]) s
      | some _ => settleWaits (beginInvalidate (.remote p.src ctx) ctx (ctlArg p 0x20 8) (ctlArg p 0x28 8) false s)) pid s

/-- A module has answered a broadcast. -/
def broadcastAnswer (m ctx : Nat) (s : State) : State :=
  match s.post.lbs.find? (fun e => waitingOn s e.1 0x0205 && arg 0x0205 (cmdArgs e.2) 0 == ctx && e.2.waitingFor.contains m) with
  | none => s
  | some e =>
    let left := e.2.waitingFor.filter (· != m)
    let s := onLb e.1 (fun l => { l with waitingFor := left }) s
    if left.isEmpty then postWaiting e.1 0x0205 0 [] s else s

/-- INVALIDATE_DONE (R183). -/
def execInvalidateDone (pid : Nat) (s : State) : Res :=
  onArrival (isControl 0x08) (fun f s =>
    if atPostmaster s f.pkt then broadcastAnswer (pcModule f.pkt.src) (ctlArg f.pkt 0x18 4) s else s) pid s

/-- RELAY (R285). -/
def execRelay (pid : Nat) (s : State) : Res :=
  onArrival (isControl 0x20) (fun f s => relayStep f.pkt.dest (readRelay f.pkt) s) pid s

/-- RELAY_DONE (R285). -/
def execRelayDone (pid : Nat) (s : State) : Res := onArrival (isControl 0x21) (fun f s => relayDone f.pkt s) pid s

/-- STEWARD_IRQ (R323). -/
def execStewardIrq (pid : Nat) (s : State) : Res :=
  onArrival (isControl 0x30) (fun f s =>
    let p := f.pkt
    let c := 4 * (pcDie p.dest - 96) + pcTile p.dest
    let v := ctlArg p 0x18 2
    let x := ctlArg p 0x20 8
    emit (.stewardInterrupt c v x) (onSteward c (fun y => { y with irqVector := v, irqPayload := x, irqPending := true }) s)) pid s

end Sys2Proof.Machine
end

