-- ==== Sys2Proof/Machine/HotPages.lean ====
section
/-! DEFINITION. Hot-page reports (R200, R201): the windows, what each reports, and the entries as the ring's array takes them. -/

namespace Sys2Proof.Machine

/-- The target of a range as the report gives it: 0 host, 1 this module, 2 elsewhere. -/
def hotTarget (s : State) (ctx va : Nat) : Nat :=
  let l := s.xlat.units.findSome? fun e => translate s e.1 ctx va
  match (match l with | some l => some l | none => pinLookup s ctx va) with
  | some l => (match l.target with
    | .host _ _ => 0
    | .place pc _ => if pcModule pc = moduleNumber s then 1 else 2)
  | none => 0

/-- A report entry's 32 bytes (R201). -/
def hotEntry (s : State) (h : HotPage) (g : Ring) (e : HotDue) : List Byte :=
  leBytes 4 h.reports ++ leBytes 2 0 ++ leBytes 1 0x80 ++ leBytes 1 ((g.cqWritten / max 1 g.cqEntries + 1) % 2)
    ++ leBytes 8 (e.range * 2 ^ 21) ++ leBytes 8 (e.units * 64)
    ++ leBytes 8 (hotTarget s h.ctx (e.range * 2 ^ 21) + 4 * (e.skipped % 2 ^ 16) + 2 ^ 18 * e.window)

/-- Counts summed over the units, by range. -/
def hotSums (h : HotPage) : Tab Nat :=
  h.counts.foldl (fun t e => tset t (e.1 / 128) (tget 0 t (e.1 / 128) + e.2)) []

/-- A ring can take reports (R201): its function's, configured and never started. -/
def hotRing (g : Ring) (owner : Nat) : Bool := g.owner == owner && g.state == .stopped && !g.ran

/-- Write the entries that a configuration owes, oldest first. While the function may not issue requests they wait (R100); where the array's
page is not cached they wait for its walk, and a page that cannot be written is the ring's error 0x03 (R136, R162). -/
def hotWrite (i : Nat) : Nat → State → State
  | 0, s => s
  | n + 1, s =>
    match s.xlat.hot[i]? with
    | none => s
    | some h =>
      match h.due with
      | [] => s
      | e :: rest =>
        let g := ringOf s h.ring
        if !hotRing g h.owner ∨ !mayIssue (fnOf s h.owner) then s
        else
          match writeArray h.ring (hotEntry s h g e) false s with
          | some s => hotWrite i n (onXlat (fun x => { x with hot := x.hot.set i { h with due := rest, reports := m32 (h.reports + 1) } }) s)
          | none =>
            let va := g.cqBase + 32 * (g.cqWritten % max 1 g.cqEntries)
            match ringResolve s h.ring va true with
            | some none => ringError h.ring 3 s
            | _ => (ringWalk h.ring va (.settle h.ring) s).getD s

/-- Write what every configuration of a report ring owes. -/
def hotFlush (r : Nat) (s : State) : State :=
  updates (List.range s.xlat.hot.length) (fun i s => match s.xlat.hot[i]? with
    | some h => if h.ring = r then hotWrite i h.due.length s else s
    | none => s) s

/-- Entries that the configurations of a ring owe it. -/
def hotOwed (s : State) (r : Nat) : Nat := s.xlat.hot.foldl (fun n h => if h.ring = r then n + h.due.length else n) 0

/-- The end of a window (R201): one entry for each range at or above the threshold, the largest count first, at most 256. A window whose
entries the array has no room for, or whose ring is no longer a report ring, writes none and is skipped (assumption 94). -/
def windowEnd (k ctx : Nat) (s : State) : State :=
  match s.xlat.hot.findIdx? (fun h => h.owner == k && h.ctx == ctx) with
  | none => s
  | some i =>
    match s.xlat.hot[i]? with
    | none => s
    | some h =>
      let g := ringOf s h.ring
      let hot := (sortBy (fun a b => decide (b.2 < a.2)) ((hotSums h).filter fun e => decide (h.threshold ≤ e.2))).take 256
      let due : List HotDue := ((List.range hot.length).zip hot).map fun ne =>
        { range := ne.2.1, units := ne.2.2, skipped := if ne.1 = 0 then h.skipped else 0, window := h.windowNo }
      let next (skipped : Nat) (due : List HotDue) (s : State) : State := onXlat (fun x => { x with hot := x.hot.set i { h with
        windowNo := h.windowNo + 1, counts := [], perUnit := [], skipped := skipped, due := h.due ++ due } }) s
      if h.windowMs = 0 ∨ h.threshold = 0 then s
      else if due.isEmpty then next h.skipped [] s
      else if !hotRing g h.owner ∨ g.cqEntries < sub32 g.cqWritten g.cqConsumed + hotOwed s h.ring + due.length then next (h.skipped + 1) [] s
      else hotFlush h.ring (next 0 due s)

end Sys2Proof.Machine
end

