-- ==== Sys2Proof/Machine/Walks.lean ====
section
/-! DEFINITION. Walks of the translation units and what waits for them (R99, R148, R162, R167, R172, R175–R180), the windows of
hot-page counting (R201), and the end of a broadcast (R183). -/

namespace Sys2Proof.Machine

/-! ### The end of a walk -/

/-- The status of a copy whose walk's table read failed, or was stopped by Bus Master Enable (R100, R108). -/
def walkStatus : WalkEnd → Nat
  | .aborted => stAborted
  | _ => stHostBus

/-- What one requester does with the result. -/
def walkAnswer (ctx : Nat) (e : WalkEnd) (q : WalkFor) (s : State) : State :=
  match q with
  | .copy r c va write prefetch =>
    if prefetch then s
    else
      match startedOf s r c with
      | none => s
      | some _ =>
        let s := onStarted r c (fun d => { d with walk := false }) s
        (match e with
         | .hit l =>
           descResume r c (if (ringOf s r).mode = 2 then onStarted r c (fun d => { d with leaves := l :: d.leaves }) s else s)
         | .miss => pageMissing r c va write s
         | e => endStarted r c (walkStatus e) 0 s)
  | .ahead r c va => aheadAnswer r c va e s
  | .fetch r =>
    let s := onRing r (fun g => { g with fetching := false }) s
    (match e with
     | .hit _ => s
     | .hostError true => ringError r 2 s
     | .aborted => s
     | _ => ringError r 1 s)
  | .settle r =>
    (match e with
     | .hit _ => hotFlush r s
     | .aborted => s
     | _ => ringError r 3 s)
  | .pin lb => pinResult lb e s
  | .refresh id va => refreshResult id va ctx e s
  | .args l =>
    (match e with
     | .hit _ => argsNext l s
     | .miss => endLaunch l stNotTranslated 0 s
     | e => endLaunch l (walkStatus e) 0 s)

/-- The frond units whose copy engines asked for an ATS result keep it too (R170). -/
def shareAts (w : Walk) (l : Leaf) (s : State) : State :=
  if !w.ats then s
  else updates w.requesters (fun q s => match q with
    | .copy r c _ _ _ => (match startedOf s r c with
      | some d => if pcDie d.engine < 84 then installLeaf (pcDie d.engine) l s else s
      | none => s)
    | _ => s) s

/-- A walk has its result: the leaf is installed, the walk leaves the unit and its requesters go on. A miss, and a leaf that a
discarded walk found, install nothing (R175, R176). -/
def walkFinish (d n : Nat) (e : WalkEnd) (s : State) : State :=
  match tfind (unitOf s d).walks n with
  | none => s
  | some w =>
    let s := onUnit d (fun u => { u with walks := terase u.walks n }) s
    let s := match e with | .hit l => shareAts w l (installLeaf d l s) | _ => s
    updates w.requesters (walkAnswer w.ctx e) s

/-- A walk that has moved on, with its result when it has one. -/
def walkMoved (d n : Nat) (x : State × Option WalkEnd) : State :=
  match x.2 with
  | some e => walkFinish d n e x.1
  | none => x.1

/-- The walker of a unit that a walk holds: the oldest walks have them, the others queue (R175). -/
def hasWalker (s : State) (d n : Nat) : Bool :=
  (((unitOf s d).walks.map Prod.fst).take (walkers d)).contains n

/-- TABLE_WALK (R175). -/
def execTableWalk (unit walk : Nat) (s : State) : Res :=
  if !isDie unit then .next s
  else .next (walkMoved unit walk (walkAdvance (hasWalker s unit walk) 16 unit walk s))

/-- HOTPAGE_WINDOW_END (R201). -/
def execHotpageWindowEnd (port fn context : Nat) (s : State) : Res :=
  if !ringReg port fn then .next s else .next (windowEnd (64 * port + fn) context s)

/-! ### Broadcasts (R183) -/

/-- A module that a PH_STOP names has not answered (R123): the command ends "remote unreachable". The table of operations has no other row
for it (assumption 83). -/
def stopUnanswered (lb : Nat) (s : State) : State :=
  let mine (e : Nat × Nat × List Nat × Nat) : Bool := e.1 == lb && e.2.2.1.any fun k => decide (2 ^ 20 ≤ k)
  if s.res.stops.any mine then
    postWaiting lb 0x0308 eUnreachable [] (onRes (fun r => { r with stops := r.stops.filter fun e => !mine e }) s)
  else s

/-- BROADCAST_ANSWER_TIMEOUT (R183), and the end of the wait for another module's PH_STOP_DONE. -/
def execBroadcastAnswerTimeout (lb : Nat) (s : State) : Res :=
  if 128 ≤ lb then .next s
  else
    let left := (lbOf s lb).waitingFor
    if waitingOn s lb 0x0205 ∧ !left.isEmpty then
      .next (postWaiting lb 0x0205 eUnreachable (pack (left.map u16)) s)
    else .next (stopUnanswered lb s)

end Sys2Proof.Machine
end

