-- ==== Sys2Proof/Machine/HostPort.lean ====
section
/-! DEFINITION. The host ports (R76, R90–R108, R178, R427–R437): training and link loss, configuration requests, Bus Master
Enable, resets of functions, power states of functions, register writes, completions of the module's reads, invalidations and
page responses. -/

namespace Sys2Proof.Machine

/-- A host port named by a command. -/
def onHostSide (port : Nat) (f : State → State) (s : State) : Res :=
  if port < 2 then .next (f s) else .next s

/-- A function named by a command, as its key. -/
def onFunction (port fn : Nat) (f : Nat → State → State) (s : State) : Res :=
  if ringReg port fn then .next (f (64 * port + fn) s) else .next s

/-! ### Work that depends on the host (R100) -/

/-- Rings of a function. -/
def fnRings (s : State) (k : Nat) : List Nat := (ringsOwned s k).map Prod.fst

/-- Those, and the queues of steward cores that issue its requests. -/
def fnQueues (s : State) (k : Nat) : List Nat := (s.rings.filter fun e => e.2.state != .free && e.2.owner == k).map Prod.fst

/-- Whether a read of host memory that is outstanding for a function satisfies `q`. -/
def readsFor (s : State) (k : Nat) (q : ReadFor → Bool) : Bool :=
  (hostPortOf s (k / 64)).reads.any fun e => e.2.fn == k && !e.2.discard && q e.2.purpose

/-- An end of a copy lies in host memory at its present position. -/
def endAtHost (s : State) (r : Nat) (d : Started) (a : Addr) (write : Bool) : Bool :=
  match resolve s r d a (min d.issued (copyLength d.bytes - 1)) write with
  | .at_ (.host _ _) _ _ => true
  | _ => false

/-- A copy depends on host reads outstanding or to come, has host writes not yet issued, or waits on a page request or on a
walk of host tables. -/
def copyNeedsHost (s : State) (r : Nat) (d : Started) : Bool :=
  (d.page.isSome || d.walk
        || readsFor s (ringOf s r).owner (fun p => match p with | .copy q c _ _ _ => q == r && c == d.count | _ => false)
        || (decide (d.issued < copyLength d.bytes) && endAtHost s r d (addrAt d.bytes 0x10) false)
        || ((decide (d.issued < copyLength d.bytes) || decide (0 < d.readsOut)) && endAtHost s r d (addrAt d.bytes 0x20) true))

/-- A started descriptor depends on its host (R100): a copy, or a SELECT whose output goes to host memory. -/
def needsHost (s : State) (r : Nat) (d : Started) : Bool :=
  d.status.isNone && ((descType d.bytes == 1 && copyNeedsHost s r d)
    || (descType d.bytes == 3 && (d.walk || ((!d.acted || decide (0 < d.readsOut)) && selToHost s r d))))

/-- A launch whose argument block or operands are still to be read from host memory. -/
def launchNeedsHost (s : State) (k : Nat) (e : Nat × Launch) : Bool :=
  (ringOf s e.2.ring).owner == k && (!e.2.hostLeft.isEmpty || argsAtHost s e.1 e.2)

/-- End a descriptor "aborted by host"; what it holds back is not injected. -/
def hostAbort (r c : Nat) (s : State) : State :=
  endStarted r c stAborted 0 (onStarted r c (fun d => { d with
    held := [], lastOf := [], receipts := [], page := none, walk := false }) s)

/-- A packet of one of the descriptors that stands at its injection point. -/
def uninjected (cs : List (Nat × Nat)) (f : Flight) : Bool :=
  match f.loc, f.origin with
  | .inject .., .ring r c => cs.contains (r, c)
  | _, _ => false

/-- The registered packet at its injection point that closes a dropped packet's run counts one packet less. -/
def uncount (p : Pkt) (f : Flight) : Flight :=
  let q := f.pkt
  match f.loc with
  | .inject .. =>
    if q.registered && regRing q.reg == regRing p.reg && regRun q.reg == regRun p.reg && destKey q.dest == destKey p.dest then
      { f with pkt := { q with reg := mkReg (regRing q.reg) (regRun q.reg) (regCount q.reg - 1) } }
    else f
  | _ => f

/-- A packet of this module with its payload readable again. -/
def unsealed (s : State) (p : Pkt) : Option Pkt :=
  if !p.encrypted then some p
  else
    match linkSlot s p.frank.ctx with
    | none => none
    | some (_, k) =>
      match (if p.keyPhase == k.phase then some k.key else k.previous) with
      | none => none
      | some key => (gcmOpen (key.take 32) p.src p.trailerCount (sealAad p) p.body p.trailerTag).map fun b => { p with body := b }

/-- A packet that is never injected leaves its ring's run (R258), and its tag goes. -/
def unsend (p : Pkt) (s : State) : State :=
  let r := regRing p.reg
  let k := destKey p.dest
  let x := runOf (ringOf s r) k
  let s := match (if p.op = 1 ∨ p.op = 3 then unsealed s p else none) with
    | some q => readReturned (2 ^ 20 + requestTag q) (takeTag (requestTag q) s)
    | none => s
  if !regValid p.reg then s
  else if p.registered then releaseHeld r (onRing r (setRun { x with awaiting := false }) s)
  else if x.run = regRun p.reg then onRing r (setRun { x with sent := x.sent - 1 }) s
  else onFabric (fun f => { f with flights := tmap (fun _ y => uncount p y) f.flights }) s

/-- Drop the packets of descriptors that are not yet injected (R100). -/
def dropUninjected (cs : List (Nat × Nat)) (s : State) : State :=
  let gone := (s.fabric.flights.filter fun e => uninjected cs e.2).map fun e => e.2.pkt
  updates gone unsend (onFabric (fun x => { x with flights := x.flights.filter fun e => !uninjected cs e.2 }) s)

/-- The walks of a function's contexts that await a table read end without a result; one already discarded, whose data is thrown away
too, leaves its walker. -/
def abortWalks (k : Nat) (s : State) : State :=
  updates allUnits (fun d s =>
    updates ((unitOf s d).walks.filter fun e => e.2.waiting && (tget {} s.xlat.ctxs e.2.ctx).owner == k)
      (fun e s => if e.2.discard then onUnit d (fun u => { u with walks := terase u.walks e.1 }) s else walkFinish d e.1 .aborted s) s) s

/-- What stops when a function may issue no more requests (R100): its outstanding reads are marked for discard, what depends
on them ends "aborted by host" with its packets not yet injected dropped, paused copies leave their page requests at the host, and its rings hold until a doorbell that
follows (R101). The function's bit or state is already changed. -/
def haltFn (k : Nat) (s : State) : State :=
  let rs := fnRings s k
  let cs := (fnQueues s k).flatMap fun r => ((ringOf s r).started.filter (needsHost s r)).map fun d => (r, d.count)
  let reads := (hostPortOf s (k / 64)).reads.filter fun e => e.2.fn == k && !e.2.discard
  s |> updates ((s.res.launches.filter (launchNeedsHost s k)).map Prod.fst) (endLaunch · stAborted 0)
    |> updates cs (fun x s => hostAbort x.1 x.2 s)
    |> dropUninjected cs
    |> onFn k (fun f => { f with pageReqs := f.pageReqs.map fun q => if cs.contains (q.ring, q.count) then { q with orphan := true } else q })
    |> onHostPort (k / 64) (fun p => { p with reads := tmap (fun _ r => if r.fn = k then { r with discard := true } else r) p.reads })
    |> updates reads (fun e s => match e.2.purpose with
        | .fetch r _ _ => onRing r (fun g => { g with fetching := false }) s
        | .args l _ | .operand l => endLaunch l stAborted 0 s
        | .image lb _ => postWaiting lb 0x0301 eAbortedByHost [] s
        | .firmware lb _ => stageEnd lb eAbortedByHost s
        | _ => s)
    |> abortWalks k
    |> updates rs (fun r s => ringRestate r (onRing r (fun g => { g with awaitDoorbell := true }) s))

/-- The ended descriptors at the head of a ring, whose completion entries are held (R101). -/
def heldEntries (g : Ring) : Nat := (g.started.takeWhile fun d => d.status.isSome).length

/-- A function may issue requests and messages again (R101): held completion entries are written in ring order, before any descriptor is
fetched, and pending messages go; the rings go on at their next doorbell. -/
def resumeFn (k : Nat) (s : State) : State :=
  if mayIssue (fnOf s k) then
    msixFlush k (updates (fnRings s k) (fun r s => hotFlush r (settleAll r 16 (onRing r (fun g => { g with owed := heldEntries g }) s))) s)
  else s

/-- Bus Master Enable as the host writes it (R100, R101). -/
def setBusMaster (k : Nat) (on : Bool) (s : State) : State :=
  let f := fnOf s k
  if f.busMaster = on ∨ f.flr then s
  else if on then resumeFn k (onFn k (fun f => { f with busMaster := true }) s)
  else haltFn k (onFn k (fun f => { f with busMaster := false }) s)

/-- The function can be named by its host: it exists and its port's link is up and configured (R76, R92). -/
def fnThere (s : State) (k : Nat) : Bool := fnVisible s k

def whenThere (f : Nat → State → State) (k : Nat) (s : State) : State := if fnThere s k then f k s else s

/-- BUS_MASTER_ENABLE_CLEAR (R100). -/
def execBusMasterEnableClear (port fn : Nat) (s : State) : Res :=
  onFunction port fn (whenThere fun k s => setBusMaster k false s) s

/-- BUS_MASTER_ENABLE_SET (R101). -/
def execBusMasterEnableSet (port fn : Nat) (s : State) : Res :=
  onFunction port fn (whenThere fun k s => setBusMaster k true s) s

/-! ### Power states of a function (R106) -/

def enterD3 (k : Nat) (s : State) : State :=
  if (fnOf s k).d3 then s else haltFn k (onFn k (fun f => { f with d3 := true }) s)

def returnD0 (k : Nat) (s : State) : State :=
  if (fnOf s k).d3 then resumeFn k (onFn k (fun f => { f with d3 := false }) s) else s

/-- D3HOT_ENTRY (R106). -/
def execD3hotEntry (port fn : Nat) (s : State) : Res := onFunction port fn (whenThere enterD3) s

/-- D0_RETURN (R106). -/
def execD0Return (port fn : Nat) (s : State) : Res := onFunction port fn (whenThere returnD0) s

/-! ### Function Level Reset (R102, R103) -/

/-- Step 4: a command of at most 10 ms runs to its end with its result discarded, a longer one stops at its next safe point,
and a letterbox with no command running goes back to Idle. -/
def flrLetterbox (k : Nat) (s : State) : State :=
  let l := lbOf s k
  match l.state with
  | .running | .aborting => abortCommand k (onLb k (fun l => { l with discard := true }) s)
  | _ => onLb k idleLb s

/-- Steps 1, 2 and 4 for one function. A second start while one runs does nothing. -/
def flrBegin (k : Nat) (s : State) : State :=
  if (fnOf s k).flr then s
  else haltFn k (flrLetterbox k (onFn k (fun f => { f with flr := true }) s))

/-- The VFs of a port that are enabled. -/
def enabledVfs (s : State) (port : Nat) : List Nat := (List.range 64).filterMap fun n =>
  if n ≠ 0 ∧ fnEnabled s (64 * port + n) then some (64 * port + n) else none

/-- Clearing VF Enable resets every enabled VF (R92). -/
def clearVfs (port : Nat) (s : State) : State :=
  onFn (64 * port) (fun f => { f with vfEnabled := false }) (updates (enabledVfs s port) flrBegin s)

/-- An FLR begins; PF0's is also one of every enabled VF. -/
def flrStart (k : Nat) (s : State) : State :=
  if (fnOf s k).flr then s else flrBegin k (if k % 64 = 0 then clearVfs (k / 64) s else s)

/-- Step 5: every translation, pin and walk of the function's contexts goes, and its page requests. -/
def flrTranslations (k : Nat) (s : State) : State :=
  let cs := (s.xlat.ctxs.filter fun e => e.2.owner == k).map Prod.fst
  let s := updates allUnits (fun d s =>
    updates ((unitOf s d).walks.filter fun e => cs.contains e.2.ctx) (fun e s => walkFinish d e.1 .aborted s) s) s
  updates cs (fun c s => forgetCtx c true s) (onFn k (fun f => { f with pageReqs := [] }) s)

/-- Descriptors of a ring that an FLR cuts off. -/
def abortedCount (g : Ring) : Nat := g.started.countP fun d => d.status == none || d.status == some stAborted

/-- Step 6: rings and claims are released and the reset is journalled (R103). -/
def flrRelease (k : Nat) (s : State) : State :=
  s |> updates (fnRings s k) (fun r s =>
        let g := ringOf s r
        freeRing r (journal 0x3002 4 0 false [u8 k, u16 r, u32 (abortedCount g), u32 (firstNotStarted g)] s))
    |> onXlat (fun x => { x with hot := x.hot.filter fun h => h.owner != k })
    |> updates ((s.res.phs.filter fun e => e.2.claims.contains k).map Prod.fst) (fun h s => (releaseClaim k h s).2)
    |> journal 0x3002 4 0 false [u8 k, u16 0xFFFF]

/-- Step 7: the function's registers take their reset values; quotas are the postmaster's. A completion that comes later finds no tag
(R103). -/
def flrRegisters (k : Nat) (s : State) : State :=
  let tags := ((hostPortOf s (k / 64)).reads.filter fun e => e.2.fn == k).map Prod.fst
  s |> onFn k (fun f => { quotaRings := f.quotaRings, quotaContexts := f.quotaContexts, quotaClaims := f.quotaClaims })
    |> onLb k (fun _ => {})
    |> onHostPort (k / 64) (fun p => { p with reads := p.reads.filter fun e => e.2.fn != k })
    |> updates tags (fun t s => readReturned (k / 64 * 2 ^ 14 + t) s)

/-- The reset of a function has come as far as step 4: its letterbox runs no command any more. -/
def flrReady (s : State) (k : Nat) : Bool := (fnOf s k).flr && !isRunning (lbOf s k)

/-- Steps 5 to 7, once step 4 is done. -/
def flrFinish (k : Nat) (s : State) : State :=
  if flrReady s k then flrRegisters k (flrRelease k (flrTranslations k s)) else s

/-- The functions of a port that are in FLR, VFs first. -/
def flrFns (s : State) (port : Nat) : List Nat :=
  ((List.range 64).map fun i => 64 * port + (63 - i)).filter fun k => (fnOf s k).flr

/-- INITIATE_FLR (R102). -/
def execInitiateFlr (port fn : Nat) (s : State) : Res := onFunction port fn (whenThere flrStart) s

/-- FLR_READS_DONE (R102): the reads of the function have completed, or 90 ms have passed, and its command has ended, which step 4
places within step 3. With PF0's reset its VFs' end too. -/
def execFlrReadsDone (port fn : Nat) (s : State) : Res :=
  onFunction port fn (fun k s =>
    if (fnOf s k).flr then updates (if fn = 0 then flrFns s port else [k]) flrFinish s else s) s

/-- VF_ENABLE_SET (R92): with the number of VFs that NumVFs holds. -/
def setVfs (port : Nat) (s : State) : State := onFn (64 * port) (fun f => { f with vfEnabled := true }) s

def execVfEnableSet (port : Nat) (s : State) : Res :=
  onHostSide port (fun s => if fnThere s (64 * port) ∧ !inSafe s ∧ !(fnOf s (64 * port)).flr then setVfs port s else s) s

/-- VF_ENABLE_CLEAR (R92). -/
def execVfEnableClear (port : Nat) (s : State) : Res :=
  onHostSide port (fun s => if fnThere s (64 * port) then clearVfs port s else s) s

/-! ### The link (R76, R104) -/

/-- A port's link goes down: every function is reset as by FLR at once, and its outstanding reads are gone. A function whose command
still runs is released when that has ended (R102 step 4). -/
def linkDown (port : Nat) (s : State) : State :=
  if (hostPortOf s port).link ≠ 1 then s
  else
  let fns := (64 * port) :: (s.host.fns.filterMap fun e => if e.1 / 64 = port ∧ e.1 % 64 ≠ 0 ∧ fnEnabled s e.1 then some e.1 else none)
  let s := updates fns flrBegin s
  let s := updates (flrFns s port) flrFinish s
  let tags := (hostPortOf s port).reads.map Prod.fst
  let s := onHostPort port (fun p => { p with link := 0, configReady := false, reads := [] }) s
  updates tags (fun t s => readReturned (port * 2 ^ 14 + t) s) s

/-- The edge die of a host port. -/
def hostDie (port : Nat) : Nat := 96 + 8 * port

/-- A die has passed its self-test (R85). -/
def memberPassed (s : State) (d : Nat) : Bool :=
  tget .untested s.power.results d == .pass || tget .untested s.power.results d == .repaired

/-- A host port may train: PERST# is deasserted, its edge die passed wave 0 and has not failed, and the module is neither
unpowered nor in P4 (R76, R104, R105). -/
def mayTrain (s : State) (port : Nat) : Bool :=
  !(hostPortOf s port).perst && memberPassed s (hostDie port) && !(dieOf s (hostDie port)).failed
    && (match s.power.boot with
        | .waves _ | .retried | .safe => true
        | .serving => s.power.state != some 4
        | _ => false)

/-- Configuration requests are answered from step D1 on, or from the safe state's entry (R76, R87). -/
def configOpen (s : State) : Bool := s.power.boot == .serving || s.power.boot == .safe

/-- Train a port that may train. -/
def trainHost (port : Nat) (s : State) : State :=
  if mayTrain s port ∧ (hostPortOf s port).link = 0 then
    onHostPort port (fun p => { p with link := 1, configReady := configOpen s }) s
  else s

/-- HOST_PORT_TRAINING (R76): PERST# is deasserted, and the port trains when its edge die has passed too. -/
def execHostPortTraining (port : Nat) (s : State) : Res :=
  onHostSide port (fun s => trainHost port (onHostPort port (fun p => { p with perst := false }) s)) s

/-- PERST_ASSERT (R77, R104). -/
def execPerstAssert (port : Nat) (s : State) : Res :=
  onHostSide port (fun s => linkDown port (onHostPort port (fun p => { p with perst := true }) s)) s

/-- HOST_LINK_DOWN (R104): journalled as a surprise link down. -/
def execHostLinkDown (port : Nat) (s : State) : Res :=
  onHostSide port (fun s =>
    if (hostPortOf s port).link = 1 then linkDown port (journalRule 3 1 0 false 104 [u8 port] s) else s) s

/-! ### Configuration space (R76, R90–R92, R96–R99, R106) -/

/-- A register of a function's configuration space, as the quantity its name says: sizes in bytes, times in µs. Capabilities
that a VF or the diagnostic PF lacks read 0 (R92, R107). -/
def cfgRead (s : State) (k : Nat) (reg : CfgReg) : Nat :=
  let f := fnOf s k
  let pf := k % 64 == 0 && !inSafe s
  let dg := inSafe s
  match reg with
  | .vendorId => 0x1D7F
  | .deviceId => if dg then 0x4B0F else if pf then 0x4B01 else 0x4B02
  | .classCode => if dg then 0x088000 else 0x120000
  | .totalVfs => if pf then 63 else 0
  | .firstVfOffset => if pf then 1 else 0
  | .vfStride => if pf then 1 else 0
  | .vfDeviceId => if pf then 0x4B02 else 0
  | .numVfs => if pf then f.numVfs else 0
  | .vfEnable => b2n (pf && f.vfEnabled)
  | .maxPayload => f.maxPayload
  | .maxReadRequest => f.maxRead
  | .completionTimeout => f.completionTimeoutUs
  | .relaxedOrdering => b2n f.relaxed
  | .pasidEnable => b2n f.pasid
  | .priEnable => b2n f.pri
  | .atsEnable => b2n f.ats
  | .pageRequestCapacity => if dg then 0 else 256
  | .msixEnable => b2n f.msixEnable
  | .functionMask => b2n f.functionMask
  | .msixTableSize => if dg then 0 else vectorCount k
  | .busMaster => b2n f.busMaster
  | .powerState => if f.d3 then 3 else 0
  | .noSoftReset => 1
  | .initiateFlr => 0
  | .idoRequest => b2n f.ido
  | .extendedTag => b2n f.extendedTag
  | .tag10 => b2n f.tag10
  | .tag14 => b2n f.tag14
  | .bar0Low => if k % 64 = 0 then f.bar0 % 2 ^ 32 + 4 else 0
  | .bar0High => if k % 64 = 0 then f.bar0 / 2 ^ 32 else 0
  | .bar2Low => if pf then f.bar2 % 2 ^ 32 + 4 else 0
  | .bar2High => if pf then f.bar2 / 2 ^ 32 else 0
  | .vfBar0Low => if pf then f.vfBar0 % 2 ^ 32 + 4 else 0
  | .vfBar0High => if pf then f.vfBar0 / 2 ^ 32 else 0
  | .vfBar2Low => if pf then f.vfBar2 % 2 ^ 32 + 4 else 0
  | .vfBar2High => if pf then f.vfBar2 / 2 ^ 32 else 0

/-- Sizes of the BARs (R43). -/
def vfBar0Span : Nat := 2 ^ 20
def vfBar2Span : Nat := 2 ^ 14
def barSize (s : State) (k bar : Nat) : Nat :=
  if inSafe s then 2 ^ 16
  else if k % 64 = 0 then (if bar = 0 then 2 ^ 23 else 2 ^ 16)
  else if bar = 0 then vfBar0Span else vfBar2Span

/-- A half of a 64-bit BAR written: the bits below the BAR's size, which show that size, are fixed at 0 (R93). -/
def barHalf (size old : Nat) (high : Bool) (v : Nat) : Nat :=
  let w := if high then v % 2 ^ 32 * 2 ^ 32 + old % 2 ^ 32 else old / 2 ^ 32 * 2 ^ 32 + v % 2 ^ 32
  w / size * size

/-- Enabling and clearing page requests (R99). -/
def setPri (on : Bool) (k : Nat) (s : State) : State :=
  onFn k (fun f => { f with pri := on, priStopped := f.priStopped && !(on && !f.pri) }) s

/-- A write to a register of configuration space; values it does not offer change nothing. -/
def cfgWrite (k : Nat) (reg : CfgReg) (v : Nat) (s : State) : State :=
  let f := fnOf s k
  let pf := k % 64 == 0 && !inSafe s
  let dg := inSafe s
  let on := v % 2 == 1
  if f.flr then s
  else
    match reg with
    | .numVfs => if pf && !f.vfEnabled && decide (v ≤ 63) then onFn k (fun f => { f with numVfs := v }) s else s
    | .vfEnable => if !pf ∨ on = f.vfEnabled then s else if on then setVfs (k / 64) s else clearVfs (k / 64) s
    | .maxPayload => if ([128, 256, 512] : List Nat).contains v then onFn k (fun f => { f with maxPayload := v }) s else s
    | .maxReadRequest =>
      if ([128, 256, 512, 1024, 2048, 4096] : List Nat).contains v then onFn k (fun f => { f with maxRead := v }) s else s
    | .completionTimeout => if v = 0 ∨ (50 ≤ v ∧ v ≤ 64000000) then onFn k (fun f => { f with completionTimeoutUs := v }) s else s
    | .relaxedOrdering => onFn k (fun f => { f with relaxed := on }) s
    | .pasidEnable => if dg then s else onFn k (fun f => { f with pasid := on }) s
    | .priEnable => if dg then s else setPri on k s
    | .atsEnable => if dg then s else onFn k (fun f => { f with ats := on }) s
    | .msixEnable => if dg then s else msixFlush k (onFn k (fun f => { f with msixEnable := on }) s)
    | .functionMask => if dg then s else msixFlush k (onFn k (fun f => { f with functionMask := on }) s)
    | .busMaster => setBusMaster k on s
    | .powerState => if v = 3 then enterD3 k s else if v = 0 then returnD0 k s else s
    | .initiateFlr => if on then flrStart k s else s
    | .idoRequest => onFn k (fun f => { f with ido := on }) s
    | .extendedTag => onFn k (fun f => { f with extendedTag := on }) s
    | .tag10 => onFn k (fun f => { f with tag10 := on }) s
    | .tag14 => onFn k (fun f => { f with tag14 := on }) s
    | .bar0Low => if k % 64 = 0 then onFn k (fun f => { f with bar0 := barHalf (barSize s k 0) f.bar0 false v }) s else s
    | .bar0High => if k % 64 = 0 then onFn k (fun f => { f with bar0 := barHalf (barSize s k 0) f.bar0 true v }) s else s
    | .bar2Low => if pf then onFn k (fun f => { f with bar2 := barHalf (barSize s k 2) f.bar2 false v }) s else s
    | .bar2High => if pf then onFn k (fun f => { f with bar2 := barHalf (barSize s k 2) f.bar2 true v }) s else s
    | .vfBar0Low => if pf then onFn k (fun f => { f with vfBar0 := barHalf vfBar0Span f.vfBar0 false v }) s else s
    | .vfBar0High => if pf then onFn k (fun f => { f with vfBar0 := barHalf vfBar0Span f.vfBar0 true v }) s else s
    | .vfBar2Low => if pf then onFn k (fun f => { f with vfBar2 := barHalf vfBar2Span f.vfBar2 false v }) s else s
    | .vfBar2High => if pf then onFn k (fun f => { f with vfBar2 := barHalf vfBar2Span f.vfBar2 true v }) s else s
    | _ => s

/-- A configuration request: Request Retry Status (1) before step D1, Unsupported Request (2) at a function that does not
exist, else its answer (0). -/
def configRequest (k : Nat) (write : Bool) (reg : CfgReg) (v : Nat) (s : State) : State :=
  let p := hostPortOf s (k / 64)
  if p.link = 0 then s
  else if !p.configReady then emit (.configReply (k / 64) (k % 64) 1 0) s
  else if !fnThere s k then emit (.configReply (k / 64) (k % 64) 2 0) s
  else if write then emit (.configReply (k / 64) (k % 64) 0 0) (cfgWrite k reg v s)
  else emit (.configReply (k / 64) (k % 64) 0 (cfgRead s k reg)) s

/-- CONFIG_REQUEST (R76, R92). -/
def execConfigRequest (port fn : Nat) (write : Bool) (reg : CfgReg) (value : Nat) (s : State) : Res :=
  onFunction port fn (fun k s => configRequest k write reg value s) s

/-- PRI_ENABLE_TOGGLE (R99). -/
def execPriEnableToggle (port fn : Nat) (s : State) : Res :=
  onFunction port fn (whenThere fun k s => if inSafe s ∨ (fnOf s k).flr then s else setPri true k (setPri false k s)) s

/-- MSIX_UNMASK (R96). -/
def msixUnmask (what : Unmask) (k : Nat) (s : State) : State :=
  match what with
  | .vector v => barWrite k (noDiag fun s => msixFlush k (onFn k (fun f => { f with vectors := tmod {} f.vectors v fun e => { e with control := 0 } }) s)) s
  | .functionMask => cfgWrite k .functionMask 0 s
  | .msixEnable => cfgWrite k .msixEnable 1 s
  | .busMaster => setBusMaster k true s

def execMsixUnmask (port fn : Nat) (what : Unmask) (s : State) : Res :=
  let bad : Bool := match what with | .vector v => decide (vectorCount (64 * port + fn) ≤ v) | _ => false
  if bad then .next s else onFunction port fn (whenThere (msixUnmask what)) s

/-! ### Register writes (R4, R5, R93, R427–R437) -/

/-- BAD_SIZE_ACCESS (R93). A good access changes nothing at a function that can be reached; a request for one that cannot be is an
Unsupported Request whatever its size (R92). -/
def execBadSizeAccess (port fn bar offset size : Nat) (write : Bool) (s : State) : Res :=
  if bar ≠ 0 ∧ bar ≠ 2 then .next s
  else onFunction port fn (fun k s => if goodAccess offset size && fnVisible s k then s else badAccess k write s) s

/-- Set event bits that hardware sets in the cycle of a clear. -/
def hwEvents (n hw : Nat) (f : Nat → State → State) (s : State) : State :=
  updates ((List.range n).filter (bit hw)) f s

/-- A write to a ring page (R436). -/
def ringPageWrite (r off value hw : Nat) (s : State) : State :=
  if off = 0x000 then ringDoorbell r value s
  else if off = 0x020 then cqConsume r value s
  else if off = 0x030 then onRing r (fun g => { g with status := w1c g.status value (hw % 16) }) s
  else s

/-- A write to a letterbox block (R431). -/
def lbWrite (k off size value hw : Nat) (s : State) : State :=
  if off = 0x010 then doorbell k value s
  else if off = 0x018 then (if bit value 0 then abortCommand k s else s)
  else if off = 0x020 then
    s |> resultClear k value (bit hw 0)
      |> when (bit hw 1) (lbOverrun k)
      |> when (bit hw 2) (onLb k fun l => { l with failed := true })
  else if 0x100 ≤ off ∧ off + size ≤ 0x800 then frameWrite k (off - 0x100) size value s
  else s

/-- A write to BAR0 at an 8-byte register's offset, or to a frame. -/
def bar0Write (k off size value hw : Nat) (s : State) : State :=
  if inSafe s then (if 0x1000 ≤ off ∧ off < 0x2000 then lbWrite k (off - 0x1000) size value hw s else s)
  else if off = 0x010 then
    hwEvents 5 hw (fnEvent k) (onFn k (fun f => { f with events := w1c f.events value 0 }) s)
  else if 0x1000 ≤ off ∧ off < 0x2000 then lbWrite k (off - 0x1000) size value hw s
  else if off = 0x2008 then
    onFn k (fun f => badVector k (bits value 10 0) { f with eventVector := bits value 10 0, eventEnable := bit value 15 }) s
  else if off = 0x2010 then onFn k (fun f => badVector k (bits value 10 0) { f with intSelect := bits value 10 0 }) s
  else if off = 0x2020 then onFn k (fun f => { f with
    intStatus := w1c f.intStatus value (hw % 8), withheld := if bit hw 0 || bit hw 1 then m32 (f.withheld + 1) else f.withheld }) s
  else if k % 64 = 0 ∧ off = 0x10018 then
    hwEvents 7 hw modEvent (onHost (fun h => { h with modEvents := w1c h.modEvents value 0 }) s)
  else
    let base := if k % 64 = 0 then 0x400000 else 0x40000
    let top := if k % 64 = 0 then 0x800000 else 0x80000
    if base ≤ off ∧ off < top then
      match pageRing s k ((off - base) / 0x1000) with
      | some r => ringPageWrite r (off % 0x1000) value hw s
      | none => s
    else s

/-- A write to the MSI-X table in BAR2, one or two of its 4-byte fields (R433). -/
def bar2Write (k off size value : Nat) (s : State) : State :=
  let one (o v : Nat) (s : State) : State :=
    if o < 16 * vectorCount k then
      msixWrite k (o / 16) (match o % 16 with | 0 => .addressLow | 4 => .addressHigh | 8 => .data | _ => .control) v s
    else s
  if inSafe s then s
  else if size = 8 then one (off + 4) (value / 2 ^ 32) (one off (value % 2 ^ 32) s)
  else one off value s

/-- A register write: the upper half of an 8-byte register holds nothing that can be written. -/
def registerWrite (k bar off size value hw : Nat) (s : State) : State :=
  if !goodAccess off size then badAccess k true s
  else
    barWrite k (fun s =>
      if bar = 2 then bar2Write k off size value s
      else if off % 8 = 4 ∧ !(0x1100 ≤ off ∧ off < 0x1800) then s
      else bar0Write k off size value hw s) s

/-- REGISTER_WRITE (R4): `hwSet` holds the W1C bits that hardware sets in the same cycle. -/
def execRegisterWrite (port fn bar offset size value hwSet : Nat) (s : State) : Res :=
  if bar ≠ 0 ∧ bar ≠ 2 then .next s
  else onFunction port fn (fun k s => registerWrite k bar offset size value hwSet s) s

/-! ### Completions of the module's reads (R99, R108) -/

/-- How a read of host memory came back: whole, poisoned, or not at all. -/
inductive ReadEnd where
  | ok | poisoned | failed
  deriving DecidableEq, Repr

/-- Hand a read's data, or its failure, to whoever asked. -/
def readArrived (r : HostRead) (e : ReadEnd) (data : List Byte) (s : State) : State :=
  let bad := e == .poisoned
  match r.purpose with
  | .fetch ring first n => fetchData ring first n (e == .ok) data s
  | .copy ring c pos n dst =>
    if e = .failed then copyFail ring c stHostBus s
    else copyData ring c pos n (.host r.addr false) dst data (List.replicate data.length bad) s
  | .walk d n => walkMoved d n (walkData d n (if e = .failed then .completerAbort else .success) bad data s)
  | .image lb pos => if e = .failed then postWaiting lb 0x0301 eHostBus [] s else imageData lb pos data bad s
  | .firmware lb pos => if e = .ok then stageData lb pos data s else stageEnd lb eHostBus s
  | .args l _ =>
    if e = .ok then argsData l data false s else endLaunch l (if bad then stPoisoned else stHostBus) 0 s
  | .operand l => if e = .failed then endLaunch l stHostBus 0 s else operandData l bad true s

/-- Letterbox commands and launches that read host memory and wait for a free tag ask again. -/
def kickReads (s : State) : State :=
  let s := updates (s.post.lbs.map Prod.fst) (fun lb s => stageNext lb (imageNext lb s)) s
  updates (s.res.launches.map Prod.fst) (fun l s =>
    operandKick l (match launchOf s l with | some x => (if argsAtHost s l x then argsNext l s else s) | none => s)) s

/-- A read ends: its tag is free again, and invalidations that waited for it go on. -/
def readEnded (port tag : Nat) (r : HostRead) (e : ReadEnd) (data : List Byte) (s : State) : State :=
  let s := onHostPort port (fun p => { p with reads := terase p.reads tag }) s
  let s := if r.discard then s else readArrived r e data s
  kickReads (readReturned (port * 2 ^ 14 + tag) s)

/-- The module's AER conditions, by their row in the table of R108. -/
def aerTimeout : Nat := 3
def aerStatus : Nat := 4
def aerPoisoned : Nat := 5
def aerUnexpected : Nat := 6
def aerMalformed : Nat := 7

/-- A completion for no outstanding tag (R103, R108). -/
def unexpected (port : Nat) (s : State) : State := aer port 2 aerUnexpected s

/-- Act on an outstanding read of a port. -/
def onRead (port tag : Nat) (f : HostRead → State → State) (miss : State → State) (s : State) : Res :=
  onHostSide port (fun s =>
    if (hostPortOf s port).link = 0 then s
    else match tfind (hostPortOf s port).reads tag with
      | some r => f r s
      | none => miss s) s

/-- HOST_READ_COMPLETION (R108, R456): the whole of the data asked for, or an error status. -/
def execHostReadCompletion (port tag : Nat) (status : CplStatus) (data : List Byte) (s : State) : Res :=
  onRead port tag (fun r s =>
    if status = .success then readEnded port tag r .ok (padTo r.len data) s
    else readEnded port tag r .failed [] (aer port 2 aerStatus s)) (unexpected port) s

/-- COMPLETION_TIMEOUT (R108), unless the function's timeout is disabled (R90). -/
def execCompletionTimeout (port tag : Nat) (s : State) : Res :=
  onRead port tag (fun r s =>
    if (fnOf s r.fn).completionTimeoutUs = 0 then s
    else readEnded port tag r .failed [] (aer port 1 aerTimeout s)) id s

/-- POISONED_COMPLETION (R108). -/
def execPoisonedCompletion (port tag : Nat) (data : List Byte) (s : State) : Res :=
  onRead port tag (fun r s => readEnded port tag r .poisoned (padTo r.len data) (aer port 2 aerPoisoned s)) (unexpected port) s

/-- UNEXPECTED_COMPLETION (R103, R108). -/
def execUnexpectedCompletion (port tag : Nat) (s : State) : Res := onRead port tag (fun _ s => s) (unexpected port) s

/-- MALFORMED_TLP (R108). -/
def execMalformedTlp (port : Nat) (s : State) : Res :=
  onHostSide port (fun s => if (hostPortOf s port).link = 0 then s else aer port 3 aerMalformed s) s

/-- CORRECTABLE_LINK_ERROR (R108): kind 0 receiver error, 1 replay timer timeout, 2 replay number rollover. -/
def execCorrectableLinkError (port kind : Nat) (s : State) : Res :=
  if 3 ≤ kind then .next s
  else onHostSide port (fun s => if (hostPortOf s port).link = 0 then s else aer port 0 kind s) s

/-! ### Invalidation and page requests of the host (R98, R99) -/

/-- A request that the function does not support: answered, or logged, as an Unsupported Request (R9, R108). -/
def unsupportedRequest (k : Nat) (s : State) : State := emit (.unsupported (k / 64) (k % 64)) (aer (k / 64) 1 8 s)

/-- A request of the host that asks for what the module does not support (R9): multicast, IDE, an atomic operation, or an access to a
function that has no such capability. The table of operations has no row for it (assumption 76). -/
def hostUnsupported (k : Nat) (s : State) : State :=
  if fnVisible s k then unsupportedRequest k s else unreachableFn k s

/-- ATS_INVALIDATION_REQUEST (R98): a PASID that is no context of the function matches nothing; the diagnostic PF has no ATS (R107). -/
def atsInvalidate (k pasid va len : Nat) (s : State) : State :=
  if inSafe s then unsupportedRequest k s else
  match tfind s.xlat.ctxs pasid with
  | some c => if c.owner = k then settleWaits (beginInvalidate (.ats k) pasid va len false s) else emit (.atsCompletion (k / 64) (k % 64)) s
  | none => emit (.atsCompletion (k / 64) (k % 64)) s

def execAtsInvalidationRequest (port fn pasid va length : Nat) (s : State) : Res :=
  onFunction port fn (whenThere fun k s => atsInvalidate k pasid va length s) s

/-- Take a page request off a function's list; one that has gone, or whose copy has ended, resumes nothing. -/
def pageAnswer (k index : Nat) (f : PageReq → State → State) (s : State) : State :=
  match (fnOf s k).pageReqs.find? (fun q => q.index == index) with
  | none => s
  | some q =>
    let s := onFn k (fun f => { f with pageReqs := f.pageReqs.filter fun q => q.index != index }) s
    match startedOf s q.ring q.count with
    | some d => if q.orphan ∨ d.page ≠ some index then s
      else f q (onStarted q.ring q.count (fun d => { d with page := none }) s)
    | none => s

/-- A copy whose page did not come (R99). -/
def pageUnresolved (q : PageReq) (s : State) : State :=
  endStarted q.ring q.count stFault 0 (journalRule 3 1 1 false 99 [u16 q.ring, u32 q.count, u64 q.va] s)

/-- The copy walks the page again and goes on; a mode-2 copy has the ring's edge-die unit walk it (R171, R178). -/
def pageResume (q : PageReq) (s : State) : State :=
  match startedOf s q.ring q.count with
  | none => s
  | some d => if (ringOf s q.ring).mode = 2 ∧ descType d.bytes = 1 then copyWalk q.ring q.count d.engine q.va q.write s
      else descResume q.ring q.count s

/-- A page response: on success the page is walked again and the copy goes on. -/
def pageResponse (k index : Nat) (code : PageCode) (s : State) : State :=
  pageAnswer k index (fun q s => match code with
    | .success => pageResume q (dropLeaves q.ctx q.va (2 ^ 16) false s)
    | .invalidRequest => pageUnresolved q s
    | .responseFailure => pageUnresolved q (onFn k (fun f => { f with priStopped := true }) s)) s

/-- PAGE_RESPONSE (R99). -/
def execPageResponse (port fn index : Nat) (code : PageCode) (s : State) : Res :=
  onFunction port fn (whenThere fun k s => pageResponse k index code s) s

/-- PAGE_RESPONSE_TIMEOUT (R99, R100). -/
def execPageResponseTimeout (port fn index : Nat) (s : State) : Res :=
  onFunction port fn (fun k s => pageAnswer k index pageUnresolved s) s

end Sys2Proof.Machine
end

