-- ==== Sys2Proof/Machine/Failover.lean ====
section
/-! DEFINITION. Moving the postmaster role between E0 and E8 (R129–R133). -/

namespace Sys2Proof.Machine

/-- The die of E0 or of E8 works. -/
def edgeWorks (s : State) (e : Nat) : Bool := !(dieOf s (96 + e)).failed

/-- The letterboxes the postmaster can reach: those of the functions of a host port whose edge die works. -/
def reachableLbs (s : State) : List Nat := (enabledFns s).filter fun k => edgeWorks s (8 * (k / 64))

/-- The walks that a PIN_RANGE waits for forget it. -/
def dropPinWalks (lb : Nat) (s : State) : State :=
  onXlat (fun x => { x with units := tmap (fun _ u => { u with walks := tmap (fun _ w => { w with
    requesters := w.requesters.filter fun q => match q with | .pin l => l != lb | _ => true }) u.walks }) x.units }) s

/-- A PIN_RANGE goes back to its last safe point: the pages pinned since are unpinned. -/
def pinSafePoint (lb : Nat) (s : State) : State :=
  let l := lbOf s lb
  let ctx := arg 0x0207 (cmdArgs l) 0
  let keep := l.waitingFor.take (l.waitingFor.length / 1024 * 1024)
  let at_ := match keep.getLast? with
    | none => arg 0x0207 (cmdArgs l) 1
    | some v => match s.xlat.pins.find? (fun p => p.ctx == ctx && p.va == v && p.programmed.isNone) with
      | some p => p.va + p.size
      | none => v
  let s := updates (l.waitingFor.drop keep.length) (unpinPage ctx) (dropPinWalks lb s)
  pinNext lb (onLb lb (fun l => { l with waitingFor := keep, progress := at_ }) s)

/-- A resumable command continues from its last safe point (R131): what it did since is done again. -/
def fromSafePoint (lb : Nat) (s : State) : State :=
  let cut (n : Nat) : State := onLb lb (fun l => { l with buffer := l.buffer.take (l.buffer.length / n * n) }) s
  if waitingOn s lb 0x0301 then imageNext lb (cut (2 ^ 22))
  else if waitingOn s lb 0x0702 then stageNext lb (cut (2 ^ 20))
  else if waitingOn s lb 0x0207 then pinSafePoint lb s
  else s

/-- The pigeonhole that a PH_CREATE still waits for. -/
def creating (s : State) (lb : Nat) : Option Nat :=
  (s.res.phs.find? fun e => e.2.lb == some lb && (e.2.state == .loading || e.2.cancel.isSome)).map Prod.fst

/-- Step U5 for one letterbox (R131). A resumable command goes on from its last safe point. An atomic one that has not acted, or that
builds its effect up while it waits, ends "failover, not applied" with none of it left; one that took its effect when it acted has
committed and goes on to its end (assumption 81). -/
def settleRunning (lb : Nat) (s : State) : State :=
  let l := lbOf s lb
  if !isRunning l then s
  else if resumable s lb then fromSafePoint lb s
  else if l.phase == .fresh then postResult lb eFailover [] s
  else
    match cmdOpcode l with
    | 0x0402 => cancelCommit eFailover s
    | 0x0207 => pinFail lb eFailover (dropPinWalks lb s)
    | 0x0301 => postWaiting lb 0x0301 eFailover [] s
    | 0x0304 => (match creating s lb with
      | some h => evict h (onPh h (fun p => { p with cancel := some eFailover }) s)
      | none => s)
    | _ => s

/-- Ask the update agent for the next piece of the image, of 1,024 bytes at most (R419). -/
def requestPiece (s : State) : State :=
  let at_ := s.mgmt.updateData.length
  emit (.mctp 1 0x15 (pack [u32 at_, u32 (min 1024 (s.mgmt.updateLength - at_))])) s

/-- The new postmaster asks again from the last safe point of a transfer (chapter 20, Collisions). -/
def resumeUpdate (s : State) : State :=
  if s.mgmt.update ≠ 3 then s
  else requestPiece (onMgmt (fun m => { m with updateData := m.updateData.take (m.updateData.length / 2 ^ 20 * 2 ^ 20) }) s)

/-- Step U3: the role, the governor and the journal move. Every command held in a letterbox carries result-frame flag [0] (R114). -/
def moveRole (toE8 : Bool) (s : State) : State :=
  let held (l : Letterbox) : Bool := l.state == .accepted || isRunning l
  updates (reachableLbs s) (fun k => onLb k fun l => { l with failover := held l || l.failover }) (onPost (fun p => { p with onE8 := toE8 }) s)

/-- Steps U4 and U6: every reachable letterbox shows the failover. SPDM loses what was negotiated (R423). -/
def announceRole (s : State) : State :=
  s |> updates (reachableLbs s) (fun k => onLb k fun l => { l with failed := true })
    |> journal 0x4002 3 0 true [u8 (postEdge s)]
    |> onMgmt (fun m => { m with spdm := ([0, 1, 2] : List Nat).map fun t => (t, { resync := true }) })
    |> resumeUpdate |> countMgmt 3 |> fnEventAll 1 |> modEvent 1

/-- Steps U3, U4, U6 and U7. -/
def takeRole (toE8 : Bool) (s : State) : State := announceRole (moveRole toE8 s)

/-- No atomic command but the letterbox's own is running: step P2 of a planned failover has ended (R130). -/
def handoverReady (s : State) (self : Option Nat) : Bool :=
  !(s.post.lbs.any fun e => self != some e.1 && isRunning e.2 && !resumable s e.1)

/-- Step P3: the role changes place, and resumable commands go on from their safe points. -/
def plannedHandover (toE8 : Bool) (s : State) : State :=
  s |> moveRole toE8
    |> updates ((s.post.lbs.filter fun e => isRunning e.2 && resumable s e.1).map Prod.fst) fromSafePoint
    |> announceRole

/-- Unplanned failover (R129–R131): E8 fences E0 and takes over, without a standby, settles what was running, and announces it. -/
def unplannedFailover (s : State) : State :=
  if s.post.onE8 ∨ !s.post.standby then s
  else
    s |> onPost (fun p => { p with e0Fenced := true, restartTried := false, standby := false })
      |> moveRole true
      |> updates (s.post.lbs.map Prod.fst) settleRunning
      |> journalDeferred
      |> announceRole

/-- UNPLANNED_FAILOVER (R131). -/
def execUnplannedFailover (s : State) : Res := .next (when (postUp s) unplannedFailover s)

/-- E0 has been restarted once after an unplanned failover (R132). -/
def e0Restart (passed : Bool) (s : State) : State :=
  if !s.post.onE8 ∨ !s.post.e0Fenced ∨ s.post.restartTried then s
  else if passed ∧ edgeWorks s 0 then
    onPost (fun p => { p with
      restartTried := true, e0Fenced := false, standby := true
      running := tset p.running 0 (activeSlot s 0, (fwSlotOf s 0 (activeSlot s 0)).image) }) s
  else onPost (fun p => { p with restartTried := true }) s

/-- E0_RESTART (R132). -/
def execE0Restart (passed : Bool) (s : State) : Res := .next (e0Restart passed s)

/-- STANDBY_LOST (R132): the postmaster goes on with no standby. -/
def execStandbyLost (s : State) : Res :=
  .next (if s.post.standby then journal 0x4003 2 0 true [] (onPost (fun p => { p with standby := false }) s) else s)

/-- POSTMASTER_HEARTBEAT (R129, R133): it also ends the ALERT of the heartbeat watchdog. -/
def execPostmasterHeartbeat (s : State) : Res :=
  .next (if postUp s then
    onPower (fun p => { p with alertHeartbeat := false }) (onPost (fun p => { p with heartbeats := p.heartbeats + 1 }) s) else s)

end Sys2Proof.Machine
end

