-- ==== Sys2Proof/Machine/CmdFirmware.lean ====
section
/-! DEFINITION. The firmware and failover commands 0x0701–0x0706 (R123, R125–R130, R399, R420). -/

namespace Sys2Proof.Machine

/-! ### Queries and checks -/

/-- A slot as FW_QUERY shows it. -/
def slotFields (x : FwSlot) : List Fld := [u32 (imageVersion x.image), u32 (securityVersion x.image), u8 x.state]

/-- FW_QUERY: slots A and B of E0, then of E8, then the floor. -/
def fwQueryBytes (s : State) : List Byte :=
  pack ((([(0, 0), (0, 1), (1, 0), (1, 1)] : List (Nat × Nat)).flatMap fun x => slotFields (fwSlotOf s x.1 x.2)) ++ [u32 s.post.floor])

def execFwQuery (lb : Nat) (s : State) : Res := runCmd 0x0701 anyArgs (fun _ _ s => .done 0 (fwQueryBytes s) s) lb s

/-- A PLDM update holds the firmware store (R420). -/
def storeHeld (s : State) : Bool := s.mgmt.update != 0

/-- FW_STAGE starts: the inactive slots are marked empty. On the diagnostic PF no context is named (R107). -/
def fwStageStart (ok : Bool) (who : Option Nat) (a : List Byte) (s : State) : CmdOut :=
  let own := inSafe s || (match tfind s.xlat.ctxs (arg 0x0702 a 0) with
    | some c => who == some c.owner
    | none => false)
  if storeHeld s then err eBusyObject s
  else if !own then err eNotFound s
  else .wait (onLb (who.getD 0) (fun l => { l with mramBad := !ok }) (onInactive (fun _ => {}) s))

/-- FW_STAGE (R127). -/
def execFwStage (lb : Nat) (mramOk : Bool) (s : State) : Res :=
  match runCmd 0x0702 anyArgs (fwStageStart mramOk) lb s with
  | .next s' => .next (if runningFresh s lb 0x0702 then stageNext lb s' else s')
  | r => r

/-- An abort waits for the command's next safe point. -/
def abortAsked (s : State) (who : Option Nat) : Bool := match who with | some lb => (lbOf s lb).abort | none => false

/-- The staged image is marked verified. -/
def markVerified (s : State) : State := onInactive (fun x => { x with state := 2 }) s

/-- FW_VERIFY (R127); an abort stops it with no state changed (R125). -/
def fwVerify (who : Option Nat) (_ : List Byte) (s : State) : CmdOut :=
  if storeHeld s then err eBusyObject s
  else if abortAsked s who then err eAborted s
  else
    match verifyStaged s with
    | .error e => err e s
    | .ok b => .done 0 (pack [u32 (imageVersion b)]) (markVerified s)

def execFwVerify (lb : Nat) (s : State) : Res := runCmd 0x0703 anyArgs fwVerify lb s

/-! ### Activation (R127, R128) -/

/-- The verified image, when every reachable inactive slot holds one. -/
def verifiedImage (s : State) : Option (List Byte) :=
  match (mramDies s).map fun d => fwSlotOf s d (inactiveSlot s d) with
  | [] => none
  | x :: xs => if (x :: xs).all fun y => y.state == 2 && y.image == x.image then some x.image else none

/-- Activation at the next reset. A torn write of E0's or E8's selector leaves the active image bootable, and ends "MRAM write failed"
(DESIGN CHOICE, assumption 82). -/
def activateAtReset (ok : Bool) (s : State) : Nat × State :=
  match verifiedImage s, mramDies s with
  | some b, d :: _ => if ok then (0, selectStaged b s) else (eMram, mramFailed d (writeSelector false d (inactiveSlot s d) s))
  | _, _ => (eImage, s)

/-- Live activation would come to its handover, step L3. -/
def activationHandsOver (ok2 : Bool) (s : State) : Bool :=
  (verifiedImage s).isSome && !inSafe s && s.post.standby && !s.post.onE8 && ok2

/-- Live activation, steps L1 to L5: E8 restarts into the image and takes over, and E0 becomes its standby. With E8 as the postmaster the
mode is not permitted, since the role returns to E0 only through FAILOVER or a reset (R132; DESIGN CHOICE, assumption 57). -/
def activateLive (ok2 ok4 : Bool) (s : State) : Nat × State :=
  match verifiedImage s with
  | none => (eImage, s)
  | some b =>
    if inSafe s ∨ !s.post.standby ∨ s.post.onE8 then (eNotPermitted, s)
    else if !ok2 then (eActivation, s)
    else
      let run (d : Nat) (s : State) : State := onPost (fun p => { p with running := tset p.running d (inactiveSlot s d, b) }) s
      let s := plannedHandover true (run 1 s)
      if ok4 then (0, selectStaged b (run 0 s))
      else (eActivation, onPost (fun p => { p with standby := false }) s)

def isMode (n : Nat) (a : List Byte) : Bool := arg 0x0704 a 0 == n

/-- FW_ACTIVATE in mode 0. -/
def fwActivateReset (ok : Bool) (_ : Option Nat) (_ : List Byte) (s : State) : CmdOut :=
  if storeHeld s then err eBusyObject s
  else
    let x := activateAtReset ok s
    err x.1 x.2

def execFwActivateAtReset (write : MramWrite) (s : State) : Res := runCmd 0x0704 (isMode 0) (fwActivateReset write.ok) write.lb s

/-- FW_ACTIVATE in mode 1; an abort stops it before step L3 (R125). -/
def fwActivateLive (ok2 ok4 : Bool) (who : Option Nat) (_ : List Byte) (s : State) : CmdOut :=
  if storeHeld s then err eBusyObject s
  else if abortAsked s who then err eAborted s
  else
    let x := activateLive ok2 ok4 s
    err x.1 x.2

/-- FW_ACTIVATE in mode 1: while atomic commands still run, step P2 has not ended and nothing happens yet. -/
def execFwActivateLive (lb : Nat) (step2Ok step4Ok : Bool) (s : State) : Res :=
  if activationHandsOver step2Ok s ∧ !(lbOf s lb).abort ∧ !handoverReady s (some lb) then .next s
  else runCmd 0x0704 (isMode 1) (fwActivateLive step2Ok step4Ok) lb s

/-! ### Agents and failover -/

/-- AGENT_RELOAD ends (R399): the die's agent runs the active image's. The reload runs from the command's start. -/
def agentReload (_ : Option Nat) (a : List Byte) (s : State) : CmdOut :=
  let e := arg 0x0705 a 0
  if !edgeWorks s e then err eNotFound s
  else ok0 (onPost (fun p => { p with agents := tset p.agents e (runningImage s) }) s)

def execAgentReload (lb : Nat) (s : State) : Res :=
  match runCmd 0x0705 anyArgs agentReload lb s with
  | .next t => .next (if 128 ≤ lb ∨ t.post.deferred.isEmpty then t else journalDeferred t)
  | r => r

/-- FAILOVER (R130): the roles change places, steps P2 and P3. -/
def failoverCmd (_ : Option Nat) (_ : List Byte) (s : State) : CmdOut :=
  if !s.post.standby then err eNotPermitted s
  else
    let to8 := !s.post.onE8
    .done 0 (pack [u8 (if to8 then 8 else 0)]) (plannedHandover to8 s)

/-- FAILOVER: while atomic commands still run, step P2 has not ended and nothing happens yet. -/
def execFailover (lb : Nat) (s : State) : Res :=
  if s.post.standby ∧ !handoverReady s (some lb) then .next s else runCmd 0x0706 anyArgs failoverCmd lb s

end Sys2Proof.Machine
end

