-- ==== Sys2Proof/Machine/Repair.lean ====
section
/-! DEFINITION. Live repair: tile retirement (R394, R395, R349), fences (R396), edge-die failure (R393, R398) and wire faults
(R21). -/

namespace Sys2Proof.Machine

/-! ### Fences (R396) -/

/-- What a die loses with its power or its reset: memories of a frond, tallies, run counts, locks, engine state. Repairs, marks
and counters' identity stay. -/
def clearDie (d : Nat) (s : State) : State :=
  let s := if d < 84 then zeroFrond d s else s
  s |> onDie d (fun x => {
        retired := x.retired, lostTiles := x.lostTiles, fenced := x.fenced, meshOff := x.meshOff, failed := x.failed
        badWires := x.badWires, linksOut := x.linksOut, contactsBad := x.contactsBad })
    |> onUnit d (fun _ => {})

/-- A pigeonhole that a fence, or a repair it cannot survive, makes Lost: its launches end "return to sender" with a postcode,
and a PH_CREATE that waits ends "no resource" (DESIGN CHOICE). -/
def losePh (h cause : Nat) (pc : Postcode) (s : State) : State :=
  match phOf s h with
  | none => s
  | some p =>
    if p.state = .lost ∨ p.state = .evicting then returnAll h pc s
    else
      s |> returnAll h pc |> phLose h cause |> onPh h (fun p => { p with lb := none })
        |> postWaiting? p.lb 0x0304 eNoResource []

/-- A frond with a mesh fault loses its power: its packets are lost, and the descriptors that its engines execute end "return to sender"
(R396 step 5; DESIGN CHOICE for the descriptors, assumption 104). -/
def frondOff (f : Nat) (s : State) : State :=
  let s := dropPackets (· == f) s
  updates s.rings (fun e s => updates (e.2.started.filter fun d => d.status.isNone && pcDie d.engine == f && pcModule d.engine == moduleNumber s)
    (fun d s => returnToSender e.1 d.count d.engine s) s) s

/-- The SELECTs whose merge contexts a fence clears end "return to sender" (chapter 17, Collisions). -/
def endContexts (f : Nat) (s : State) : State :=
  updates (dieOf s f).merges (fun e s => updates e.2 (fun c s =>
    returnToSender c.ring c.count (hubUnit (moduleNumber s) f e.1) s) s) s

/-- Fence a frond; answers the pigeonholes lost. -/
def fenceFrond (f : Nat) (mesh : Bool) (s : State) : Nat × State :=
  if (dieOf s f).fenced then
    (0, when (mesh && !(dieOf s f).meshOff) (fun s => frondOff f (onDie f (fun x => { x with meshOff := true }) (markDie f false 1 true s))) s)
  else
    let hs := (s.res.phs.filter fun e => (phFronds e.2).contains f).map Prod.fst
    let lost := s.res.phs.countP fun e => (phFronds e.2).contains f && e.2.state != .lost && e.2.state != .evicting
    (lost, s
      |> markDie f false 1 mesh
      |> onDie f (fun x => { x with fenced := true, meshOff := mesh })
      |> updates hs (fun h s => losePh h 396 (frondCtlPc (moduleNumber s) f) s)
      |> updates hs (fun h s => match phOf s h with | some p => clearLocks p s | none => s)
      |> endContexts f
      |> when mesh (frondOff f)
      |> onDie f (fun x => { x with locks := [], badLocks := [], badKeys := [], merges := [], parks := [], tallies := [], holds := [] })
      |> onFrondPower f (fun x => { x with clockMhz := 500, oldClockMhz := 500, budget := 0 })
      |> mapAdd [mapEntry 0x05 f 0 0 0 0]
      |> journalFrom (frondCtlPc (moduleNumber s) f) 0xA004 2 0 true [u8 f, u8 (b2n mesh)]
      |> modEvent 2)

def fence (f : Nat) (mesh : Bool) (s : State) : State := (fenceFrond f mesh s).2

/-! ### Tile retirement (R395, R349) -/

/-- The spare tile of a tile's row (R42). -/
def spareOf (t : Nat) : Nat := t / 20 * 20 + 19

/-- The spare of a tile can take its place. -/
def spareFree (s : State) (f t : Nat) : Bool :=
  let x := dieOf s f
  t % 20 != 19 && !x.retired.contains (spareOf t) && !((List.range 19).any fun c => x.retired.contains (t / 20 * 20 + c))

/-- Bytes of a record that are still in packets of its load. -/
def loadInFlight (s : State) (h record : Nat) : Nat :=
  s.fabric.flights.foldl (fun n e => if e.2.origin = .load h record then n + (e.2.pkt.body.length - e.2.pkt.lead - e.2.pkt.trail) else n) 0

/-- Reload the records of one logical tile (R349): of a Resident pigeonhole, whose target becomes their length; a load in progress
gets a target that grows by what of them had been delivered. -/
def reloadTile (h lt : Nat) (s : State) : State :=
  match phOf s h with
  | none => s
  | some p =>
    match imageOf s p with
    | none => s
    | some i =>
      let recs := (loadedRecs i).filter fun j => match i.weights[j]? with | some w => w.region == 0 && w.tile == lt | none => false
      let done (j : Nat) : Nat := match p.loads.find? (fun l => l.record == j) with
        | some l => l.issued - loadInFlight s h j
        | none => (match i.weights[j]? with | some w => w.length - loadInFlight s h j | none => 0)
      let counted := recs.foldl (fun n j => n + done j) 0
      let s := dropLoadTags h (fun j => recs.contains j) s
      let strip (f : Flight) : Flight := match f.origin with
        | .load g j => if g = h ∧ recs.contains j then { f with origin := .none } else f
        | _ => f
      let s := onFabric (fun x => { x with flights := tmap (fun _ f => strip f) x.flights }) s
      if p.state = .resident then
        s |> phEnter h .loading 349 false
          |> onPh h (fun p => { p with residency := 0, target := 0 })
          |> startLoads h recs
      else if p.state = .loading then
        let total := recordsLength i recs
        s |> onPh h (fun p => { p with
              loads := p.loads.filter fun l => !recs.contains l.record, target := p.target + counted - total })
          |> startLoads h recs
      else s

/-- Bind the spare in place of a retired tile for one pigeonhole, with the tile's lock. -/
def rebindTile (f t : Nat) (h : Nat) (s : State) : State :=
  match phOf s h with
  | none => s
  | some p =>
    match logicalAt p f t with
    | none => s
    | some lt =>
      if p.state ≠ .resident ∧ p.state ≠ .loading then s
      else
        let lock := tget 0 (dieOf s f).locks (48 + t)
        s |> onPh h (fun p => { p with tileOf := tset p.tileOf lt (f * 320 + spareOf t) })
          |> onDie f (fun x => { x with locks := tset x.locks (48 + spareOf t) lock })
          |> reloadTile h lt

/-- Retire a tile. -/
def retireTile (f t : Nat) (s : State) : State :=
  let pc := scratchPc (moduleNumber s) f t
  let free := spareFree s f t
  let unused := t % 20 == 19 && !((List.range 19).any fun c => (dieOf s f).retired.contains (t / 20 * 20 + c))
  let hs := (s.res.phs.filter fun e => (logicalAt e.2 f t).isSome).map Prod.fst
  let s := onDie f (fun x => { x with retired := t :: x.retired.filter (· != t) }) s
  let s := updates hs (fun h s => match phOf s h with
    | some p => returnLaunches h (fun x => (logicalAt p f t).any (inLaunch s x)) pc s
    | none => s) s
  let s :=
    if free then updates hs (rebindTile f t) s
    else
      let s := updates hs (fun h s => losePh h 395 pc s) s
      -- a spare that serves no tile costs no capacity
      if unused then s else onDie f (fun x => { x with lostTiles := t :: x.lostTiles.filter (· != t) }) s
  s |> onDie f (fun x => { x with locks := tset x.locks (48 + t) (setBit (tget 0 x.locks (48 + t)) 0 false) })
    |> mapAdd [mapEntry (if free then 0x03 else 0x04) f t 0 0 0]
    |> journalFrom (frondCtlPc (moduleNumber s) f) 0xA003 2 0 true [u8 f, u16 t, u8 (b2n free)]

/-! ### Edge-die failure (R393, R398) -/

/-- Rings of an edge die that belong to a function. -/
def ringsOfDie (s : State) (e : Nat) : List Nat :=
  (s.rings.filter fun g => g.1 / 64 == e && decide (g.1 < 1024) && g.2.state != .free).map Prod.fst

/-- An edge die fails: its ports, rings, tallies and run counts are lost, its host port goes down, and the postmaster fails over
from E0. Pigeonholes whose steward cores it held become Lost (DESIGN CHOICE). -/
def edgeDieFail (e : Nat) (s : State) : State :=
  let d := 96 + e
  if (dieOf s d).failed then s
  else
    let cores := (List.range 4).map (4 * e + ·)
    let hs := (s.res.phs.filter fun x => x.2.stewards.any fun c => cores.contains c).map Prod.fst
    s |> onDie d (fun x => { x with failed := true })
      |> markDie d false 3 false
      |> updates (ringsOfDie s e) (fun r s =>
          let g := ringOf s r
          s |> journalFrom (ringPc (moduleNumber s) r) 0xA005 2 0 false [u8 g.owner, u16 r, u32 g.head]
            |> postWaiting? g.stopLb 0x0107 eNotFound []
            |> freeRing r)
      |> updates hs (fun h s => losePh h 398 (mgmtPc (moduleNumber s) e) s)
      |> updates ((List.range 6).map (6 * e + ·)) (fun p s => disablePort p s)
      |> clearDie d
      |> dropPackets (· == d)
      |> journal 0xA005 2 0 true [u8 e]
      |> modEvent 3
      |> mapAdd [mapEntry 0x08 d 0 0 0 0]
      |> when (e == 0) (fun s => unplannedFailover (linkDown 0 s))
      |> when (e == 8) (fun s =>
          let s := linkDown 1 s
          if s.post.onE8 then s else journal 0x4003 2 0 true [] (onPost (fun p => { p with standby := false }) s))

/-! ### Wires (R21) -/

/-- The tiles that a frond's mesh reaches from some tiles on, as a mask. -/
def meshReach (s : State) (f : Nat) : Nat → List Nat → Nat → Nat
  | 0, _, seen => seen
  | _, [], seen => seen
  | fuel + 1, t :: rest, seen =>
    let new := (List.range 4).filterMap fun k => match beyond f t k with
      | .tile u => if !seen.testBit u && linkUp s f (4 * t + k) && linkUp s f (4 * u + (k + 2) % 4) then some u else none
      | _ => none
    meshReach s f fuel (new ++ rest) (new.foldl (fun n u => n ||| 2 ^ u) seen)

/-- No tile of the frond is cut off from its hub (R396). -/
def meshWhole (s : State) (f : Nat) : Bool := meshReach s f 320 [149] (2 ^ 149) == 2 ^ 320 - 1

/-- A wire fails in one direction of a link: its group's spare takes over, or with the spare in use the link leaves service; a mesh link
whose loss cuts a tile off is a mesh fault, which fences the frond (R396). -/
def wireFail (d link group wire : Nat) (inbound : Bool) (s : State) : State :=
  let n := linkName d link inbound
  let bad := (dieOf s n.1).badWires
  let t := badWire d link group wire inbound s
  if (dieOf s n.1).linksOut.contains n.2.1
      ∨ bad.contains { link := n.2.1, group := group, wire := wire, inbound := n.2.2 } then s
  else if groupUsed s n.1 n.2.1 group n.2.2 then
    t |> journalRule 10 2 1 true 21 [u8 d, u16 link, u8 group, u8 wire]
      |> mapAdd [mapEntry 0x02 n.1 n.2.1 0 0 0]
      |> fun u => if n.1 < 84 ∧ linkDies n.1 n.2.1 = [n.1] ∧ !meshWhole u n.1 then fence n.1 true u else u
  else
    t |> journalRule 10 0 1 false 21 [u8 d, u16 link, u8 group, u8 wire]
      |> mapAdd [mapEntry 0x01 n.1 n.2.1 group wire (b2n n.2.2)]

end Sys2Proof.Machine
end

