-- ==== Sys2Proof/Machine/Governor.lean ====
section
/-! DEFINITION. The power governor (R23, R45–R57, R59): the ladder with its entry and exit sequences, the drop on an input
failure, budgets and issue fractions, and clock changes. -/

namespace Sys2Proof.Machine

/-! ### Requests (R46, R47, R52) -/

/-- Sensor 0x0401's code of an outcome (R415); it has none for "not permitted". -/
def outcomeCode (e : Nat) : Option Nat :=
  if e = 0 then some 0 else if e = eSuperseded then some 1 else if e = eBusy then some 2 else if e = eTimeout then some 3
  else if e = eEnableLow then some 4 else if e = eSafe then some 5 else none

/-- Sensor 0x0401 after a PLDM request: a free value where R415 gives no code. -/
def setLastPldm (e : Nat) (s : State) : State :=
  match outcomeCode e with
  | some c => onPower (fun p => { p with lastPldm := c }) s
  | none =>
    let x := freshNat 6 s
    onPower (fun p => { p with lastPldm := x.1 }) x.2

/-- A request has ended, for whoever made it. -/
def requestDone (q : PowerReq) (e : Nat) (s : State) : State :=
  match q.source with
  | .letterbox lb => postWaiting lb 0x0501 e (if e = 0 then pack [u8 (powerCode s)] else []) s
  | .pldm => setLastPldm e s
  | _ => s

/-- Why a request is refused at once: ENABLE is low (R52), or a state above P3 with one input only (R74 step B1, DEDUCED). -/
def requestError (s : State) (target : Nat) : Option Nat :=
  if target < 4 ∧ (!s.power.enable ∨ s.power.latchPending) then some eEnableLow
  else if target < 3 ∧ !(s.power.inA && s.power.inB) then some eNotPermitted
  else none

/-- Hold a request, replacing one that has not started (R47). -/
def requestPower (q : PowerReq) (s : State) : State :=
  let old := s.power.pending
  let s := onPower (fun p => { p with pending := some q }) s
  match old with
  | some o => requestDone o eSuperseded s
  | none => s

/-- A state is reached (R46): journalled and shown as an event. -/
def reachState (n : Nat) (s : State) : State :=
  s |> onPower (fun p => { p with state := some n }) |> journal 0x1001 4 0 false [u8 n] |> fnEventAll 0 |> modEvent 0

/-! ### Entry steps (R49) -/

def restateAll (s : State) : State := updates (s.rings.map Prod.fst) (fun r s => ringRestate r s) s

/-- Step 4: every ring stops at its next descriptor boundary. -/
def holdRings (on : Bool) (s : State) : State := restateAll (onPower (fun p => { p with ringsHeld := on }) s)

/-- Fronds that the ladder may power: those neither failed nor fenced. -/
def liveFronds (s : State) : List Nat := allFronds.filter (dieUp s)

/-- Steps 6 and 7: ports to Keep-alive, steward cores halted, fronds marked unreachable and their clocks stopped. -/
def enterP2 (s : State) : State :=
  let s := onPower (fun p => { p with portsKept := true }) s
  s |> updates (List.range 96) (fun p s => kaBegin p s)
    |> updates (s.res.stewards.map Prod.fst) (fun c s => onSteward c (fun x => { x with parked := true }) s)
    |> updates (liveFronds s) (fun f s => markDie f false 2 false s)
    |> onPower (fun p => { p with frondClocksOn := false })
    |> reachState 2

/-- A pigeonhole at step 8 (R348): Suspended, or Lost with the release option. -/
def suspendPh (release : Bool) (h : Nat) (s : State) : State :=
  match phOf s h with
  | none => s
  | some p =>
    let s := dropLoadTags h (fun _ => true) (dropQueued h s)
    if release then
      (if p.state = .lost ∨ p.state = .evicting then s else phLose h 348 s)
    else if p.state = .resident ∨ p.state = .loading then
      s |> onPh h (fun p => { p with loads := [], cancel := none, lb := none })
        |> updates p.stewards (fun c s => onSteward c (fun x => { x with running := false }) s)
        |> phEnter h .suspended 348 false
        |> postWaiting? p.lb 0x0304 eTimeout []
    else s

/-- An unpowered frond has no budget (R55). -/
def dropBudgets (s : State) : State := updates (s.power.fronds.map Prod.fst) (fun f s => onFrondPower f (fun x => { x with budget := 0 }) s) s

/-- Step 8: residents are recorded, their stamps cleared, and the fronds are switched off. -/
def enterP3 (release : Bool) (s : State) : State :=
  let hs := (sortBy (fun a b => decide (a.2.order < b.2.order)) s.res.phs).map Prod.fst
  let s := updates hs (suspendPh release) s
  let rec_ := hs.filter fun h => match phOf s h with | some p => p.state == .suspended | none => false
  s |> onPower (fun p => { p with recorded := rec_, frondsOn := false }) |> dropBudgets
    |> dropPackets (fun d => decide (d < 84))
    |> updates allFronds clearDie
    |> reachState 3

/-- Step 9: host links down, lanes idle, edge dies off. -/
def enterP4 (s : State) : State :=
  s |> linkDown 0 |> linkDown 1
    |> updates (List.range 96) disablePort
    |> dropPackets (fun _ => true)
    |> updates allEdges clearDie
    |> updates (List.range 64) (fun c s => zeroRange (stewardKey c 0) (stewardKey c 0 + 2 ^ 21) (onRing (1024 + c) (fun _ => {}) s))
    |> onFabric (fun x => { x with tags := [], relays := [], hops := [] })
    |> reachState 4

/-- Entry from P2 or deeper to a target: the steps that wait for nothing. -/
def enterDeep (target : Nat) (release : Bool) (s : State) : State :=
  let s := if s.power.state = some 2 ∧ 3 ≤ target then enterP3 release s else s
  if s.power.state = some 3 ∧ 4 ≤ target then enterP4 s else s

/-! ### Exit (R50, R51) -/

/-- Edge dies powered with their repair-map entries, host ports and Gulan ports training (steps 1 and 2). -/
def leaveP4 (s : State) : State :=
  let s := reachState 3 (reapplyMap true s)
  s |> trainHost 0 |> trainHost 1
    |> updates ((List.range 96).filter fun p => dieUp s (96 + p / 6)) (fun p s => enablePort p s)

/-- Steps 5 to 7: clocks, reachability, ports and steward cores, and the rings that the postmaster stopped. -/
def leaveP2 (s : State) : State :=
  s |> onPower (fun p => { p with frondClocksOn := true, portsKept := false })
    |> updates (liveFronds s) (fun f s => markDie f true 0 false s)
    |> updates (List.range 96) (fun p s => kaLeave p s)
    |> updates (s.res.stewards.map Prod.fst) (fun c s => onSteward c (fun x => { x with parked := false }) s)
    |> holdRings false
    |> reachState 1

/-- Steps 3 and 4: the frond regulators, and the fronds' repair-map entries. -/
def leaveP3 (s : State) : State := reachState 2 (reapplyMap false (onPower (fun p => { p with frondsOn := true }) s))

/-- Step 8, with the rings that an entry stopped before it failed in P1 (R49, R50). -/
def leaveP1 (s : State) : State :=
  s |> onPower (fun p => { p with arraysGated := false, launchesHeld := false }) |> holdRings false |> reachState 0

/-- The pigeonholes recorded at entry are loaded again in order of creation, with their steward cores' code (R51). -/
def reloadRecorded (s : State) : State :=
  let hs := s.power.recorded
  updates hs (fun h s => match phOf s h with
    | some p =>
      if p.state = .suspended then
        let s := match imageOf s p with | some i => assignCores h i p.stewards s | none => s
        reload h 348 s
      else s
    | none => s) (onPower (fun p => { p with recorded := [] }) s)

/-- Climb from the present state to a shallower target. -/
def exitTo (target : Nat) (s : State) : State :=
  let from_ (s : State) (n : Nat) : Bool := s.power.state == some n && decide (target < n)
  let s := if from_ s 4 then leaveP4 s else s
  let s := if from_ s 3 then leaveP3 s else s
  let s := if from_ s 2 then leaveP2 s else s
  let s := if s.power.state = some 1 then reloadRecorded s else s
  if from_ s 1 then leaveP1 s else s

/-! ### Transitions -/

def setTrans (t : Option Transition) (s : State) : State := onPower (fun p => { p with trans := t }) s

/-- A transition has ended. -/
def transDone (e : Nat) (s : State) : State :=
  match s.power.trans with
  | some t => requestDone t.req e (setTrans none s)
  | none => s

/-- Begin the pending request (R46, R49). -/
def transitionStart (s : State) : State :=
  match s.power.pending, s.power.trans, s.power.state with
  | some q, none, some n =>
    if s.power.boot ≠ .serving then s
    else
      let s := onPower (fun p => { p with pending := none }) s
      match requestError s q.target with
      | some e => requestDone q e s
      | none =>
        let go (st : Step49) (s : State) : State := setTrans (some { req := q, step := st }) s
        if q.target = n then requestDone q 0 s
        else if q.target < n then go .exiting s
        else
          let s := journalRule 1 4 0 false 49 [u8 q.target] (onPower (fun p => { p with launchesHeld := true }) s)
          if n = 0 then go .waitLaunches s
          else if n = 1 then go .waitRings (holdRings true s)
          else transDone 0 (enterDeep q.target q.release (go .waitInflight s))
  | _, _, _ => s

/-- GOVERNOR_TRANSITION (R49). -/
def execGovernorTransition (s : State) : Res := .next (transitionStart s)

/-- Act on a transition that waits at a step. -/
def atStep (st : Step49) (f : PowerReq → State → State) (s : State) : Res :=
  .next (match s.power.trans with
    | some t => if t.step = st then f t.req s else s
    | none => s)

/-- A LAUNCH descriptor that a ring engine has started runs to its end (R49 step 2). -/
def launchStarted (s : State) : Bool :=
  s.rings.any fun e => e.2.started.any fun d => descType d.bytes == 4 && d.status.isNone

/-- ENTRY_LAUNCHES_ENDED (R49 steps 2 and 3): a load in progress counts as a running launch (R348). -/
def execEntryLaunchesEnded (s : State) : Res :=
  atStep .waitLaunches (fun q s =>
    if !s.res.launches.isEmpty ∨ launchStarted s ∨ s.res.phs.any (fun e => e.2.state == .loading) then s
    else
      let s := reachState 1 (onPower (fun p => { p with arraysGated := true }) s)
      if q.target = 1 then transDone 0 s
      else setTrans (some { req := q, step := .waitRings }) (holdRings true s)) s

/-- ENTRY_RINGS_STOPPED (R49 step 4). -/
def execEntryRingsStopped (s : State) : Res :=
  atStep .waitRings (fun q s =>
    if s.rings.any (fun e => e.2.started.any fun d => d.status.isNone) then s
    else setTrans (some { req := q, step := .waitInflight }) s) s

/-- ENTRY_INFLIGHT_ZERO (R49 steps 5 to 9). -/
def execEntryInflightZero (s : State) : Res :=
  atStep .waitInflight (fun q s =>
    if inFlightCount s ≠ 0 then s else transDone 0 (enterDeep q.target q.release (enterP2 s))) s

/-- Fail the running request and return to P0 (R49). -/
def transFail (e : Nat) (s : State) : State :=
  let s := transDone e s
  let q : PowerReq := { target := 0, release := false, waitMs := 10, source := .input }
  if s.power.state = some 0 then holdRings false (onPower (fun p => { p with launchesHeld := false }) s)
  else setTrans (some { req := q, step := .exiting }) s

/-- WAIT_LIMIT_EXPIRY (R49): step 2 or step 4 has exceeded the wait limit. -/
def execWaitLimitExpiry (s : State) : Res :=
  .next (match s.power.trans with
    | some t => if t.step = .waitLaunches ∨ t.step = .waitRings then transFail eBusy s else s
    | none => s)

/-- TRANSITION_TIMEOUT (R49): another step has exceeded its bound. -/
def execTransitionTimeout (s : State) : Res :=
  .next (match s.power.trans with
    | some t => if t.step = .waitInflight ∨ t.step = .exiting then
        transFail eTimeout (journalRule 1 3 0 false 49 [u8 t.req.target] s) else s
    | none => s)

/-- EXIT_SEQUENCE (R50, R51). -/
def execExitSequence (s : State) : Res :=
  atStep .exiting (fun q s => transDone 0 (exitTo q.target s)) s

/-! ### Input failure (R23) -/

/-- The drop to P3: no step waits; launches end "return to sender" (DESIGN CHOICE), and a running transition ends "superseded"
(DESIGN CHOICE). -/
def dropToP3 (s : State) : State :=
  let s := transDone eSuperseded s
  match s.power.state with
  | some n =>
    if s.power.boot ≠ .serving ∨ 3 ≤ n then s
    else
      let s := updates (s.res.phs.map Prod.fst) (fun h s =>
        let f := match phOf s h with | some p => nth 0 (phFronds p) 0 | none => 0
        returnAll h (frondCtlPc (moduleNumber s) f) s) s
      let s := onPower (fun p => { p with launchesHeld := true, arraysGated := true }) s
      let s := if n ≤ 1 then enterP2 (holdRings true (if n = 0 then reachState 1 s else s)) else s
      enterP3 false s
  | none => s

/-- An input falls below 40 V: journalled, and above P4 the module drops to P3. -/
def inputLost (input : Nat) (s : State) : State :=
  s |> onPower (fun p => if input = 0 then { p with inA := false } else { p with inB := false })
    |> journal 0x2001 2 0 true [u8 input]
    |> dropToP3

def onInput (input : Nat) (f : State → State) (s : State) : Res :=
  if input < 2 then .next (if postUp s then f s else s) else .next s

/-- BUS_BAR_INPUT_FAIL (R23). -/
def execBusBarInputFail (input : Nat) (s : State) : Res := onInput input (inputLost input) s

/-! ### Budgets (R55–R57) -/

/-- Base power in W of a frond at a clock (chapter 3, Limits). -/
def basePower (mhz : Nat) : Rat :=
  if mhz ≤ 900 then 40 + (mhz - 500 : Nat) * (20 / 400 : Rat) else 60 + (mhz - 900 : Nat) * (30 / 400 : Rat)

/-- A frond's clock change runs for its bound of 50 µs (R59, DESIGN CHOICE, assumption 50). -/
def clockChanging (s : State) (f : Nat) : Bool :=
  let x := frondPowerOf s f
  x.clockMhz != x.oldClockMhz && decide (s.time.rackTime < x.changedAt + ticksUs 50)

/-- The base power of a frond at its clock, or at the higher of the old and the new one until a change ends (chapter 3). -/
def frondBase (s : State) (f : Nat) : Rat :=
  let x := frondPowerOf s f
  basePower (if clockChanging s f then max x.clockMhz x.oldClockMhz else x.clockMhz)

/-- Fronds with a budget: in service and powered. -/
def budgetFronds (s : State) : List Nat := if s.power.frondsOn then frondsInService s else []

def sumRat (l : List Nat) (f : Nat → Rat) : Rat := l.foldl (fun n x => n + f x) 0

/-- The budgets of R55, with the excess over 700 W shared once by weight. -/
def budgetsOf (s : State) : List (Nat × Rat) :=
  let fs := budgetFronds s
  let w (f : Nat) : Rat := ((frondPowerOf s f).weight : Rat)
  let total := sumRat fs w
  let spare := poolNow s.power - sumRat fs (frondBase s)
  let raw (f : Nat) : Rat := frondBase s f + (if total = 0 then 0 else spare * w f / total)
  let capped := fs.filter fun f => decide (700 < raw f)
  let rest := fs.filter fun f => !decide (700 < raw f)
  let excess := sumRat capped fun f => raw f - 700
  let restW := sumRat rest w
  fs.map fun f =>
    (f, if 700 < raw f then 700 else if restW = 0 then raw f else min 700 (raw f + excess * w f / restW))

/-- Trim the pool by the input power of the past 1 ms (R57). -/
def trimPool (p : Power) : Power :=
  if 31500000 < p.inputMw then { p with pool := p.pool * 99 / 100 }
  else if p.inputMw < 30000000 ∧ p.pool < 28320 then { p with pool := min 28320 (p.pool * 101 / 100) }
  else p

/-- BUDGET_UPDATE (R55, R57): the input power is in mW; an invalid reading trims nothing. -/
def budgetUpdate (input : Nat) (valid : Bool) (s : State) : State :=
  let s := onPower (fun p => { p with inputBad := p.inputBad && !valid }) s
  let s := if valid then onPower (fun p => trimPool { p with inputMw := input }) s else s
  if s.power.state ≠ some 0 then s
  else
    updates (budgetsOf s) (fun b s => onFrondPower b.1 (fun f => { f with budget := b.2 }) s) s

def execBudgetUpdate (input : Nat) (inputValid : Bool) (s : State) : Res := .next (budgetUpdate input inputValid s)

/-- One frond's step of the issue fraction (R56). -/
def issueStep (f : FrondPower) (mw : Nat) : FrondPower :=
  let p : Rat := (mw : Rat) / 1000
  { f with
    powerMw := mw, monitorBad := false
    issue := if f.budget < p then max (f.issue - 4) 1 else if p < f.budget * 98 / 100 then min (f.issue + 1) 64 else f.issue }

/-- GOVERNOR_TICK (R56): each frond's 10 µs power in mW, in P0; a frond without a valid reading keeps its fraction. -/
def governorTick (powers : List (Option Nat)) (s : State) : State :=
  if s.power.state ≠ some 0 then s
  else
    updates (budgetFronds s) (fun f s => match powers[f]? with
      | some (some mw) => onFrondPower f (fun x => issueStep x mw) s
      | _ => s) s

def execGovernorTick (powers : List (Option Nat)) (s : State) : Res := .next (governorTick powers s)

/-- FAST_GUARD (R56): 2 µs input power in mW. -/
def execFastGuard (input : Nat) (s : State) : Res :=
  .next (if 34000000 < input then
    updates allFronds (fun f s => onFrondPower f (fun x => { x with issue := min x.issue 32 }) s) s else s)

/-- The gate of a frond: the lower of the governor's fraction and the thermal limit (R56, R401). -/
def gateOf (f : FrondPower) : Nat := min f.issue f.thermalLimit

/-- POWER_MONITOR_FAIL (chapter 3, Faults): a frond's monitor, or with `none` the input monitor. -/
def execPowerMonitorFail (frond : Option Nat) (s : State) : Res :=
  match frond with
  | none => .next (journal 0x1006 2 0 true [u8 0xFF] (onPower (fun p => { p with inputBad := true }) s))
  | some f =>
    if 84 ≤ f then .next s
    else .next (journal 0x1006 2 0 true [u8 f] (onFrondPower f (fun x => { x with monitorBad := true, issue := 1 }) s))

/-! ### Clocks (R59) -/

def setClock (mhz : Nat) (f : Nat) (s : State) : State :=
  onFrondPower f (fun x => { x with oldClockMhz := x.clockMhz, clockMhz := mhz, changedAt := s.time.rackTime }) s

/-- CLOCK_LOCK_FAIL (R59): back to the old frequency; a second failure fences the frond. -/
def execClockLockFail (frond : Nat) (retryOk : Bool) (s : State) : Res :=
  if 84 ≤ frond then .next s
  else
    let s := journal 0x1005 2 0 false [u8 frond] (onFrondPower frond (fun x => { x with clockMhz := x.oldClockMhz }) s)
    .next (if retryOk then s else fence frond false s)

/-! ### Commands 0x0501–0x0504 -/

/-- POWER_REQUEST (R46, R47, R124): a wait limit of 0 is 10 ms. -/
def powerRequest (who : Option Nat) (a : List Byte) (s : State) : CmdOut :=
  let t := arg 0x0501 a 0
  match requestError s t with
  | some e => err e s
  | none =>
    .wait (requestPower { target := t, release := arg 0x0501 a 1 == 1
                          waitMs := if arg 0x0501 a 2 = 0 then 10 else arg 0x0501 a 2, source := .letterbox (who.getD 0) } s)

def execPowerRequest (lb : Nat) (s : State) : Res := runCmd 0x0501 anyArgs powerRequest lb s

/-- The pending target that POWER_QUERY shows: the request waiting, else the one carried out, else 0xFF (DEDUCED). -/
def pendingTarget (s : State) : Nat :=
  match s.power.pending, s.power.trans with
  | some q, _ => q.target
  | none, some t => t.req.target
  | none, none => 0xFF

def powerQueryBytes (s : State) : List Byte :=
  pack [u8 (powerCode s), u8 (pendingTarget s), u32 (poolNow s.power).floor.toNat, u32 (s.power.inputMw / 1000)]

def execPowerQuery (lb : Nat) (s : State) : Res := runCmd 0x0502 anyArgs (fun _ _ s => .done 0 (powerQueryBytes s) s) lb s

/-- FROND_CLOCK_SET (R59): 0xFF passes over fenced fronds (DEDUCED). -/
def frondClockSet (_ : Option Nat) (a : List Byte) (s : State) : CmdOut :=
  let f := arg 0x0503 a 0
  let mhz := arg 0x0503 a 1
  if f = 0xFF then ok0 (updates (frondsInService s) (setClock mhz) s)
  else if !dieUp s f then err eNotFound s
  else ok0 (setClock mhz f s)

def execFrondClockSet (lb : Nat) (s : State) : Res := runCmd 0x0503 anyArgs frondClockSet lb s

/-- GOV_WEIGHT_SET (R55). -/
def govWeightSet (_ : Option Nat) (a : List Byte) (s : State) : CmdOut :=
  let f := arg 0x0504 a 0
  ok0 (updates (if f = 0xFF then allFronds else [f]) (fun f s => onFrondPower f (fun x => { x with weight := arg 0x0504 a 1 }) s) s)

def execGovWeightSet (lb : Nat) (s : State) : Res := runCmd 0x0504 anyArgs govWeightSet lb s

end Sys2Proof.Machine
end

