-- ==== Sys2Proof/Machine/Faults.lean ====
section
/-! DEFINITION. Errors that the module finds in itself: the scrub and its thresholds (R389, R390), parity errors, self-checks,
automatic retirement (R394), failed dies and wires, the journal's page writes (R406) and key-phase expiry (R195). -/

namespace Sys2Proof.Machine

/-! ### Scrub (R389, R390) -/

/-- Words of the memories by their cell address divided by 8; words from 2^57 on stand for a die's other stores, whose contents are
not kept in bytes (R384). -/
def otherStores : Nat := 2 ^ 57

/-- The unit that holds a word of the byte memories. -/
def wordUnit (s : State) (w : Nat) : Option Postcode :=
  let k := 8 * w
  let m := moduleNumber s
  if k < 84 * 320 * 2 ^ 20 then some (scratchPc m (k / 2 ^ 20 / 320) (k / 2 ^ 20 % 320))
  else if 2 ^ 40 ≤ k ∧ k < 2 ^ 40 + 84 * 2 ^ 27 ∧ (k - 2 ^ 40) % 2 ^ 27 < fieldStoreBytes then
    some (fieldStorePc m ((k - 2 ^ 40) / 2 ^ 27))
  else if 2 ^ 50 ≤ k ∧ k < 2 ^ 50 + 64 * 2 ^ 21 then some (stewardPc m ((k - 2 ^ 50) / 2 ^ 21))
  else none

/-- The die that a word of the byte memories lies on (R13, R322). -/
def wordDie (w : Nat) : Option Nat :=
  let k := 8 * w
  if k < 84 * 320 * 2 ^ 20 then some (k / 2 ^ 20 / 320)
  else if 2 ^ 40 ≤ k ∧ k < 2 ^ 40 + 84 * 2 ^ 27 ∧ (k - 2 ^ 40) % 2 ^ 27 < fieldStoreBytes then some ((k - 2 ^ 40) / 2 ^ 27)
  else if 2 ^ 50 ≤ k ∧ k < 2 ^ 50 + 64 * 2 ^ 21 then some (96 + (k - 2 ^ 50) / 2 ^ 21 / 4)
  else none

/-- The word is one of the die's. -/
def wordOnDie (d w : Nat) : Bool :=
  match wordDie w with
  | some d' => d' == d
  | none => decide (otherStores ≤ w)

/-- Words of the byte memories of a die. -/
def wordsOfDie (d : Nat) : Nat := if d < 84 then (320 * 2 ^ 20 + fieldStoreBytes) / 8 else 4 * 2 ^ 21 / 8

/-- A die is powered. -/
def powered (s : State) (d : Nat) : Bool :=
  if d < 84 then s.power.frondsOn && !(dieOf s d).meshOff
  else match s.power.boot with
    | .waves _ | .retried | .safe => true
    | .serving => s.power.state != some 4 || d == 96 || d == 104
    | .standby => d == 96 || d == 104
    | _ => false

/-- The scrub has read one more word; a pass ends with the last. -/
def countScrub (d : Nat) (s : State) : State :=
  if wordsOfDie d ≤ (dieOf s d).scrubbed + 1 then countEcc d 4 1 (onDie d (fun x => { x with scrubbed := 0 }) s)
  else onDie d (fun x => { x with scrubbed := x.scrubbed + 1 }) s

/-- What the scrub finds in a word, with an error that the word already holds. -/
def scrubFinds (s : State) (w : Nat) : ScrubFinding → ScrubFinding
  | .good => (match markOf s w with | some .correctable => .correctable | some .uncorrectable => .uncorrectable | _ => .good)
  | .correctable => (match markOf s w with | some .uncorrectable => .uncorrectable | _ => .correctable)
  | .uncorrectable => .uncorrectable

/-- SRAM_SCRUB. -/
def scrub (d w : Nat) (found : ScrubFinding) (s : State) : State :=
  if !powered s d ∨ (dieOf s d).failed then s
  else
    let s := if w < otherStores then countScrub d s else s
    if markOf s w = some .poison then s
    else
      match scrubFinds s w found with
      | .good => s
      | .correctable => countCorrection d w (clearMark w s)
      | .uncorrectable =>
        match wordUnit s w with
        | some pc => foundUncorrectable pc w s
        | none => s |> countEcc d 1 1 |> countEcc d 2 1 |> journalFrom (dieCtlPc (moduleNumber s) d) 0xA001 1 1 false []

def execSramScrub (die word : Nat) (found : ScrubFinding) (s : State) : Res :=
  if isDie die && wordOnDie die word then .next (scrub die word found s) else .next s

/-- ECC_THRESHOLD: the window in which a threshold was crossed ends with the record. -/
def eccThreshold (d : Nat) (s : State) : State :=
  let x := dieOf s d
  if 1000 < x.recentCorrections ∨ x.corrections.any (fun e => decide (3 ≤ e.2)) then
    s |> onDie d (fun x => { x with recentCorrections := 0, corrections := [] })
      |> journalFrom (dieCtlPc (moduleNumber s) d) 0xA002 0 1 true [u8 d]
  else s

def execEccThreshold (die : Nat) (s : State) : Res :=
  if isDie die then .next (eccThreshold die s) else .next s

/-! ### Automatic retirement (R394) -/

/-- A word of a tile's scratchpad was found uncorrectable twice with a full-word write between. -/
def foundTwice (s : State) (f t : Nat) : Bool :=
  (dieOf s f).wordFinds.any fun e => e.2 == 3 && decide (scratchKey f t 0 / 8 ≤ e.1 ∧ e.1 < scratchKey f (t + 1) 0 / 8)

def autoRetire (f t : Nat) (s : State) : State :=
  if (dieOf s f).retired.contains t ∨ (tget 0 (dieOf s f).tileFaults t < 3 ∧ !foundTwice s f t) then s
  else
    s |> onDie f (fun x => { x with
          tileFaults := terase x.tileFaults t
          wordFinds := x.wordFinds.filter fun e => !decide (scratchKey f t 0 / 8 ≤ e.1 ∧ e.1 < scratchKey f (t + 1) 0 / 8) })
      |> retireTile f t

/-- TILE_AUTO_RETIRE (R394). -/
def execTileAutoRetire (frond tile : Nat) (s : State) : Res :=
  if frond < 84 ∧ tile < 320 then .next (autoRetire frond tile s) else .next s

/-! ### Dies and wires -/

/-- EDGE_DIE_FAILURE (R398). -/
def execEdgeDieFailure (edge : Nat) (s : State) : Res :=
  if edge < 16 then .next (edgeDieFail edge s) else .next s

/-- WIRE_FAILURE (R21). -/
def execWireFailure (die link : Nat) (group : WireGroup) (wire : Nat) (s : State) : Res :=
  if isDie die ∧ link < linkCount die ∧ group.index < 8 ∧ wire < groupWires die link then
    .next (wireFail die link group.index wire group.inbound s)
  else .next s

/-- A die is fenced, whichever its kind. -/
def fenceDie (d : Nat) (s : State) : State := if d < 84 then fence d false s else edgeDieFail (d - 96) s

/-- CONTACT_IMBALANCE (chapter 1, Faults). -/
def contactImbalance (d : Nat) (within : Bool) (s : State) : State :=
  s |> onDie d (fun x => { x with contactsBad := true })
    |> journalRule 10 2 0 true 24 [u8 d, u8 (b2n within)]
    |> when (!within) (fenceDie d)

def execContactImbalance (die : Nat) (withinLimits : Bool) (s : State) : Res :=
  if isDie die then .next (contactImbalance die withinLimits s) else .next s

/-- CRYPTO_SELF_CHECK (R193). -/
def execCryptoSelfCheck (frond : Nat) (passed : Bool) (s : State) : Res :=
  if 84 ≤ frond then .next s
  else if passed ∨ !dieUp s frond then .next s
  else .next (fence frond false (journalFrom (hubUnit (moduleNumber s) frond 0xD) 0x5FFF 2 1 true [u16 193, u8 frond] s))

/-- Engines of a frond that check themselves: copy 0–3, select 0–1, atomic, spectral (R31). -/
def selfChecking (u : Nat) : Bool := decide (4 ≤ u ∧ u ≤ 0xA) || u == 0xC

/-- ENGINE_ERROR (chapters 15 and 17, Faults). -/
def execEngineError (frond unit : Nat) (s : State) : Res :=
  if 84 ≤ frond ∨ !selfChecking unit then .next s
  else if !dieUp s frond then .next s
  else .next (fence frond false (journalFrom (hubUnit (moduleNumber s) frond unit) 0x8FFF 2 1 true [u16 396, u8 frond, u8 unit] s))

/-! ### Keys and parity -/

/-- LINK_KEY_PHASE_EXPIRY (R195). -/
def execLinkKeyPhaseExpiry (slot : Nat) (s : State) : Res :=
  if slot < 160 ∨ 224 ≤ slot then .next s
  else .next (match tfind s.fabric.keys slot with
    | some k => onFabric (fun x => { x with keys := tset x.keys slot { k with previous := none, switchedRecently := false } }) s
    | none => s)

/-- Drop the `i`-th held packet of a die that an error has reached: its sender's descriptor ends "return to sender" (R309). -/
def dropHold (d i : Nat) (s : State) : State :=
  match (dieOf s d).holds[i]? with
  | some f => onDie d (fun x => { x with holds := x.holds.eraseIdx i, runs := x.runs.filter fun y => !pktRunMatch f.pkt y }) s
  | none => s

/-- A run count that is lost takes its held packets with it. -/
def dropRun (d i : Nat) (s : State) : State :=
  match (dieOf s d).runs[i]? with
  | some r => onDie d (fun x => { x with
      runs := x.runs.eraseIdx i, holds := x.holds.filter fun f => !pktRunMatch f.pkt r }) s
  | none => s

/-- A pin is refreshed from its page table. -/
def refreshPin (i : Nat) (s : State) : State :=
  match s.xlat.pins[i]? with
  | none => s
  | some p =>
    if p.programmed.isSome then s
    else
      let id := s.xlat.nextWait
      let s := onXlat (fun x => { x with
        nextWait := id + 1, pins := x.pins.set i { p with leaf := none } }) s
      match startWalk (postUnit s) p.ctx p.va false true (.refresh id p.va) s with | some s => s | none => s

/-- A link slot's or memory slot's copy in one crypto unit: a link slot is rewritten at once where another copy is good. -/
def keyParity (d slot : Nat) (s : State) : State :=
  let copy := allFronds.any fun f => f != d && dieUp s f && !(dieOf s f).badKeys.contains slot
  if 160 ≤ slot ∧ copy then s
  else onDie d (fun x => { x with badKeys := if x.badKeys.contains slot then x.badKeys else slot :: x.badKeys }) s

/-- PARITY_ERROR: what each store does with an entry found bad. -/
def parityError (k : ParityKind) (d i : Nat) (s : State) : State :=
  let log (area rule : Nat) (s : State) : State :=
    journalFrom (dieCtlPc (moduleNumber s) d) (area * 4096 + 0xFFF) 1 1 false [u16 rule, u8 d, u32 i] s
  match k with
  | .lock => log 5 188 (onDie d (fun x => { x with badLocks := if x.badLocks.contains i then x.badLocks else i :: x.badLocks }) s)
  | .keySlot => log 5 193 (keyParity d i s)
  | .routeTable => log 7 271 (onFabric (fun x => { x with
      badEntries := if x.badEntries.contains d then x.badEntries else d :: x.badEntries }) s)
  | .queueEntry => onDie d (fun x => { x with
      dead := x.dead.map fun e => if e.sequence % 32 = i then { e with bad := true } else e }) s
  | .tlb => log 5 173 (onUnit d (fun u =>
      if i < tlbSize d then { u with tlb := u.tlb.eraseIdx i } else { u with dtc := u.dtc.eraseIdx (i - tlbSize d) }) s)
  | .mirror => log 5 175 (onUnit d (fun u => { u with mirror := u.mirror.eraseIdx i }) s)
  | .pin => log 5 172 (refreshPin i s)
  | .spectralTable => onDie d (fun x => { x with badSlots := if x.badSlots.contains i then x.badSlots else i :: x.badSlots }) s
  | .runCount => log 8 296 (dropRun d i s)
  | .holdBuffer => log 8 297 (dropHold d i s)
  | .tally => log 8 293 (onDie d (fun x => { x with tallies := tmod {} x.tallies i fun t => { t with bad := true } }) s)

/-- Entries of a store on a die. -/
def parityRange (k : ParityKind) (d : Nat) : Nat :=
  match k with
  | .lock => if d < 84 then 368 else 0
  | .keySlot => if d < 84 then 224 else 0
  | .routeTable => 4096
  | .queueEntry => 32
  | .tlb => tlbSize d + dtcSize d
  | .mirror => mirrorSize d
  | .pin => 16384
  | .spectralTable => if d < 84 then 64 else 0
  | .runCount => if d < 84 then 4096 else 1024
  | .holdBuffer => if d < 84 then 64 else 16
  | .tally => tallyCount d

def execParityError (kind : ParityKind) (die index : Nat) (s : State) : Res :=
  if isDie die ∧ index < parityRange kind die then .next (parityError kind die index s) else .next s

/-! ### Journal pages (R406) -/

/-- JOURNAL_FLUSH: the page is written; a write that fails its verification leaves its records to the next one. -/
def journalFlush (ok : Bool) (s : State) : State :=
  if !postUp s ∨ s.post.journal.unwritten = 0 then s
  else if !ok then mramFailed (b2n s.post.onE8) s
  else onPost (fun p => { p with journal := { p.journal with
    unwritten := 0, pageRecs := p.journal.pageRecs % 7, sequence := (p.journal.sequence + 1) % 2 ^ 32 } }) s

def execJournalFlush (mramOk : Bool) (s : State) : Res := .next (journalFlush mramOk s)

end Sys2Proof.Machine
end

