-- ==== Sys2Proof/Machine/Discovery.lean ====
section
/-! DEFINITION. Discovery (R368–R374): HELLO, the election, REPORTs, the root's numbering and checks, ASSIGN, COMMIT and FAIL,
and the command DISCOVERY_START. -/

namespace Sys2Proof.Machine

def ownIdentity : Nat := Config.deviceIdentity % 2 ^ 64

/-! ### Sending -/

/-- A discovery message out of a port (R369): the management processor behind the port sends it. -/
def sendDiscovery (p op : Nat) (fields : List (Nat × Fld)) (s : State) : State :=
  let pkt := mkControl op 0 (mgmtPc (moduleNumber s) (p / 6)) {} fields
  addFlight { pkt with postmark := postmark s.time } (.egress p) .none s

/-- The attachment of one of this module's ports (R366, R369). -/
def ownAttachment (p : Nat) : Nat :=
  if portClass p = 2 then (if optIndex p < 30 then optIndex p / 5 else 6) else 0xFF

/-- Ports in Active. -/
def activePorts (s : State) : List Nat := tkeys (fun (x : Port) => x.state == .active) s.fabric.ports

/-- A HELLO's arguments. -/
def helloFields (s : State) (p : Nat) : List (Nat × Fld) :=
  let d := s.disc
  [(0x18, u64 ownIdentity), (0x20, u64 d.root.identity), (0x28, u16 d.root.epoch), (0x2A, u16 d.distance), (0x2C, u8 0)
  , (0x2D, u8 d.root.priority), (0x2E, u8 p), (0x2F, u8 (ownAttachment p)), (0x30, u16 0xFFFF)
  , (0x32, u16 (if d.assigned then d.number else 0xFFFF)), (0x34, u32 0), (0x38, u8 d.parent)]

/-- HELLO_SEND (R369): none from a die whose agent is being reloaded (R399). -/
def execHelloSend (s : State) : Res :=
  .next (updates ((activePorts s).filter fun p => !(reloadingDies s).contains (p / 6)) (fun p s => sendDiscovery p 0x10 (helloFields s p) s) s)

/-! ### Epochs (R370, R373) -/

/-- The order of root candidates. -/
def rootBetter (a b : Root) : Bool :=
  after16 a.epoch b.epoch || (a.epoch == b.epoch
    && (decide (a.priority < b.priority) || (a.priority == b.priority && decide (a.identity < b.identity))))

def newest (a b : Nat) : Nat := if after16 a b then a else b

/-- An epoch that this module takes part in begins or ends without a number: a waiting DISCOVERY_START ends "timeout" and the
journal holds the reason (R372, R373). -/
def abandon (reason : Nat) (s : State) : State :=
  let lb := s.disc.lb
  s |> onDisc (fun d => { d with step := .idle, mine := none, held := false, lb := none, plan := [], acks := [] })
    |> journal 0x9003 4 2 true [u8 reason]
    |> postWaiting? lb 0x040B eTimeout []

/-- Start or join an epoch with this module as its own candidate. -/
def beginEpoch (epoch priority : Nat) (s : State) : State :=
  let s := if s.disc.step = .idle then s else abandon 0x06 s
  onDisc (fun d => { d with
    step := .electing, root := { epoch := epoch, priority := priority, identity := ownIdentity }
    highest := newest epoch d.highest, distance := 0, parent := 0xFF, neighbours := [], via := [], reports := []
    plan := [], acks := [], mine := none, held := false, late := [] }) s

/-- DISCOVERY_START (R373). -/
def discoveryStart (who : Option Nat) (a : List Byte) (s : State) : CmdOut :=
  let s := beginEpoch ((s.disc.highest + 1) % 65536) 0 s
  .wait (onDisc (fun d => { d with lb := who, mode := arg 0x040B a 0 }) s)

def execDiscoveryStart (lb : Nat) (s : State) : Res := runCmd 0x040B anyArgs discoveryStart lb s

/-! ### HELLO -/

def readNeighbour (q : Pkt) : Neighbour :=
  { identity := ctlArg q 0x18 8
    root := { identity := ctlArg q 0x20 8, epoch := ctlArg q 0x28 2, priority := ctlArg q 0x2D 1 }
    distance := ctlArg q 0x2A 2, role := ctlArg q 0x2C 1, port := ctlArg q 0x2E 1, attachment := ctlArg q 0x2F 1
    member := ctlArg q 0x30 2, number := ctlArg q 0x32 2, capacity := ctlArg q 0x34 4
    child := ctlArg q 0x38 1 == ctlArg q 0x2E 1 }

/-- The number that R378 compares with is the one the partner holds after the commit, which its HELLOs tell. -/
def recordNumber (n : Neighbour) (x : Port) : Port :=
  if x.up ∧ n.number ≠ 0xFFFF then
    { x with recorded := x.recorded.map fun c => { c with postcode := mkPostcode n.number 0 0 0, role := n.role } }
  else x

/-- A HELLO: the neighbour is recorded, a newer epoch joined, and a better root adopted. -/
def hello (p : Nat) (q : Pkt) (s : State) : State :=
  let n := readNeighbour q
  let s := if after16 n.root.epoch s.disc.root.epoch then beginEpoch n.root.epoch 1 s else s
  let old := tfind s.disc.neighbours p
  let done := match old with | some o => o.complete && o.identity == n.identity | none => false
  let s := onDisc (fun d => { d with neighbours := tset d.neighbours p { n with complete := done } }) s
  let s := if s.disc.assigned then onPort p (recordNumber n) s else s
  if s.disc.step = .electing ∧ rootBetter n.root s.disc.root then
    onDisc (fun d => { d with root := n.root, distance := n.distance + 1, parent := p }) s
  else s

/-! ### REPORT -/

def reportFields (epoch : Nat) (r : Report) : List (Nat × Fld) :=
  [(0x18, u64 r.reporter), (0x20, u64 r.neighbour), (0x28, u16 epoch), (0x2A, u8 r.reporterPort)
  , (0x2B, u8 r.neighbourPort), (0x2C, u8 r.role), (0x2D, u8 r.attachment), (0x2E, u8 r.neighbourAttachment)
  , (0x30, u16 r.member), (0x34, u32 r.capacity)]

def readReport (q : Pkt) : Report :=
  { reporter := ctlArg q 0x18 8, neighbour := ctlArg q 0x20 8, reporterPort := ctlArg q 0x2A 1
    neighbourPort := ctlArg q 0x2B 1, role := ctlArg q 0x2C 1, attachment := ctlArg q 0x2D 1
    neighbourAttachment := ctlArg q 0x2E 1, member := ctlArg q 0x30 2, capacity := ctlArg q 0x34 4 }

def isRoot (s : State) : Bool := s.disc.parent == 0xFF

/-- This module's report of one Active port: from the neighbour's HELLO, else from its CAP. -/
def ownReport (s : State) (p : Nat) : Report :=
  let base : Report := { reporter := ownIdentity, neighbour := 0, reporterPort := p, neighbourPort := 0xFF, role := 0
                         attachment := ownAttachment p, neighbourAttachment := 0xFF, member := 0xFFFF, capacity := 0 }
  match tfind s.disc.neighbours p, (portOf s p).cap with
  | some n, _ => { base with neighbour := n.identity, neighbourPort := n.port, neighbourAttachment := n.attachment }
  | none, some c => { base with neighbour := c.identity, neighbourPort := c.physical }
  | none, none => base

/-- A report travels to the parent, or is gathered at the root. -/
def sendReport (r : Report) (s : State) : State :=
  if isRoot s then onDisc (fun d => { d with reports := d.reports ++ [r] }) s
  else sendDiscovery s.disc.parent 0x11 (reportFields s.disc.root.epoch r) s

/-- Children, by port: neighbours on Active ports whose HELLO names this module as parent. -/
def children (s : State) : List Nat :=
  (tkeys Neighbour.child s.disc.neighbours).filter fun p => (portOf s p).state == .active

/-- "Subtree complete" once every child has sent its own; at the root the computation may begin. -/
def checkSubtree (s : State) : State :=
  if s.disc.step = .reporting
      ∧ (children s).all (fun p => match tfind s.disc.neighbours p with | some n => n.complete | none => true) then
    if isRoot s then onDisc (fun d => { d with step := .computing }) s
    else
      s |> onDisc (fun d => { d with step := .assigning })
        |> sendReport { ownReport s 0 with reporterPort := 0xFF, neighbour := 0 }
  else s

/-- ELECTION_QUIET (R371 step D1 to D2). -/
def electionQuiet (s : State) : State :=
  if s.disc.step = .electing then
    s |> onDisc (fun d => { d with step := .reporting })
      |> updates (activePorts s) (fun p s => sendReport (ownReport s p) s)
      |> checkSubtree
  else s

def execElectionQuiet (s : State) : Res := .next (electionQuiet s)

def report (p : Nat) (q : Pkt) (s : State) : State :=
  let r := readReport q
  if ctlArg q 0x28 2 ≠ s.disc.root.epoch then s
  else if r.reporterPort = 0xFF then
    checkSubtree (onDisc (fun d => { d with
      neighbours := d.neighbours.map fun e => if e.1 = p then (p, { e.2 with complete := true }) else e }) s)
  else
    s |> onDisc (fun d => { d with via := (r.reporter, p) :: d.via.filter fun v => v.1 != r.reporter })
      |> sendReport r

/-! ### The root's graph (R366, R368, R372) -/

def idsIn (rs : List Report) : List Nat := (rs.map Report.reporter).eraseDups
def roleIn (rs : List Report) (i : Nat) : Nat := match rs.find? (·.reporter == i) with | some r => r.role | none => 0xFF
def memberIn (rs : List Report) (i : Nat) : Nat := match rs.find? (·.reporter == i) with | some r => r.member | none => 0xFFFF
def modulesIn (rs : List Report) : List Nat := sortBy (fun a b => decide (a < b)) ((idsIn rs).filter fun i => roleIn rs i == 0)

/-- A link between a module and a store or switch. -/
def rackLink (rs : List Report) (r : Report) : Bool := (roleIn rs r.reporter == 0) != (roleIn rs r.neighbour == 0)

/-- Everything joined to a participant by board and copper links. -/
def growRack (rs : List Report) (m : Nat) : List Nat :=
  let links := rs.filter (rackLink rs)
  iterate (fun set_ => links.foldl (fun set_ r =>
    if set_.contains r.reporter ∧ !set_.contains r.neighbour then set_ ++ [r.neighbour]
    else if set_.contains r.neighbour ∧ !set_.contains r.reporter then set_ ++ [r.reporter] else set_) set_)
    (idsIn rs).length [m]

/-- The racks in ascending order of their modules' least identity. -/
def racksIn (rs : List Report) : List (List Nat) :=
  (modulesIn rs).foldl (fun acc m => if acc.any (·.contains m) then acc else acc ++ [growRack rs m]) []

def rackIndex (racks : List (List Nat)) (i : Nat) : Nat := (racks.findIdx? (·.contains i)).getD 0

/-- Positions a module's partners report, 0 for a module with no partner. -/
def positionsIn (rs : List Report) (m : Nat) : List Nat :=
  ((rs.filter fun r => r.reporter == m && rackLink rs r).map Report.neighbourAttachment).eraseDups
def positionIn (rs : List Report) (m : Nat) : Nat := (positionsIn rs m).headD 0

/-- Reason 0x03: an index that disagrees with R366, or a module in two racks. -/
def rackBad (rs : List Report) : Bool :=
  (rs.any fun r => roleIn rs r.reporter == 0 &&
    ((roleIn rs r.neighbour == 1 && !(portClass r.reporterPort == 0 && memberIn rs r.neighbour == r.reporterPort / 6))
    || (roleIn rs r.neighbour == 2
      && !(portClass r.reporterPort == 1 && memberIn rs r.neighbour == cuIndex r.reporterPort % 4))))
  || ((modulesIn rs).any fun m => decide (1 < (positionsIn rs m).length))
  || (racksIn rs).any fun k => k.any fun i => k.any fun j =>
      i != j && roleIn rs i != 0 && roleIn rs i == roleIn rs j && memberIn rs i == memberIn rs j

/-- Torus links: between two modules, by optical direction. -/
def torusLinks (rs : List Report) : List Report :=
  rs.filter fun r => roleIn rs r.reporter == 0 && roleIn rs r.neighbour == 0 && decide (r.attachment ≤ 5)

def opposite (d : Nat) : Nat := if d % 2 = 0 then d + 1 else d - 1

/-- Reason 0x01. -/
def opticsBad (rs : List Report) : Bool :=
  (torusLinks rs).any fun r => r.neighbourAttachment != opposite r.attachment
    || (torusLinks rs).any fun q => q.reporter == r.reporter && q.attachment == r.attachment && q.neighbour != r.neighbour

def nextIn (rs : List Report) (m d : Nat) : Option Nat :=
  ((torusLinks rs).find? fun r => r.reporter == m && r.attachment == d).map Report.neighbour

/-- The length of the ring from a module in a direction: the steps until it returns, or the modules on an open line;
17 for a longer one. -/
def ringLength (rs : List Report) (start d : Nat) : Nat → Nat → Nat → Nat
  | 0, _, n => n
  | fuel + 1, m, n =>
    match nextIn rs m d with
    | none => n
    | some k => if k = start then n else ringLength rs start d fuel k (n + 1)

abbrev Coords := List (Nat × Nat × Nat × Nat)

/-- A step from coordinates in a direction of a torus. -/
def stepFrom (dims : Nat × Nat × Nat) (c : Nat × Nat × Nat) (d : Nat) : Nat × Nat × Nat :=
  let up (v n : Nat) : Nat := if n = 0 then 0 else if d % 2 = 0 then (v + 1) % n else (v + n - 1) % n
  match d / 2 with
  | 0 => (up c.1 dims.1, c.2)
  | 1 => (c.1, up c.2.1 dims.2.1, c.2.2)
  | _ => (c.1, c.2.1, up c.2.2 dims.2.2)

def coordOf (cs : Coords) (m : Nat) : Option (Nat × Nat × Nat) := (cs.find? fun e => e.1 == m).map Prod.snd

/-- Coordinates spread over the torus links from the origin. -/
def spreadCoords (rs : List Report) (dims : Nat × Nat × Nat) (origin : Nat) : Coords :=
  iterate (fun cs => (torusLinks rs).foldl (fun cs r =>
    match coordOf cs r.reporter, coordOf cs r.neighbour with
    | some c, none => cs ++ [(r.neighbour, stepFrom dims c r.attachment)]
    | _, _ => cs) cs) (idsIn rs).length [(origin, 0, 0, 0)]

/-- Reason 0x02. -/
def torusBad (rs : List Report) (dims : Nat × Nat × Nat) (cs : Coords) : Bool :=
  decide (16 < dims.1 ∨ 16 < dims.2.1 ∨ 16 < dims.2.2)
    || (torusLinks rs).any fun r => match coordOf cs r.reporter, coordOf cs r.neighbour with
      | some c, some c' => stepFrom dims c r.attachment != c'
      | _, _ => false

/-- The slot of a participant in its rack, in tree mode. -/
def treeSlot (rs : List Report) (rack : List Nat) (i : Nat) : Nat :=
  match roleIn rs i with
  | 0 =>
    let pos := (rack.filter fun j => roleIn rs j == 0).map (positionIn rs)
    if positionIn rs i ≠ 8 then positionIn rs i
    else ((List.range 8).find? fun q => !pos.contains q).getD 9
  | 1 => 8
  | _ => 10 + memberIn rs i

/-- The slot j of a participant without coordinates, in torus mode. -/
def poolSlot (rs : List Report) (i : Nat) : Nat :=
  match roleIn rs i with
  | 0 => 5
  | 1 => 0
  | _ => 1 + memberIn rs i

/-- The assignments of every participant, root first computed alike with the rest. -/
def planOf (rs : List Report) (mode : Nat) (seconds : Option Nat) : List Assign × (Nat × Nat × Nat) × Coords :=
  let racks := racksIn rs
  let origin := (modulesIn rs).headD 0
  let dims := if mode = 0 then (ringLength rs origin 0 17 origin 1, ringLength rs origin 2 17 origin 1
    , ringLength rs origin 4 17 origin 1) else (0, 0, 0)
  let cs := if mode = 0 then spreadCoords rs dims origin else []
  let one (i : Nat) : Assign :=
    let k := rackIndex racks i
    let pos := if roleIn rs i = 0 then positionIn rs i else 0xFF
    if mode ≠ 0 then
      { identity := i, number := 16 * k + treeSlot rs (nth [] racks k) i, rack := k, position := pos, mode := mode
        seconds := seconds }
    else
      let c := (coordOf cs i).getD (0, 0, 0)
      { identity := i, rack := k, position := pos, mode := 0, seconds := seconds
        number := if (coordOf cs i).isSome then c.1 + 16 * c.2.1 + 256 * c.2.2 else 4095 - 8 * k - poolSlot rs i
        x := c.1, y := c.2.1, z := c.2.2, dimX := dims.1, dimY := dims.2.1, dimZ := dims.2.2 }
  ((idsIn rs).map one, dims, cs)

/-- Reason 0x04: two participants with one number, store members of one set apart, or numbers beyond 4,096. -/
def numbersBad (rs : List Report) (plan : List Assign) (racks : Nat) (mode : Nat) : Bool :=
  (mode != 0 && decide (256 < racks)) || plan.any fun a => decide (4096 ≤ a.number) ||
    plan.any fun b => a.identity != b.identity && a.number == b.number
      && !(roleIn rs a.identity == 1 && roleIn rs b.identity == 1 && a.rack == b.rack)

/-- The first failure reason of R372 that holds. -/
def rootCheck (rs : List Report) (mode : Nat) : Option Nat :=
  let p := planOf rs mode none
  let checks := [(0x01, mode == 0 && opticsBad rs), (0x02, mode == 0 && torusBad rs p.2.1 p.2.2), (0x03, rackBad rs)
    , (0x04, numbersBad rs p.1 (racksIn rs).length mode)]
  (checks.find? Prod.snd).map Prod.fst

/-! ### ASSIGN, COMMIT, FAIL -/

/-- Send a message to every child. -/
def toChildren (op : Nat) (fields : List (Nat × Fld)) (s : State) : State :=
  updates (children s) (fun p s => sendDiscovery p op fields s) s

def failFields (epoch reason : Nat) : List (Nat × Fld) := [(0x18, u16 epoch), (0x1A, u8 reason)]

/-- The root ends the epoch with a FAIL. -/
def rootFail (reason : Nat) (s : State) : State :=
  abandon reason (toChildren 0x15 (failFields s.disc.root.epoch reason) s)

def assignFields (epoch : Nat) (a : Assign) : List (Nat × Fld) :=
  [(0x18, u64 a.identity), (0x20, u16 epoch), (0x22, u16 a.number), (0x24, u16 a.rack), (0x26, u8 a.position), (0x27, u8 a.mode)
  , (0x28, u8 a.x), (0x29, u8 a.y), (0x2A, u8 a.z), (0x2B, u8 a.dimX), (0x2C, u8 a.dimY), (0x2D, u8 a.dimZ)
  , (0x30, u64 (a.seconds.getD (2 ^ 64 - 1)))]

def readAssign (q : Pkt) : Assign :=
  let n := ctlArg q 0x30 8
  { identity := ctlArg q 0x18 8, number := ctlArg q 0x22 2 % 4096, rack := ctlArg q 0x24 2, position := ctlArg q 0x26 1
    mode := ctlArg q 0x27 1, x := ctlArg q 0x28 1, y := ctlArg q 0x29 1, z := ctlArg q 0x2A 1, dimX := ctlArg q 0x2B 1
    dimY := ctlArg q 0x2C 1, dimZ := ctlArg q 0x2D 1, seconds := if n = 2 ^ 64 - 1 then none else some n }

/-- The port toward a participant below this one. -/
def portToward (s : State) (i : Nat) : Option Nat :=
  match s.disc.via.find? fun v => v.1 == i with
  | some v => some v.2
  | none => (s.disc.neighbours.find? fun e => e.2.identity == i).map Prod.fst

def sendAssign (a : Assign) (s : State) : State :=
  match portToward s a.identity with
  | some p => sendDiscovery p 0x12 (assignFields s.disc.root.epoch a) s
  | none => s

/-- Whether an assignment is refused: it changes the number while a pigeonhole exists or a ring runs (R372). -/
def refuses (s : State) (a : Assign) : Bool :=
  a.number != moduleNumber s && (!s.res.phs.isEmpty || s.rings.any fun e => decide (e.1 < 1024) && e.2.state == .running)

/-- Take an assignment: data injection is held from now when the number changes (R373), and rack time is loaded at the
next PPS edge only when it was not loaded since reset (R62, R371). -/
def takeAssign (a : Assign) (s : State) : State :=
  let s := onDisc (fun d => { d with mine := some a, held := a.number != d.number }) s
  match a.seconds with
  | some n =>
    if s.time.loadedSinceReset ∨ !s.time.loads.isEmpty then s
    else onTime (fun t => { t with loads := [{ seconds := n, acceptedAt := t.rackTime, assigned := true, lb := none }] }) s
  | none => s

/-- Every assignment is acknowledged: COMMIT, naming a rack time 1 ms ahead (R371 step D5). -/
def checkAcks (s : State) : State :=
  if s.disc.step = .assigning ∧ isRoot s ∧ s.disc.plan.all (fun a => s.disc.acks.contains a.identity) then
    let t := s.time.rackTime + ticksUs 1000
    s |> onDisc (fun d => { d with step := .committing, commitAt := t })
      |> toChildren 0x14 [(0x18, u16 s.disc.root.epoch), (0x20, u64 t)]
  else s

/-- The seconds that the root distributes: the value of rack time at its next PPS edge, when its own was loaded. -/
def rootSeconds (s : State) : Option Nat :=
  if s.time.loadedSinceReset then some (s.time.rackTime / ticksPerSecond + 1) else none

/-- ROOT_COMPUTE (R371 steps D3 and D4). -/
def rootCompute (s : State) : State :=
  if s.disc.step ≠ .computing then s
  else
    match rootCheck s.disc.reports s.disc.mode with
    | some r => rootFail r s
    | none =>
      let plan := (planOf s.disc.reports s.disc.mode (rootSeconds s)).1
      let own := plan.find? fun a => a.identity == ownIdentity
      let alone : Assign := { identity := ownIdentity, number := 0, rack := 0, position := 0, mode := s.disc.mode }
      let mine := own.getD { alone with
        dimX := 1 - s.disc.mode, dimY := 1 - s.disc.mode, dimZ := 1 - s.disc.mode }
      let s := onDisc (fun d => { d with step := .assigning, plan := plan }) s
      if refuses s mine then rootFail 0x07 s
      else
        s |> takeAssign mine |> onDisc (fun d => { d with acks := [ownIdentity] })
          |> updates (plan.filter fun a => a.identity != ownIdentity) sendAssign |> checkAcks

def execRootCompute (s : State) : Res := .next (rootCompute s)

def ackFields (epoch : Nat) (i n status : Nat) : List (Nat × Fld) :=
  [(0x18, u64 i), (0x20, u16 epoch), (0x22, u16 n), (0x24, u8 status)]

def assign (q : Pkt) (s : State) : State :=
  let a := readAssign q
  if ctlArg q 0x20 2 ≠ s.disc.root.epoch ∨ isRoot s then s
  else if a.identity ≠ ownIdentity then sendAssign a s
  else
    let bad := refuses s a
    (if bad then s else takeAssign a s)
      |> sendDiscovery s.disc.parent 0x13 (ackFields s.disc.root.epoch ownIdentity a.number (b2n bad))

def assignAck (q : Pkt) (s : State) : State :=
  let i := ctlArg q 0x18 8
  if ctlArg q 0x20 2 ≠ s.disc.root.epoch then s
  else if !isRoot s then
    sendDiscovery s.disc.parent 0x13 (ackFields s.disc.root.epoch i (ctlArg q 0x22 2) (ctlArg q 0x24 1)) s
  else if s.disc.step ≠ .assigning then s
  else if ctlArg q 0x24 1 ≠ 0 then rootFail 0x07 s
  else checkAcks (onDisc (fun d => { d with acks := if d.acks.contains i then d.acks else i :: d.acks }) s)

def commitMsg (q : Pkt) (s : State) : State :=
  if ctlArg q 0x18 2 ≠ s.disc.root.epoch ∨ isRoot s then s
  else
    s |> onDisc (fun d => { d with step := .committing, commitAt := ctlArg q 0x20 8 })
      |> toChildren 0x14 [(0x18, u16 s.disc.root.epoch), (0x20, u64 (ctlArg q 0x20 8))]

def failMsg (q : Pkt) (s : State) : State :=
  if ctlArg q 0x18 2 ≠ s.disc.root.epoch ∨ s.disc.step = .idle then s
  else
    abandon (ctlArg q 0x1A 1) (toChildren 0x15 (failFields s.disc.root.epoch (ctlArg q 0x1A 1)) s)

/-! ### Receiving -/

/-- A discovery message that a port received (R369). -/
def discoveryMessage (p : Nat) (q : Pkt) (s : State) : State :=
  match q.op with
  | 0x10 => hello p q s
  | 0x11 => report p q s
  | 0x12 => assign q s
  | 0x13 => assignAck q s
  | 0x14 => commitMsg q s
  | 0x15 => failMsg q s
  | _ => s

/-- A received message's bytes, once the structure checks have passed and the opcode is the row's. -/
def onDiscovery (op p : Nat) (bytes : List Byte) (s : State) : Res :=
  runPort p (fun s =>
    let x := (portOf s p).state
    if (x == .active || x == .keepalive) && bytes.length == 64 && hdrKind bytes == 1 && field bytes 3 1 == op then
      match stageB (moduleNumber s) (some 2) bytes with
      | none => discoveryMessage p (readPkt bytes) s
      | some why => deadLetterRaw (96 + p / 6) why (0x80 + p % 6) 2 (deadHead bytes) s
    else s) s

def execHello (port : Nat) (packet : List Byte) (s : State) : Res := onDiscovery 0x10 port packet s
def execReport (port : Nat) (packet : List Byte) (s : State) : Res := onDiscovery 0x11 port packet s
def execAssign (port : Nat) (packet : List Byte) (s : State) : Res := onDiscovery 0x12 port packet s
def execAssignAck (port : Nat) (packet : List Byte) (s : State) : Res := onDiscovery 0x13 port packet s
def execCommit (port : Nat) (packet : List Byte) (s : State) : Res := onDiscovery 0x14 port packet s
def execFail (port : Nat) (packet : List Byte) (s : State) : Res := onDiscovery 0x15 port packet s

/-! ### Step D6 (R374, R378) -/

/-- Axis entries of a torus: the module reached by OPT-5d, in directions whose port is Active. -/
def axisTable (s : State) (a : Assign) : Tab Nat :=
  if a.mode ≠ 0 then []
  else (List.range 6).filterMap fun d =>
    let c := stepFrom (max a.dimX 1, max a.dimY 1, max a.dimZ 1) (a.x, a.y, a.z) d
    if (portOf s (optPort (5 * d))).state = .active then
      some (d, 1 + 2 ^ 8 * (c.1 + 16 * c.2.1 + 256 * c.2.2)) else none

/-- The partners that R378 compares with: those on Active ports now that took part in the epoch, whose ports are in use from here on. A
port that came too late for it waits for the next epoch (R373). -/
def recordPartners (s : State) : State :=
  onFabric (fun f => { f with ports := tmap (fun p x =>
    if s.disc.late.contains p then { x with recorded := none, up := false }
    else if x.state == .active || x.state == .keepalive then { x with recorded := x.cap, up := true }
    else { x with recorded := none }) f.ports }) s

/-- Adopt the number and install the tables. -/
def adopt (a : Assign) (s : State) : State :=
  let changed := a.number != s.disc.number
  let lb := s.disc.lb
  let s := s
    |> onDisc (fun d => { d with
        number := a.number, assigned := true, committed := some a, mine := none, held := false, step := .idle, lb := none })
    |> when changed (modEvent 5) |> recordPartners
    |> onFabric (fun x => { x with staged := { x.staged with
        base := some a, down := [], modules := [], axis := axisTable s a } })
  (if stagedOk s ∧ s.fabric.commit.isNone then beginCommit none 0xFF s else s)
    |> postWaiting? lb 0x040B 0 (pack [u16 a.number])

/-- COMMIT_TIME. -/
def commitTime (s : State) : State :=
  if s.disc.step = .committing ∧ s.disc.commitAt ≤ s.time.rackTime ∧ s.fabric.commit.isNone then
    match s.disc.mine with
    | some a => adopt a s
    | none => onDisc (fun d => { d with step := .idle }) s
  else s

def execCommitTime (s : State) : Res := .next (commitTime s)

/-- DISCOVERY_STEP_TIMEOUT (R371): the root ends the epoch. -/
def execDiscoveryStepTimeout (s : State) : Res :=
  .next (if s.disc.step ≠ .idle ∧ isRoot s then rootFail 0x05 s else s)

end Sys2Proof.Machine
end

