-- ==== Sys2Proof/Machine/PowerUp.lean ====
section
/-! DEFINITION. Power-up, reset and self-test (R71–R89, R133, R403). -/

namespace Sys2Proof.Machine

/-! ### Phase A (R74) -/

/-- The slot that the boot ROM of die 0 (E0) or 1 (E8) starts: the active image if it verifies, else the other. -/
def bootSlot (s : State) (d : Nat) : Option Nat :=
  let ok (k : Nat) : Bool := (fwSlotOf s d k).valid && firmwareValid (fwSlotOf s d k).image
  if ok (activeSlot s d) then some (activeSlot s d) else if ok (1 - activeSlot s d) then some (1 - activeSlot s d) else none

/-- Steps A4 and A5: firmware starts on E0 with E8 as standby, the repair map is selected and the journal's head is
located. A fallback names the slot started, 0xFF for the recovery firmware (DESIGN CHOICE). -/
def startFirmware (s : State) : State :=
  let b (d : Nat) : Option Nat := bootSlot s d
  let run (d : Nat) (t : Tab (Nat × List Byte)) : Tab (Nat × List Byte) := match b d with
    | some k => tset t d (k, (fwSlotOf s d k).image)
    | none => terase t d
  let fell := ([0, 1] : List Nat).filter fun d => b d != some (activeSlot s d)
  let lost := ([0, 1] : List Nat).flatMap fun d => ([0, 1] : List Nat).filterMap fun i =>
    if (copyOf s d i).valid then none else some (d, i)
  s |> onPost (fun p => { p with
        running := run 1 (run 0 p.running), standby := (b 1).isSome, onE8 := false, e0Fenced := false, restartTried := false
        agents := []
        entries := match selectedMap s with | some c => c.inUse | none => []
        applied := match selectedMap s with | some c => c.inUse | none => [] })
    |> onPower (fun p => { p with romRecovery := (b 0).isNone })
    |> when (s.post.journal.gap) (fun s => journal 0xA009 2 2 false [] (onPost (fun p => { p with
        journal := { p.journal with gap := false } }) s))
    |> updates fell (fun d => journal 0x2003 2 2 false [u8 (96 + 8 * d), u8 ((b d).getD 0xFF)])
    |> updates lost (fun c => journal 0x2004 2 2 false [u8 (96 + 8 * c.1), u8 c.2])

/-- Step A6: the MCTP endpoint opens and P4 is reached. A supervisor that fails its check raises ALERT and keeps the module in P4. -/
def openEndpoint (s : State) : State :=
  s |> onPower (fun p => { p with
        boot := .standby, state := some 4, mctpOpen := true, alertMctp := false
        alertSupervisor := !p.supervisorOk, latchPending := p.latch.cause != 0 })
    |> journal 0x1001 4 2 false [u8 4]

/-- The latch read at step A5 (R403). -/
def readLatch (s : State) : State :=
  let l := s.power.latch
  when (l.cause != 0) (journal 0xA008 3 2 false [u8 l.cause, u8 l.die, u8 l.celsius]) s

def phaseA (s : State) : State := openEndpoint (readLatch (startFirmware s))

/-! ### Resets (R77, R78) -/

/-- Records not yet written to MRAM are lost with the power, and their indexes are never reused (R406): the next record opens a
new page after a loss. -/
def losePower (j : Journal) : Journal :=
  { j with
    recs := j.recs.take (j.recs.length - j.unwritten), pageRecs := if j.unwritten = 0 then j.pageRecs else 0
    unwritten := 0, gap := j.gap || j.unwritten != 0 }

/-- Everything volatile outside the management domains is cleared: phase B comes next. Both host links go down first, which resets
every function with its records (R104). -/
def clearModule (s : State) : State :=
  let s := linkDown 1 (linkDown 0 s)
  { pending := s.pending, out := s.out, free := s.free, mgmt := s.mgmt
    time := { s.time with loads := [], loadedSinceReset := false }
    host := { ports := tmap (fun _ p => { perst := p.perst }) s.host.ports }
    post := { s.post with lbs := [], nextOrder := 0, limited := [], heartbeats := 0, deferred := [] }
    power := {
      boot := .standby, state := some 4, inA := s.power.inA, inB := s.power.inB, enable := s.power.enable
      supervisorOk := s.power.supervisorOk, romRecovery := s.power.romRecovery, safeArmed := s.power.safeArmed
      mctpOpen := s.power.mctpOpen, alertMctp := s.power.alertMctp, alertHeartbeat := s.power.alertHeartbeat
      alertSupervisor := s.power.alertSupervisor, sensors := s.power.sensors, inputMw := s.power.inputMw
      latch := s.power.latch, latchPending := s.power.latchPending } }

/-- Everything volatile, the management domains included: MRAM and the pins are kept, and the latch, which the supervisor
holds. -/
def clearAll (s : State) : State :=
  { pending := s.pending, out := s.out, free := s.free
    host := { ports := tmap (fun _ p => { perst := p.perst }) s.host.ports }
    post := {
      fw := s.post.fw, boot := s.post.boot, floor := s.post.floor, maps := s.post.maps, journal := losePower s.post.journal }
    power := {
      inA := s.power.inA, inB := s.power.inB, supervisorOk := s.power.supervisorOk
      safeArmed := s.power.safeArmed, latch := s.power.latch } }

/-- A module reset (R77): the firmware starts again from the slot that the boot selector names (R127),
and a PLDM update that was running is gone. -/
def moduleReset (s : State) : State :=
  startFirmware (onMgmt (fun m => { m with update := 0, updateData := [], updateResult := 0 }) (clearModule s))

/-- A module reset that arrives during self-test waits for the current wave's end. -/
def askReset (s : State) : State :=
  match s.power.boot with
  | .waves _ | .retried => onPower (fun p => { p with resetPending := true }) s
  | .unpowered | .shutdown => s
  | _ => moduleReset s

/-! ### Inputs and watchdogs -/

/-- Power reaches the management domains (step A2): a level of ENABLE above V_T+ counts as asserted, one inside the hysteresis band
does not (R71, R72). With no management processor that starts, no step of phase A follows (R89). -/
def powerOn (b : BoardStart) (s : State) : State :=
  let s := onPower (fun p => { p with supervisorOk := b.supervisorOk, enable := b.enableAbove }) s
  if b.processorStarts then phaseA s else onPower (fun p => { p with boot := .unpowered }) s

/-- INPUT_POWER_UP (R74 steps A1 to A6): inputs that come into range; the first of them starts phase A. -/
def inputPowerUp (a b : Bool) (board : BoardStart) (s : State) : State :=
  let dark := !s.power.inA && !s.power.inB
  let s := onPower (fun p => { p with inA := p.inA || a, inB := p.inB || b }) s
  if s.power.boot = .unpowered ∧ dark ∧ (a || b) then powerOn board s else s

def execInputPowerUp (inA inB : Bool) (board : BoardStart) (s : State) : Res := .next (inputPowerUp inA inB board s)

/-- INPUT_UNDERVOLTAGE (R23, R74): during a shutdown with the last input the latch is lost (R403). -/
def inputUnder (input : Nat) (s : State) : State :=
  if postUp s then inputLost input s
  else
    let s := onPower (fun p => if input = 0 then { p with inA := false } else { p with inB := false }) s
    if s.power.boot = .shutdown ∧ !s.power.inA ∧ !s.power.inB then
      onPower (fun p => { p with boot := .unpowered, latch := {}, alertShutdown := false }) s
    else s

def execInputUndervoltage (input : Nat) (s : State) : Res :=
  if input < 2 then .next (inputUnder input s) else .next s

/-- What the board shows at a restart whose row does not say it: free values (DESIGN CHOICE, assumption 108). -/
def freshBoard (s : State) : BoardStart × State :=
  let a := freshNat 2 s
  let b := freshNat 2 a.2
  let c := freshNat 2 b.2
  ({ supervisorOk := a.1 == 1, enableAbove := b.1 == 1, processorStarts := c.1 == 1 }, c.2)

/-- COLD_RESET (R77): both inputs were lost and are restored, with the board as it then stands. -/
def coldReset (s : State) : State :=
  if s.power.inA ∨ s.power.inB then s
  else
    let b := freshBoard s
    powerOn b.1 (clearAll { b.2 with power := { b.2.power with inA := true, inB := true, latch := {} } })

def execColdReset (s : State) : Res := .next (coldReset s)

/-- MCTP_WATCHDOG_EXPIRY (R89). -/
def execMctpWatchdogExpiry (s : State) : Res :=
  .next (if (s.power.inA || s.power.inB) && s.power.boot != .shutdown && !s.power.mctpOpen then
    onPower (fun p => { p with alertMctp := true }) s else s)

/-- HEARTBEAT_WATCHDOG_EXPIRY (R133): after step A6. -/
def execHeartbeatWatchdogExpiry (s : State) : Res :=
  .next (if postUp s then onPower (fun p => { p with alertHeartbeat := true }) s else s)

/-! ### ENABLE (R52, R71–R73, R403) -/

/-- ENABLE_ASSERT: phase B becomes due, and the rise ends the latch's hold on P4. After readiness it takes the module out of P4 by
the exit of R50 (DEDUCED). -/
def enableHigh (s : State) : State :=
  if s.power.enable then s
  else
    let s := onPower (fun p => { p with enable := true, latchPending := false }) s
    if s.power.boot = .serving ∧ s.power.state = some 4 ∧ s.power.pending.isNone ∧ s.power.trans.isNone then
      requestPower { target := 0, release := false, waitMs := 10, source := .enable } s
    else s

def execEnableAssert (s : State) : Res := .next (enableHigh s)

/-- ENABLE_DEASSERT (R52, R73). An exit from P4 that is running ends "enable low" with the module in P4. In the safe state, which shows
P3, neither R73 nor R88 says what a falling ENABLE does: nothing changes (DESIGN CHOICE, assumption 48). -/
def enableLow (s : State) : State :=
  if !s.power.enable then s
  else
    let s := onPower (fun p => { p with enable := false }) s
    let log (s : State) : State := journal 0x2002 4 2 false [] s
    match s.power.boot with
    | .waves _ | .retried => log (onPower (fun p => { p with enableDropped := true }) s)
    | .serving =>
      if s.power.state = some 4 then (if s.power.trans.isSome then transDone eEnableLow (log s) else s)
      else log (requestPower { target := 4, release := false, waitMs := 10, source := .enable } s)
    | _ => s

def execEnableDeassert (s : State) : Res := .next (enableLow s)

/-! ### Self-test (R82–R85) -/

/-- What a member's test may find (R83, R85): entries of its own tiles and port widths, and of the wires of its own links and of
the crossings, edge-die links and rim links between it and a die that has passed, whichever of the two R80 names them by. -/
def foundBy (passed : Nat → Bool) (d : Nat) (es : List (BitVec 64)) : List (BitVec 64) :=
  es.filter fun e =>
    match entryKind e with
    | 0x01 | 0x02 =>
      let ends := linkDies (entryDie e) (entryObject e)
      decide (entryObject e < linkCount (entryDie e)) && isDie (entryDie e) && ends.contains d
        && ends.all fun x => x == d || passed x
    | 0x03 | 0x04 | 0x06 => entryDie e == d
    | _ => false

/-- A finding takes effect at once, and step C4 writes it. -/
def addFindings (es : List (BitVec 64)) (s : State) : State :=
  updates es applyEntry (onPower (fun p => { p with foundEntries := p.foundEntries ++ es }) s)

/-- A member has failed: a frond is fenced, an edge die is out. -/
def memberFailed (d : Nat) (mesh : Bool) (m : Member) (s : State) : State :=
  s |> onPower (fun p => { p with
        results := tset p.results d m, meshFaults := if mesh then d :: p.meshFaults else p.meshFaults })
    |> addFindings [mapEntry (if d < 84 then 0x05 else 0x08) d 0 0 0 0]
    |> onDie d (fun x => { x with meshOff := x.meshOff || mesh })

/-- A member's result (R85), with its journal record. -/
def memberEnds (r : TestResult) (s : State) : State :=
  let d := r.die
  let s := match r.outcome with
    | .pass => onPower (fun p => { p with results := tset p.results d .pass }) s
    | .repaired es =>
      let found := foundBy (memberPassed s) d es
      addFindings found (onPower (fun p => { p with results := tset p.results d (if found.isEmpty then .pass else .repaired) }) s)
    | .failed mesh => memberFailed d (mesh && decide (d < 84)) .failed s
  journal 0x2005 (match r.outcome with | .failed _ => 2 | _ => 4) 2 false [u8 d, u8 (memberCode (tget .untested s.power.results d))] s

/-- The outcome that the tester gives a member; one that it does not name passes. -/
def outcomeOf (rs : List TestResult) (d : Nat) : TestResult :=
  (rs.find? fun r => r.die == d).getD { die := d, outcome := .pass }

/-- A member that the map holds out of service is not tested (DESIGN CHOICE). -/
def heldOut (s : State) (d : Nat) : Bool := !dieUp s d

/-- Members held out count as failed. -/
def markHeldOut (ds : List Nat) (s : State) : State :=
  updates (ds.filter (heldOut s)) (fun d => onPower fun p => { p with results := tset p.results d .failed }) s

/-- A member can be reached through a neighbour that has passed (R83). -/
def hasPath (s : State) (d : Nat) : Bool := (dieNeighbours d).any (memberPassed s)

/-- Run the test of the members among `ds` that are reachable. -/
def testMembers (ds : List Nat) (rs : List TestResult) (s : State) : State :=
  let s := markHeldOut ds s
  let go := ds.filter fun d => tget .untested s.power.results d == .untested && hasPath s d
  updates go (fun d => memberEnds (outcomeOf rs d)) s

/-- A TAP holds an instruction that keeps phase B waiting (R425). -/
def tapHolds (s : State) : Bool := s.mgmt.taps.any fun t => decide (3 ≤ t.2.instruction ∧ t.2.instruction ≤ 7)

/-- E0 has failed wave 0 and E8 has passed: the postmaster moves (chapter 4, Faults). -/
def moveToE8 (s : State) : State :=
  if memberPassed s 96 ∨ !memberPassed s 104 then s
  else
    s |> onPost (fun p => { p with standby := false, restartTried := true })
      |> takeRole true
      |> onPower (fun p => { p with romRecovery := (tfind s.post.running 1).isNone })

/-- POWERUP_PHASE_B (R74): edge dies powered with their agents, entries applied, wave 0, host-port training. -/
def phaseB (r0 r8 : TestOutcome) (s : State) : State :=
  let p := s.power
  if p.boot ≠ .standby ∨ !p.enable ∨ p.latchPending ∨ p.alertSupervisor ∨ tapHolds s then s
  else if !(p.inA && p.inB) then journal 0x2001 2 2 true [u8 (if p.inA then 1 else 0)] s
  else
    let rest := (List.range 16).filter fun e => e != 0 && e != 8
    s |> onPower (fun p => { p with results := [], foundEntries := [], meshFaults := [], enableDropped := false, resetPending := false })
      |> onPost (fun q => { q with agents := rest.map fun e => (e, runningImage s) })
      |> applyMap true
      |> markHeldOut [96, 104]
      |> (fun s => updates (([⟨96, r0⟩, ⟨104, r8⟩] : List TestResult).filter fun r => !heldOut s r.die) memberEnds s)
      |> moveToE8
      |> onPower (fun p => { p with boot := .waves 0 })
      |> trainHost 0 |> trainHost 1

def execPowerupPhaseB (result0 result8 : TestOutcome) (s : State) : Res := .next (phaseB result0 result8 s)

/-- The roles as step A5 sets them: the postmaster on E0, and E8 its standby where its firmware runs. -/
def startRoles (s : State) : State :=
  s |> onPost (fun p => { p with onE8 := false, restartTried := false, standby := (tfind p.running 1).isSome })
    |> onPower (fun p => { p with romRecovery := (tfind s.post.running 0).isNone })

/-- What stops self-test at the end of the current wave (R73, R77): a pending reset, or ENABLE, with which the results are discarded
and with them a move of the postmaster that followed from them. -/
def testStops (s : State) : Option State :=
  if s.power.resetPending then some (moduleReset s)
  else if s.power.enableDropped then some (startRoles (clearModule s))
  else none

def orStop (f : State → State) (s : State) : State := match testStops s with | some t => t | none => f s

/-- Step C1, before wave 1: fronds powered and their entries applied. -/
def powerFronds (s : State) : State :=
  applyMap false (onPower (fun p => { p with frondsOn := true, frondClocksOn := true }) s)

/-- SELFTEST_WAVE (R83). -/
def selftestWave (rs : List TestResult) (s : State) : State :=
  match s.power.boot with
  | .waves n =>
    if 9 ≤ n then s
    else orStop (fun s =>
      let s := when (n == 0) powerFronds s
      onPower (fun p => { p with boot := .waves (n + 1) }) (testMembers (waveMembers (n + 1)) rs s)) s
  | _ => s

def execSelftestWave (results : List TestResult) (s : State) : Res := .next (selftestWave results s)

/-- Members not yet tested. -/
def untestedMembers (s : State) : List Nat := allDies.filter fun d => tget .untested s.power.results d == .untested

/-- SELFTEST_RETRY_PASS (R84): each skipped member with a neighbour that passed is tested; the others have failed as
unreachable. The pass is one wave: R84 does not say whether a pass of the retry pass itself counts as a neighbour's, and here it
does not (DESIGN CHOICE, assumption 47). -/
def selftestRetry (rs : List TestResult) (s : State) : State :=
  if s.power.boot ≠ .waves 9 ∨ (untestedMembers s).isEmpty then s
  else orStop (fun s =>
    let s := testMembers (untestedMembers s) rs s
    let s := updates (untestedMembers s) (fun d s => journal 0x2005 2 2 false [u8 d, u8 4] (memberFailed d false .unreachable s)) s
    onPower (fun p => { p with boot := .retried }) s) s

def execSelftestRetryPass (results : List TestResult) (s : State) : Res := .next (selftestRetry results s)

/-! ### Verdict (R86, R87) -/

def isOut (s : State) (d : Nat) : Bool :=
  tget .untested s.power.results d == .failed || tget .untested s.power.results d == .unreachable

/-- The safe-state reason, if a row of R86 holds. -/
def safeReason (noMap : Bool) (s : State) : Option Nat :=
  if s.power.romRecovery then some 1
  else if noMap then some 2
  else if 8 < allFronds.countP (isOut s) then some 3
  else if 2 < allEdges.countP (isOut s) ∨ (isOut s 96 ∧ isOut s 104) then some 4
  else if s.power.safeArmed then some 6
  else none

/-- Route marks of all dies from the results (R288). -/
def markAll (s : State) : State :=
  updates allDies (fun d s =>
    if isOut s d then markDie d false (if d < 84 then 1 else 3) (s.power.meshFaults.contains d) s else markDie d true 0 false s) s

/-- The safe state (R87): fronds unpowered, host ports open for the diagnostic function, Gulan ports of passed dies training. -/
def enterSafe (reason : Nat) (s : State) : State :=
  s |> onPower (fun p => { p with
        boot := .safe, state := some 3, safeReason := reason, safeArmed := false, frondsOn := false, frondClocksOn := false
        verdict := 0, enableDropped := false, resetPending := false })
    |> dropBudgets
    |> updates allFronds clearDie
    |> markAll
    |> updates allFronds (fun f => markDie f false 2 false)
    |> onHost (fun h => { h with ports := tmap (fun _ p => { p with configReady := p.link == 1 }) h.ports })
    |> journalRule 2 3 2 true 86 [u8 reason]
    |> updates ((List.range 96).filter fun p => memberPassed s (96 + p / 6)) enablePort

/-- Steps D1 to D6: P0 is reached, and Gulan ports and discovery start. With an input lost meanwhile the module drops to P3. -/
def enterService (s : State) : State :=
  let degraded := allDies.any fun d => isOut s d || tget .untested s.power.results d == .repaired
  s |> onPower (fun p => { p with
        boot := .serving, verdict := b2n degraded, arraysGated := false, launchesHeld := false, safeReason := 0, safeArmed := false })
    |> markAll
    |> onHost (fun h => { h with ports := tmap (fun _ p => { p with configReady := p.link == 1 }) h.ports })
    |> reachState 0
    |> onPower (fun p => { p with ready := true })
    |> journal 0x2006 4 2 true [u8 (b2n degraded)]
    |> updates ((List.range 96).filter fun p => dieUp s (96 + p / 6)) enablePort
    |> (fun s => beginEpoch s.disc.highest 1 s)
    |> when (!(s.power.inA && s.power.inB)) dropToP3

/-- Step C4: the full map is written when there are findings, or an invalid copy to replace. -/
def writeFindings (ok : Bool) (s : State) : State :=
  let bad := (mramDies s).any fun d => !(copyOf s d 0).valid || !(copyOf s d 1).valid
  if (selectedMap s).isNone ∨ (s.power.foundEntries.isEmpty ∧ !bad) then s
  else writeMap ok (addEntries s.power.foundEntries s)

/-- POWERUP_VERDICT (R74 steps C4 to D6, R86). -/
def verdict (mramOk : Bool) (s : State) : State :=
  if s.power.boot ≠ .retried ∧ !(s.power.boot == .waves 9 && (untestedMembers s).isEmpty) then s
  else orStop (fun s =>
    let noMap := (selectedMap s).isNone
    let s := onMem (fun _ => {}) (writeFindings mramOk s)
    match safeReason noMap s with
    | some r => enterSafe r s
    | none => enterService s) s

def execPowerupVerdict (mramOk : Bool) (s : State) : Res := .next (verdict mramOk s)

/-- PHASE_C_TIMEOUT (R86): safe state 0x05. -/
def execPhaseCTimeout (s : State) : Res :=
  .next (match s.power.boot with
    | .waves _ | .retried => orStop (enterSafe 5) s
    | _ => s)

end Sys2Proof.Machine
end

