-- ==== Sys2Proof/Machine/Thermal.lean ====
section
/-! DEFINITION. Sensors, thermal throttle and the supervisor's shutdowns (R401–R404, R426). -/

namespace Sys2Proof.Machine

/-! ### Throttle (R401) -/

/-- Junction sensors of a die. -/
def sensorCount (d : Nat) : Nat := if d < 84 then 4 else 2
def sensorOf (s : State) (d i : Nat) : Sensor := tget {} s.power.sensors (4 * d + i)
def onSensor (d i : Nat) (f : Sensor → Sensor) (s : State) : State :=
  onPower (fun p => { p with sensors := tmod {} p.sensors (4 * d + i) f }) s

/-- A sensor counts as 105 °C or more: so does a failed one. -/
def sensorHot (x : Sensor) : Bool := x.condition == 2 || (x.condition == 0 && decide (1050 ≤ x.tenths))
def sensorCool (x : Sensor) : Bool := x.condition == 0 && decide (x.tenths < 1020)

def sensorsOf (s : State) (d : Nat) : List Sensor := (List.range (sensorCount d)).map (sensorOf s d)
def dieHot (s : State) (d : Nat) : Bool := (sensorsOf s d).any sensorHot
def dieCool (s : State) (d : Nat) : Bool := (sensorsOf s d).all sensorCool

/-- One reading: a sensor that is stale or outside −40 °C to 150 °C has failed. -/
def takeReading (r : SensorReading) (s : State) : State :=
  if !powered s r.die then onSensor r.die r.index (fun x => { x with condition := 1 }) s
  else
    match r.tenths with
    | some t =>
      if -400 ≤ t ∧ t ≤ 1500 then onSensor r.die r.index (fun x => { x with tenths := t, condition := 0 }) s
      else badReading s
    | none => badReading s
where
  badReading (s : State) : State :=
    if (sensorOf s r.die r.index).condition = 2 then s
    else
      s |> onSensor r.die r.index (fun x => { x with condition := 2 })
        |> journalFrom (dieCtlPc (moduleNumber s) r.die) 0xA007 2 0 true [u8 r.die, u8 r.index]

/-- A die enters or leaves throttle. -/
def throttleDie (d : Nat) (s : State) : State :=
  let was := if d < 84 then (frondPowerOf s d).throttled else s.power.edgeHalfClock.contains d
  let set_ (b : Bool) (s : State) : State :=
    if d < 84 then onFrondPower d (fun x => { x with throttled := b }) s
    else onPower (fun p => { p with
      edgeHalfClock := if b then d :: p.edgeHalfClock else p.edgeHalfClock.filter (· != d) }) s
  if dieHot s d ∧ !was then
    s |> set_ true
      |> limited 401 d ticksPerSecond (journalFrom (dieCtlPc (moduleNumber s) d) 0xA006 1 0 false [u8 d])
      |> when (decide (d < 84)) (modEvent 4)
  else if was ∧ dieCool s d then set_ false s
  else s

/-- THERMAL_SAMPLE: a frond whose four sensors have all failed is fenced. -/
def thermalSample (rs : List SensorReading) (s : State) : State :=
  let rs := rs.filter fun r => isDie r.die && decide (r.index < sensorCount r.die)
  let ds := (rs.map SensorReading.die).eraseDups
  let s := updates rs takeReading s
  let s := updates (ds.filter (powered s)) throttleDie s
  updates (ds.filter fun d => decide (d < 84) && powered s d && (sensorsOf s d).all (·.condition == 2)) (fun f => fence f false) s

def execThermalSample (readings : List SensorReading) (s : State) : Res :=
  .next (if postUp s then thermalSample readings s else s)

/-- THERMAL_LIMIT_DECREASE. -/
def execThermalLimitDecrease (frond : Nat) (s : State) : Res :=
  if 84 ≤ frond then .next s
  else .next (if dieHot s frond then onFrondPower frond (fun x => { x with thermalLimit := max (x.thermalLimit - 8) 1 }) s else s)

/-- THERMAL_LIMIT_INCREASE. -/
def execThermalLimitIncrease (frond : Nat) (s : State) : Res :=
  if 84 ≤ frond then .next s
  else .next (if dieCool s frond then onFrondPower frond (fun x => { x with thermalLimit := min (x.thermalLimit + 1) 64 }) s else s)

/-! ### Shutdown (R402–R404) -/

/-- Steps T1 and T2: the latch, ALERT, no further page write, arrays gated. -/
def trip (cause die celsius : Nat) (s : State) : State :=
  match s.power.boot with
  | .unpowered | .shutdown => s
  | _ => onPower (fun p => { p with
      boot := .shutdown, allOff := false, alertShutdown := true, arraysGated := true
      latch := { cause := cause, die := die, celsius := celsius } }) s

/-- THERMAL_TRIP (R402): two readings of 115 °C or more. -/
def execThermalTrip (die celsius : Nat) (s : State) : Res :=
  if isDie die then .next (if 115 ≤ celsius then trip 1 die (celsius % 256) s else s) else .next s

/-- OVERVOLTAGE_TRIP (R404, R441): the threshold lies between 58.5 V and 59.5 V; no sensor is involved, so what the latch holds as
die and temperature is open. -/
def overvoltage (millivolts : Nat) (s : State) : State :=
  if millivolts ≤ 58500 then s
  else
    let a := freshNat 128 s
    let b := freshNat 256 a.2
    trip 2 a.1 b.1 b.2

def execOvervoltageTrip (input millivolts : Nat) (s : State) : Res :=
  if input < 2 then .next (overvoltage millivolts s) else .next s

/-- SHUTDOWN_POWER_OFF (R402 step T4): page writes in this model never stand half done, so the grant's end changes nothing. -/
def powerOff (s : State) : State :=
  if s.power.boot ≠ .shutdown ∨ s.power.allOff then s
  else onPower (fun p => { p with boot := .shutdown, allOff := true, alertShutdown := true }) (clearAll s)

def execShutdownPowerOff (_grantEnded : Bool) (s : State) : Res := .next (powerOff s)

/-- COOLDOWN_EXPIRY (R402 step T6, R403): power-up from step A2. -/
def cooldown (board : BoardStart) (s : State) : State :=
  if s.power.boot ≠ .shutdown ∨ !s.power.allOff then s
  else
    let s := onPower (fun p => { p with alertShutdown := false, allOff := false }) s
    if s.power.inA || s.power.inB then powerOn board s else onPower (fun p => { p with boot := .unpowered, latch := {} }) s

def execCooldownExpiry (board : BoardStart) (s : State) : Res := .next (cooldown board s)

/-- SUPERVISOR_READ_BYTE (R426): answered in a shutdown only. -/
def supervisorRead (command : Nat) (s : State) : State :=
  let l := s.power.latch
  if s.power.boot ≠ .shutdown then s
  else
    match command with
    | 0 => emit (.smbusByte l.cause) s
    | 1 => emit (.smbusByte l.die) s
    | 2 => emit (.smbusByte l.celsius) s
    | _ => s

def execSupervisorReadByte (command : Nat) (s : State) : Res := .next (supervisorRead command s)

end Sys2Proof.Machine
end

