-- ==== Sys2Proof/Machine/CmdRepair.lean ====
section
/-! DEFINITION. The repair and diagnostic commands 0x0601–0x0609 (R79–R81, R123, R385–R408, R418). -/

namespace Sys2Proof.Machine

/-! ### Reports and the journal -/

/-- The self-test report. -/
def reportBytes (s : State) : List Byte :=
  Config.selftestReport (allDies.map fun d => memberCode (tget .untested s.power.results d)) s.power.foundEntries

/-- SELFTEST_REPORT_READ: the part from an offset on, as much as a result holds. -/
def selftestReportRead (_ : Option Nat) (a : List Byte) (s : State) : CmdOut :=
  let r := reportBytes s
  let off := arg 0x0601 a 0
  if r.length < off then err eRange s
  else
    let part := (r.drop off).take 2026
    .done 0 (pack [u32 r.length, u16 part.length] ++ part) s

def execSelftestReportRead (lb : Nat) (s : State) : Res := runCmd 0x0601 anyArgs selftestReportRead lb s

/-- Index of the oldest record held. -/
def oldestRecord (j : Journal) : Nat := match j.recs with | r :: _ => r.index | [] => j.next

/-- JOURNAL_READ (R406): an index that the journal no longer holds, or has not reached, ends "argument range". -/
def journalRead (_ : Option Nat) (a : List Byte) (s : State) : CmdOut :=
  let j := s.post.journal
  let first := arg 0x0602 a 1
  if first < oldestRecord j ∨ j.next < first then err eRange s
  else
    let recs := (j.recs.filter fun r => decide (first ≤ r.index)).take (arg 0x0602 a 0)
    let after := match recs.getLast? with | some r => r.index + 1 | none => first
    .done 0 (pack [u8 recs.length, u64 after] ++ recs.flatMap recordBytes) s

def execJournalRead (lb : Nat) (s : State) : Res := runCmd 0x0602 anyArgs journalRead lb s

/-- A host text record (R407). -/
def textRecord (lb : Nat) (text : List Byte) (s : State) : State :=
  putRecord {
    index := 0, postmark := postmark s.time, code := 0xF000, cls := 4, plane := 0, hostText := true, byE8 := s.post.onE8
    source := BitVec.ofNat 32 (0xFFFFFF00 + lb), payload := padTo 48 text } s

/-- JOURNAL_APPEND. -/
def journalAppend (who : Option Nat) (a : List Byte) (s : State) : CmdOut :=
  .done 0 (pack [u64 s.post.journal.next]) (textRecord (who.getD 0) (a.take 48) s)

def execJournalAppend (lb : Nat) (s : State) : Res := runCmd 0x0603 anyArgs journalAppend lb s

/-! ### REPAIR_MAP_EDIT (R80, R81) -/

def mapOp (n : Nat) (a : List Byte) : Bool := arg 0x0604 a 0 == n
def mapArg (a : List Byte) : BitVec 64 := BitVec.ofNat 64 (arg 0x0604 a 3)

/-- Operation 0: a range of entries. -/
def mapRead (_ : Option Nat) (a : List Byte) (s : State) : CmdOut :=
  let first := arg 0x0604 a 2
  let n := arg 0x0604 a 1
  if s.post.entries.length < first + n then err eRange s
  else .done 0 (pack (((s.post.entries.drop first).take n).map fun e => u64 e.toNat)) s

def execRepairMapRead (lb : Nat) (s : State) : Res := runCmd 0x0604 (mapOp 0) mapRead lb s

/-- Write a new map, or keep the old one where the write fails. -/
def mapWrite (es : List (BitVec 64)) (ok : Bool) (s : State) : CmdOut :=
  let t := writeMap ok (onPost (fun p => { p with entries := es }) s)
  if ok then ok0 t else err eMram (onPost (fun p => { p with entries := s.post.entries }) t)

/-- Operation 1: an entry is added; a full map ends "no resource" (DESIGN CHOICE). -/
def mapAddCmd (ok : Bool) (_ : Option Nat) (a : List Byte) (s : State) : CmdOut :=
  if mapLimit ≤ s.post.entries.length then err eNoResource s
  else mapWrite (s.post.entries ++ [mapArg a]) ok s

def execRepairMapAdd (lb : Nat) (mramOk : Bool) (s : State) : Res := runCmd 0x0604 (mapOp 1) (mapAddCmd mramOk) lb s

/-- Operation 2: the first entry equal to the argument is deleted; one that the map does not hold ends "argument range"
(DEDUCED). -/
def mapDeleteCmd (ok : Bool) (_ : Option Nat) (a : List Byte) (s : State) : CmdOut :=
  if s.post.entries.contains (mapArg a) then mapWrite (eraseFirst (· == mapArg a) s.post.entries) ok s
  else err eRange s

def execRepairMapDelete (lb : Nat) (mramOk : Bool) (s : State) : Res := runCmd 0x0604 (mapOp 2) (mapDeleteCmd mramOk) lb s

/-! ### Live repair -/

/-- TILE_RETIRE (R395): the spare in use, or no spare for the tile, ends "no resource". -/
def tileRetireCmd (_ : Option Nat) (a : List Byte) (s : State) : CmdOut :=
  let f := arg 0x0605 a 0
  let t := arg 0x0605 a 1
  if spareFree s f t then .done 0 (pack [u16 (spareOf t)]) (retireTile f t s) else err eNoResource s

def execTileRetire (lb : Nat) (s : State) : Res := runCmd 0x0605 anyArgs tileRetireCmd lb s

/-- FROND_FENCE (R396). -/
def frondFenceCmd (_ : Option Nat) (a : List Byte) (s : State) : CmdOut :=
  let f := arg 0x0606 a 0
  if (dieOf s f).fenced then err eNotFound s
  else
    let x := fenceFrond f false s
    .done 0 (pack [u16 x.1]) x.2

def execFrondFence (lb : Nat) (s : State) : Res := runCmd 0x0606 anyArgs frondFenceCmd lb s

/-- A frond returns to service (R397): its entry goes, new ones come, its keys and its clock are those of a start, and it is marked
reachable where the power state runs fronds. -/
def unfence (f : Nat) (es : List (BitVec 64)) (s : State) : State :=
  s |> mapRemove (sameObject 0x05 f 0)
    |> onDie f (fun x => { x with fenced := false, meshOff := false, badKeys := [] })
    |> when (!es.isEmpty) (fun s => mapAdd es (updates es applyEntry s))
    |> onFrondPower f (fun x => { weight := x.weight, thermalLimit := x.thermalLimit, throttled := x.throttled })
    |> when (s.power.frondsOn && s.power.frondClocksOn) (markDie f true 0 false)

/-- FROND_RETEST (R397): without a neighbour in service the test fails. An abort takes effect at the test's end, with the frond
fenced whatever the verdict (R125). -/
def frondRetest (o : TestOutcome) (who : Option Nat) (a : List Byte) (s : State) : CmdOut :=
  let f := arg 0x0607 a 0
  if !(dieOf s f).fenced then err eBusyObject s
  else
    let s := clearDie f s
    let aborted := match who with | some lb => (lbOf s lb).abort | none => false
    if aborted then err eAborted s
    else if !(dieNeighbours f).any (dieUp s) then .done 0 (pack [u8 2]) s
    else
      match o with
      | .pass => .done 0 (pack [u8 0]) (unfence f [] s)
      | .repaired es => .done 0 (pack [u8 1]) (unfence f (foundBy (dieUp s) f es) s)
      | .failed _ => .done 0 (pack [u8 2]) s

def execFrondRetest (lb : Nat) (outcome : TestOutcome) (s : State) : Res := runCmd 0x0607 anyArgs (frondRetest outcome) lb s

/-! ### Counters (R418) -/

/-- Word `w` of dead-letter entry `e` of a die (R267). -/
def deadWord (x : Die) (i : Nat) : Nat :=
  match x.dead.find? (fun e => e.sequence % 32 == i / 8) with
  | some e => field (deadEntryBytes e) (8 * (i % 8)) 8
  | none => 0

/-- A counter group: its highest index and its counters. -/
def counterGroup (s : State) (g : Nat) : Option (Nat × (Nat → Nat)) :=
  let n := g % 256
  let x := dieOf s n
  let of_ (t : Tab Nat) (i : Nat) : Nat := tget 0 t i
  let timed (t : Tab Nat) (first i : Nat) : Nat := (of_ t i + tget 0 x.waits (first + i) / 5) % 2 ^ 64
  match g / 256 with
  | 1 => if isDie n then some (0x13, of_ x.deadCounts) else none
  | 2 => if isDie n then some (255, deadWord x) else none
  | 3 => if isDie n then some (11, timed x.fabric 0) else none
  | 4 => if isDie n then some (if n < 84 then 319 else 53, timed x.perRouter 256) else none
  | 5 => if n < 84 then some (12, of_ x.select) else none
  | 6 => if isDie n then some (6, of_ x.ecc) else none
  | 7 => if n < 96 then some (18, of_ (portOf s n).counters) else none
  | 8 => if isDie n then some (8, of_ x.counts) else none
  | 9 => if n = 0 then some (3, of_ s.mgmt.counts) else none
  | _ => none

/-- COUNTERS_READ. -/
def countersRead (_ : Option Nat) (a : List Byte) (s : State) : CmdOut :=
  let first := arg 0x0608 a 1
  let n := arg 0x0608 a 2
  match counterGroup s (arg 0x0608 a 0) with
  | none => err eRange s
  | some (last, c) =>
    if last < first + n - 1 then err eRange s
    else .done 0 (pack ((List.range n).map fun i => u64 (c (first + i)))) s

def execCountersRead (lb : Nat) (s : State) : Res := runCmd 0x0608 anyArgs countersRead lb s

/-! ### MODULE_RESET (R77, R124) -/

/-- The reset posts no result; its record is journalled before it. -/
def moduleResetCmd (who : Option Nat) (_ : List Byte) (s : State) : CmdOut :=
  .gone (askReset (match who with | some lb => commandRecord lb 0 s | none => s))

def execModuleReset (lb : Nat) (s : State) : Res := runCmd 0x0609 anyArgs moduleResetCmd lb s

end Sys2Proof.Machine
end

