-- ==== Sys2Proof/Machine/Injection.lean ====
section
/-! DEFINITION. Injection as its issuer sees it (R153, R276, R332): a descriptor and a launch may end once their packets are in the
fabric. -/

namespace Sys2Proof.Machine

/-- The issuer of a packet that has just been injected looks at what it still waits for (R153, R332). -/
def injected (o : Origin) (s : State) : State :=
  match o with
  | .ring r c => descProgress r c s
  | .launch l => launchCheck l s
  | _ => s

/-- A packet waits for its injection at a die. -/
def atInjection (s : State) (pid : Nat) : Option Origin :=
  match flightOf s pid with
  | some f => (match f.loc with | .inject .. => some f.origin | _ => none)
  | none => none

/-- INJECTION_START (R276). -/
def execInjectionStart (die router pid : Nat) (s : State) : Res :=
  if validRouter die router then
    let t := injectionStart die router pid s
    .next (match atInjection s pid, atInjection t pid with
      | some o, none => injected o t
      | _, _ => t)
  else .next s

end Sys2Proof.Machine
end

