-- ==== Sys2Proof/Machine/Jtag.lean ====
section
/-! DEFINITION. The test access ports of the edge dies (R77, R424, R425). The boundary register's length is not in the spec: 64 bits
stand for it (PRESUMED). -/

namespace Sys2Proof.Machine

def tapOf (s : State) (t : Nat) : Tap := tget {} s.mgmt.taps t
def onTap (t : Nat) (f : Tap → Tap) (s : State) : State := onMgmt (fun m => { m with taps := tmod {} m.taps t f }) s

/-- The test domains are powered from step A3 on, until step T4 of a shutdown. -/
def testPowered (s : State) : Bool := postUp s

def idcode : BitVec 64 := 0x1B4A10BB

/-- An instruction from the boundary group takes effect: 0x03 to 0x07, in P4 (R425) and outside self-test. -/
def boundaryActs (s : State) (instruction : Nat) : Bool :=
  decide (3 ≤ instruction ∧ instruction ≤ 7) && s.power.state == some 4
    && (s.power.boot == .standby || s.power.boot == .serving)

/-- What a TAP does to its pins: the instruction that takes effect, 0 while they are functional. -/
def pinsDriven (s : State) (t : Nat) : Nat :=
  if boundaryActs s (tapOf s t).instruction then (tapOf s t).instruction else 0

/-- Load an instruction; the register it selects (0 bypass, 1 IDCODE, 2 boundary) and what that holds leave on the chain. -/
def loadInstruction (t i register : Nat) (bits : BitVec 64) (s : State) : State :=
  emit (.jtag t register bits) (onTap t (fun x => { x with instruction := i }) s)

def onTapRow (t : Nat) (f : State → State) (s : State) : Res :=
  if t < 16 then .next (when (testPowered s) f s) else .next s

/-- TEST_LOGIC_RESET (R77): the TAP controllers only; IDCODE is then selected. -/
def execTestLogicReset (s : State) : Res :=
  .next (when (testPowered s) (fun s => updates (List.range 16) (fun t => onTap t fun x => { x with instruction := 1 }) s) s)

def execIdcode (tap : Nat) (s : State) : Res := onTapRow tap (loadInstruction tap 1 1 idcode) s

/-- SAMPLE_PRELOAD: the pins are captured and the boundary register takes new bits. -/
def execSamplePreload (tap : Nat) (pins preload : BitVec 64) (s : State) : Res :=
  onTapRow tap (fun s => onTap tap (fun x => { x with boundary := preload }) (loadInstruction tap 2 2 pins s)) s

/-- A boundary instruction: it selects the boundary register in P4 (CLAMP and HIGHZ the bypass register), and acts as BYPASS in any
other state. -/
def boundaryInstruction (i tap : Nat) (s : State) : State :=
  if boundaryActs s i ∧ i ≤ 5 then loadInstruction tap i 2 (tapOf s tap).boundary s else loadInstruction tap i 0 0 s

def execExtest (tap : Nat) (s : State) : Res := onTapRow tap (boundaryInstruction 3 tap) s
def execExtestPulse (tap : Nat) (s : State) : Res := onTapRow tap (boundaryInstruction 4 tap) s
def execExtestTrain (tap : Nat) (s : State) : Res := onTapRow tap (boundaryInstruction 5 tap) s
def execClamp (tap : Nat) (s : State) : Res := onTapRow tap (boundaryInstruction 6 tap) s
def execHighz (tap : Nat) (s : State) : Res := onTapRow tap (boundaryInstruction 7 tap) s

/-- BYPASS: code 0xFF, or any code without an instruction of its own. -/
def execBypass (tap code : Nat) (s : State) : Res :=
  onTapRow tap (fun s => if 1 ≤ code ∧ code ≤ 7 then s else loadInstruction tap (code % 256) 0 0 s) s

end Sys2Proof.Machine
end

