-- ==== Sys2Proof/Machine/LaneDiag.lean ====
section
/-! DEFINITION. The lane diagnostics: the operations of LANE_DIAG, command 0x040A (R224–R228). -/

namespace Sys2Proof.Machine

/-- The operation that a LANE_DIAG command names. -/
def diagIs (n : Nat) (a : List Byte) : Bool := field a 2 1 == n

def diagPort (a : List Byte) : Nat := arg 0x040A a 0
def diagLane (a : List Byte) : Nat := arg 0x040A a 1
def diagParam (a : List Byte) : Nat := arg 0x040A a 3

/-- A rate code that a port's class trains or runs at (R204). -/
def classRate (cls code : Nat) : Bool := decide (code ≤ 3) && !(cls == 2 && code == 1)

def i8 (v : Int) : Fld := u8 (v % 256).toNat

/-- A LANE_DIAG operation on a port in an allowed state with a parameter in its stated values, else "argument
range". -/
def diag (n : Nat) (states : PortState → Bool) (param : Nat → Bool) (f : Nat → Nat → Nat → State → CmdOut)
    (lb : Nat) (s : State) : Res :=
  runCmd 0x040A (diagIs n) (fun _ a s =>
    if states (portOf s (diagPort a)).state && param (diagParam a) then f (diagPort a) (diagLane a) (diagParam a) s
    else err eRange s) lb s

def anyPort : PortState → Bool := fun _ => true
def inDiagnostic (x : PortState) : Bool := x == .diagnostic
def eyeStates : PortState → Bool
  | .lock | .exchange | .active | .keepalive | .diagnostic => true
  | _ => false

/-- The end of an operation that only sets something on the lane. -/
def setLane (p l : Nat) (f : Lane → Lane) (s : State) : CmdOut := ok0 (onLane p l f s)

/-- STATUS's result. -/
def statusBytes (s : State) (p l : Nat) : List Byte :=
  let x := portOf s p
  let y := laneOf x l
  pack ([u8 (portCode x.state), u8 (laneRate x), u8 (b2n y.los), u8 (b2n y.bitLock), u8 (b2n y.symbolLock)
    , u8 (b2n y.inverted), u8 y.partnerLane, u8 x.reason, u8 (min x.failures 255)]
    ++ (List.range 5).map (fun i => i8 (nth 0 y.taps i)) ++ [u8 y.ctle, i8 y.gain])

def execStatus (lb : Nat) (s : State) : Res :=
  diag 0x00 anyPort (· == 0) (fun p l _ s => .done 0 (statusBytes s p l) s) lb s

/-- DIAG_ENTER (R225): the port runs at the rate given, with preset 1 and no training. -/
def diagEnter (p _l v : Nat) (s : State) : CmdOut :=
  if !classRate (portClass p) v then err eRange s
  else
    ok0 (onPort p (fun x => { clearLink x with
      state := .diagnostic, idle := false, rate := v, lanes := tmap (fun _ y => freshLane y) x.lanes }) s)

def execDiagEnter (lb : Nat) (s : State) : Res := diag 0x01 (· == .disabled) (fun v => decide (v ≤ 3)) diagEnter lb s

/-! ### Transmit taps (R208) -/

/-- The range of a transmit tap of a class, in 1/128. -/
def tapRange (cls i : Nat) : Int × Int :=
  if cls = 2 then
    match i with
    | 2 => (-26, 0) | 3 => (90, 128) | 4 => (-19, 0) | _ => (0, 0)
  else
    match i with
    | 0 => (-13, 0) | 1 => (0, 19) | 2 => (-51, 0) | 3 => (58, 128) | _ => (-32, 0)

/-- Taps within their ranges, with magnitudes of at most 128 together. -/
def tapsOk (cls : Nat) (taps : List Int) : Bool :=
  ((List.range 5).all fun i => decide ((tapRange cls i).1 ≤ nth 0 taps i ∧ nth 0 taps i ≤ (tapRange cls i).2))
    && decide (taps.foldl (fun n t => n + t.natAbs) 0 ≤ 128)

/-- A byte as a signed number. -/
def signed8 (v : Nat) : Int := if v < 128 then v else (v : Int) - 256

def tapsSet (p l v : Nat) (s : State) : CmdOut :=
  let taps := (laneOf (portOf s p) l).taps.set (v % 256) (signed8 (v / 256 % 256))
  if tapsOk (portClass p) taps then setLane p l (fun y => { y with taps := taps }) s else err eRange s

def execTxTapsSet (lb : Nat) (s : State) : Res :=
  diag 0x02 inDiagnostic (fun v => decide (v < 2 ^ 16 ∧ v % 256 ≤ 4)) tapsSet lb s

/-! ### Patterns (R224, R226) -/

def patternParam (v : Nat) : Bool := decide (v < 32 ∧ v % 16 ≤ 8)

/-- SSPRQ is a PAM4 pattern. -/
def patternFits (s : State) (p v : Nat) : Bool := !(v % 16 == 7 && (portOf s p).rate == 0)

/-- PRBS_GEN: where the pattern starts is open. -/
def prbsGen (p l v : Nat) (s : State) : CmdOut :=
  let d := prbsDegree (v % 16)
  let a := if d = 0 then (0, s) else freshNat (2 ^ d - 1) s
  if patternFits s p v then setLane p l (fun y => { y with gen := v % 16, genInvert := bit v 4, genReg := if d = 0 then 0 else a.1 + 1 }) a.2
  else err eRange s

def execPrbsGen (lb : Nat) (s : State) : Res := diag 0x03 inDiagnostic patternParam prbsGen lb s

def prbsCheck (p l v : Nat) (s : State) : CmdOut :=
  if patternFits s p v then
    setLane p l (fun y => { y with
      check := v % 16, checkInvert := bit v 4, errors := 0, bitsSeen := 0, checkLock := false, checkReg := 0, checkRun := 0 }) s
  else err eRange s

def execPrbsCheck (lb : Nat) (s : State) : Res := diag 0x04 inDiagnostic patternParam prbsCheck lb s

/-- A checker's 48-bit saturating counter (R226). -/
def count48 (n : Nat) : Nat := min n (2 ^ 48 - 1)

/-! ### Words of a lane in Diagnostic (R224–R226, R228) -/

/-- A bit of the SSPRQ sequence of 65,535 PAM4 symbols (R224). -/
def ssprq (n : Nat) : Bool := Config.ssprqBit (n % 131070)

/-- The next 64 bits of a lane's generator, before inversion, and its register after them. -/
def genWord (y : Lane) : List Bool × Nat :=
  match y.gen with
  | 7 => ((List.range 64).map fun i => ssprq (y.genReg + i), (y.genReg + 64) % 131070)
  | 8 => (bitsOf 64 y.pattern, y.genReg)
  | g => prbsRun (prbsDegree g) (prbsTaps g) 64 y.genReg

/-- A checker takes one bit (R226). Until it has lock it holds the bits received and counts those that its pattern foretells; after 64 without
an error it has lock, and then runs by itself and counts what it compares (PRESUMED, assumption 98). -/
def checkBit (y : Lane) (b : Bool) : Lane :=
  let b := b != y.checkInvert
  if y.check = 7 then
    if y.checkLock then
      { y with checkReg := (y.checkReg + 1) % 131070, bitsSeen := count48 (y.bitsSeen + 1)
               errors := count48 (y.errors + b2n (b != ssprq y.checkReg)) }
    else
      let seen := (y.checkReg / 2 + b2n b * 2 ^ 63)
      let run := min (y.checkRun + 1) 64
      let found := if run < 64 then none else (List.range 131070).find? fun q => (List.range 64).all fun i => ssprq (q + i) == bit seen i
      match found with
      | some q => { y with checkLock := true, checkReg := (q + 64) % 131070, checkRun := 0 }
      | none => { y with checkReg := seen, checkRun := run }
  else
    let d := prbsDegree y.check
    let told := prbsNext (prbsTaps y.check) y.checkReg
    if y.checkLock then
      { y with checkReg := prbsShift d y.checkReg told, bitsSeen := count48 (y.bitsSeen + 1), errors := count48 (y.errors + b2n (b != told)) }
    else
      let run := if b = told ∧ y.checkReg ≠ 0 then y.checkRun + 1 else 0
      { y with checkReg := prbsShift d y.checkReg b, checkRun := run, checkLock := decide (64 ≤ run) }

/-- The last whole word at the current word boundary, which BIT_SLIP has moved later (R228). -/
def wordAt (y : Lane) : Option Nat :=
  match y.prior, y.last with
  | _, none => none
  | none, some w => if y.slip = 0 then some w else none
  | some v, some w => some (if y.slip = 0 then w else (v / 2 ^ y.slip + w * 2 ^ (64 - y.slip)) % 2 ^ 64)

/-- Bits that differ in two 64-bit words. -/
def bitErrors (a b : Nat) : Nat := (bitsOf 64 (a ^^^ b)).countP id

/-- A word received: the user-pattern checker compares it at its boundary, the others take its bits in order (R226). -/
def checkWord (y : Lane) (bits : List Bool) : Lane :=
  let y := { y with prior := y.last, last := some (natOf bits) }
  if y.check = 0 then y
  else if y.check = 8 then
    match wordAt y with
    | some w =>
      let want := if y.checkInvert then 2 ^ 64 - 1 - y.pattern else y.pattern
      { y with errors := count48 (y.errors + bitErrors w want), bitsSeen := count48 (y.bitsSeen + 64) }
    | none => y
  else bits.foldl checkBit y

/-- The time of one 64-bit word on a lane in Diagnostic: its generator sends a word, and its receiver takes the word `w` from the partner, or its
own transmit signal at near-end loopback (a lane that sends none receives what the spec leaves open). Far-end loopback sends the received word
back (R225). The receiver adapts to what comes. -/
def laneWord (p l : Nat) (w : BitVec 64) (s : State) : State :=
  let y := laneOf (portOf s p) l
  let rate := (portOf s p).rate
  let g := genWord y
  let sent := g.1.map (· != y.genInvert)
  let none_ := freshNat (2 ^ 64) s
  let got : List Bool × State :=
    if y.loopback ≠ 1 then (bitsOf 64 w.toNat, s) else if y.gen = 0 then (bitsOf 64 none_.1, none_.2) else (sent, s)
  got.2 |> onLane p l (fun y => { checkWord y got.1 with genReg := g.2, bitLock := true })
    |> when (y.gen != 0 || y.loopback == 2) (emit (.levels p l (levelsOf rate (if y.loopback = 2 then got.1 else sent))))
    |> adapt p l

def laneWords (p l : Nat) (ws : List (BitVec 64)) (s : State) : State := updates ws (laneWord p l) s

/-- The 64-bit words of a bit stream, its first bit in bit 0. -/
def streamWords (stream words : Nat) : List (BitVec 64) := (List.range words).map fun i => BitVec.ofNat 64 (stream / 2 ^ (64 * i))

/-- PRBS_READ: `ws` are the 64-bit words that have come on the lane since its last operation; a receiver without bit lock takes none (R215). -/
def prbsRead (ws : List (BitVec 64)) (bitLock : Bool) (p l v : Nat) (s : State) : CmdOut :=
  let s := if bitLock then laneWords p l ws s else onLane p l (fun y => { y with bitLock := false }) s
  let y := laneOf (portOf s p) l
  .done 0 (pack [u64 y.errors, u64 y.bitsSeen, u8 (b2n y.checkLock)])
    (if bit v 0 then onLane p l (fun y => { y with errors := 0, bitsSeen := 0 }) s else s)

/-- PRBS_READ (R226); `stream` is what came on the lane, `words` words long. -/
def execPrbsRead (lb stream words : Nat) (bitLock : Bool) (s : State) : Res :=
  diag 0x05 inDiagnostic (fun v => decide (v ≤ 1)) (prbsRead (streamWords stream words) bitLock) lb s

def execPatternLow (lb : Nat) (s : State) : Res :=
  diag 0x06 inDiagnostic (fun _ => true)
    (fun p l v s => setLane p l (fun y => { y with pattern := y.pattern / 2 ^ 32 * 2 ^ 32 + v }) s) lb s

def execPatternHigh (lb : Nat) (s : State) : Res :=
  diag 0x07 inDiagnostic (fun _ => true)
    (fun p l v s => setLane p l (fun y => { y with pattern := v * 2 ^ 32 + y.pattern % 2 ^ 32 }) s) lb s

/-- CAPTURE: the last word received, at the current word boundary; what it is before one has come is open. -/
def capture (ws : List (BitVec 64)) (p l : Nat) (s : State) : CmdOut :=
  let s := laneWords p l ws s
  match wordAt (laneOf (portOf s p) l) with
  | some w => .done 0 (pack [u64 w]) s
  | none => let a := freshNat (2 ^ 64) s; .done 0 (pack [u64 a.1]) a.2

/-- CAPTURE (R224): `words` are the 64-bit words that have come on the lane since its last operation. -/
def execCapture (lb : Nat) (words : List (BitVec 64)) (s : State) : Res :=
  diag 0x08 inDiagnostic (· == 0) (fun p l _ s => capture words p l s) lb s

/-- BIT_SLIP (R228): the word boundary, in bits later than at the start, of a 64-bit word. -/
def execBitSlip (lb : Nat) (s : State) : Res :=
  diag 0x09 inDiagnostic (fun v => decide (1 ≤ v ∧ v ≤ 63))
    (fun p l v s => setLane p l (fun y => { y with slip := (y.slip + v) % 64 }) s) lb s

def execLoopback (lb : Nat) (s : State) : Res :=
  diag 0x0A inDiagnostic (fun v => decide (v ≤ 2)) (fun p l v s => setLane p l (fun y => { y with loopback := v }) s) lb s

/-! ### Eyes (R227) -/

/-- Eyes of the present signalling: one at NRZ, three at PAM4. -/
def eyeCount (x : Port) : Nat := if laneRate x = 0 then 1 else 3

def eyeFields (e : EyeReading) : List Fld := [u16 e.heightMv, u16 e.width64, u16 e.snrTenthDb]

/-- EYE_SUMMARY: `eyes` is what the receiver measures, lower eye first. -/
def execEyeSummary (lb : Nat) (eyes : List EyeReading) (s : State) : Res :=
  diag 0x0B eyeStates (· == 0) (fun p _ _ s =>
    .done 0 (pack ((eyes.take (eyeCount (portOf s p))).flatMap eyeFields)) s) lb s

/-- The bitmap of a scan: `errors` holds the errors of voltage v at phase p at index 128 p + v. -/
def eyeBitmap (threshold : Nat) (errors : List Nat) : List Byte :=
  (chunks 8 1024 (padErrors errors)).map fun g =>
    BitVec.ofNat 8 ((g.zip (List.range 8)).foldl (fun n e => n + b2n (decide (threshold < e.1)) * 2 ^ e.2) 0)
where
  padErrors (l : List Nat) : List Nat := (l ++ List.replicate (8192 - l.length) 0).take 8192

def eyeParam (x : Port) (v : Nat) : Bool :=
  decide (v < 2 ^ 16 ∧ v / 4 % 64 = 0 ∧ v % 4 ≤ 2 ∧ (laneRate x = 0 → v % 4 = 1))

/-- EYE_SCAN: `errors` is what the secondary slicer counts at each point. -/
def execEyeScan (lb : Nat) (errors : List Nat) (s : State) : Res :=
  diag 0x0C eyeStates (fun _ => true) (fun p _ v s =>
    if eyeParam (portOf s p) v then .done 0 (eyeBitmap (v / 256) errors) s else err eRange s) lb s

/-- RATE_LIMIT (R205, R224). -/
def execRateLimit (lb : Nat) (s : State) : Res :=
  diag 0x0D anyPort (fun v => decide (1 ≤ v ∧ v ≤ 3)) (fun p _ v s =>
    if classRate (portClass p) v then ok0 (onPort p (fun x => { x with rateLimit := v }) s) else err eRange s) lb s

end Sys2Proof.Machine
end

