-- ==== Sys2Proof/Machine/Lanes.lean ====
section
/-! DEFINITION. What lanes see in training: beacons (R210, R211), training frames (R212–R214), alignment markers and lock
(R215, R230), timeouts and Back-off (R217–R219), LOS and loss of lock (R218–R222). -/

namespace Sys2Proof.Machine

/-! ### Detect (R210, R211) -/

def bv (w : BitVec 64) (hi lo : Nat) : Nat := bits w.toNat hi lo

/-- A beacon word as received, with inverted polarity undone; `none` when its sync field or its CRC does not match. -/
def readBeacon (w : BitVec 64) : Option (BitVec 64 × Bool) :=
  let inv := bv w 15 0 == 0xC3A5
  let v := if inv then ~~~w else w
  if bv v 15 0 = 0x3C5A ∧ crc8 56 v.toNat 0 = bv v 63 56 then some (v, inv) else none

def detected (x : Port) (l : Nat) : Bool := decide (16 ≤ (laneOf x l).beacons) && !(laneOf x l).excluded

/-- Set Ready, keeping the lanes detected by then (R211); a lane not detected is journalled. -/
def setReady (p : Nat) (s : State) : State :=
  let kept := lanesMask ((List.range 4).filter (detected (portOf s p)))
  s |> onPort p (fun x => { x with ready := true, mask := kept }) |> sendBeacons p
    |> when (kept != 15) (journalRule 6 2 1 false 211 [u8 p, u8 kept])

/-- The lane set: each kept lane whose received beacons show Seen. -/
def laneSet (x : Port) : Nat := lanesMask ((maskLanes x.mask).filter fun l => (laneOf x l).seenByPartner)

/-- A lane that two consecutive trainings have left out: the narrower width is recorded and becomes the port's width (R400). -/
def noteMissing (p set_ m : Nat) (x : Port) (s : State) : State :=
  let gone := lanesMask ((List.range 4).filter fun l => !bit set_ l)
  let again := (List.range 4).any fun l => bit gone l && bit x.missing l
  let w := maskWidth m
  let s := onPort p (fun x => { x with missing := gone }) s
  if again ∧ w < x.widthLimit then
    s |> onPort p (fun x => { x with widthLimit := w })
      |> mapAdd [mapEntry 0x06 (96 + p / 6) (p % 6) 0 0 w]
  else s

/-- The status word a lane sends (R212). -/
def statusWord (y : Lane) : BitVec 32 :=
  let w := (List.range 5).foldl (fun n i => n + nth 0 y.tapStatus i * 2 ^ (2 * i)) 0 + 2 ^ 10 * b2n y.trained
    + 2 ^ 16 * y.sequence
  BitVec.ofNat 32 (w + 2 ^ 24 * crc8 24 w 0)

/-- The control word a lane sends: its receiver's request to the partner (R212). -/
def controlWord (y : Lane) : BitVec 32 :=
  let w := y.ask + 2 ^ 16 * y.askSeq
  BitVec.ofNat 32 (w + 2 ^ 24 * crc8 24 w 0)

/-- A lane sends a training frame (R212); where its PRBS13 starts is open. -/
def sendTraining (p l : Nat) (s : State) : State :=
  let y := laneOf (portOf s p) l
  let a := freshNat 8191 s
  a.2 |> emit (.trainingStatus p l (statusWord y))
    |> emit (.levels p l (trainingLevels (controlWord y).toNat (statusWord y).toNat (a.1 + 1)))

/-- Pass to Pattern when R211's conditions hold. -/
def detectPass (p : Nat) (s : State) : State :=
  let x := portOf s p
  let set_ := laneSet x
  if x.ready ∧ set_ ≠ 0 ∧ x.partnerClass = portClass p ∧ (maskLanes set_).all (fun l => 8 ≤ (laneOf x l).readySeen) then
    let m := formSet set_ x.widthLimit
    s |> onPort p (fun x => { x with state := .pattern, rate := min x.rateOffer x.partnerRate, mask := m, rxMask := m })
      |> noteMissing p set_ m x
      |> updates (maskLanes m) (sendTraining p)
  else s

/-- A lane's run of valid beacons ends: Seen falls back to 0 in the beacons it sends. -/
def beaconsLost (p l : Nat) (s : State) : State :=
  let was := (laneOf (portOf s p) l).beacons
  s |> onLane p l (fun y => { y with beacons := 0, readySeen := 0 })
    |> when (decide (0 < was) && (portOf s p).state == .detect && !(portOf s p).idle) (sendBeacon p l)

/-- A beacon on a lane in Detect. -/
def beacon (p l : Nat) (w : BitVec 64) (s : State) : State :=
  let x := portOf s p
  if x.state ≠ .detect ∨ x.idle then s
  else
    match readBeacon w with
    | none => beaconsLost p l s
    | some (v, inv) =>
      let rs := bit v.toNat 24 && bit v.toNat 25
      let first := (laneOf x l).beacons == 0
      let s := s
        |> onLane p l (fun y => { y with
            beacons := y.beacons + 1, inverted := inv, partnerLane := bv v 17 16, seenByPartner := bit v.toNat 25
            readySeen := if rs then y.readySeen + 1 else 0 })
        |> onPort p (fun x => { x with partnerClass := bv v 23 22, partnerRate := bv v 21 20 })
      let s := when first (sendBeacon p l) s
      let all := (List.range 4).all fun l => detected (portOf s p) l || (laneOf (portOf s p) l).excluded
      let any := (List.range 4).any (detected (portOf s p))
      detectPass p (when (all && any && !(portOf s p).ready) (setReady p) s)

/-- BEACON (R210, R211). -/
def execBeacon (port lane : Nat) (word : BitVec 64) (s : State) : Res := runLane port lane (beacon port lane word) s

/-- READY_TIMER (R211): 1 ms after the first lane was detected. -/
def readyTimer (p : Nat) (s : State) : State :=
  let x := portOf s p
  if x.state = .detect ∧ !x.idle ∧ !x.ready ∧ (List.range 4).any (detected x) then detectPass p (setReady p s) else s

def execReadyTimer (port : Nat) (s : State) : Res := runPort port (readyTimer port) s

/-! ### Pattern (R212–R214) -/

/-- A 32-bit training word's CRC matches. -/
def trainOk (w : BitVec 32) : Bool := crc8 24 w.toNat 0 == bits w.toNat 31 24

/-- One tap request: the taps, and the status 0 not updated, 1 updated, 2 at limit, 3 not supported. -/
def tapRequest (cls i req : Nat) (taps : List Int) : List Int × Nat :=
  if req = 0 then (taps, 0)
  else if req = 3 ∨ (cls = 2 ∧ i < 2) then (taps, 3)
  else
    let t := taps.set i (nth 0 taps i + (if req = 1 then 1 else -1))
    if tapsOk cls t then (t, 1) else (taps, 2)

/-- A control word's request applied (R213). -/
def applyRequest (cls c : Nat) (y : Lane) : Lane :=
  let pre := bits c 11 10
  if pre ≠ 0 then { y with taps := presetTaps cls pre, tapStatus := [1, 1, 1, 1, 1], sequence := bits c 23 16 }
  else
    let r := (List.range 5).foldl (fun (a : List Int × List Nat) i =>
      let t := tapRequest cls i (bits c (2 * i + 1) (2 * i)) a.1
      (t.1, a.2 ++ [t.2])) (y.taps, [])
    { y with taps := r.1, tapStatus := r.2, sequence := bits c 23 16 }

/-- Pattern passes to Lock (R214). -/
def patternPass (p : Nat) (s : State) : State :=
  let x := portOf s p
  if (maskLanes x.mask).all fun l => (laneOf x l).trained && decide (8 ≤ (laneOf x l).trainedFrames) then
    onPort p (fun x => { x with
      state := .lock, lanes := tmap (fun _ y => { y with markers := 0, symbolLock := false, bitLock := false, fifo := [] }) x.lanes }) s
  else s

/-- The next request of a lane's receiver (R213): only once the last one's echo has come, and none when the receiver has finished. What it
asks for is its own: a preset or tap requests, none of them reserved. -/
def nextRequest (echo : Nat) (p l : Nat) (s : State) : State :=
  let y := laneOf (portOf s p) l
  if y.trained ∨ echo ≠ y.askSeq then s
  else
    let a := freshNat 4 s
    let taps := (List.range 5).foldl (fun (r : Nat × State) i => let t := freshNat 3 r.2; (r.1 + t.1 * 2 ^ (2 * i), t.2)) (0, a.2)
    onLane p l (fun y => { y with ask := taps.1 + 2 ^ 10 * a.1, askSeq := (y.askSeq + 1) % 256 }) taps.2

def trainingFrame (p l : Nat) (control status : BitVec 32) (own : Bool) (s : State) : State :=
  let x := portOf s p
  let y := laneOf x l
  if x.state ≠ .pattern ∨ !bit x.mask l ∨ !trainOk control ∨ !trainOk status then s
  else
    let fresh := bits control.toNat 23 16 != y.sequence
    let y' := if fresh then applyRequest (portClass p) control.toNat y else y
    let y' := { y' with
      trained := own, trainedFrames := if bit status.toNat 10 then y.trainedFrames + 1 else 0 }
    s |> onLane p l (fun _ => y')
      |> adapt p l
      |> nextRequest (bits status.toNat 23 16) p l
      |> when (fresh && y'.tapStatus.contains 2)
          (journalRule 6 0 1 false 213 ([u8 p, u8 l] ++ y'.taps.map i8))
      |> sendTraining p l
      |> patternPass p

/-- TRAINING_FRAME (R213, R214); `ownTrained`: the lane's own receiver has finished adapting. -/
def execTrainingFrame (port lane : Nat) (control status : BitVec 32) (ownTrained : Bool) (s : State) : Res :=
  runLane port lane (trainingFrame port lane control status ownTrained) s

/-! ### Lock (R215, R230) -/

/-- An alignment marker with its sync field and CRC right. -/
def markerOk (w : BitVec 64) : Bool := bv w 15 0 == 0x6F1D && crc8 56 w.toNat 0 == bv w 63 56

/-- A mask over the partner's lanes as a mask over the own ones, by the lane numbers that the beacons carried (R210, R230;
DEDUCED, assumption 99). -/
def ownMask (x : Port) (m : Nat) : Nat := lanesMask ((List.range 4).filter fun l => bit m (laneOf x l).partnerLane)

/-- A marker joins what its lane has received; one that follows another with no symbol between takes its place. -/
def putMarker (w : BitVec 64) (q : List RxItem) : List RxItem :=
  let m := RxItem.marker (bv w 55 48) (bv w 41 32)
  match q.getLast? with
  | some (.marker _ _) => q.dropLast ++ [m]
  | _ => q ++ [m]

/-- The marker a port sends on a lane (R230): `offset` is the bit position of the next flit boundary. -/
def markerWord (x : Port) (l offset : Nat) : BitVec 64 :=
  let logical := (maskLanes x.mask).countP fun k => decide (k < l)
  let w := 0x6F1D + 2 ^ 16 * l + 2 ^ 18 * logical + 2 ^ 20 * x.mask + 2 ^ 32 * offset + 2 ^ 48 * (x.markerCount % 256)
  BitVec.ofNat 64 (w + 2 ^ 56 * crc8 56 w 0)

/-- A marker on a lane: symbol lock after four, from which the receive chain deskews; a new mask seen while up makes the receiver regroup
(R247 step 2). -/
def alignmentMarker (p l : Nat) (w : BitVec 64) (s : State) : State :=
  let x := portOf s p
  let good (s : State) : State := onLane p l (fun y => { y with
    markers := y.markers + 1, symbolLock := y.symbolLock || decide (4 ≤ y.markers + 1), fifo := putMarker w y.fifo }) (adapt p l s)
  match x.state with
  | .lock =>
    if !bit x.mask l then s
    else if markerOk w then good s
    else onLane p l (fun y => { y with markers := 0, symbolLock := false }) s
  | .exchange => if markerOk w ∧ bit x.rxMask l then good s else s
  | .active | .keepalive =>
    let m := ownMask x (bv w 23 20)
    if markerOk w ∧ bit x.rxMask l then
      good (if m ≠ 0 ∧ m &&& x.rxMask = m then onPort p (fun x => { x with rxMask := m }) s else s)
    else onLane p l (fun y => { y with markers := 0 }) s
  | _ => s

/-- ALIGNMENT_MARKER (R215, R247). -/
def execAlignmentMarker (port lane : Nat) (marker : BitVec 64) (s : State) : Res :=
  runLane port lane (alignmentMarker port lane marker) s

/-- Enter Exchange: CAPs begin (R216, R243), on the stream that Lock has sent. -/
def enterExchange (p : Nat) (s : State) : State :=
  queueControl p 0x01 (onPort p (fun x => { clearLink x with
    state := .exchange, mask := x.mask, rxMask := x.mask, txBits := x.txBits, txMessage := x.txMessage, txMask := x.txMask
    markerCount := x.markerCount, rxScramble := x.rxScramble, rxBits := x.rxBits, rxBad := x.rxBad, rxOffset := x.rxOffset }) s)

def lockWindow (p : Nat) (bad : Bool) (skewNs : Nat) (locked : Nat) (s : State) : State :=
  let x := portOf s p
  if x.state ≠ .lock then s
  else
    let s := onPort p (fun x => { x with
      skewBad := decide (64 < skewNs), fecBad := false
      lanes := (maskLanes x.mask).foldl (fun t l => tmod {} t l fun y => { y with bitLock := bit locked l }) x.lanes }) s
    let s := updates (maskLanes x.mask) (adapt p) s
    if !bad ∧ !x.fecBad ∧ x.mask &&& locked = x.mask ∧ skewNs ≤ 64 ∧ (maskLanes x.mask).all (fun l => (laneOf x l).symbolLock) then enterExchange p s else s

/-- LOCK_FEC_WINDOW (R215): 1 ms of Lock, with what the decoder and the deskew found in it, and the mask of the lanes whose clock recovery and
equalizer have settled. -/
def execLockFecWindow (port : Nat) (uncorrectable : Bool) (skewNs : Nat) (locked : Nat) (s : State) : Res :=
  if locked < 16 then runPort port (lockWindow port uncorrectable skewNs locked) s else .next s

/-! ### Timeouts, fallback, Back-off (R217–R219) -/

/-- This end advertises "not ready": in the safe state (R87), or while firmware holds the port (R242). -/
def ownNotReady (s : State) (p : Nat) : Bool := inSafe s || (portOf s p).held

/-- The reason of a training timeout, `none` where no timeout runs. -/
def timeoutReason (s : State) (p : Nat) : Option Nat :=
  let x := portOf s p
  let ls := (maskLanes x.mask).map (laneOf x)
  match x.state with
  | .detect => if x.idle then none else if x.lanes.any (fun e => e.2.beacons != 0) then some 0x02 else some 0x01
  | .pattern => if ls.all Lane.trained then some 0x04 else some 0x03
  | .lock =>
    if !ls.all Lane.bitLock then some 0x05 else if !ls.all Lane.symbolLock then some 0x06
    else if x.skewBad then some 0x07 else some 0x08
  | .exchange =>
    if ownNotReady s p || (match x.cap with | some c => c.status != 0 | none => false) then none else some 0x09
  | _ => none

def trainingTimeout (p : Nat) (s : State) : State :=
  match timeoutReason s p with
  | some r => fallback p r s
  | none => s

/-- TRAINING_TIMEOUT (R217, R218). -/
def execTrainingTimeout (port : Nat) (s : State) : Res := runPort port (trainingTimeout port) s

/-- Detect after the idle of a fallback, or Back-off after 8 failures (R219). -/
def idleEnd (p : Nat) (s : State) : State :=
  let x := portOf s p
  if !x.idle then s
  else if x.inBackoff ∨ 8 ≤ x.failures then
    s |> onPort p (fun x => { x with state := .backoff, idle := false, inBackoff := true })
      |> when (!x.inBackoff) (journal 0x6003 2 1 true [u8 p]) |> widthDone p
  else enterDetect p s

def execFallbackIdleEnd (port : Nat) (s : State) : Res := runPort port (idleEnd port) s

def attempt (p : Nat) (s : State) : State := if (portOf s p).state = .backoff then enterDetect p s else s

/-- BACKOFF_ATTEMPT (R219). -/
def execBackoffAttempt (port : Nat) (s : State) : Res := runPort port (attempt port) s

/-! ### LOS and loss of lock (R218–R222) -/

/-- A lane of the set has lost its signal or lock: narrow in Active, fall back otherwise (R218, R221, R246). -/
def laneLost (p l training lastLane trigger : Nat) (s : State) : State :=
  let x := portOf s p
  if !bit x.mask l then s
  else
    match x.state with
    | .pattern | .lock | .exchange => fallback p training s
    | .keepalive => fallback p lastLane s
    | .active =>
      let left := formSet (lanesMask ((maskLanes (x.mask &&& x.rxMask)).filter (· != l))) 4
      if left = 0 then fallback p lastLane s else narrowTo p left trigger s
    | _ => s

def losAssert (p l : Nat) (s : State) : State :=
  laneLost p l 0x0B 0x10 0
    (onLane p l (fun y => { y with los := true, bitLock := false, symbolLock := false, seenByPartner := false, fifo := [] }) (beaconsLost p l s))

/-- LOS_ASSERT (R218, R220, R221). -/
def execLosAssert (port lane : Nat) (s : State) : Res := runLane port lane (losAssert port lane) s

def losClear (p l : Nat) (s : State) : State := attempt p (onLane p l (fun y => { y with los := false }) s)

/-- LOS_CLEAR (R219, R220). -/
def execLosClear (port lane : Nat) (s : State) : Res := runLane port lane (losClear port lane) s

def lossOfLock (p l : Nat) (s : State) : State :=
  laneLost p l 0x0C 0x11 1 (onLane p l (fun y => { y with bitLock := false, symbolLock := false }) s)

/-- LOSS_OF_LOCK (R218, R220, R221). -/
def execLossOfLock (port lane : Nat) (s : State) : Res := runLane port lane (lossOfLock port lane) s

/-- The lanes of the port that have bit lock come with the row; symbol lock without it is none (R215; DEDUCED, assumption 100). -/
def returnCheck (p bitLocked : Nat) (s : State) : State :=
  let x := portOf s p
  if !x.returning then s
  else if (maskLanes x.mask).all (fun l => bit bitLocked l && (laneOf x l).symbolLock) then onPort p (fun x => { x with returning := false }) s
  else fallback p 0x0C s

/-- KEEPALIVE_RETURN_CHECK (R222). -/
def execKeepaliveReturnCheck (port bitLocked : Nat) (s : State) : Res := runPort port (returnCheck port bitLocked) s

/-- LASER_FAILURE (R445): journalled with a PLDM event; the lane is excluded at the next Detect. -/
def execLaserFailure (port lane : Nat) (s : State) : Res :=
  if portClass port ≠ 2 then .next s
  else
    runLane port lane (fun s => s |> onLane port lane (fun y => { y with excluded := true })
      |> journalRule 6 2 1 true 445 [u8 port, u8 lane]) s

end Sys2Proof.Machine
end

