-- ==== Sys2Proof/Machine/Link.lean ====
section
/-! DEFINITION. The link layer (chapter 11): the transmit chain, flits and streams (R229–R234), numbering, acknowledgement and replay
(R235–R240), the capability exchange (R241–R244), narrowing (R246, R247) and Keep-alive (R251). -/

namespace Sys2Proof.Machine

/-! ### Sending (R229–R233) -/

/-- The bodies of a packet's flits: 116 bytes each, the last padded with 0 (R232). -/
def flitBodies (bytes : List Byte) : List (List Byte) := (chunks 116 64 bytes).map (padTo 116)

/-- A flit's 128 bytes (R231). -/
def flitBytes (kind stream : Nat) (sop eop nak : Bool) (seq ack credits : Nat) (body : List Byte) : List Byte :=
  let b := leBytes 1 (kind + 4 * stream + 16 * b2n sop + 32 * b2n eop) ++ leBytes 1 (1 + 2 * b2n nak) ++ leBytes 2 seq
    ++ leBytes 2 ack ++ leBytes 1 credits ++ leBytes 1 0 ++ padTo 116 body
  b ++ leBytes 4 (crc32 b)

/-- One bit of the self-synchronous scrambler x^58 + x^39 + 1 (R229): the state's bit 0 is the last bit sent. -/
def scrambleBit (st : Nat) (b : Bool) : Nat × Bool :=
  let o := (b != bit st 38) != bit st 57
  ((2 * st + b2n o) % 2 ^ 58, o)

def scrambleByte (st : Nat) (b : Byte) : Nat × Byte :=
  let r := (List.range 8).foldl (fun (a : Nat × Nat) i =>
    let x := scrambleBit a.1 (b.getLsbD i)
    (x.1, a.2 + b2n x.2 * 2 ^ i)) (st, 0)
  (r.1, BitVec.ofNat 8 r.2)

def scramble : Nat → List Byte → Nat × List Byte
  | st, [] => (st, [])
  | st, b :: bs =>
    let x := scrambleByte st b
    let r := scramble x.1 bs
    (r.1, x.2 :: r.2)

/-- Message bits between markers: 8 × W codewords of 5,140 bits (R229). -/
def markerPeriod (mask : Nat) : Nat := 8 * maskWidth mask * 5140

/-- The markers before a codeword: one on every lane of the set, whose mask holds until the next one (R229, R230, R247). -/
def sendMarkers (p : Nat) (s : State) : State :=
  let x := portOf s p
  updates (maskLanes x.mask) (fun l s =>
    let w := markerWord x l (x.txBits % 1024)
    s |> emit (.marker p l w) |> emit (.levels p l (levelsOf (laneRate x) (bitsOf 64 w.toNat)))) s
    |> onPort p (fun x => { x with txMask := x.mask, markerCount := (x.markerCount + 1) % 256 })

/-- A codeword on the lanes (R206, R229): logical lane n is the lane of rank n of the mask. -/
def sendCodeword (p message : Nat) (s : State) : State :=
  let x := portOf s p
  let symbols := rsCodeword message
  let lanes := maskLanes x.txMask
  updates ((List.range lanes.length).zip lanes) (fun e s =>
    emit (.levels p e.2 ((stripe lanes.length e.1 symbols).flatMap (symbolLevels (laneRate x)))) s) s

/-- A flit leaves a port: scrambled, it joins the message bits, and a codeword that is full goes out, a marker before every
8 × W of them. -/
def emitFlit (p : Nat) (bytes : List Byte) (s : State) : State :=
  let x := portOf s p
  let r := scramble x.txScramble.toNat bytes
  let k := x.txBits % 5140
  let message := x.txMessage + leNat r.2 * 2 ^ k
  let s := s |> emit (.flit p bytes r.2) |> onPort p (fun x => { x with txScramble := BitVec.ofNat 58 r.1 })
  if k + 1024 < 5140 then onPort p (fun x => { x with txBits := x.txBits + 1024, txMessage := message }) s
  else
    s |> when (decide (x.txBits < 5140)) (sendMarkers p)
      |> sendCodeword p (message % 2 ^ 5140)
      |> onPort p (fun x => { x with
          txBits := (x.txBits + 1024) % markerPeriod x.txMask, txMessage := message / 2 ^ 5140 })

/-- The acknowledgement of every header (R238). -/
def ackOf (x : Port) : Nat := (x.expected + 65535) % 65536

/-- Send a flit of a kind with the acknowledgement, NAK and credits due. -/
def sendFlit (p kind stream : Nat) (sop eop : Bool) (seq : Nat) (body : List Byte) (s : State) : State :=
  let x := portOf s p
  let c := min x.owedCredits 255
  onPort p (fun x => { x with owedCredits := x.owedCredits - c })
    (emitFlit p (flitBytes kind stream sop eop x.nak seq (ackOf x) c body) s)

/-- This module's CAP (R242). -/
def capBody (s : State) (p : Nat) : List Byte :=
  let x := portOf s p
  leBytes 1 1 ++ leBytes 1 1 ++ leBytes 1 (b2n x.cap.isSome) ++ leBytes 1 (b2n (ownNotReady s p))
    ++ leBytes 1 (if inSafe s then s.power.safeReason else if x.held then 0x80 else 0) ++ leBytes 1 0 ++ leBytes 1 p ++ leBytes 1 (logicalOf s p)
    ++ leBytes 4 (if s.disc.assigned then (portPc (moduleNumber s) p).toNat else 0xFFFFFFFF) ++ leBytes 8 ownIdentity
    ++ leBytes 2 2048 ++ leBytes 2 4096 ++ leBytes 2 576 ++ leBytes 2 (x.token % 65536) ++ leBytes 2 x.partnerToken ++ leBytes 2 0
    ++ leBytes 4 0x1F

/-- The body of a link control flit. -/
def controlBody (s : State) (p op : Nat) : List Byte :=
  if op = 0x01 then capBody s p
  else if op = 0x03 ∨ op = 0x04 then leBytes 1 op ++ leBytes 1 (portOf s p).mask
  else leBytes 1 op

/-- A payload flit: in the replay buffer until it is acknowledged (R236). -/
def sendPayload (p : Nat) (f : TxFlit) (s : State) : State :=
  sendFlit p 1 f.stream f.sop f.eop f.seq f.body s

/-- Flits sent and not acknowledged. -/
def unacked (x : Port) : Nat := (x.next + 65536 - x.acked % 65536) % 65536

/-- Start a packet on a stream: the oldest of its class in the egress buffer. An escape packet starts only with
credits for all its flits (R279); new data and escape packets do not start while the port is held to control class. -/
def startPacket (p stream : Nat) (s : State) : State :=
  let x := portOf s p
  if !(tget [] x.tx stream).isEmpty ∨ (stream ≠ 2 ∧ x.controlOnly) then s
  else
    match s.fabric.flights.find? fun e => e.2.loc == .egress p && streamOf e.2.pkt == stream with
    | none => s
    | some (pid, f) =>
      let bodies := flitBodies (pktBytes f.pkt)
      let esc := outerEscape f.pkt
      if esc ∧ x.credits < bodies.length then s
      else
        let own := pcModule f.pkt.src == moduleNumber s && !f.pkt.control
        s |> dropFlight pid
          |> onPort p (fun x => { x with
              credits := if esc then x.credits - bodies.length else x.credits
              tx := tset x.tx stream [{ bodies := bodies, packet := pid, preHold := f.preHold
                                        ctx := if own then some f.pkt.frank.ctx else none }] })

/-- Send the next flit of a stream's packet, inside the window (R236); `none` when the stream has nothing to send. -/
def streamFlit (p stream : Nat) (s : State) : Option State :=
  let s := startPacket p stream s
  let x := portOf s p
  match tget [] x.tx stream with
  | t :: _ =>
    match t.bodies with
    | body :: rest =>
      if 2048 ≤ unacked x then none
      else
        let f : TxFlit := { seq := x.next, stream := stream, sop := !t.started, eop := rest.isEmpty, body := body
                            packet := t.packet }
        let s := sendPayload p f s
        let s := onPort p (fun x => { x with
          next := (x.next + 1) % 65536, replay := x.replay ++ [f]
          tx := if rest.isEmpty then terase x.tx stream
            else tset x.tx stream [{ t with bodies := rest, started := true, flits := t.flits + 1 }] }) s
        some (when rest.isEmpty (countPort p 17 1) s)
    | [] => none
  | [] => none

/-- A partner's KA_ENTER is answered once no data or escape packet is in progress (R251). -/
def kaAnswer (p : Nat) (s : State) : State :=
  let x := portOf s p
  if x.kaAckOwed ∧ x.tx.all (fun e => e.1 == 2 || e.2.isEmpty) then queueControl p 0x06 s else s

def first? : List (Option State) → Option State
  | [] => none
  | o :: os => match o with | some s => some s | none => first? os

/-- What sending a link control flit does beyond it: a CAP's token is spent (R243), Active follows a START that crosses the partner's (R243),
and the lanes switch after a KA_ACK (R251). -/
def controlSent (p op : Nat) (s : State) : State :=
  match op with
  | 0x01 => onPort p (fun x => { x with token := x.token + 1 }) s
  | 0x02 => (fun s => if (portOf s p).startGot then enterActive p s else s) (onPort p (fun x => { x with startSent := true }) s)
  | 0x06 => kaSwitch p s
  | _ => s

/-- The flit at a flit boundary, in the order of R233. -/
def flitSend (p : Nat) (s : State) : State :=
  let x := portOf s p
  let up := x.state == .active || x.state == .keepalive
  if !(up || x.state == .lock || x.state == .exchange) then s
  else
    match x.resend, x.controls with
    | f :: rest, _ => onPort p (fun x => { x with resend := rest }) (sendPayload p f s)
    | [], op :: ops =>
      controlSent p op (sendFlit p 2 0 false false 0 (controlBody s p op) (onPort p (fun x => { x with controls := ops }) s))
    | [], [] =>
      let idle := sendFlit p 0 0 false false 0 [] s
      if !up then idle
      else
        let r := if x.state = .keepalive then streamFlit p 2 s
          else first? [streamFlit p 2 s, streamFlit p 1 s, streamFlit p 0 s]
        kaAnswer p (r.getD idle)

/-- FLIT_SEND (R233). -/
def execFlitSend (port : Nat) (s : State) : Res := runPort port (flitSend port) s

/-! ### Acknowledgement and replay (R236–R239) -/

/-- Send every unacknowledged flit again (R239); the fourth time without an advance of A ends the link. `k` is the Ack value of the rewind. -/
def rewind (p k : Nat) (s : State) : State :=
  let x := portOf s p
  if 3 ≤ x.rewinds then fallback p 0x23 (countPort p 3 1 s)
  else
    s |> countPort p 3 1
      |> onPort p (fun x => { x with resend := x.replay, rewinds := x.rewinds + 1, lastRewindAck := some k })

/-- A received Ack value (R238), `none` where it ends the link. -/
def takeAck (k : Nat) (x : Port) : Option Port :=
  let before := (x.acked + 65535) % 65536
  let d := (k + 65536 - before) % 65536
  if d ≤ 2048 then
    let n := min d (unacked x)
    if n = 0 then some x
    else some { x with
      acked := (x.acked + n) % 65536, replay := x.replay.drop n, rewinds := 0
      resend := x.resend.drop (n - (x.replay.length - x.resend.length)) }
  else if 32768 < d then some x
  else none

/-- The header of a flit that passed its checks: Ack, NAK, escape credits. -/
def takeHeader (p : Nat) (flit : List Byte) (s : State) : State :=
  let h := field flit 1 1
  let s := onPort p (fun x => { x with credits := x.credits + field flit 6 1 }) s
  if !bit h 0 then s
  else
    let k := field flit 4 2
    match takeAck k (portOf s p) with
    | none => fallback p 0x24 s
    | some x =>
      let s := onPort p (fun _ => x) s
      let s := if bit h 1 ∧ x.lastRewindAck ≠ some k then rewind p k s else s
      narrowIfWaiting p s

/-- A flit's CRC fails. -/
def crcBad (flit : List Byte) : Bool := flit.length != 128 || crc32 (flit.take 124) != field flit 0x7C 4

/-- A flit fails the checks of R231. -/
def flitBad (flit : List Byte) (uncorrectable : Bool) : Bool :=
  let b := field flit 0 1
  uncorrectable || crcBad flit || b % 4 == 3
    || (b % 4 == 1 && b / 4 % 4 == 3) || b / 64 != 0 || field flit 1 1 / 4 != 0 || field flit 7 1 != 0

/-! ### Receiving packets (R234, R263–R265, R272, R279) -/

/-- Dead-letter a packet at a port. -/
def portDead (p reason stream : Nat) (bytes : List Byte) (s : State) : State :=
  deadLetterRaw (96 + p / 6) reason (0x80 + p % 6) stream (deadHead bytes) s

/-- Return the credits of an escape packet that does not enter the escape ingress. -/
def freeCredits (p : Nat) (q : Pkt) (bytes : List Byte) (s : State) : State :=
  if outerEscape q then onPort p (fun x => { x with owedCredits := x.owedCredits + (bytes.length + 115) / 116 }) s else s

/-- A data packet may enter through a port: its set's mask holds the port (R272), and the port is not held to control
class (R251). -/
def mayEnter (s : State) (p : Nat) (q : Pkt) : Bool :=
  q.control || (setAllows s q (logicalOf s p) && (portOf s p).state != .keepalive)

/-- A packet whose checks of stages A and B have passed enters the edge die. R268 has no flow control for a ninth data packet at the
ingress, and it is taken (DESIGN CHOICE, assumption 101). -/
def packetIn (p stream : Nat) (bytes : List Byte) (s : State) : State :=
  let q := readPkt bytes
  let s := countPort p 18 1 s
  if q.control ∧ 0x10 ≤ q.op ∧ q.op ≤ 0x15 ∧ q.tunnel.isNone then discoveryMessage p q (freeCredits p q bytes s)
  else
    let hop := match q.tunnel with | some t => t.hopLimit - 1 | none => 0
    let q := match q.tunnel with | some t => { q with tunnel := some { t with hopLimit := hop } } | none => q
    let stuck := match q.tunnel with | some t => hop == 0 && t.dest != moduleNumber s | none => false
    if !s.disc.assigned ∨ !mayEnter s p q then freeCredits p q bytes (portDead p 0x0C stream bytes s)
    else if stuck then freeCredits p q bytes (portDead p 0x0D stream bytes s)
    else addFlight q (if outerEscape q then .escIngress p else .ingress p) .none s

/-- Flits that a packet's headers announce. -/
def announcedFlits (bytes : List Byte) : Option Nat := (announcedBytes bytes).map fun n => (n + 115) / 116

/-- The end of a packet: its flit count must agree with its length (R234, R264). -/
def packetEnd (p stream : Nat) (r : RxPkt) (s : State) : State :=
  if r.dead then s
  else
    match announcedBytes r.bytes with
    | some n => if (n + 115) / 116 = r.flits then packetIn p stream (r.bytes.take n) s else portDead p 0x03 stream r.bytes s
    | none => portDead p 0x03 stream r.bytes s

/-- A payload flit accepted in order (R232, R234, R265). -/
def acceptFlit (p : Nat) (flit : List Byte) (s : State) : State :=
  let b := field flit 0 1
  let stream := b / 4 % 4
  let sop := bit b 4
  let eop := bit b 5
  let body := (flit.drop 8).take 116
  let old := tfind (portOf s p).rx stream
  let put (r : RxPkt) (s : State) : State :=
    if eop then packetEnd p stream r (onPort p (fun x => { x with rx := terase x.rx stream }) s)
    else onPort p (fun x => { x with rx := tset x.rx stream r }) s
  if sop then
    let s := match old with
      | some o => if o.dead then s else portDead p 0x01 stream o.bytes s
      | none => s
    match stageB (moduleNumber s) (some stream) body with
    | some why => put { bytes := body, flits := 1, dead := true } (portDead p why stream body s)
    | none => put { bytes := body, flits := 1, dead := false } s
  else
    match old with
    | some o =>
      let long := match announcedFlits o.bytes with | some n => decide (n ≤ o.flits) && !eop | none => false
      if long && !o.dead then put { o with dead := true } (portDead p 0x03 stream o.bytes s)
      else put { o with bytes := if o.dead then o.bytes else o.bytes ++ body, flits := o.flits + 1 } s
    | none => portDead p 0x02 stream body s

def isUp (x : Port) : Bool := x.state == .active || x.state == .keepalive

/-- Opcodes of R241. -/
def knownLinkOp (op : Nat) : Bool := decide (1 ≤ op ∧ op ≤ 7)

/-- A payload flit's sequence number against E (R237). -/
def payloadFlit (p : Nat) (flit : List Byte) (s : State) : State :=
  let x := portOf s p
  let n := field flit 2 2
  if n = x.expected then
    acceptFlit p flit (onPort p (fun x => { x with expected := (x.expected + 1) % 65536, nak := false }) s)
  else if after16 n x.expected then onPort p (fun x => { x with nak := true }) s
  else s

/-- Any flit at full rate answers a KA_EXIT that has been sent (R241). -/
def exitAnswered (p : Nat) (s : State) : State :=
  onPort p (fun x => { x with
    exitSent := x.exitSent && (x.state != .active || x.returning || x.controls.contains 0x07) }) s

/-- A flit arrives (R231, R237, R238). In Exchange a payload flit answers START, and an unknown opcode is counted (R241, R243). -/
def flitReceive (p : Nat) (flit : List Byte) (uncorrectable : Bool) (s : State) : State :=
  let x := portOf s p
  let kind := field flit 0 1 % 4
  let bad := flitBad flit uncorrectable
  let unknown (s : State) : State := if kind = 2 ∧ !knownLinkOp (field flit 8 1) then countPort p 16 1 s else s
  if x.state = .exchange ∧ !(x.startSent && kind == 1 && !bad) then
    if bad then (if x.state = .exchange ∧ crcBad flit ∧ !uncorrectable then countPort p 0 1 s else s) else unknown (if kind = 1 then onPort p (fun x => { x with startGot := true }) s else s)
  else
    let s := if x.state = .exchange then enterActive p s else s
    let st := (portOf s p).state
    if st ≠ .active ∧ st ≠ .keepalive then s
    else if bad then
      s |> (if crcBad flit && !uncorrectable then countPort p 0 1 else id)
        |> onPort p (fun x => { x with nak := true })
    else
      let s := exitAnswered p (takeHeader p flit s)
      let st := (portOf s p).state
      if st ≠ .active ∧ st ≠ .keepalive then s
      else if kind = 1 then payloadFlit p flit s
      else unknown s

/-! ### The receive chain (R229, R230) -/

/-- One bit of the descrambler: the register holds the last bits received, the latest in bit 0. -/
def descrambleBits : Nat → List Bool → List Bool × Nat
  | reg, [] => ([], reg)
  | reg, b :: t =>
    let r := descrambleBits ((2 * reg + b2n b) % 2 ^ 58) t
    (((b != bit reg 38) != bit reg 57) :: r.1, r.2)

/-- Bytes of bits, bit 0 of each byte first. -/
def bytesOf (l : List Bool) : List Byte := leBytes (l.length / 8) (natOf l)

/-- Take whole flits from descrambled bits: each with whether it lies in an uncorrectable codeword, and the bits left. -/
def cutFlits : Nat → Bool → Bool → List Bool → List (List Byte × Bool) × List Bool
  | 0, _, _, l => ([], l)
  | n + 1, before, now, l =>
    if l.length < 1024 then ([], l)
    else
      let r := cutFlits n false now (l.drop 1024)
      ((bytesOf (l.take 1024), before || now) :: r.1, r.2)

/-- A codeword of a port, decoded: its errors are counted by lane, its message descrambled and cut into flits at the boundary that the last
marker gave, and each flit arrives. -/
def codewordReceive (p : Nat) (lanes : List Nat) (symbols : List Nat) (s : State) : State :=
  let x := portOf s p
  let d := rsDecode symbols
  let s := match d with
    | some (_, wrong) =>
      let laneAt (k : Nat) : Nat := nth 0 lanes (k % max 1 lanes.length)
      updates wrong (fun k s => countPort p (8 + laneAt k) 1 s) (countPort p 2 wrong.length s)
    | none => updates lanes (fun l s => countPort p (12 + l) 1 s) (countPort p 1 1 (onPort p (fun x => { x with fecBad := true }) s))
  let message := ((match d with | some (good, _) => good | none => symbols).take 514).flatMap (bitsOf 10)
  let r := descrambleBits x.rxScramble.toNat message
  let keep := match x.rxOffset with | some o => (x.rxBits.length + o) % 1024 == 0 | none => true
  let stream := if keep then x.rxBits ++ r.1 else r.1.drop (x.rxOffset.getD 0)
  let c := cutFlits 8 (keep && x.rxBad && !x.rxBits.isEmpty) d.isNone stream
  s |> onPort p (fun x => { x with rxScramble := BitVec.ofNat 58 r.2, rxBits := c.2, rxBad := d.isNone, rxOffset := none })
    |> updates c.1 (fun f s => flitReceive p f.1 f.2 s)

/-- Symbols at the head of what a lane holds. -/
def headSymbols : List RxItem → List Nat
  | .symbol v :: t => v :: headSymbols t
  | _ => []

def dropSymbols : List RxItem → List RxItem
  | .symbol _ :: t => dropSymbols t
  | q => q

/-- The marker at the head of what a lane holds. -/
def headMarker : List RxItem → Option (Nat × Nat)
  | .marker c o :: _ => some (c, o)
  | _ => none

/-- One step of the deskew over the lanes of the set, in the partner's order (R230): markers of one count leave together; symbols of a codeword
leave together; a lane that is out of step with the others loses what it holds before its next marker. -/
def deskewStep (p : Nat) (s : State) : Option State :=
  let x := portOf s p
  let lanes := sortBy (fun a b => decide ((laneOf x a).partnerLane < (laneOf x b).partnerLane)) (maskLanes x.rxMask)
  let qs := lanes.map fun l => (laneOf x l).fifo
  let marks := qs.map headMarker
  let need := 544 / max 1 lanes.length
  let on (keep : List RxItem → List RxItem) (ls : List Nat) : State := updates ls (fun l s => onLane p l (fun y => { y with fifo := keep y.fifo }) s) s
  let loses (q : List RxItem) : Bool := (headMarker q).isNone && decide ((headSymbols q).length < q.length) && decide ((headSymbols q).length < need)
  if lanes.isEmpty ∨ qs.any List.isEmpty then none
  else if marks.all Option.isSome then
    match marks.filterMap id with
    | [] => none
    | m :: rest =>
      let newest := rest.foldl (fun a b => if 0 < (b.1 + 256 - a.1) % 256 ∧ (b.1 + 256 - a.1) % 256 < 128 then b else a) m
      if (m :: rest).all (fun a => a.1 == m.1) then some (onPort p (fun x => { x with rxOffset := some m.2 }) (on (List.drop 1) lanes))
      else some (on (fun q => if (headMarker q).map Prod.fst = some newest.1 then q else dropSymbols (q.drop 1)) lanes)
  else if marks.any Option.isSome then some (on dropSymbols lanes)
  else if qs.any loses then some (on (fun q => if loses q then dropSymbols q else q) lanes)
  else if qs.all (fun q => decide (need ≤ (headSymbols q).length)) then
    some (codewordReceive p lanes (unstripe (qs.map fun q => (headSymbols q).take need)) (on (List.drop need) lanes))
  else none

def deskew (p : Nat) : Nat → State → State
  | 0, s => s
  | n + 1, s => match deskewStep p s with | some s => deskew p n s | none => s

/-- Symbols received on a lane that has symbol lock (R229; how a row carries them is a DESIGN CHOICE, assumption 96). -/
def symbolsReceive (p l : Nat) (vs : List Nat) (s : State) : State :=
  let x := portOf s p
  let runs := isUp x || x.state == .lock || x.state == .exchange
  if !runs ∨ !bit x.rxMask l ∨ !(laneOf x l).symbolLock then s
  else deskew p (vs.length + 8) (onLane p l (fun y => { y with fifo := y.fifo ++ vs.map .symbol }) s)

/-- PAYLOAD_FLIT_RECEIVE (R229, R231, R237); a flit is uncorrectable when any bit of it lay in such a codeword, of which symbols show their own. -/
def execPayloadFlitReceive (port : Nat) (received : Received) (uncorrectable : Bool) (s : State) : Res :=
  runPort port (fun s => match received with
    | .flit bytes => flitReceive port bytes uncorrectable (when (uncorrectable && isUp (portOf s port)) (countPort port 1 1) s)
    | .symbols lane values => if decide (lane < 4) && values.all (fun v => decide (v < 1024)) then symbolsReceive port lane values s else s) s

/-- REPLAY_TIMER_EXPIRY (R239). The Ack value of such a rewind is the last one received, A − 1, so a later NAK for the loss that the timer has
met is ignored. -/
def execReplayTimerExpiry (port : Nat) (s : State) : Res :=
  runPort port (fun s =>
    let x := portOf s port
    if isUp x ∧ x.acked ≠ x.next then rewind port ((x.acked + 65535) % 65536) s else s) s

/-! ### Capability exchange (R241–R244) -/

/-- START goes out when its conditions hold (R243). -/
def tryStart (p : Nat) (s : State) : State :=
  let x := portOf s p
  let go := match x.cap with
    | some c => c.seen == 1 && c.status == 0 && decide (8 ≤ x.samples) && !ownNotReady s p
    | none => false
  if x.state = .exchange ∧ go = true ∧ !x.startSent then queueControl p 0x02 s else s

/-- The link control flits that are still unanswered are queued again; in Exchange each CAP says whether firmware holds the port. -/
def linkRepeat (p : Nat) (held : Bool) (s : State) : State :=
  let x := portOf s p
  match x.state with
  | .exchange =>
    s |> onPort p (fun x => { x with held := held }) |> queueControl p 0x01
      |> when (x.startSent && !x.startGot) (queueControl p 0x02) |> tryStart p
  | .active | .keepalive =>
    s |> when x.narrowing.isSome (queueControl p 0x03) |> when x.kaSent (queueControl p 0x05)
      |> when x.exitSent (queueControl p 0x07)
  | _ => s

/-- LINK_CONTROL_REPEAT (R241–R243); `held`: whether firmware holds the port not ready, which nothing in the spec but its reason code 0x80 describes
(assumption 95). -/
def execLinkControlRepeat (port : PortHold) (s : State) : Res := runPort port.port (linkRepeat port.port port.held) s

/-- A CAP body as received; its byte 0 is flit byte 0x08. -/
def readCap (b : List Byte) : CapInfo :=
  { seen := field b 2 1, status := field b 3 1, reason := field b 4 1, role := field b 5 1, physical := field b 6 1
    logical := field b 7 1, postcode := BitVec.ofNat 32 (field b 8 4), identity := field b 0x0C 8
    credits := field b 0x18 2, features := field b 0x20 4 }

/-- The compatibility checks on a CAP, but for the round trip (R243). -/
def capReason (b : List Byte) : Option Nat :=
  if field b 1 1 ≠ 1 then some 0x20
  else if 2 < field b 5 1 then some 0x21
  else if field b 0x14 2 < 2048 ∨ field b 0x16 2 < 4096 then some 0x22
  else none

/-- Whether a CAP echoes one of the tokens this end has sent (R244): they count from 0, one for each CAP. -/
def echoes (x : Port) (b : List Byte) : Bool :=
  field b 2 1 == 1 && (decide (field b 0x1C 2 < x.token) || decide (65536 ≤ x.token))

/-- A CAP in Exchange. -/
def capArrive (p : Nat) (b : List Byte) (rtt : Nat) (s : State) : State :=
  let x := portOf s p
  if x.state ≠ .exchange ∨ field b 0 1 ≠ 1 then s
  else
    match capReason b with
    | some r => fallback p r s
    | none =>
      let hit := echoes x b
      let s := onPort p (fun x => { x with
        cap := some (readCap b), partnerToken := field b 0x1A 2
        samples := if hit then x.samples + 1 else x.samples
        minRtt := if hit then (if x.samples = 0 then rtt else min x.minRtt rtt) else x.minRtt }) s
      let x := portOf s p
      if 8 ≤ x.samples ∧ 50000 < x.minRtt then fallback p 0x27 s else tryStart p s

/-- CAP (R242–R244): `roundTripNs` is the time since the token that it echoes was sent. -/
def execCap (port : Nat) (body : List Byte) (roundTripNs : Nat) (s : State) : Res :=
  runPort port (capArrive port body roundTripNs) s

/-- The partner's START: Active follows when this end has sent its own. -/
def startArrive (p : Nat) (s : State) : State :=
  let x := portOf s p
  if x.state ≠ .exchange then s
  else
    let s := onPort p (fun x => { x with startGot := true }) s
    if x.startSent then enterActive p s else s

/-- START (R243). -/
def execStart (port : Nat) (s : State) : Res := runPort port (startArrive port) s

/-! ### Narrowing (R246, R247) -/

/-- After a narrowing, a PORT_SET_WIDTH that asked for this width has completed and one that asked for less goes on, and so does a Keep-alive entry
that waited. -/
def narrowEnd (p : Nat) (s : State) : State :=
  let s := narrowIfWaiting p s
  when (s.power.portsKept && !(portOf s p).kaSent && (portOf s p).narrowing.isNone) (kaBegin p) s

/-- NARROW: the receiver regroups and the transmitter follows; of two masks that cross, the lanes in both are kept. A repeat of one acted on is
ignored (R241). -/
def narrowArrive (p m : Nat) (s : State) : State :=
  let x := portOf s p
  let new := formSet (ownMask x m &&& x.mask) 4
  if !isUp x ∨ x.narrowGot = some m then s
  else if new = 0 then fallback p 0x28 s
  else
    s |> onPort p (fun x => { x with
          mask := new, rxMask := new, narrowGot := some m, narrowing := x.narrowing.map fun n => { n with newMask := new } })
      |> when (new != x.mask) (fun s => s |> countPort p 4 1
          |> journal 0x6002 2 1 false [u8 p, u8 x.mask, u8 new, u8 5])
      |> queueControl p 0x04

/-- NARROW (R247). -/
def execNarrow (port mask : Nat) (s : State) : Res := runPort port (narrowArrive port mask) s

/-- NARROW_ACK: the receiver regroups, and everything unacknowledged is sent again. -/
def narrowAck (p m : Nat) (s : State) : State :=
  let x := portOf s p
  if x.narrowing.isNone then s
  else
    let new := formSet (ownMask x m &&& x.mask) 4
    if new = 0 then fallback p 0x28 s
    else
      narrowEnd p (onPort p (fun x => { x with
        mask := new, rxMask := new, narrowing := none, resend := x.replay, controls := x.controls.filter (· != 0x03) }) s)

/-- NARROW_ACK (R247). -/
def execNarrowAck (port mask : Nat) (s : State) : Res := runPort port (narrowAck port mask) s

/-- NARROW_TIMEOUT (R247). -/
def execNarrowTimeout (port : Nat) (s : State) : Res :=
  runPort port (fun s => if (portOf s port).narrowing.isSome then fallback port 0x26 s else s) s

/-- A lane's errors cross their limit (R246). -/
def laneErrors (p l : Nat) (uncorrectable : Bool) (s : State) : State :=
  let x := portOf s p
  if x.state ≠ .active ∨ !bit x.mask l then s
  else
    let left := formSet (lanesMask ((maskLanes x.mask).filter (· != l))) 4
    if left ≠ 0 then narrowTo p left (if uncorrectable then 3 else 2) s
    else if uncorrectable then fallback p 0x25 s
    else journalRule 6 1 1 true 246 [u8 p, u8 l] s

/-- LANE_ERROR_THRESHOLD (R246). -/
def execLaneErrorThreshold (port lane : Nat) (uncorrectable : Bool) (s : State) : Res :=
  runLane port lane (laneErrors port lane uncorrectable) s

/-! ### Keep-alive (R251) -/

/-- KA_ENTER: finish what is in progress, acknowledge and switch; both ends' KA_ENTER acknowledge each other, and an own
KA_EXIT wins. -/
def kaEnter (p : Nat) (s : State) : State :=
  let x := portOf s p
  let offered := match x.cap with | some c => bit c.features 2 | none => false
  if x.state ≠ .active ∨ x.exitSent ∨ !offered then s
  else if x.kaSent then kaSwitch p s
  else kaAnswer p (onPort p (fun x => { x with kaAckOwed := true, controlOnly := true }) s)

/-- KA_ENTER (R251). -/
def execKaEnter (port : Nat) (s : State) : Res := runPort port (kaEnter port) s

def kaSwitchIfSent (p : Nat) (s : State) : State :=
  if (portOf s p).state = .active ∧ (portOf s p).kaSent then kaSwitch p s else s

/-- KA_ACK (R251). -/
def execKaAck (port : Nat) (s : State) : Res := runPort port (kaSwitchIfSent port) s

/-- KA_ENTER_TIMEOUT (R251). -/
def execKaEnterTimeout (port : Nat) (s : State) : Res := runPort port (kaSwitchIfSent port) s

/-- KA_EXIT: an answer to the own KA_EXIT; else the port returns, or abandons an entry in its handshake, and answers.
It stays held to control class while the power state asks for it. -/
def kaExit (p : Nat) (s : State) : State :=
  let x := portOf s p
  if x.exitSent then onPort p (fun x => { x with exitSent := false, controls := x.controls.filter (· != 0x07) }) s
  else if x.state = .keepalive ∨ (x.state = .active ∧ (x.kaSent ∨ x.kaAckOwed)) then
    s |> onPort p (fun x => { x with
          state := .active, returning := x.state == .keepalive, kaSent := false, kaAckOwed := false, lanes := returnLanes x
          controlOnly := s.power.portsKept, controls := x.controls.filter fun c => c != 0x05 && c != 0x06 })
      |> queueControl p 0x07
  else s

/-- KA_EXIT (R251). -/
def execKaExit (port : Nat) (s : State) : Res := runPort port (kaExit port) s

/-- ESCAPE_CREDIT_STALL (R279): an escape packet waits and the sender holds no credits. -/
def execEscapeCreditStall (port : Nat) (s : State) : Res :=
  runPort port (fun s =>
    let x := portOf s port
    if isUp x ∧ x.credits = 0 ∧ s.fabric.flights.any (fun e => e.2.loc == .egress port && outerEscape e.2.pkt) then
      journalRule 7 1 1 false 279 [u8 port] s
    else s) s

end Sys2Proof.Machine
end

