-- ==== Sys2Proof/Machine/Mctp.lean ====
section
/-! DEFINITION. The management bus and the MCTP endpoint (R409–R413): bus modes, MCTP control messages and vendor-defined messages.
Response layouts beyond the fields that the spec names follow the DMTF standards (PRESUMED). -/

namespace Sys2Proof.Machine

/-! ### The bus (R409) -/

/-- The management processors answer (R412). -/
def mgmtUp (s : State) : Bool := postUp s && s.power.mctpOpen

/-- A dynamic address puts the bus in I3C mode. -/
def assignAddress (a : Nat) (s : State) : State := when (mgmtUp s) (onMgmt fun m => { m with i3c := true, dynamic := a % 128 }) s

/-- SETDASA (R409). -/
def execSetdasa (address : Nat) (s : State) : Res := .next (assignAddress address s)

/-- ENTDAA (R409): none is assigned to a module that has a dynamic address already. -/
def execEntdaa (address : Nat) (s : State) : Res := .next (when (!s.mgmt.i3c) (assignAddress address) s)

/-- RSTDAA (R409). -/
def execRstdaa (s : State) : Res := .next (when (mgmtUp s) (onMgmt fun m => { m with i3c := false, dynamic := 0 }) s)

/-- BUS_HELD_LOW (chapter 20, Faults). -/
def execBusHeldLow (s : State) : Res := .next (when (mgmtUp s) (journalRule 10 1 2 false 409 []) s)

/-! ### MCTP control (R410) -/

/-- A message goes out, its fields packed without padding. -/
def mctpReply (type command : Nat) (fs : List Fld) (s : State) : State :=
  emit (.mctp type command (fs.flatMap fun f => leBytes f.size f.value)) s

/-- An MCTP control message reaches the endpoint: addressed to the null EID, or to its own once it has one. -/
def controlAnswers (s : State) (dest : Nat) : Bool := mgmtUp s && (dest == 0 || dest == s.mgmt.eid)

/-- Set Endpoint ID: operations 0 and 1 set an EID of 8 to 254; another operation or value is refused. -/
def setEid (op eid : Nat) (s : State) : State :=
  if !mgmtUp s then s
  else if op ≤ 1 ∧ 8 ≤ eid ∧ eid ≤ 254 then
    mctpReply 0 1 [u8 0, u8 0, u8 eid, u8 0] (onMgmt (fun m => { m with eid := eid }) s)
  else mctpReply 0 1 [u8 2] s

def execMctpSetEndpointId (operation eid : Nat) (s : State) : Res := .next (setEid operation eid s)

def onControl (dest : Nat) (f : State → State) (s : State) : Res := .next (when (controlAnswers s dest) f s)

def execMctpGetEndpointId (dest : Nat) (s : State) : Res :=
  onControl dest (mctpReply 0 2 [u8 0, u8 s.mgmt.eid, u8 0, u8 0]) s

def execMctpGetEndpointUuid (dest : Nat) (s : State) : Res :=
  onControl dest (mctpReply 0 3 [u8 0, ⟨16, Config.endpointUuid⟩]) s

/-- Message types that the endpoint accepts. -/
def mctpTypes : List Nat := [0x00, 0x01, 0x05, 0x7E]

/-- Get MCTP Version Support: 0xFF asks for the base protocol. -/
def execMctpGetVersionSupport (dest messageType : Nat) (s : State) : Res :=
  onControl dest (fun s =>
    if messageType = 0xFF ∨ mctpTypes.contains messageType then
      mctpReply 0 4 [u8 0, u8 1, u32 (Config.mctpVersion messageType)] s
    else mctpReply 0 4 [u8 0x80] s) s

def execMctpGetMessageTypeSupport (dest : Nat) (s : State) : Res :=
  onControl dest (mctpReply 0 5 (u8 0 :: u8 mctpTypes.length :: mctpTypes.map u8)) s

/-- Get Vendor Defined Message Support: one set, with PCI vendor ID 0x1D7F. -/
def execMctpGetVendorMsgSupport (dest selector : Nat) (s : State) : Res :=
  onControl dest (fun s => if selector = 0 then mctpReply 0 6 [u8 0, u8 0xFF, u8 0, u16 0x1D7F] s else mctpReply 0 6 [u8 2] s) s

/-- An MCTP control command that the endpoint does not have: completion code 0x05, unsupported command (R9; assumption 76). -/
def controlUnsupported (dest command : Nat) (s : State) : State :=
  when (controlAnswers s dest) (mctpReply 0 command [u8 0x05]) s

/-! ### Vendor-defined messages (R413) -/

def vendorOpcodes : List Nat := [0x0003, 0x0502, 0x0601, 0x0602, 0x0604, 0x0608, 0x0701]

/-- The meaning of an accepted opcode: the same as in a letterbox. -/
def vendorCommand (op : Nat) (mramOk : Bool) (a : List Byte) (s : State) : CmdOut :=
  match op with
  | 0x0003 => .done 0 (infoBytes s) s
  | 0x0502 => .done 0 (powerQueryBytes s) s
  | 0x0601 => selftestReportRead none a s
  | 0x0602 => journalRead none a s
  | 0x0604 =>
    (match arg 0x0604 a 0 with
      | 0 => mapRead none a s
      | 1 => mapAddCmd mramOk none a s
      | _ => mapDeleteCmd mramOk none a s)
  | 0x0608 => countersRead none a s
  | _ => .done 0 (fwQueryBytes s) s

/-- The checks of R115 on a vendor message's frame. -/
def vendorCheck (h a : List Byte) : Option Nat :=
  let op := field h 0 2
  if !vendorOpcodes.contains op then some eUnknown
  else if field h 2 2 ≠ 0 ∨ field h 0x0A 6 ≠ 0 ∨ 1776 < field h 8 2 ∨ field h 8 2 ≠ argLength op a then some eFrame
  else if !rangeOk op a then some eRange
  else none

/-- A result frame goes back. -/
def vendorReply (h : List Byte) (e : Nat) (res : List Byte) (s : State) : State :=
  emit (.mctp 0x7E 0 (resultFrame (field h 0 2) e (field h 4 4) false 0 res)) s

/-- A command that changes module state leaves its record, with 0xFF for the function (R120). -/
def vendorRecord (h a : List Byte) (e : Nat) (s : State) : State :=
  let op := field h 0 2
  if readOnly op a then s else journal 0x4001 4 2 false [u8 0xFF, u16 op, u32 (field h 4 4), u16 e] s

/-- The endpoint takes messages other than control ones once it has an EID. -/
def endpointReady (s : State) : Bool := mgmtUp s && s.mgmt.eid != 0

/-- VENDOR_DEFINED_MESSAGE. -/
def vendorMessage (frame : List Byte) (mramOk : Bool) (s : State) : State :=
  if !endpointReady s then s
  else
    let h := padTo 16 frame
    let a := (frame.drop 16).take (field h 8 2)
    match vendorCheck h a with
    | some e => vendorReply h e [] s
    | none =>
      match vendorCommand (field h 0 2) mramOk a s with
      | .done e res s => vendorReply h e res (vendorRecord h a e s)
      | .wait s | .gone s => s

def execVendorDefinedMessage (frame : List Byte) (mramOk : Bool) (s : State) : Res := .next (vendorMessage frame mramOk s)

end Sys2Proof.Machine
end

