-- ==== Sys2Proof/Machine/Pldm.lean ====
section
/-! DEFINITION. PLDM monitoring, control and firmware update (R414–R417, R419, R420). Completion codes and layouts beyond the fields
that the spec names follow the DMTF standards (PRESUMED). -/

namespace Sys2Proof.Machine

/-- A PLDM response: its command, completion code and fields. -/
def pldmReply (command cc : Nat) (fs : List Fld) (s : State) : State := mctpReply 1 command (u8 cc :: fs) s

/-- A PLDM message of a type or command that the module does not support: unsupported command (R9, R414, R418; assumption 76). -/
def pldmUnsupported (command : Nat) (s : State) : State := pldmReply command 0x05 [] s

/-- A PLDM request that reaches the endpoint. -/
def onPldm (f : State → State) (s : State) : Res := .next (when (endpointReady s) f s)

/-! ### Readings (R412, R414, R415) -/

/-- A sensor's reading and condition: 0 valid, 1 unavailable, 2 failed. -/
abbrev Reading := Int × Nat

/-- A reading that the module does not measure itself: what arrives with the update, else the last one. -/
def givenReading (s : State) (rs : List (Nat × Int)) (id : Nat) : Reading :=
  match rs.find? fun r => r.1 == id with
  | some r => (r.2, 0)
  | none => tget (0, 1) s.mgmt.mirror id

def junctionReading (s : State) (d i : Nat) : Reading :=
  if powered s d then ((sensorOf s d i).tenths, (sensorOf s d i).condition) else (0, 1)

/-- A numeric sensor's present reading. -/
def numericReading (s : State) (rs : List (Nat × Int)) (id : Nat) : Reading :=
  if id ≤ 336 then junctionReading s ((id - 1) / 4) ((id - 1) % 4)
  else if id < 0x221 then junctionReading s (96 + (id - 0x201) / 2) ((id - 0x201) % 2)
  else if id < 0x355 then
    let f := id - 0x301
    if !powered s f then (0, 1)
    else if (frondPowerOf s f).monitorBad then (0, 2)
    else (((frondPowerOf s f).powerMw / 1000 : Nat), 0)
  else if id < 0x371 then (if powered s (96 + (id - 0x361)) then givenReading s rs id else (0, 1))
  else if id = 0x380 then (if s.power.inputBad then (0, 2) else ((s.power.inputMw / 1000 : Nat), 0))
  else if id = 0x387 then ((poolNow s.power).floor, 0)
  else givenReading s rs id

/-- A state sensor's present state (R415). -/
def stateReading (s : State) (id : Nat) : Nat :=
  if id = 0x400 then (if inSafe s then 5 else powerCode s)
  else if id = 0x401 then s.power.lastPldm
  else if id = 0x402 then (if inSafe s then 2 else s.power.verdict)
  else if id = 0x403 then s.power.safeReason
  else if id = 0x404 then b2n s.post.onE8 + 2 * b2n s.post.standby
  else if id = 0x405 then referenceCode s.time
  else if id = 0x406 then s.power.latch.cause
  else if id < 0x480 then
    (if !dieUp s (id - 0x410) then 1 else if powered s (id - 0x410) then 0 else 2)
  else portCode (portOf s (id - 0x480)).state

def numericIds : List Nat := (List.range 0x388).filter numericSensor
def stateIds : List Nat := ((List.range 0xE0).map (0x400 + ·)).filter stateSensor

/-- Junction sensors carry thresholds, in tenths of a degree. -/
def isJunction (id : Nat) : Bool := decide (id < 0x221)
def level (v : Int) : Nat := if 1150 ≤ v then 2 else if 1050 ≤ v then 1 else 0

/-- One numeric sensor's update: a crossing of a threshold is an event. -/
def updateNumeric (rs : List (Nat × Int)) (id : Nat) (s : State) : State :=
  let old := tget ((0, 1) : Reading) s.mgmt.mirror id
  let new := numericReading s rs id
  let s := onMgmt (fun m => { m with mirror := tset m.mirror id new }) s
  let was := if old.2 = 0 then level old.1 else 0
  let is_ := if new.2 = 0 then level new.1 else 0
  if isJunction id ∧ was ≠ is_ then pldmRaise (pack [u8 0, u16 id, u8 2, u8 is_]) s else s

/-- One state sensor's update: a change is an event. -/
def updateState (id : Nat) (s : State) : State :=
  let new := stateReading s id
  let old := tget 0 s.mgmt.stateLast id
  let s := onMgmt (fun m => { m with mirror := tset m.mirror id ((new : Int), 0), stateLast := tset m.stateLast id new }) s
  if old = new then s else pldmRaise (pack [u8 0, u16 id, u8 1, u8 new]) s

/-- SENSOR_UPDATE (R414, R435): every 1 ms. -/
def sensorUpdate (rs : List (Nat × Int)) (s : State) : State :=
  if mgmtUp s then updates stateIds updateState (updates numericIds (updateNumeric rs) s) else s

def execSensorUpdate (readings : List (Nat × Int)) (s : State) : Res := .next (sensorUpdate readings s)

/-! ### Monitoring commands (R414, R415, R417) -/

/-- A record of the PDR repository: one per numeric sensor, in the order of IDs, with record handles from 1. -/
def pdrFields (id : Nat) : List Fld :=
  [u16 id] ++ (if isJunction id then [u16 1050, u16 1150] else [])

/-- GET_PDR: handle 0 names the first record. -/
def getPdr (handle : Nat) (s : State) : State :=
  let h := max handle 1
  match numericIds[h - 1]? with
  | some id => pldmReply 0x51 0 ([u32 (if h < numericIds.length then h + 1 else 0), u32 h] ++ pdrFields id) s
  | none => pldmReply 0x51 0x82 [] s

def execGetPdr (handle : Nat) (s : State) : Res := onPldm (getPdr handle) s

def execGetPdrRepositoryInfo (s : State) : Res := onPldm (pldmReply 0x50 0 [u8 0, u32 numericIds.length]) s

/-- GET_SENSOR_READING: the reading of the last update. -/
def getSensorReading (id : Nat) (s : State) : State :=
  if numericSensor id then
    let r := tget ((0, 1) : Reading) s.mgmt.mirror id
    pldmReply 0x11 0 [u8 r.2, u32 (r.1 % 2 ^ 32).toNat] s
  else pldmReply 0x11 0x80 [] s

def execGetSensorReading (sensor : Nat) (s : State) : Res := onPldm (getSensorReading sensor) s

/-- SET_TID: 0 and 0xFF are no terminus IDs. -/
def setTid (t : Nat) (s : State) : State :=
  if 1 ≤ t ∧ t < 0xFF then pldmReply 0x01 0 [] (onMgmt (fun m => { m with tid := t }) s) else pldmReply 0x01 2 [] s

def execSetTid (tid : Nat) (s : State) : Res := onPldm (setTid tid) s

def getStateReadings (id : Nat) (s : State) : State :=
  if stateSensor id then pldmReply 0x21 0 [u8 1, u8 0, u8 (stateReading s id)] s else pldmReply 0x21 0x80 [] s

def execGetStateSensorReadings (sensor : Nat) (s : State) : Res := onPldm (getStateReadings sensor) s

/-- SET_EVENT_RECEIVER: events already queued wait for a poll. -/
def execSetEventReceiver (enable : Bool) (eid : Nat) (s : State) : Res :=
  onPldm (fun s => pldmReply 0x04 0 [] (onMgmt (fun m => { m with receiver := if enable then some eid else none }) s)) s

/-- POLL_FOR_PLATFORM_EVENT_MESSAGE: the oldest event. -/
def pollEvent (s : State) : State :=
  match s.mgmt.events with
  | e :: rest => emit (.mctp 1 0x0B (pack [u8 0, u8 1] ++ e)) (onMgmt (fun m => { m with events := rest }) s)
  | [] => pldmReply 0x0B 0 [u8 0] s

def execPollForPlatformEventMessage (s : State) : Res := onPldm pollEvent s

/-! ### Effecters (R416) -/

/-- Effecter 0x0500: a governor request with the default wait limit; its outcome appears in sensor 0x0401. -/
def powerEffecter (v : Nat) (s : State) : State :=
  if 6 < v then pldmReply 0x39 2 [] s
  else
    let s := onMgmt (fun m => { m with effPower := v }) s
    let t := if v = 5 then 3 else if v = 6 then 4 else v
    if inSafe s then pldmReply 0x39 1 [] (setLastPldm eSafe s)
    else
      pldmReply 0x39 0 [] (match requestError s t with
        | some e => setLastPldm e s
        | none => requestPower { target := t, release := decide (5 ≤ v), waitMs := 10, source := .pldm } s)

def execPowerStateEffecter (value : Nat) (s : State) : Res := onPldm (powerEffecter value) s

/-- Effecter 0x0502. -/
def resetEffecter (v : Nat) (s : State) : State :=
  if v = 1 then askReset (pldmReply 0x39 0 [] (onMgmt (fun m => { m with effReset := 1 }) s)) else pldmReply 0x39 2 [] s

def execResetEffecter (value : Nat) (s : State) : Res := onPldm (resetEffecter value) s

/-- Effecter 0x0503. -/
def safeEffecter (v : Nat) (s : State) : State :=
  if v ≤ 1 then pldmReply 0x39 0 [] (onPower (fun p => { p with safeArmed := v == 1 }) s) else pldmReply 0x39 2 [] s

def execSafeStateEffecter (value : Nat) (s : State) : Res := onPldm (safeEffecter value) s

/-- Every sensor that can be read is below 102 °C. -/
def allCool (s : State) : Bool := allDies.all fun d => !powered s d || (sensorsOf s d).all fun x => x.condition == 1 || sensorCool x

/-- Effecter 0x0504: phase B may begin once the latch is clear. -/
def latchEffecter (v : Nat) (s : State) : State :=
  if v ≠ 1 then pldmReply 0x39 2 [] s
  else
    pldmReply 0x39 0 [] (when (allCool s) (onPower fun p => { p with latch := {}, latchPending := false })
      (onMgmt (fun m => { m with effLatch := 1 }) s))

def execLatchClearEffecter (value : Nat) (s : State) : Res := onPldm (latchEffecter value) s

/-- GET_STATE_EFFECTER_STATES. -/
def effecterStates (id : Nat) (s : State) : State :=
  let r (v : Nat) : State := pldmReply 0x3A 0 [u8 1, u8 v, u8 v] s
  match id with
  | 0x500 => r s.mgmt.effPower
  | 0x502 => r s.mgmt.effReset
  | 0x503 => r (b2n s.power.safeArmed)
  | 0x504 => r s.mgmt.effLatch
  | _ => pldmReply 0x3A 0x80 [] s

def execGetStateEffecterStates (effecter : Nat) (s : State) : Res := onPldm (effecterStates effecter) s

/-! ### Firmware update (R419, R420)

States: 0 idle, 1 learn components, 2 ready to transfer, 3 download, 4 verify, 5 apply. -/

def setUpdate (n : Nat) (s : State) : State := onMgmt (fun m => { m with update := n }) s

/-- The completion code of a command in the wrong state. -/
def wrongState (s : State) : Nat := if s.mgmt.update = 0 then 0x80 else 0x84

/-- Act in one state of the update, else answer that the state is wrong. -/
def inUpdate (command n : Nat) (f : State → State) (s : State) : State :=
  if s.mgmt.update = n then f s else pldmReply command (wrongState s) [] s

def execQueryDeviceIdentifiers (s : State) : Res :=
  onPldm (pldmReply 0x01 0 [u8 2, u16 0, u16 2, u16 0x1D7F, u16 0x100, u16 2, u16 0x4B01]) s

/-- The component's active version, and that of the image in the inactive slot, 0 for none. -/
def firmwareParameters (s : State) : List Fld :=
  let d := b2n s.post.onE8
  let x := fwSlotOf s d (inactiveSlot s d)
  [u16 1, u16 0x0A, u16 0x0001, u32 (firmwareVersion s), u32 (if x.state = 0 then 0 else imageVersion x.image)]

def execGetFirmwareParameters (s : State) : Res := onPldm (pldmReply 0x02 0 (firmwareParameters s)) s

/-- A firmware command runs in some letterbox. -/
def storeBusy (s : State) : Bool :=
  s.post.lbs.any fun e => isRunning e.2 && ([0x0702, 0x0703, 0x0704] : List Nat).contains (cmdOpcode e.2)

/-- REQUEST_UPDATE. -/
def requestUpdate (s : State) : State :=
  if s.mgmt.update ≠ 0 then pldmReply 0x10 0x81 [] s
  else if storeBusy s then pldmReply 0x10 0x8E [] s
  else pldmReply 0x10 0 [] (onMgmt (fun m => { m with update := 1, updateData := [], updateLength := 0, updateResult := 0 }) s)

def execRequestUpdate (s : State) : Res := onPldm requestUpdate s

/-- PASS_COMPONENT_TABLE: component 1 is the module bundle. -/
def passComponents (id : Nat) (s : State) : State :=
  inUpdate 0x13 1 (fun s => pldmReply 0x13 0 [u8 (if id = 1 then 0 else 1)] (setUpdate 2 s)) s

def execPassComponentTable (identifier : Nat) (s : State) : Res := onPldm (passComponents identifier) s

/-- UPDATE_COMPONENT: the inactive slots are marked empty and the first piece is asked for. -/
def updateComponent (id len : Nat) (s : State) : State :=
  inUpdate 0x14 2 (fun s =>
    if id ≠ 1 ∨ firmwareMax < len then pldmReply 0x14 0 [u8 1] s
    else
      s |> onInactive (fun _ => {})
        |> onMgmt (fun m => { m with update := 3, updateLength := len, updateData := [], updateResult := 0 })
        |> pldmReply 0x14 0 [u8 0] |> requestPiece) s

def execUpdateComponent (identifier length : Nat) (s : State) : Res := onPldm (updateComponent identifier length) s

/-- REQUEST_FIRMWARE_DATA: a piece arrives; one of another length is asked for again, and a failed MRAM write ends the transfer. -/
def firmwareData (data : List Byte) (ok : Bool) (s : State) : State :=
  let got := s.mgmt.updateData.length
  if s.mgmt.update ≠ 3 ∨ s.mgmt.updateLength ≤ got then s
  else if data.length ≠ min 1024 (s.mgmt.updateLength - got) then requestPiece s
  else if !ok then
    s |> mramFailed 0 |> onMgmt (fun m => { m with update := 2, updateData := [], updateResult := eMram })
      |> mctpReply 1 0x16 [u8 1]
  else
    let s := onMgmt (fun m => { m with updateData := m.updateData ++ data }) s
    when (decide (s.mgmt.updateData.length < s.mgmt.updateLength)) requestPiece s

def execRequestFirmwareData (data : List Byte) (mramOk : Bool) (s : State) : Res := onPldm (firmwareData data mramOk) s

/-- TRANSFER_COMPLETE: the image is staged whole, and verification runs as FW_VERIFY does; one below the floor leaves the slot
empty. -/
def transferComplete (s : State) : State :=
  if s.mgmt.update ≠ 3 ∨ s.mgmt.updateData.length < s.mgmt.updateLength then s
  else
    let b := s.mgmt.updateData
    let s := s |> onInactive (fun _ => { state := 1, image := b }) |> mctpReply 1 0x16 [u8 0]
    match verifyStaged s with
    | .ok _ => onMgmt (fun m => { m with update := 4, updateResult := 0 }) (markVerified s)
    | .error e =>
      let s := onMgmt (fun m => { m with update := 4, updateResult := e }) s
      if e = eRollback then onInactive (fun _ => {}) s else s

def execTransferComplete (s : State) : Res := onPldm transferComplete s

/-- VERIFY_COMPLETE. -/
def verifyComplete (s : State) : State :=
  if s.mgmt.update ≠ 4 then s
  else mctpReply 1 0x17 [u8 (if s.mgmt.updateResult = 0 then 0 else 1)] (setUpdate (if s.mgmt.updateResult = 0 then 5 else 2) s)

def execVerifyComplete (s : State) : Res := onPldm verifyComplete s

/-- APPLY_COMPLETE. -/
def applyComplete (s : State) : State :=
  if s.mgmt.update ≠ 5 then s else mctpReply 1 0x18 [u8 0] (setUpdate 2 s)

def execApplyComplete (s : State) : Res := onPldm applyComplete s

/-- ACTIVATE_FIRMWARE: live when E0 has a standby outside the safe state, else at the next reset, which the last byte reports. A live
activation waits, before its handover, until every started atomic command has ended (R128, R130; assumption 57). -/
def activateFirmware (ok2 ok4 : Bool) (s : State) : State :=
  inUpdate 0x1A 2 (fun s =>
    if (verifiedImage s).isNone then pldmReply 0x1A 0x85 [] s
    else
      let live := s.post.standby && !inSafe s && !s.post.onE8
      let x := if live then activateLive ok2 ok4 s else activateAtReset true s
      if live && activationHandsOver ok2 s && !handoverReady s none then s
      else pldmReply 0x1A (if x.1 = 0 then 0 else 1) [u8 (b2n (!live))]
        (onMgmt (fun m => { m with update := 0, updateData := [], updateResult := x.1 }) x.2)) s

def execActivateFirmware (step2Ok step4Ok : Bool) (s : State) : Res := onPldm (activateFirmware step2Ok step4Ok) s

/-- GET_STATUS. -/
def execGetStatus (s : State) : Res :=
  onPldm (pldmReply 0x1B 0 [u8 s.mgmt.update, u16 s.mgmt.updateResult, u32 s.mgmt.updateData.length]) s

/-- A transfer stops at its last safe point: the inactive slots are empty (R125). -/
def dropTransfer (s : State) : State :=
  if 3 ≤ s.mgmt.update then onInactive (fun _ => {}) (onMgmt (fun m => { m with updateData := [] }) s) else s

/-- CANCEL_UPDATE_COMPONENT. -/
def cancelComponent (s : State) : State :=
  if s.mgmt.update < 3 then pldmReply 0x1C (wrongState s) [] s else pldmReply 0x1C 0 [] (setUpdate 2 (dropTransfer s))

def execCancelUpdateComponent (s : State) : Res := onPldm cancelComponent s

/-- CANCEL_UPDATE releases the firmware store. -/
def cancelUpdate (s : State) : State :=
  if s.mgmt.update = 0 then pldmReply 0x1D 0x80 [] s else pldmReply 0x1D 0 [] (setUpdate 0 (dropTransfer s))

def execCancelUpdate (s : State) : Res := onPldm cancelUpdate s

/-- UPDATE_IDLE_TIMEOUT: 60 s without data. -/
def execUpdateIdleTimeout (s : State) : Res :=
  .next (if mgmtUp s ∧ s.mgmt.update = 3 then setUpdate 0 (dropTransfer s) else s)

end Sys2Proof.Machine
end

