-- ==== Sys2Proof/Machine/Spdm.lean ====
section
/-! DEFINITION. SPDM attestation over MCTP and over the two DOE mailboxes (R109, R421–R423). Transport 0 is MCTP, 1 and 2 the DOE
mailboxes of host ports A and B. Message codes and layouts follow SPDM 1.2 (PRESUMED). -/

namespace Sys2Proof.Machine

/-! ### Transports -/

/-- The transport carries messages: the MCTP endpoint has an EID; a DOE mailbox belongs to PF0, or to the diagnostic PF (R109). -/
def spdmOpen (s : State) (t : Nat) : Bool := if t = 0 then endpointReady s else mgmtUp s && fnVisible s (64 * (t - 1))

def spdmOf (s : State) (t : Nat) : Spdm := tget {} s.mgmt.spdm t
def onSpdm (t : Nat) (f : Spdm → Spdm) (s : State) : State := onMgmt (fun m => { m with spdm := tmod {} m.spdm t f }) s

/-- A response: version 1.2, the response code and its bytes. -/
def spdmReply (t code : Nat) (bytes : List Byte) (s : State) : State :=
  if t = 0 then emit (.mctp 5 code (leBytes 1 0x12 ++ leBytes 1 code ++ bytes)) s
  else emit (.doe (t - 1) (leBytes 1 0x12 ++ leBytes 1 code ++ bytes)) s

/-- An ERROR response, which counts as a request refused (R418). -/
def spdmError (t e : Nat) (s : State) : State := spdmReply t 0x7F (leBytes 1 e) (countMgmt 2 s)

/-- A request that needs `n` steps of negotiation: after a failover it is told to start over (R423). -/
def spdmAt (t n : Nat) (f : State → State) (s : State) : State :=
  if !spdmOpen s t then s
  else if (spdmOf s t).resync then spdmError t 0x43 s
  else if (spdmOf s t).negotiated < n then spdmError t 0x04 s
  else f s

def onTransport (t : Nat) (f : State → State) (s : State) : Res := if t < 3 then .next (f s) else .next s

/-! ### Negotiation (R421) -/

/-- GET_VERSION: negotiation begins anew. -/
def spdmVersion (t : Nat) (s : State) : State :=
  if !spdmOpen s t then s
  else spdmReply t 0x04 (pack [u8 1, u16 0x1200]) (onSpdm t (fun _ => { negotiated := 1, resync := false }) s)

def execSpdmGetVersion (transport : Nat) (s : State) : Res := onTransport transport (spdmVersion transport) s

/-- GET_CAPABILITIES: CERT, CHAL, and MEAS with signatures. -/
def spdmCapabilities (t : Nat) (s : State) : State :=
  spdmAt t 1 (fun s => spdmReply t 0x61 (pack [u32 0x16]) (onSpdm t (fun x => { x with negotiated := max x.negotiated 2 }) s)) s

def execSpdmGetCapabilities (transport : Nat) (s : State) : Res := onTransport transport (spdmCapabilities transport) s

/-- NEGOTIATE_ALGORITHMS: only ECDSA P-384 with SHA-384. -/
def spdmAlgorithms (t : Nat) (ecdsa sha : Bool) (s : State) : State :=
  spdmAt t 2 (fun s =>
    if ecdsa && sha then spdmReply t 0x63 (pack [u32 0x80, u32 0x2]) (onSpdm t (fun x => { x with negotiated := 3 }) s)
    else spdmError t 0x01 s) s

def execSpdmNegotiateAlgorithms (transport : Nat) (ecdsaP384 sha384 : Bool) (s : State) : Res :=
  onTransport transport (spdmAlgorithms transport ecdsaP384 sha384) s

/-! ### Certificates and challenges (R421) -/

def chainDigest : List Byte := sha384 Config.certificateChain

def execSpdmGetDigests (transport : Nat) (s : State) : Res :=
  onTransport transport (spdmAt transport 3 (spdmReply transport 0x01 (leBytes 1 1 ++ chainDigest))) s

/-- GET_CERTIFICATE: a portion of slot 0's chain, and how much remains. -/
def spdmCertificate (t slot off len : Nat) (s : State) : State :=
  spdmAt t 3 (fun s =>
    if slot ≠ 0 ∨ Config.certificateChain.length < off then spdmError t 0x01 s
    else
      let part := (Config.certificateChain.drop off).take len
      spdmReply t 0x02 (leBytes 2 part.length ++ leBytes 2 (Config.certificateChain.length - off - part.length) ++ part) s) s

def execSpdmGetCertificate (transport slot offset length : Nat) (s : State) : Res :=
  onTransport transport (spdmCertificate transport slot offset length) s

/-- A fresh nonce of 32 bytes. -/
def freshNonce (s : State) : List Byte × State := (padTo 32 (Config.spdmNonce s.free), { s with free := s.free + 1 })

/-- A signed response: the device key signs the request's nonce and the response. -/
def spdmSigned (t code : Nat) (nonce body : List Byte) (s : State) : State :=
  let x := freshNonce s
  let r := body ++ x.1
  spdmReply t code (r ++ Config.sign (nonce ++ r)) x.2

def spdmChallenge (t slot : Nat) (nonce : List Byte) (s : State) : State :=
  spdmAt t 3 (fun s => if slot ≠ 0 then spdmError t 0x01 s else spdmSigned t 0x03 nonce chainDigest s) s

def execSpdmChallenge (transport slot : Nat) (nonce : List Byte) (s : State) : Res :=
  onTransport transport (spdmChallenge transport slot nonce) s

/-! ### Measurements (R422) -/

/-- The repair-map header of the active copy (R79). -/
def activeMapHeader (s : State) : List Byte := padTo 32 (match selectedMap s with | some c => c.header | none => [])

/-- The digest field of an image (R126). -/
def imageDigest (b : List Byte) : List Byte := (b.drop 0x40).take 48

/-- The content that a measurement digests. -/
def measured (s : State) (i : Nat) : List Byte :=
  let d := b2n s.post.onE8
  let other := fwSlotOf s d (inactiveSlot s d)
  match i with
  | 1 => Config.bootRom
  | 2 => imageDigest (runningImage s)
  | 3 => pack [u32 (firmwareVersion s), u32 (securityVersion (runningImage s)), u32 s.post.floor]
  | 4 => leBytes 1 other.state ++ imageDigest other.image
  | 5 => activeMapHeader s
  | _ => pack [u8 s.power.verdict, u8 (frondsInService s).length, u32 (activeTiles s), u8 (postEdge s)]

/-- A measurement block. -/
def measurement (s : State) (i : Nat) : List Byte := leBytes 1 i ++ sha384 (measured s i)

/-- GET_MEASUREMENTS: index 0 asks for their number, 0xFF for all. -/
def spdmMeasurements (t i : Nat) (nonce : List Byte) (s : State) : State :=
  spdmAt t 3 (fun s =>
    if i = 0 then spdmSigned t 0x60 nonce (leBytes 1 6) s
    else if i ≤ 6 then spdmSigned t 0x60 nonce (leBytes 1 1 ++ measurement s i) s
    else if i = 0xFF then spdmSigned t 0x60 nonce (leBytes 1 6 ++ ([1, 2, 3, 4, 5, 6] : List Nat).flatMap (measurement s)) s
    else spdmError t 0x01 s) s

def execSpdmGetMeasurements (transport index : Nat) (nonce : List Byte) (s : State) : Res :=
  onTransport transport (spdmMeasurements transport index nonce) s

/-- An SPDM request that the module does not support, with any transport: ERROR "unsupported request" (R9). Over MCTP the table of
operations has no row for it (assumption 76). -/
def spdmUnsupported (t : Nat) (s : State) : State := if spdmOpen s t then spdmError t 0x07 s else s

/-! ### DOE (R109) -/

/-- A SPDM request carried in a CMA-SPDM object. -/
def doeSpdm (t : Nat) (b : List Byte) (s : State) : State :=
  match field b 1 1 with
  | 0x84 => spdmVersion t s
  | 0xE1 => spdmCapabilities t s
  | 0xE3 => spdmAlgorithms t (bit (field b 8 4) 7) (bit (field b 12 4) 1) s
  | 0x81 => spdmAt t 3 (spdmReply t 0x01 (leBytes 1 1 ++ chainDigest)) s
  | 0x82 => spdmCertificate t (field b 2 1) (field b 4 2) (field b 6 2) s
  | 0x83 => spdmChallenge t (field b 2 1) (padTo 32 (b.drop 4)) s
  | 0xE0 => spdmMeasurements t (field b 3 1) (padTo 32 (b.drop 4)) s
  | _ => spdmUnsupported t s

/-- DOE Discovery: index 0 names Discovery itself, 1 CMA-SPDM, with the next index in the last byte. -/
def doeDiscovery (port i : Nat) (s : State) : State :=
  if !spdmOpen s (port + 1) then s
  else if i = 0 then emit (.doe port (leBytes 2 1 ++ leBytes 1 0 ++ leBytes 1 1)) s
  else if i = 1 then emit (.doe port (leBytes 2 1 ++ leBytes 1 1 ++ leBytes 1 0)) s
  else emit (.doe port (leBytes 2 0xFFFF ++ leBytes 1 0 ++ leBytes 1 0)) s

/-- DOE_OBJECT, by its data object type: 0 is DOE Discovery and 1 CMA-SPDM (PRESUMED). An object of another type, which Discovery does not
offer, and one longer than 64 KiB are discarded (assumption 76). -/
def execDoeObject (port type : Nat) (body : List Byte) (s : State) : Res :=
  if 2 ≤ port then .next s
  else if 65536 < body.length then .next s
  else .next (if type = 0 then doeDiscovery port (field body 0 1) s else if type = 1 then doeSpdm (port + 1) body s else s)

end Sys2Proof.Machine
end

