-- ==== Sys2Proof/Machine/Dispatch.lean ====
section
/-! DEFINITION. One arm per command: each calls that command's meaning. -/

namespace Sys2Proof.Machine

def exec (i : Instr) (s : State) : Host.Outcome State Fault Refusal :=
  match i with
  | .inputPowerUp inA inB board => Sys2Proof.Machine.execInputPowerUp inA inB board s
  | .inputUndervoltage input => Sys2Proof.Machine.execInputUndervoltage input s
  | .coldReset => Sys2Proof.Machine.execColdReset s
  | .mctpWatchdogExpiry => Sys2Proof.Machine.execMctpWatchdogExpiry s
  | .heartbeatWatchdogExpiry => Sys2Proof.Machine.execHeartbeatWatchdogExpiry s
  | .enableAssert => Sys2Proof.Machine.execEnableAssert s
  | .enableDeassert => Sys2Proof.Machine.execEnableDeassert s
  | .powerupPhaseB result0 result8 => Sys2Proof.Machine.execPowerupPhaseB result0 result8 s
  | .selftestWave results => Sys2Proof.Machine.execSelftestWave results s
  | .selftestRetryPass results => Sys2Proof.Machine.execSelftestRetryPass results s
  | .powerupVerdict mramOk => Sys2Proof.Machine.execPowerupVerdict mramOk s
  | .phaseCTimeout => Sys2Proof.Machine.execPhaseCTimeout s
  | .hostPortTraining port => Sys2Proof.Machine.execHostPortTraining port s
  | .perstAssert port => Sys2Proof.Machine.execPerstAssert port s
  | .hostLinkDown port => Sys2Proof.Machine.execHostLinkDown port s
  | .configRequest port fn write reg value => Sys2Proof.Machine.execConfigRequest port fn write reg value s
  | .busMasterEnableClear port fn => Sys2Proof.Machine.execBusMasterEnableClear port fn s
  | .busMasterEnableSet port fn => Sys2Proof.Machine.execBusMasterEnableSet port fn s
  | .initiateFlr port fn => Sys2Proof.Machine.execInitiateFlr port fn s
  | .flrReadsDone port fn => Sys2Proof.Machine.execFlrReadsDone port fn s
  | .vfEnableSet port => Sys2Proof.Machine.execVfEnableSet port s
  | .vfEnableClear port => Sys2Proof.Machine.execVfEnableClear port s
  | .d3hotEntry port fn => Sys2Proof.Machine.execD3hotEntry port fn s
  | .d0Return port fn => Sys2Proof.Machine.execD0Return port fn s
  | .priEnableToggle port fn => Sys2Proof.Machine.execPriEnableToggle port fn s
  | .msixUnmask port fn what => Sys2Proof.Machine.execMsixUnmask port fn what s
  | .badSizeAccess port fn bar offset size write => Sys2Proof.Machine.execBadSizeAccess port fn bar offset size write s
  | .registerWrite port fn bar offset size value hwSet => Sys2Proof.Machine.execRegisterWrite port fn bar offset size value hwSet s
  | .hostReadCompletion port tag status data => Sys2Proof.Machine.execHostReadCompletion port tag status data s
  | .completionTimeout port tag => Sys2Proof.Machine.execCompletionTimeout port tag s
  | .poisonedCompletion port tag data => Sys2Proof.Machine.execPoisonedCompletion port tag data s
  | .unexpectedCompletion port tag => Sys2Proof.Machine.execUnexpectedCompletion port tag s
  | .malformedTlp port => Sys2Proof.Machine.execMalformedTlp port s
  | .atsInvalidationRequest port fn pasid va length => Sys2Proof.Machine.execAtsInvalidationRequest port fn pasid va length s
  | .pageResponse port fn index code => Sys2Proof.Machine.execPageResponse port fn index code s
  | .pageResponseTimeout port fn index => Sys2Proof.Machine.execPageResponseTimeout port fn index s
  | .doeObject port type body => Sys2Proof.Machine.execDoeObject port type body s
  | .lbDoorbell lb value => Sys2Proof.Machine.execLbDoorbell lb value s
  | .lbAbort lb value => Sys2Proof.Machine.execLbAbort lb value s
  | .lbResultClear lb value hwSet => Sys2Proof.Machine.execLbResultClear lb value hwSet s
  | .lbFrameWrite lb offset size value => Sys2Proof.Machine.execLbFrameWrite lb offset size value s
  | .commandStart lb => Sys2Proof.Machine.execCommandStart lb s
  | .nop lb => Sys2Proof.Machine.execNop lb s
  | .getVersion lb => Sys2Proof.Machine.execGetVersion lb s
  | .getModuleInfo lb => Sys2Proof.Machine.execGetModuleInfo lb s
  | .fnSetQuota lb => Sys2Proof.Machine.execFnSetQuota lb s
  | .fnQuery lb => Sys2Proof.Machine.execFnQuery lb s
  | .ringAlloc lb => Sys2Proof.Machine.execRingAlloc lb s
  | .ringFree lb => Sys2Proof.Machine.execRingFree lb s
  | .ringBind lb => Sys2Proof.Machine.execRingBind lb s
  | .ringConfig lb => Sys2Proof.Machine.execRingConfig lb s
  | .ringSetPhysical lb => Sys2Proof.Machine.execRingSetPhysical lb s
  | .ringStart lb => Sys2Proof.Machine.execRingStart lb s
  | .ringStop lb => Sys2Proof.Machine.execRingStop lb s
  | .ringQuery lb => Sys2Proof.Machine.execRingQuery lb s
  | .ringAckLoss lb => Sys2Proof.Machine.execRingAckLoss lb s
  | .ringModerate lb => Sys2Proof.Machine.execRingModerate lb s
  | .ctxCreate lb => Sys2Proof.Machine.execCtxCreate lb s
  | .ctxDestroy lb => Sys2Proof.Machine.execCtxDestroy lb s
  | .ctxSetRoot lb => Sys2Proof.Machine.execCtxSetRoot lb s
  | .tlbInvalidate lb => Sys2Proof.Machine.execTlbInvalidate lb s
  | .tlbInvalidateBcast lb => Sys2Proof.Machine.execTlbInvalidateBcast lb s
  | .tableSync lb => Sys2Proof.Machine.execTableSync lb s
  | .pinRange lb => Sys2Proof.Machine.execPinRange lb s
  | .unpinRange lb => Sys2Proof.Machine.execUnpinRange lb s
  | .keyLoad lb => Sys2Proof.Machine.execKeyLoad lb s
  | .keyClear lb => Sys2Proof.Machine.execKeyClear lb s
  | .hotpageConfig lb => Sys2Proof.Machine.execHotpageConfig lb s
  | .imageLoad lb => Sys2Proof.Machine.execImageLoad lb s
  | .imageDrop lb => Sys2Proof.Machine.execImageDrop lb s
  | .imageQuery lb => Sys2Proof.Machine.execImageQuery lb s
  | .phCreate lb => Sys2Proof.Machine.execPhCreate lb s
  | .phClaim lb => Sys2Proof.Machine.execPhClaim lb s
  | .phRelease lb => Sys2Proof.Machine.execPhRelease lb s
  | .phEvict lb => Sys2Proof.Machine.execPhEvict lb s
  | .phStop lb => Sys2Proof.Machine.execPhStop lb s
  | .phQuery lb => Sys2Proof.Machine.execPhQuery lb s
  | .freeMapRead lb => Sys2Proof.Machine.execFreeMapRead lb s
  | .routeStage lb => Sys2Proof.Machine.execRouteStage lb s
  | .routeCommit lb => Sys2Proof.Machine.execRouteCommit lb s
  | .routeRead lb => Sys2Proof.Machine.execRouteRead lb s
  | .routeSetDefine lb => Sys2Proof.Machine.execRouteSetDefine lb s
  | .deflectLimit lb => Sys2Proof.Machine.execDeflectLimit lb s
  | .portQuery lb => Sys2Proof.Machine.execPortQuery lb s
  | .portSetWidth lb => Sys2Proof.Machine.execPortSetWidth lb s
  | .portSpare lb => Sys2Proof.Machine.execPortSpare lb s
  | .portDisable lb => Sys2Proof.Machine.execPortDisable lb s
  | .portEnable lb => Sys2Proof.Machine.execPortEnable lb s
  | .portRetrain lb => Sys2Proof.Machine.execPortRetrain lb s
  | .status lb => Sys2Proof.Machine.execStatus lb s
  | .diagEnter lb => Sys2Proof.Machine.execDiagEnter lb s
  | .txTapsSet lb => Sys2Proof.Machine.execTxTapsSet lb s
  | .prbsGen lb => Sys2Proof.Machine.execPrbsGen lb s
  | .prbsCheck lb => Sys2Proof.Machine.execPrbsCheck lb s
  | .prbsRead lb stream words bitLock => Sys2Proof.Machine.execPrbsRead lb stream words bitLock s
  | .patternLow lb => Sys2Proof.Machine.execPatternLow lb s
  | .patternHigh lb => Sys2Proof.Machine.execPatternHigh lb s
  | .capture lb words => Sys2Proof.Machine.execCapture lb words s
  | .bitSlip lb => Sys2Proof.Machine.execBitSlip lb s
  | .loopback lb => Sys2Proof.Machine.execLoopback lb s
  | .eyeSummary lb eyes => Sys2Proof.Machine.execEyeSummary lb eyes s
  | .eyeScan lb errors => Sys2Proof.Machine.execEyeScan lb errors s
  | .rateLimit lb => Sys2Proof.Machine.execRateLimit lb s
  | .discoveryStart lb => Sys2Proof.Machine.execDiscoveryStart lb s
  | .powerRequest lb => Sys2Proof.Machine.execPowerRequest lb s
  | .powerQuery lb => Sys2Proof.Machine.execPowerQuery lb s
  | .frondClockSet lb => Sys2Proof.Machine.execFrondClockSet lb s
  | .govWeightSet lb => Sys2Proof.Machine.execGovWeightSet lb s
  | .rackTimeSet lb => Sys2Proof.Machine.execRackTimeSet lb s
  | .rackTimeQuery lb => Sys2Proof.Machine.execRackTimeQuery lb s
  | .selftestReportRead lb => Sys2Proof.Machine.execSelftestReportRead lb s
  | .journalRead lb => Sys2Proof.Machine.execJournalRead lb s
  | .journalAppend lb => Sys2Proof.Machine.execJournalAppend lb s
  | .repairMapRead lb => Sys2Proof.Machine.execRepairMapRead lb s
  | .repairMapAdd lb mramOk => Sys2Proof.Machine.execRepairMapAdd lb mramOk s
  | .repairMapDelete lb mramOk => Sys2Proof.Machine.execRepairMapDelete lb mramOk s
  | .tileRetire lb => Sys2Proof.Machine.execTileRetire lb s
  | .frondFence lb => Sys2Proof.Machine.execFrondFence lb s
  | .frondRetest lb outcome => Sys2Proof.Machine.execFrondRetest lb outcome s
  | .countersRead lb => Sys2Proof.Machine.execCountersRead lb s
  | .moduleReset lb => Sys2Proof.Machine.execModuleReset lb s
  | .fwQuery lb => Sys2Proof.Machine.execFwQuery lb s
  | .fwStage lb mramOk => Sys2Proof.Machine.execFwStage lb mramOk s
  | .fwVerify lb => Sys2Proof.Machine.execFwVerify lb s
  | .fwActivateAtReset write => Sys2Proof.Machine.execFwActivateAtReset write s
  | .fwActivateLive lb step2Ok step4Ok => Sys2Proof.Machine.execFwActivateLive lb step2Ok step4Ok s
  | .agentReload lb => Sys2Proof.Machine.execAgentReload lb s
  | .failover lb => Sys2Proof.Machine.execFailover lb s
  | .postmasterHeartbeat => Sys2Proof.Machine.execPostmasterHeartbeat s
  | .unplannedFailover => Sys2Proof.Machine.execUnplannedFailover s
  | .e0Restart passed => Sys2Proof.Machine.execE0Restart passed s
  | .governorTransition => Sys2Proof.Machine.execGovernorTransition s
  | .entryLaunchesEnded => Sys2Proof.Machine.execEntryLaunchesEnded s
  | .entryRingsStopped => Sys2Proof.Machine.execEntryRingsStopped s
  | .entryInflightZero => Sys2Proof.Machine.execEntryInflightZero s
  | .waitLimitExpiry => Sys2Proof.Machine.execWaitLimitExpiry s
  | .exitSequence => Sys2Proof.Machine.execExitSequence s
  | .budgetUpdate input inputValid => Sys2Proof.Machine.execBudgetUpdate input inputValid s
  | .governorTick powers => Sys2Proof.Machine.execGovernorTick powers s
  | .fastGuard input => Sys2Proof.Machine.execFastGuard input s
  | .busBarInputFail input => Sys2Proof.Machine.execBusBarInputFail input s
  | .powerMonitorFail frond => Sys2Proof.Machine.execPowerMonitorFail frond s
  | .ppsEdge => Sys2Proof.Machine.execPpsEdge s
  | .ppsMissing => Sys2Proof.Machine.execPpsMissing s
  | .referenceLoss => Sys2Proof.Machine.execReferenceLoss s
  | .holdoverExpiry => Sys2Proof.Machine.execHoldoverExpiry s
  | .referenceReturn => Sys2Proof.Machine.execReferenceReturn s
  | .slewEnd => Sys2Proof.Machine.execSlewEnd s
  | .timebaseFailover => Sys2Proof.Machine.execTimebaseFailover s
  | .controlInject point => Sys2Proof.Machine.execControlInject point s
  | .clockLockFail frond retryOk => Sys2Proof.Machine.execClockLockFail frond retryOk s
  | .beacon port lane word => Sys2Proof.Machine.execBeacon port lane word s
  | .readyTimer port => Sys2Proof.Machine.execReadyTimer port s
  | .trainingFrame port lane control status ownTrained => Sys2Proof.Machine.execTrainingFrame port lane control status ownTrained s
  | .alignmentMarker port lane marker => Sys2Proof.Machine.execAlignmentMarker port lane marker s
  | .lockFecWindow port uncorrectable skewNs locked => Sys2Proof.Machine.execLockFecWindow port uncorrectable skewNs locked s
  | .trainingTimeout port => Sys2Proof.Machine.execTrainingTimeout port s
  | .fallbackIdleEnd port => Sys2Proof.Machine.execFallbackIdleEnd port s
  | .backoffAttempt port => Sys2Proof.Machine.execBackoffAttempt port s
  | .losAssert port lane => Sys2Proof.Machine.execLosAssert port lane s
  | .losClear port lane => Sys2Proof.Machine.execLosClear port lane s
  | .lossOfLock port lane => Sys2Proof.Machine.execLossOfLock port lane s
  | .keepaliveReturnCheck port bitLocked => Sys2Proof.Machine.execKeepaliveReturnCheck port bitLocked s
  | .flitSend port => Sys2Proof.Machine.execFlitSend port s
  | .payloadFlitReceive port received uncorrectable => Sys2Proof.Machine.execPayloadFlitReceive port received uncorrectable s
  | .replayTimerExpiry port => Sys2Proof.Machine.execReplayTimerExpiry port s
  | .linkControlRepeat port => Sys2Proof.Machine.execLinkControlRepeat port s
  | .cap port body roundTripNs => Sys2Proof.Machine.execCap port body roundTripNs s
  | .start port => Sys2Proof.Machine.execStart port s
  | .narrow port mask => Sys2Proof.Machine.execNarrow port mask s
  | .narrowAck port mask => Sys2Proof.Machine.execNarrowAck port mask s
  | .narrowTimeout port => Sys2Proof.Machine.execNarrowTimeout port s
  | .laneErrorThreshold port lane uncorrectable => Sys2Proof.Machine.execLaneErrorThreshold port lane uncorrectable s
  | .kaEnter port => Sys2Proof.Machine.execKaEnter port s
  | .kaAck port => Sys2Proof.Machine.execKaAck port s
  | .kaEnterTimeout port => Sys2Proof.Machine.execKaEnterTimeout port s
  | .kaExit port => Sys2Proof.Machine.execKaExit port s
  | .escapeCreditStall port => Sys2Proof.Machine.execEscapeCreditStall port s
  | .routeDecision die router => Sys2Proof.Machine.execRouteDecision die router s
  | .injectionStart die router pid => Sys2Proof.Machine.execInjectionStart die router pid s
  | .landingWaitExpiry pid fourMicros => Sys2Proof.Machine.execLandingWaitExpiry pid fourMicros s
  | .seamCrossing die output => Sys2Proof.Machine.execSeamCrossing die output s
  | .escapeWaitExpiry pid => Sys2Proof.Machine.execEscapeWaitExpiry pid s
  | .bankSwap => Sys2Proof.Machine.execBankSwap s
  | .commitDrainTimeout => Sys2Proof.Machine.execCommitDrainTimeout s
  | .dataPacketDelivery pid => Sys2Proof.Machine.execDataPacketDelivery pid s
  | .holdDiscard die index => Sys2Proof.Machine.execHoldDiscard die index s
  | .readRequestPacket pid => Sys2Proof.Machine.execReadRequestPacket pid s
  | .readResponsePacket pid => Sys2Proof.Machine.execReadResponsePacket pid s
  | .atomicPacket pid => Sys2Proof.Machine.execAtomicPacket pid s
  | .atomicResponsePacket pid => Sys2Proof.Machine.execAtomicResponsePacket pid s
  | .receipt pid => Sys2Proof.Machine.execReceipt pid s
  | .refusal pid => Sys2Proof.Machine.execRefusal pid s
  | .tallySetPacket pid => Sys2Proof.Machine.execTallySetPacket pid s
  | .tallySetAck pid => Sys2Proof.Machine.execTallySetAck pid s
  | .phStopPacket pid => Sys2Proof.Machine.execPhStopPacket pid s
  | .phStopDone pid => Sys2Proof.Machine.execPhStopDone pid s
  | .invalidate pid => Sys2Proof.Machine.execInvalidate pid s
  | .invalidateDone pid => Sys2Proof.Machine.execInvalidateDone pid s
  | .relay pid => Sys2Proof.Machine.execRelay pid s
  | .relayDone pid => Sys2Proof.Machine.execRelayDone pid s
  | .stewardIrq pid => Sys2Proof.Machine.execStewardIrq pid s
  | .partialListArrival pid => Sys2Proof.Machine.execPartialListArrival pid s
  | .parkExpiry die engine index => Sys2Proof.Machine.execParkExpiry die engine index s
  | .mergeContextExpiry die engine group => Sys2Proof.Machine.execMergeContextExpiry die engine group s
  | .ringDoorbell port fn page value => Sys2Proof.Machine.execRingDoorbell port fn page value s
  | .ringCqConsumed port fn page value => Sys2Proof.Machine.execRingCqConsumed port fn page value s
  | .intEventVector port fn value => Sys2Proof.Machine.execIntEventVector port fn value s
  | .intSelect port fn value => Sys2Proof.Machine.execIntSelect port fn value s
  | .msixTableWrite port fn vector field value => Sys2Proof.Machine.execMsixTableWrite port fn vector field value s
  | .descriptorFetch ring => Sys2Proof.Machine.execDescriptorFetch ring s
  | .descriptorStart ring => Sys2Proof.Machine.execDescriptorStart ring s
  | .descriptorSettle ring => Sys2Proof.Machine.execDescriptorSettle ring s
  | .ringError ring reason => Sys2Proof.Machine.execRingError ring reason s
  | .nopDescriptor ring count => Sys2Proof.Machine.execNopDescriptor ring count s
  | .copy ring count => Sys2Proof.Machine.execCopy ring count s
  | .atomic ring count => Sys2Proof.Machine.execAtomic ring count s
  | .select ring count => Sys2Proof.Machine.execSelect ring count s
  | .spectral ring count => Sys2Proof.Machine.execSpectral ring count s
  | .launch ring count => Sys2Proof.Machine.execLaunch ring count s
  | .tallyWait ring count => Sys2Proof.Machine.execTallyWait ring count s
  | .tallyWaitTimeout ring count => Sys2Proof.Machine.execTallyWaitTimeout ring count s
  | .tallySet ring count => Sys2Proof.Machine.execTallySet ring count s
  | .tallySetTimeout ring count => Sys2Proof.Machine.execTallySetTimeout ring count s
  | .receiptTimeout ring count => Sys2Proof.Machine.execReceiptTimeout ring count s
  | .unreachableTimeout ring count => Sys2Proof.Machine.execUnreachableTimeout ring count s
  | .relayTimeout ring count => Sys2Proof.Machine.execRelayTimeout ring count s
  | .moderationTimer ring => Sys2Proof.Machine.execModerationTimer ring s
  | .tableWalk unit walk => Sys2Proof.Machine.execTableWalk unit walk s
  | .hotpageWindowEnd port fn context => Sys2Proof.Machine.execHotpageWindowEnd port fn context s
  | .stewardSubmit core array descriptor => Sys2Proof.Machine.execStewardSubmit core array descriptor s
  | .launchGrant pigeonhole launch => Sys2Proof.Machine.execLaunchGrant pigeonhole launch s
  | .streamReadTimeout launch => Sys2Proof.Machine.execStreamReadTimeout launch s
  | .tileCoreAccess frond tile write offset bytes => Sys2Proof.Machine.execTileCoreAccess frond tile write offset bytes s
  | .launchEnd launch => Sys2Proof.Machine.execLaunchEnd launch s
  | .tileFault launch tile code => Sys2Proof.Machine.execTileFault launch tile code s
  | .entryTimeLimit launch tile => Sys2Proof.Machine.execEntryTimeLimit launch tile s
  | .residencyTargetReached pigeonhole => Sys2Proof.Machine.execResidencyTargetReached pigeonhole s
  | .phCreateTimeout pigeonhole => Sys2Proof.Machine.execPhCreateTimeout pigeonhole s
  | .loadCancel pigeonhole => Sys2Proof.Machine.execLoadCancel pigeonhole s
  | .loadReadTimeout pigeonhole record => Sys2Proof.Machine.execLoadReadTimeout pigeonhole record s
  | .stampError pigeonhole => Sys2Proof.Machine.execStampError pigeonhole s
  | .sramScrub die word found => Sys2Proof.Machine.execSramScrub die word found s
  | .eccThreshold die => Sys2Proof.Machine.execEccThreshold die s
  | .tileAutoRetire frond tile => Sys2Proof.Machine.execTileAutoRetire frond tile s
  | .edgeDieFailure edge => Sys2Proof.Machine.execEdgeDieFailure edge s
  | .wireFailure die link group wire => Sys2Proof.Machine.execWireFailure die link group wire s
  | .contactImbalance die withinLimits => Sys2Proof.Machine.execContactImbalance die withinLimits s
  | .cryptoSelfCheck frond passed => Sys2Proof.Machine.execCryptoSelfCheck frond passed s
  | .linkKeyPhaseExpiry slot => Sys2Proof.Machine.execLinkKeyPhaseExpiry slot s
  | .parityError kind die index => Sys2Proof.Machine.execParityError kind die index s
  | .journalFlush mramOk => Sys2Proof.Machine.execJournalFlush mramOk s
  | .thermalSample readings => Sys2Proof.Machine.execThermalSample readings s
  | .thermalLimitDecrease frond => Sys2Proof.Machine.execThermalLimitDecrease frond s
  | .thermalLimitIncrease frond => Sys2Proof.Machine.execThermalLimitIncrease frond s
  | .thermalTrip die celsius => Sys2Proof.Machine.execThermalTrip die celsius s
  | .overvoltageTrip input millivolts => Sys2Proof.Machine.execOvervoltageTrip input millivolts s
  | .shutdownPowerOff grantEnded => Sys2Proof.Machine.execShutdownPowerOff grantEnded s
  | .cooldownExpiry board => Sys2Proof.Machine.execCooldownExpiry board s
  | .helloSend => Sys2Proof.Machine.execHelloSend s
  | .hello port packet => Sys2Proof.Machine.execHello port packet s
  | .electionQuiet => Sys2Proof.Machine.execElectionQuiet s
  | .report port packet => Sys2Proof.Machine.execReport port packet s
  | .rootCompute => Sys2Proof.Machine.execRootCompute s
  | .assign port packet => Sys2Proof.Machine.execAssign port packet s
  | .assignAck port packet => Sys2Proof.Machine.execAssignAck port packet s
  | .commit port packet => Sys2Proof.Machine.execCommit port packet s
  | .fail port packet => Sys2Proof.Machine.execFail port packet s
  | .commitTime => Sys2Proof.Machine.execCommitTime s
  | .discoveryStepTimeout => Sys2Proof.Machine.execDiscoveryStepTimeout s
  | .mctpSetEndpointId operation eid => Sys2Proof.Machine.execMctpSetEndpointId operation eid s
  | .mctpGetEndpointId dest => Sys2Proof.Machine.execMctpGetEndpointId dest s
  | .mctpGetEndpointUuid dest => Sys2Proof.Machine.execMctpGetEndpointUuid dest s
  | .mctpGetVersionSupport dest messageType => Sys2Proof.Machine.execMctpGetVersionSupport dest messageType s
  | .mctpGetMessageTypeSupport dest => Sys2Proof.Machine.execMctpGetMessageTypeSupport dest s
  | .mctpGetVendorMsgSupport dest selector => Sys2Proof.Machine.execMctpGetVendorMsgSupport dest selector s
  | .vendorDefinedMessage frame mramOk => Sys2Proof.Machine.execVendorDefinedMessage frame mramOk s
  | .setdasa address => Sys2Proof.Machine.execSetdasa address s
  | .entdaa address => Sys2Proof.Machine.execEntdaa address s
  | .rstdaa => Sys2Proof.Machine.execRstdaa s
  | .busHeldLow => Sys2Proof.Machine.execBusHeldLow s
  | .getPdr handle => Sys2Proof.Machine.execGetPdr handle s
  | .getPdrRepositoryInfo => Sys2Proof.Machine.execGetPdrRepositoryInfo s
  | .getSensorReading sensor => Sys2Proof.Machine.execGetSensorReading sensor s
  | .setTid tid => Sys2Proof.Machine.execSetTid tid s
  | .getStateSensorReadings sensor => Sys2Proof.Machine.execGetStateSensorReadings sensor s
  | .powerStateEffecter value => Sys2Proof.Machine.execPowerStateEffecter value s
  | .resetEffecter value => Sys2Proof.Machine.execResetEffecter value s
  | .safeStateEffecter value => Sys2Proof.Machine.execSafeStateEffecter value s
  | .latchClearEffecter value => Sys2Proof.Machine.execLatchClearEffecter value s
  | .getStateEffecterStates effecter => Sys2Proof.Machine.execGetStateEffecterStates effecter s
  | .setEventReceiver enable eid => Sys2Proof.Machine.execSetEventReceiver enable eid s
  | .pollForPlatformEventMessage => Sys2Proof.Machine.execPollForPlatformEventMessage s
  | .queryDeviceIdentifiers => Sys2Proof.Machine.execQueryDeviceIdentifiers s
  | .getFirmwareParameters => Sys2Proof.Machine.execGetFirmwareParameters s
  | .requestUpdate => Sys2Proof.Machine.execRequestUpdate s
  | .passComponentTable identifier => Sys2Proof.Machine.execPassComponentTable identifier s
  | .updateComponent identifier length => Sys2Proof.Machine.execUpdateComponent identifier length s
  | .requestFirmwareData data mramOk => Sys2Proof.Machine.execRequestFirmwareData data mramOk s
  | .transferComplete => Sys2Proof.Machine.execTransferComplete s
  | .verifyComplete => Sys2Proof.Machine.execVerifyComplete s
  | .applyComplete => Sys2Proof.Machine.execApplyComplete s
  | .activateFirmware step2Ok step4Ok => Sys2Proof.Machine.execActivateFirmware step2Ok step4Ok s
  | .getStatus => Sys2Proof.Machine.execGetStatus s
  | .cancelUpdateComponent => Sys2Proof.Machine.execCancelUpdateComponent s
  | .cancelUpdate => Sys2Proof.Machine.execCancelUpdate s
  | .updateIdleTimeout => Sys2Proof.Machine.execUpdateIdleTimeout s
  | .spdmGetVersion transport => Sys2Proof.Machine.execSpdmGetVersion transport s
  | .spdmGetCapabilities transport => Sys2Proof.Machine.execSpdmGetCapabilities transport s
  | .spdmNegotiateAlgorithms transport ecdsaP384 sha384 => Sys2Proof.Machine.execSpdmNegotiateAlgorithms transport ecdsaP384 sha384 s
  | .spdmGetDigests transport => Sys2Proof.Machine.execSpdmGetDigests transport s
  | .spdmGetCertificate transport slot offset length => Sys2Proof.Machine.execSpdmGetCertificate transport slot offset length s
  | .spdmChallenge transport slot nonce => Sys2Proof.Machine.execSpdmChallenge transport slot nonce s
  | .spdmGetMeasurements transport index nonce => Sys2Proof.Machine.execSpdmGetMeasurements transport index nonce s
  | .supervisorReadByte command => Sys2Proof.Machine.execSupervisorReadByte command s
  | .testLogicReset => Sys2Proof.Machine.execTestLogicReset s
  | .idcode tap => Sys2Proof.Machine.execIdcode tap s
  | .samplePreload tap pins preload => Sys2Proof.Machine.execSamplePreload tap pins preload s
  | .extest tap => Sys2Proof.Machine.execExtest tap s
  | .extestPulse tap => Sys2Proof.Machine.execExtestPulse tap s
  | .extestTrain tap => Sys2Proof.Machine.execExtestTrain tap s
  | .clamp tap => Sys2Proof.Machine.execClamp tap s
  | .highz tap => Sys2Proof.Machine.execHighz tap s
  | .bypass tap code => Sys2Proof.Machine.execBypass tap code s
  | .operatorLibraryCall launch tile operand write bytes => Sys2Proof.Machine.execOperatorLibraryCall launch tile operand write bytes s
  | .stewardCoreAccess core write address bytes => Sys2Proof.Machine.execStewardCoreAccess core write address bytes s
  | .stewardCoreException core => Sys2Proof.Machine.execStewardCoreException core s
  | .engineError frond unit => Sys2Proof.Machine.execEngineError frond unit s
  | .standbyLost => Sys2Proof.Machine.execStandbyLost s
  | .broadcastAnswerTimeout lb => Sys2Proof.Machine.execBroadcastAnswerTimeout lb s
  | .rackTimeSetTimeout => Sys2Proof.Machine.execRackTimeSetTimeout s
  | .transitionTimeout => Sys2Proof.Machine.execTransitionTimeout s
  | .sensorUpdate readings => Sys2Proof.Machine.execSensorUpdate readings s
  | .correctableLinkError port kind => Sys2Proof.Machine.execCorrectableLinkError port kind s
  | .escapeDrainAlarm die => Sys2Proof.Machine.execEscapeDrainAlarm die s
  | .laserFailure port lane => Sys2Proof.Machine.execLaserFailure port lane s

end Sys2Proof.Machine
end

