-- ==== Sys2Proof/WellFormed.lean ====
section
/-! DEFINITION. Well-formed commands: every unit that a command names is one that the spec gives the module (R13–R20, R25, R43,
R90, R110, R134, R209, R322). A command that is not well formed names something that does not exist, so no such event
can come, and it changes nothing (assumption 7). -/

namespace Sys2Proof

open Machine

/-- A lifted condition names a vector of the function (R96). -/
def unmaskWf (k : Nat) : Unmask → Bool
  | .vector v => decide (v < vectorCount k)
  | .functionMask => true
  | .msixEnable => true
  | .busMaster => true

/-- The input monitor, or a frond's (R56). -/
def monitorWf : Option Nat → Bool
  | none => true
  | some f => decide (f < 84)

/-- Every unit that the command names exists. -/
def Instr.wf (i : Instr) : Bool :=
  match i with
  | .inputPowerUp _ _ _ => true
  | .inputUndervoltage input => decide (input < 2)
  | .coldReset => true
  | .mctpWatchdogExpiry => true
  | .heartbeatWatchdogExpiry => true
  | .enableAssert => true
  | .enableDeassert => true
  | .powerupPhaseB _ _ => true
  | .selftestWave _ => true
  | .selftestRetryPass _ => true
  | .powerupVerdict _ => true
  | .phaseCTimeout => true
  | .hostPortTraining port => decide (port < 2)
  | .perstAssert port => decide (port < 2)
  | .hostLinkDown port => decide (port < 2)
  | .configRequest port fn _ _ _ => ringReg port fn
  | .busMasterEnableClear port fn => ringReg port fn
  | .busMasterEnableSet port fn => ringReg port fn
  | .initiateFlr port fn => ringReg port fn
  | .flrReadsDone port fn => ringReg port fn
  | .vfEnableSet port => decide (port < 2)
  | .vfEnableClear port => decide (port < 2)
  | .d3hotEntry port fn => ringReg port fn
  | .d0Return port fn => ringReg port fn
  | .priEnableToggle port fn => ringReg port fn
  | .msixUnmask port fn what => ringReg port fn && unmaskWf (64 * port + fn) what
  | .badSizeAccess port fn bar _ _ _ => ringReg port fn && (bar == 0 || bar == 2)
  | .registerWrite port fn bar _ _ _ _ => ringReg port fn && (bar == 0 || bar == 2)
  | .hostReadCompletion port _ _ _ => decide (port < 2)
  | .completionTimeout port _ => decide (port < 2)
  | .poisonedCompletion port _ _ => decide (port < 2)
  | .unexpectedCompletion port _ => decide (port < 2)
  | .malformedTlp port => decide (port < 2)
  | .atsInvalidationRequest port fn _ _ _ => ringReg port fn
  | .pageResponse port fn _ _ => ringReg port fn
  | .pageResponseTimeout port fn _ => ringReg port fn
  | .doeObject port _ _ => decide (port < 2)
  | .lbDoorbell lb _ => decide (lb < 128)
  | .lbAbort lb _ => decide (lb < 128)
  | .lbResultClear lb _ _ => decide (lb < 128)
  | .lbFrameWrite lb _ _ _ => decide (lb < 128)
  | .commandStart lb => decide (lb < 128)
  | .nop lb => decide (lb < 128)
  | .getVersion lb => decide (lb < 128)
  | .getModuleInfo lb => decide (lb < 128)
  | .fnSetQuota lb => decide (lb < 128)
  | .fnQuery lb => decide (lb < 128)
  | .ringAlloc lb => decide (lb < 128)
  | .ringFree lb => decide (lb < 128)
  | .ringBind lb => decide (lb < 128)
  | .ringConfig lb => decide (lb < 128)
  | .ringSetPhysical lb => decide (lb < 128)
  | .ringStart lb => decide (lb < 128)
  | .ringStop lb => decide (lb < 128)
  | .ringQuery lb => decide (lb < 128)
  | .ringAckLoss lb => decide (lb < 128)
  | .ringModerate lb => decide (lb < 128)
  | .ctxCreate lb => decide (lb < 128)
  | .ctxDestroy lb => decide (lb < 128)
  | .ctxSetRoot lb => decide (lb < 128)
  | .tlbInvalidate lb => decide (lb < 128)
  | .tlbInvalidateBcast lb => decide (lb < 128)
  | .tableSync lb => decide (lb < 128)
  | .pinRange lb => decide (lb < 128)
  | .unpinRange lb => decide (lb < 128)
  | .keyLoad lb => decide (lb < 128)
  | .keyClear lb => decide (lb < 128)
  | .hotpageConfig lb => decide (lb < 128)
  | .imageLoad lb => decide (lb < 128)
  | .imageDrop lb => decide (lb < 128)
  | .imageQuery lb => decide (lb < 128)
  | .phCreate lb => decide (lb < 128)
  | .phClaim lb => decide (lb < 128)
  | .phRelease lb => decide (lb < 128)
  | .phEvict lb => decide (lb < 128)
  | .phStop lb => decide (lb < 128)
  | .phQuery lb => decide (lb < 128)
  | .freeMapRead lb => decide (lb < 128)
  | .routeStage lb => decide (lb < 128)
  | .routeCommit lb => decide (lb < 128)
  | .routeRead lb => decide (lb < 128)
  | .routeSetDefine lb => decide (lb < 128)
  | .deflectLimit lb => decide (lb < 128)
  | .portQuery lb => decide (lb < 128)
  | .portSetWidth lb => decide (lb < 128)
  | .portSpare lb => decide (lb < 128)
  | .portDisable lb => decide (lb < 128)
  | .portEnable lb => decide (lb < 128)
  | .portRetrain lb => decide (lb < 128)
  | .status lb => decide (lb < 128)
  | .diagEnter lb => decide (lb < 128)
  | .txTapsSet lb => decide (lb < 128)
  | .prbsGen lb => decide (lb < 128)
  | .prbsCheck lb => decide (lb < 128)
  | .prbsRead lb _ _ _ => decide (lb < 128)
  | .patternLow lb => decide (lb < 128)
  | .patternHigh lb => decide (lb < 128)
  | .capture lb _ => decide (lb < 128)
  | .bitSlip lb => decide (lb < 128)
  | .loopback lb => decide (lb < 128)
  | .eyeSummary lb _ => decide (lb < 128)
  | .eyeScan lb _ => decide (lb < 128)
  | .rateLimit lb => decide (lb < 128)
  | .discoveryStart lb => decide (lb < 128)
  | .powerRequest lb => decide (lb < 128)
  | .powerQuery lb => decide (lb < 128)
  | .frondClockSet lb => decide (lb < 128)
  | .govWeightSet lb => decide (lb < 128)
  | .rackTimeSet lb => decide (lb < 128)
  | .rackTimeQuery lb => decide (lb < 128)
  | .selftestReportRead lb => decide (lb < 128)
  | .journalRead lb => decide (lb < 128)
  | .journalAppend lb => decide (lb < 128)
  | .repairMapRead lb => decide (lb < 128)
  | .repairMapAdd lb _ => decide (lb < 128)
  | .repairMapDelete lb _ => decide (lb < 128)
  | .tileRetire lb => decide (lb < 128)
  | .frondFence lb => decide (lb < 128)
  | .frondRetest lb _ => decide (lb < 128)
  | .countersRead lb => decide (lb < 128)
  | .moduleReset lb => decide (lb < 128)
  | .fwQuery lb => decide (lb < 128)
  | .fwStage lb _ => decide (lb < 128)
  | .fwVerify lb => decide (lb < 128)
  | .fwActivateAtReset write => decide (write.lb < 128)
  | .fwActivateLive lb _ _ => decide (lb < 128)
  | .agentReload lb => decide (lb < 128)
  | .failover lb => decide (lb < 128)
  | .postmasterHeartbeat => true
  | .unplannedFailover => true
  | .e0Restart _ => true
  | .governorTransition => true
  | .entryLaunchesEnded => true
  | .entryRingsStopped => true
  | .entryInflightZero => true
  | .waitLimitExpiry => true
  | .exitSequence => true
  | .budgetUpdate _ _ => true
  | .governorTick _ => true
  | .fastGuard _ => true
  | .busBarInputFail input => decide (input < 2)
  | .powerMonitorFail frond => monitorWf frond
  | .ppsEdge => true
  | .ppsMissing => true
  | .referenceLoss => true
  | .holdoverExpiry => true
  | .referenceReturn => true
  | .slewEnd => true
  | .timebaseFailover => true
  | .controlInject point => validPoint point
  | .clockLockFail frond _ => decide (frond < 84)
  | .beacon port lane _ => decide (port < 96) && decide (lane < 4)
  | .readyTimer port => decide (port < 96)
  | .trainingFrame port lane _ _ _ => decide (port < 96) && decide (lane < 4)
  | .alignmentMarker port lane _ => decide (port < 96) && decide (lane < 4)
  | .lockFecWindow port _ _ locked => decide (port < 96) && decide (locked < 16)
  | .trainingTimeout port => decide (port < 96)
  | .fallbackIdleEnd port => decide (port < 96)
  | .backoffAttempt port => decide (port < 96)
  | .losAssert port lane => decide (port < 96) && decide (lane < 4)
  | .losClear port lane => decide (port < 96) && decide (lane < 4)
  | .lossOfLock port lane => decide (port < 96) && decide (lane < 4)
  | .keepaliveReturnCheck port _ => decide (port < 96)
  | .flitSend port => decide (port < 96)
  | .payloadFlitReceive port received _ => decide (port < 96)
      && (match received with | .flit _ => true | .symbols lane values => decide (lane < 4) && values.all fun v => decide (v < 1024))
  | .replayTimerExpiry port => decide (port < 96)
  | .linkControlRepeat port => decide (port.port < 96)
  | .cap port _ _ => decide (port < 96)
  | .start port => decide (port < 96)
  | .narrow port _ => decide (port < 96)
  | .narrowAck port _ => decide (port < 96)
  | .narrowTimeout port => decide (port < 96)
  | .laneErrorThreshold port lane _ => decide (port < 96) && decide (lane < 4)
  | .kaEnter port => decide (port < 96)
  | .kaAck port => decide (port < 96)
  | .kaEnterTimeout port => decide (port < 96)
  | .kaExit port => decide (port < 96)
  | .escapeCreditStall port => decide (port < 96)
  | .routeDecision die router => validRouter die router
  | .injectionStart die router _ => validRouter die router
  | .landingWaitExpiry _ _ => true
  | .seamCrossing die output => validOutput die output
  | .escapeWaitExpiry _ => true
  | .bankSwap => true
  | .commitDrainTimeout => true
  | .dataPacketDelivery _ => true
  | .holdDiscard die _ => isDie die
  | .readRequestPacket _ => true
  | .readResponsePacket _ => true
  | .atomicPacket _ => true
  | .atomicResponsePacket _ => true
  | .receipt _ => true
  | .refusal _ => true
  | .tallySetPacket _ => true
  | .tallySetAck _ => true
  | .phStopPacket _ => true
  | .phStopDone _ => true
  | .invalidate _ => true
  | .invalidateDone _ => true
  | .relay _ => true
  | .relayDone _ => true
  | .stewardIrq _ => true
  | .partialListArrival _ => true
  | .parkExpiry die engine _ => decide (die < 84) && decide (engine < 2)
  | .mergeContextExpiry die engine _ => decide (die < 84) && decide (engine < 2)
  | .ringDoorbell port fn _ _ => ringReg port fn
  | .ringCqConsumed port fn _ _ => ringReg port fn
  | .intEventVector port fn _ => ringReg port fn
  | .intSelect port fn _ => ringReg port fn
  | .msixTableWrite port fn vector _ _ => ringReg port fn && decide (vector < vectorCount (64 * port + fn))
  | .descriptorFetch ring => validRing ring
  | .descriptorStart ring => validRing ring
  | .descriptorSettle ring => validRing ring
  | .ringError ring reason => decide (ring < 1024) && decide (1 ≤ reason ∧ reason ≤ 4)
  | .nopDescriptor ring _ => validRing ring
  | .copy ring _ => validRing ring
  | .atomic ring _ => validRing ring
  | .select ring _ => validRing ring
  | .spectral ring _ => validRing ring
  | .launch ring _ => validRing ring
  | .tallyWait ring _ => validRing ring
  | .tallyWaitTimeout ring _ => validRing ring
  | .tallySet ring _ => validRing ring
  | .tallySetTimeout ring _ => validRing ring
  | .receiptTimeout ring _ => validRing ring
  | .unreachableTimeout ring _ => validRing ring
  | .relayTimeout ring _ => validRing ring
  | .moderationTimer ring => decide (ring < 1024)
  | .tableWalk unit _ => isDie unit
  | .hotpageWindowEnd port fn _ => ringReg port fn
  | .stewardSubmit core _ _ => decide (core < 64)
  | .launchGrant pigeonhole _ => decide (pigeonhole < 4096)
  | .streamReadTimeout _ => true
  | .tileCoreAccess frond tile _ _ _ => decide (frond < 84) && decide (tile < 320)
  | .launchEnd _ => true
  | .tileFault _ _ code => decide (1 ≤ code ∧ code ≤ 8)
  | .entryTimeLimit _ _ => true
  | .residencyTargetReached pigeonhole => decide (pigeonhole < 4096)
  | .phCreateTimeout pigeonhole => decide (pigeonhole < 4096)
  | .loadCancel pigeonhole => decide (pigeonhole < 4096)
  | .loadReadTimeout pigeonhole _ => decide (pigeonhole < 4096)
  | .stampError pigeonhole => decide (pigeonhole < 4096)
  | .sramScrub die word _ => isDie die && wordOnDie die word
  | .eccThreshold die => isDie die
  | .tileAutoRetire frond tile => decide (frond < 84) && decide (tile < 320)
  | .edgeDieFailure edge => decide (edge < 16)
  | .wireFailure die link group wire => isDie die && decide (link < linkCount die) && decide (group.index < 8) && decide (wire < groupWires die link)
  | .contactImbalance die _ => isDie die
  | .cryptoSelfCheck frond _ => decide (frond < 84)
  | .linkKeyPhaseExpiry slot => decide (160 ≤ slot ∧ slot < 224)
  | .parityError kind die index => isDie die && decide (index < parityRange kind die)
  | .journalFlush _ => true
  | .thermalSample _ => true
  | .thermalLimitDecrease frond => decide (frond < 84)
  | .thermalLimitIncrease frond => decide (frond < 84)
  | .thermalTrip die _ => isDie die
  | .overvoltageTrip input _ => decide (input < 2)
  | .shutdownPowerOff _ => true
  | .cooldownExpiry _ => true
  | .helloSend => true
  | .hello port _ => decide (port < 96)
  | .electionQuiet => true
  | .report port _ => decide (port < 96)
  | .rootCompute => true
  | .assign port _ => decide (port < 96)
  | .assignAck port _ => decide (port < 96)
  | .commit port _ => decide (port < 96)
  | .fail port _ => decide (port < 96)
  | .commitTime => true
  | .discoveryStepTimeout => true
  | .mctpSetEndpointId _ _ => true
  | .mctpGetEndpointId _ => true
  | .mctpGetEndpointUuid _ => true
  | .mctpGetVersionSupport _ _ => true
  | .mctpGetMessageTypeSupport _ => true
  | .mctpGetVendorMsgSupport _ _ => true
  | .vendorDefinedMessage _ _ => true
  | .setdasa _ => true
  | .entdaa _ => true
  | .rstdaa => true
  | .busHeldLow => true
  | .getPdr _ => true
  | .getPdrRepositoryInfo => true
  | .getSensorReading _ => true
  | .setTid _ => true
  | .getStateSensorReadings _ => true
  | .powerStateEffecter _ => true
  | .resetEffecter _ => true
  | .safeStateEffecter _ => true
  | .latchClearEffecter _ => true
  | .getStateEffecterStates _ => true
  | .setEventReceiver _ _ => true
  | .pollForPlatformEventMessage => true
  | .queryDeviceIdentifiers => true
  | .getFirmwareParameters => true
  | .requestUpdate => true
  | .passComponentTable _ => true
  | .updateComponent _ _ => true
  | .requestFirmwareData _ _ => true
  | .transferComplete => true
  | .verifyComplete => true
  | .applyComplete => true
  | .activateFirmware _ _ => true
  | .getStatus => true
  | .cancelUpdateComponent => true
  | .cancelUpdate => true
  | .updateIdleTimeout => true
  | .spdmGetVersion transport => decide (transport < 3)
  | .spdmGetCapabilities transport => decide (transport < 3)
  | .spdmNegotiateAlgorithms transport _ _ => decide (transport < 3)
  | .spdmGetDigests transport => decide (transport < 3)
  | .spdmGetCertificate transport _ _ _ => decide (transport < 3)
  | .spdmChallenge transport _ _ => decide (transport < 3)
  | .spdmGetMeasurements transport _ _ => decide (transport < 3)
  | .supervisorReadByte _ => true
  | .testLogicReset => true
  | .idcode tap => decide (tap < 16)
  | .samplePreload tap _ _ => decide (tap < 16)
  | .extest tap => decide (tap < 16)
  | .extestPulse tap => decide (tap < 16)
  | .extestTrain tap => decide (tap < 16)
  | .clamp tap => decide (tap < 16)
  | .highz tap => decide (tap < 16)
  | .bypass tap _ => decide (tap < 16)
  | .operatorLibraryCall _ _ _ _ _ => true
  | .stewardCoreAccess core _ _ _ => decide (core < 64)
  | .stewardCoreException core => decide (core < 64)
  | .engineError frond unit => decide (frond < 84) && selfChecking unit
  | .standbyLost => true
  | .broadcastAnswerTimeout lb => decide (lb < 128)
  | .rackTimeSetTimeout => true
  | .transitionTimeout => true
  | .sensorUpdate _ => true
  | .correctableLinkError port kind => decide (port < 2) && decide (kind < 3)
  | .escapeDrainAlarm die => isDie die
  | .laserFailure port lane => decide (port < 96) && decide (lane < 4) && portClass port == 2

end Sys2Proof
end

