-- ==== Sys2Proof/Safety.lean ====
section
/-! DEFINITION. What claims about the module are made of: a command completes, a letterbox command answers, a step keeps a
property, the memory is in its one canonical form, the power ladder stands at one of its states. -/

namespace Sys2Proof.Safety

open Sys2Proof.Machine

/-- The command runs to a next state that satisfies `Q`. -/
def Gives (i : Instr) (s : State) (Q : State → Prop) : Prop := ∃ t, exec i s = .next t ∧ Q t

/-- Every step from a state with the property leads to a state with it. -/
def StepKeeps (P : State → Prop) : Prop := ∀ s t, P s → step s = .next t → P t

/-- The memory lists rising addresses, none with what an unlisted address reads as (R384). -/
def CanonicalMemory (s : State) : Prop := s.mem.wf = true

/-- The ladder stands at none of its states yet, or at one of P0 to P4 (R45). -/
def LegalLadder (s : State) : Prop := ∀ p, s.power.state = some p → p ≤ 4

/-- The journal holds at most 57,344 records, at rising indexes below the next one (R405, R406). -/
def OrderedJournal (s : State) : Prop :=
  s.post.journal.recs.length ≤ 57344 ∧ (∀ r ∈ s.post.journal.recs, r.index < s.post.journal.next)
    ∧ s.post.journal.recs.Pairwise fun a b => a.index < b.index

/-! ### Whose rows may change what -/

/-- Rows that clear the module: power-up's self-test steps, which a lowered ENABLE ends, the resets and the shutdown (R73, R77, R402). -/
def clearsModule : Instr → Bool
  | .coldReset | .selftestWave _ | .selftestRetryPass _ | .powerupVerdict _ | .phaseCTimeout | .moduleReset _ | .resetEffecter _
  | .shutdownPowerOff _ => true
  | _ => false

/-- Firmware activations (R126, R421). -/
def mayActivate : Instr → Bool
  | .fwActivateAtReset _ | .fwActivateLive _ _ _ | .activateFirmware _ _ => true
  | _ => false

/-- KEY_LOAD, KEY_CLEAR and the end of a replaced key's phase (R193–R195, R198). -/
def mayChangeKeys : Instr → Bool
  | .keyLoad _ | .keyClear _ | .linkKeyPhaseExpiry _ => true
  | _ => false

def mayChangeRouteSets : Instr → Bool
  | .routeSetDefine _ => true
  | _ => false

def mayChangeContexts : Instr → Bool
  | .ctxCreate _ | .ctxDestroy _ | .ctxSetRoot _ => true
  | _ => false

def mayChangeLimit : Instr → Bool
  | .deflectLimit _ => true
  | _ => false

/-- The ladder's own steps (R46–R51, R74) and what takes a module off it (R23, R402, R403). -/
def movesLadder : Instr → Bool
  | .inputPowerUp _ _ _ | .inputUndervoltage _ | .governorTransition | .entryLaunchesEnded | .entryInflightZero | .exitSequence
  | .busBarInputFail _ | .cooldownExpiry _ => true
  | _ => false

/-- The TAP's instructions (R424, R425). -/
def movesTap : Instr → Bool
  | .testLogicReset | .idcode _ | .samplePreload _ _ _ | .extest _ | .extestPulse _ | .extestTrain _ | .clamp _ | .highz _
  | .bypass _ _ => true
  | _ => false

/-! ### Stored bytes -/

/-- Cell `a` is one that a store of `n` bytes at an offset of a unit changes: a byte of the range, or of a 64-byte unit of it in an
encrypted granule (R196). -/
abbrev storesRange (s : State) (pc : Postcode) (off n a : Nat) : Prop :=
  ∃ i < n, memKey pc (off + i) = a ∨ ((restKey s pc (off + i)).isSome = true
    ∧ memKey pc ((off + i) / 64 * 64) ≤ a ∧ a < memKey pc ((off + i) / 64 * 64) + 64)

/-- Cell `a` is one that a write or atomic packet stores to. -/
abbrev storesAt (s : State) (p : Pkt) (a : Nat) : Prop := storesRange s p.dest (touched p).1 (touched p).2 a

/-! ### Letterbox commands (R111–R118) -/

/-- The command on a letterbox has been started (R118), has not acted yet, and is neither aborted nor thrown away by an FLR. -/
abbrev Started (s : State) (lb op : Nat) : Prop :=
  lb < 128 ∧ (lbOf s lb).state = .running ∧ (lbOf s lb).phase = .fresh ∧ cmdOpcode (lbOf s lb) = op
    ∧ (lbOf s lb).discard = false ∧ (lbOf s lb).abort = false

/-- A started command has acted, and a later event ends it. -/
abbrev Waits (s : State) (lb op : Nat) : Prop :=
  lb < 128 ∧ (lbOf s lb).state = .running ∧ (lbOf s lb).phase = .waiting ∧ cmdOpcode (lbOf s lb) = op
    ∧ (lbOf s lb).discard = false ∧ (lbOf s lb).abort = false

/-- Argument `i` of the command on a letterbox (R114, R123). -/
def argOf (s : State) (lb op i : Nat) : Nat := arg op (cmdArgs (lbOf s lb)) i

/-- The error code in a letterbox's result frame (R114, R122). -/
def resultCode (s : State) (lb : Nat) : Nat := leNat (tabBytes (lbOf s lb).res 2 2)

/-- The first `n` bytes of a letterbox's result data (R114). -/
def resultData (s : State) (lb n : Nat) : List Byte := tabBytes (lbOf s lb).res 16 n

/-- The letterbox holds a result with this error code: Done and result-ready (R111, R113). -/
abbrev Posted (t : State) (lb e : Nat) : Prop :=
  (lbOf t lb).state = .done ∧ (lbOf t lb).ready = true ∧ resultCode t lb = e

/-- The command runs, its letterbox then holds a result with this error code, and `Q` holds. -/
def Answers (i : Instr) (lb e : Nat) (s : State) (Q : State → Prop) : Prop :=
  Gives i s fun t => Posted t lb e ∧ Q t

end Sys2Proof.Safety
end

