-- ==== Sys2Proof/Certificates/Slice0/Obligations.lean ====
section
/-! DEFINITION. The statements about the module. Rows of the table are grouped by family: a completion statement says, for each
row of its family, on what states and operands the command runs and what it then leaves. -/

open Sys2Proof Sys2Proof.Machine Sys2Proof.Safety

/-- The letterbox registers act. A doorbell in Idle accepts the command in its order, an abort of an accepted command posts the result aborted, a clear of result-ready returns Done to Idle, a write of the command frame in Idle stores its bytes, and an accepted command that may start and whose frame passes its checks runs. -/
def Obligations.LetterboxRowsComplete : Prop :=
  (∀ (s : State) (lb value : Nat), lb < 128 → barOpen s lb = true → bit value 0 = true → (lbOf s lb).state = .idle → Gives (.lbDoorbell lb value) s fun t => (lbOf t lb).state = .accepted ∧ (lbOf t lb).order = s.post.nextOrder ∧ t.post.nextOrder = s.post.nextOrder + 1)
  ∧ (∀ (s : State) (lb value : Nat), lb < 128 → barOpen s lb = true → bit value 0 = true → (lbOf s lb).state = .accepted → (lbOf s lb).discard = false → Gives (.lbAbort lb value) s fun t => Posted t lb eAborted)
  ∧ (∀ (s : State) (lb value : Nat), lb < 128 → barOpen s lb = true → bit value 0 = true → (lbOf s lb).state = .done → Gives (.lbResultClear lb value false) s fun t => (lbOf t lb).state = .idle ∧ (lbOf t lb).ready = false)
  ∧ (∀ (s : State) (lb offset size value : Nat), lb < 128 → barOpen s lb = true → (size = 4 ∨ size = 8) → offset % size = 0 → offset + size ≤ 1792 → (lbOf s lb).state = .idle → Gives (.lbFrameWrite lb offset size value) s fun t => (lbOf t lb).cmd = putTab (lbOf s lb).cmd offset (leBytes size value))
  ∧ (∀ (s : State) (lb : Nat), lb < 128 → mayStartCmd s lb = true → frameCheck s lb = none → Gives (.commandStart lb) s fun t => (lbOf t lb).state = .running ∧ (lbOf t lb).phase = .fresh ∧ (lbOf t lb).startedAt = s.time.rackTime)

/-- The module and function commands answer. Started, NOP answers with no data and changes no ring, packet or memory; GET_VERSION and GET_MODULE_INFO answer with their fields; FN_SET_QUOTA within the pools answers and sets the three quotas; FN_QUERY of an enabled function by PF0 answers. -/
def Obligations.ModuleCommandsComplete : Prop :=
  (∀ (s : State) (lb : Nat), Started s lb 0x0001 → Answers (.nop lb) lb 0 s fun t => t.rings = s.rings ∧ t.fabric = s.fabric ∧ t.mem = s.mem ∧ t.power = s.power)
  ∧ (∀ (s : State) (lb : Nat), Started s lb 0x0002 → Answers (.getVersion lb) lb 0 s fun t => resultData t lb (versionBytes s).length = versionBytes s)
  ∧ (∀ (s : State) (lb : Nat), Started s lb 0x0003 → Answers (.getModuleInfo lb) lb 0 s fun t => resultData t lb (infoBytes s).length = infoBytes s)
  ∧ (∀ (s : State) (lb k : Nat), Started s lb 0x0004 → k = lb / 64 * 64 + argOf s lb 4 0 → quotaSum s k Fn.quotaRings + argOf s lb 4 1 ≤ 1024 → quotaSum s k Fn.quotaContexts + argOf s lb 4 2 ≤ 4096 → argOf s lb 4 3 ≤ 4096 → Answers (.fnSetQuota lb) lb 0 s fun t => (fnOf t k).quotaRings = argOf s lb 4 1 ∧ (fnOf t k).quotaContexts = argOf s lb 4 2 ∧ (fnOf t k).quotaClaims = argOf s lb 4 3)
  ∧ (∀ (s : State) (lb n : Nat), Started s lb 0x0005 → lb % 64 = 0 → n = argOf s lb 5 0 → 1 ≤ n → n ≤ 63 → fnEnabled s (lb + n) = true → Answers (.fnQuery lb) lb 0 s fun t => resultData t lb 16 = pack [u16 (ringQuota s (lb + n)), u16 (ringsHeldBy s (lb + n)), u16 (contextQuota s (lb + n)), u16 (contextsOf s (lb + n)), u16 (claimQuota s (lb + n)), u16 (claimsOf s (lb + n)), u16 1, u16 1])

/-- The ring commands answer. On rings that the requester owns and in the states R135 gives, each ring command answers with code 0 and leaves the ring as R39, R135, R136, R137, R155 and R160 say; RING_STOP of a live ring leaves it stopped. -/
def Obligations.RingCommandsComplete : Prop :=
  (∀ (s : State) (lb n : Nat) (free : List Nat), Started s lb 0x0101 → n = argOf s lb 0x0101 0 → argOf s lb 0x0101 1 = 0xFF → (free = ((List.range 1024).filter fun r => (ringOf s r).state == .free && dieUp s (96 + r / 64)).take n) → free.length = n → ringsHeldBy s lb + n ≤ ringQuota s lb → Answers (.ringAlloc lb) lb 0 s fun t => ∀ r ∈ free, (ringOf t r).state = .allocated ∧ (ringOf t r).owner = lb)
  ∧ (∀ (s : State) (lb r : Nat), Started s lb 0x0102 → r = argOf s lb 0x0102 0 → ownRing s (some lb) r = true → ringLive (ringOf s r).state = false → Answers (.ringFree lb) lb 0 s fun t => ringOf t r = {})
  ∧ (∀ (s : State) (lb r k : Nat), Started s lb 0x0103 → r = argOf s lb 0x0103 0 → k = lb / 64 * 64 + argOf s lb 0x0103 1 → r < 1024 → (ringOf s r).state ≠ .free → (ringOf s r).owner / 64 = lb / 64 → fnEnabled s k = true → (argOf s lb 0x0103 3 = 0xFFFF ∨ (argOf s lb 0x0103 3 ≠ 0 ∧ argOf s lb 0x0103 3 < vectorCount k)) → ringLive (ringOf s r).state = false → (k % 64 = 0 ∨ (s.rings.any fun e => e.1 != r && e.2.state != .free && e.2.owner == k && e.2.slot == argOf s lb 0x0103 2) = false) → ((ringOf s r).ctx = 0 ∨ (fnOf s k).pasid = true) → Answers (.ringBind lb) lb 0 s fun t => (ringOf t r).owner = k ∧ (ringOf t r).slot = argOf s lb 0x0103 2 ∧ (ringOf t r).vector = argOf s lb 0x0103 3)
  ∧ (∀ (s : State) (lb r : Nat) (c : Ctx), Started s lb 0x0104 → r = argOf s lb 0x0104 0 → ownRing s (some lb) r = true → ((ringOf s r).state = .allocated ∨ (ringOf s r).state = .stopped) → argOf s lb 0x0104 5 ≠ 0 → argOf s lb 0x0104 6 % 4096 = 0 → argOf s lb 0x0104 6 < 2 ^ 57 → argOf s lb 0x0104 7 % 64 = 0 → argOf s lb 0x0104 7 < 2 ^ 57 → tfind s.xlat.ctxs (argOf s lb 0x0104 3) = some c → c.owner = (ringOf s r).owner → (argOf s lb 0x0104 3 = 0 ∨ (fnOf s c.owner).pasid = true) → Answers (.ringConfig lb) lb 0 s fun t => (ringOf t r).state = .stopped ∧ (ringOf t r).mode = argOf s lb 0x0104 1 ∧ (ringOf t r).key = argOf s lb 0x0104 2 ∧ (ringOf t r).ctx = argOf s lb 0x0104 3 ∧ (ringOf t r).entries = argOf s lb 0x0104 4 ∧ (ringOf t r).cqEntries = argOf s lb 0x0104 5 ∧ (ringOf t r).base = argOf s lb 0x0104 6 ∧ (ringOf t r).cqBase = argOf s lb 0x0104 7 ∧ (ringOf t r).head = 0 ∧ (ringOf t r).tail = 0 ∧ (ringOf t r).modCount = 1 ∧ (ringOf t r).modTime = 0)
  ∧ (∀ (s : State) (lb r : Nat), Started s lb 0x0105 → r = argOf s lb 0x0105 0 → ownRing s (some lb) r = true → Answers (.ringSetPhysical lb) lb 0 s fun t => (ringOf t r).physical = (argOf s lb 0x0105 1 == 1))
  ∧ (∀ (s : State) (lb r : Nat), Started s lb 0x0106 → r = argOf s lb 0x0106 0 → ownRing s (some lb) r = true → ((ringOf s r).state = .stopped ∨ (ringOf s r).state = .error) → (tfind s.xlat.ctxs (ringOf s r).ctx).isSome = true → Answers (.ringStart lb) lb 0 s fun t => ((ringOf t r).state = .running ∨ (ringOf t r).state = .held) ∧ (ringOf t r).reason = 0)
  ∧ (∀ (s : State) (lb r : Nat), Started s lb 0x0107 → r = argOf s lb 0x0107 0 → ownRing s (some lb) r = true → ringLive (ringOf s r).state = true → Gives (.ringStop lb) s fun t => (ringOf t r).state = .stopped ∧ (ringOf t r).head = (ringOf s r).head ∧ (ringOf t r).started = (ringOf s r).started)
  ∧ (∀ (s : State) (lb r : Nat) (d : List Byte), Started s lb 0x0108 → r = argOf s lb 0x0108 0 → ownRing s (some lb) r = true → d = pack [u8 (ringCode (ringOf s r).state), u32 (ringOf s r).head, u32 (ringOf s r).tail, u32 (ringOf s r).cqWritten, u32 (heldCount (ringOf s r))] → Answers (.ringQuery lb) lb 0 s fun t => resultData t lb 20 = d ∧ t.rings = s.rings)
  ∧ (∀ (s : State) (lb r k : Nat), Started s lb 0x0109 → r = argOf s lb 0x0109 0 → k = destKey (BitVec.ofNat 32 (argOf s lb 0x0109 1)) → ownRing s (some lb) r = true → (runOf (ringOf s r) k).lost = true → (ringOf s r).started = [] → Answers (.ringAckLoss lb) lb 0 s fun t => (runOf (ringOf t r) k).lost = false ∧ (runOf (ringOf t r) k).run = ((runOf (ringOf s r) k).run + 1) % 32 ∧ (runOf (ringOf t r) k).sent = 0)
  ∧ (∀ (s : State) (lb r : Nat), Started s lb 0x010A → r = argOf s lb 0x010A 0 → ownRing s (some lb) r = true → Answers (.ringModerate lb) lb 0 s fun t => (ringOf t r).modCount = argOf s lb 0x010A 1 ∧ (ringOf t r).modTime = argOf s lb 0x010A 2)

/-- The translation and protection commands answer. With the requester's own contexts, the context commands register, remove and re-root contexts; an invalidation with no walk, pin, read or issuing descriptor outstanding answers and leaves no cached leaf of the range; TABLE_SYNC leaves no mirror line of the context; a broadcast waits for its targets; PIN_RANGE begins a walk of its first page; UNPIN_RANGE answers; keys are loaded and cleared; hot-page counting is configured on a ring that was never started. -/
def Obligations.TranslationCommandsComplete : Prop :=
  (∀ (s : State) (lb c : Nat), Started s lb 0x0201 → c = argOf s lb 0x0201 0 → argOf s lb 0x0201 1 % 4096 = 0 → argOf s lb 0x0201 1 < 2 ^ 58 → tfind s.xlat.ctxs c = none → s.xlat.ctxs.length < 4096 → contextsOf s lb < contextQuota s lb → Answers (.ctxCreate lb) lb 0 s fun t => tfind t.xlat.ctxs c = some { owner := lb, root := argOf s lb 0x0201 1 })
  ∧ (∀ (s : State) (lb c : Nat), Started s lb 0x0202 → c = argOf s lb 0x0202 0 → ownCtx s (some lb) c = true → ringsUseCtx s c = false → Answers (.ctxDestroy lb) lb 0 s fun t => tfind t.xlat.ctxs c = none)
  ∧ (∀ (s : State) (lb c : Nat), Started s lb 0x0203 → c = argOf s lb 0x0203 0 → ownCtx s (some lb) c = true → argOf s lb 0x0203 1 % 4096 = 0 → argOf s lb 0x0203 1 < 2 ^ 58 → ((s.xlat.units.all fun e => e.2.walks.isEmpty) = true) → s.xlat.waits = [] → s.xlat.pins = [] → readsUnder s c true = [] → issuersUnder s c 0 0 = [] → Answers (.ctxSetRoot lb) lb 0 s fun t => (tget {} t.xlat.ctxs c).root = argOf s lb 0x0203 1 ∧ ∀ d, (∀ l ∈ (unitOf t d).tlb, l.ctx ≠ c) ∧ ∀ l ∈ (unitOf t d).mirror, l.ctx ≠ c)
  ∧ (∀ (s : State) (lb c : Nat), Started s lb 0x0204 → c = argOf s lb 0x0204 0 → ownCtx s (some lb) c = true → ((s.xlat.units.all fun e => e.2.walks.isEmpty) = true) → s.xlat.waits = [] → s.xlat.pins = [] → readsUnder s c true = [] → issuersUnder s c (argOf s lb 0x0204 1) (argOf s lb 0x0204 2) = [] → Answers (.tlbInvalidate lb) lb 0 s fun t => ∀ d, ∀ l ∈ (unitOf t d).tlb, l.ctx = c → overlaps (argOf s lb 0x0204 1) (argOf s lb 0x0204 2) l.va l.size = false)
  ∧ (∀ (s : State) (lb c : Nat) (ts : List Nat), Started s lb 0x0205 → c = argOf s lb 0x0205 0 → ownCtx s (some lb) c = true → ((s.xlat.units.all fun e => e.2.walks.isEmpty) = true) → s.xlat.waits = [] → s.xlat.pins = [] → readsUnder s c true = [] → issuersUnder s c (argOf s lb 0x0205 3) (argOf s lb 0x0205 4) = [] → argOf s lb 0x0205 1 = 2 → (ts = broadcastTargets s 2 ((List.range (argOf s lb 0x0205 2)).map fun i => argOf s lb 0x0205 (5 + i))) → ts ≠ [] → Gives (.tlbInvalidateBcast lb) s fun t => (lbOf t lb).state = .running ∧ (lbOf t lb).phase = .waiting ∧ (lbOf t lb).waitingFor = ts)
  ∧ (∀ (s : State) (lb c : Nat), Started s lb 0x0206 → c = argOf s lb 0x0206 0 → ownCtx s (some lb) c = true → ((s.xlat.units.all fun e => e.2.walks.isEmpty) = true) → s.xlat.waits = [] → s.xlat.pins = [] → readsUnder s c true = [] → Answers (.tableSync lb) lb 0 s fun t => ∀ d, ∀ l ∈ (unitOf t d).mirror, l.ctx ≠ c)
  ∧ (∀ (s : State) (lb c va : Nat), Started s lb 0x0207 → c = argOf s lb 0x0207 0 → va = argOf s lb 0x0207 1 → ownCtx s (some lb) c = true → va + argOf s lb 0x0207 2 ≤ 2 ^ 57 → 0 < argOf s lb 0x0207 2 → (unitOf s (postUnit s)).walks = [] → Gives (.pinRange lb) s fun t => (lbOf t lb).phase = .waiting ∧ (unitOf t (postUnit s)).walks = [((unitOf s (postUnit s)).nextWalk, { ctx := c, va := va, level := 4, table := (tget {} s.xlat.ctxs c).root, requesters := [.pin lb] })])
  ∧ (∀ (s : State) (lb c : Nat) (ps : List Pin), Started s lb 0x0208 → c = argOf s lb 0x0208 0 → ownCtx s (some lb) c = true → (ps = s.xlat.pins.filter fun p => p.ctx == c && p.programmed.isNone && decide (0 < argOf s lb 0x0208 2 ∧ argOf s lb 0x0208 1 < p.va + p.size ∧ p.va < argOf s lb 0x0208 1 + argOf s lb 0x0208 2)) → Answers (.unpinRange lb) lb 0 s fun t => resultData t lb 4 = leBytes 4 ps.length ∧ t.xlat.pins = (updates ps (fun p s => unpinPage c p.va s) s).xlat.pins)
  ∧ (∀ (s : State) (lb k : Nat), Started s lb 0x0209 → k = argOf s lb 0x0209 0 → slotBound s k = false → Gives (.keyLoad lb) s fun t => (tfind t.fabric.keys k).map KeySlot.key = some (((cmdArgs (lbOf s lb)).drop 3).take 64) ∧ (lbOf t lb).cmd = [] ∧ (lbOf t lb).state = .done)
  ∧ (∀ (s : State) (lb k : Nat), Started s lb 0x020A → k = argOf s lb 0x020A 0 → 1 ≤ k → k < 224 → slotBound s k = false → Answers (.keyClear lb) lb 0 s fun t => tfind t.fabric.keys k = none)
  ∧ (∀ (s : State) (lb r c : Nat), Started s lb 0x020B → r = argOf s lb 0x020B 0 → c = argOf s lb 0x020B 2 → ownRing s (some lb) r = true → ownCtx s (some lb) c = true → (ringOf s r).state = .stopped → (ringOf s r).ran = false → Answers (.hotpageConfig lb) lb 0 s fun t => (t.xlat.hot.filter fun h => h.owner == lb && h.ctx == c) = [{ owner := lb, ctx := c, ring := r, windowMs := argOf s lb 0x020B 1, threshold := argOf s lb 0x020B 3 }])

/-- The test access ports act. Powered, a TAP reset selects IDCODE in every TAP; IDCODE, SAMPLE/PRELOAD and BYPASS load their instruction and put their register on the chain; in P4 the boundary instructions drive the pins. -/
def Obligations.TestPortRowsComplete : Prop :=
  (∀ (s : State) (tap : Nat), testPowered s = true → tap < 16 → Gives .testLogicReset s fun t => (tapOf t tap).instruction = 1)
  ∧ (∀ (s : State) (tap : Nat), tap < 16 → testPowered s = true → Gives (.idcode tap) s fun t => t.out = s.out ++ [.jtag tap 1 0x1B4A10BB] ∧ (tapOf t tap).instruction = 1)
  ∧ (∀ (s : State) (tap : Nat) (pins preload : BitVec 64), tap < 16 → testPowered s = true → Gives (.samplePreload tap pins preload) s fun t => t.out = s.out ++ [.jtag tap 2 pins] ∧ (tapOf t tap).boundary = preload)
  ∧ (∀ (s : State) (tap : Nat), tap < 16 → boundaryActs s 3 = true → Gives (.extest tap) s fun t => t.out = s.out ++ [.jtag tap 2 (tapOf s tap).boundary] ∧ pinsDriven t tap = 3)
  ∧ (∀ (s : State) (tap : Nat), tap < 16 → boundaryActs s 4 = true → Gives (.extestPulse tap) s fun t => t.out = s.out ++ [.jtag tap 2 (tapOf s tap).boundary] ∧ pinsDriven t tap = 4)
  ∧ (∀ (s : State) (tap : Nat), tap < 16 → boundaryActs s 5 = true → Gives (.extestTrain tap) s fun t => t.out = s.out ++ [.jtag tap 2 (tapOf s tap).boundary] ∧ pinsDriven t tap = 5)
  ∧ (∀ (s : State) (tap : Nat), tap < 16 → boundaryActs s 6 = true → Gives (.clamp tap) s fun t => t.out = s.out ++ [.jtag tap 0 0] ∧ pinsDriven t tap = 6)
  ∧ (∀ (s : State) (tap : Nat), tap < 16 → boundaryActs s 7 = true → Gives (.highz tap) s fun t => t.out = s.out ++ [.jtag tap 0 0] ∧ pinsDriven t tap = 7)
  ∧ (∀ (s : State) (tap code : Nat), tap < 16 → testPowered s = true → code < 256 → (code = 0 ∨ 8 ≤ code) → Gives (.bypass tap code) s fun t => t.out = s.out ++ [.jtag tap 0 0] ∧ (tapOf t tap).instruction = code)

/-- The management bus and MCTP control messages act. SETDASA and ENTDAA assign the dynamic address and put the bus in I3C mode, RSTDAA takes it back, a held bus is journalled; each MCTP control request to the endpoint is answered; a vendor-defined message is answered with a result frame. -/
def Obligations.BusRowsComplete : Prop :=
  (∀ (s : State) (address : Nat), mgmtUp s = true → address < 128 → Gives (.setdasa address) s fun t => t.mgmt.i3c = true ∧ t.mgmt.dynamic = address)
  ∧ (∀ (s : State) (address : Nat), mgmtUp s = true → address < 128 → s.mgmt.i3c = false → Gives (.entdaa address) s fun t => t.mgmt.i3c = true ∧ t.mgmt.dynamic = address)
  ∧ (∀ (s : State), mgmtUp s = true → Gives .rstdaa s fun t => t.mgmt.i3c = false ∧ t.mgmt.dynamic = 0)
  ∧ (∀ (s : State), mgmtUp s = true → Gives .busHeldLow s fun t => t.post.journal.next = s.post.journal.next + 1 ∧ t.mgmt.i3c = s.mgmt.i3c)
  ∧ (∀ (s : State) (operation eid : Nat), mgmtUp s = true → operation ≤ 1 → 8 ≤ eid → eid ≤ 254 → Gives (.mctpSetEndpointId operation eid) s fun t => t.mgmt.eid = eid ∧ t.out = s.out ++ [.mctp 0 1 (leBytes 1 0 ++ (leBytes 1 0 ++ (leBytes 1 eid ++ leBytes 1 0)))])
  ∧ (∀ (s : State) (dest : Nat), controlAnswers s dest = true → Gives (.mctpGetEndpointId dest) s fun t => t = mctpReply 0 2 [u8 0, u8 s.mgmt.eid, u8 0, u8 0] s)
  ∧ (∀ (s : State) (dest : Nat), controlAnswers s dest = true → Gives (.mctpGetEndpointUuid dest) s fun t => t = mctpReply 0 3 [u8 0, ⟨16, Config.endpointUuid⟩] s)
  ∧ (∀ (s : State) (dest ty : Nat), controlAnswers s dest = true → (ty = 0xFF ∨ ty ∈ mctpTypes) → Gives (.mctpGetVersionSupport dest ty) s fun t => t = mctpReply 0 4 [u8 0, u8 1, u32 (Config.mctpVersion ty)] s)
  ∧ (∀ (s : State) (dest : Nat), controlAnswers s dest = true → Gives (.mctpGetMessageTypeSupport dest) s fun t => t = mctpReply 0 5 [u8 0, u8 4, u8 0, u8 1, u8 5, u8 0x7E] s)
  ∧ (∀ (s : State) (dest : Nat), controlAnswers s dest = true → Gives (.mctpGetVendorMsgSupport dest 0) s fun t => t = mctpReply 0 6 [u8 0, u8 0xFF, u8 0, u16 0x1D7F] s)
  ∧ (∀ (s : State) (tag : Nat), endpointReady s = true → tag < 2 ^ 32 → Gives (.vendorDefinedMessage (leBytes 2 3 ++ leBytes 2 0 ++ leBytes 4 tag ++ leBytes 8 0) true) s fun t => t = emit (.mctp 0x7E 0 (resultFrame 3 0 tag false 0 (infoBytes s))) s)

/-- PLDM monitoring and control requests complete. On an endpoint with an ID: a GET_PDR handle within the repository, GET_PDR_REPOSITORY_INFO, a reading of a numeric or state sensor that exists and a query of any of the four effecters are answered with their fields; SET_TID stores an ID of 1 to 254; SET_EVENT_RECEIVER sets or clears the receiver and keeps the queued events; a poll answers the oldest event and removes it, or answers that there is none; effecter 0x0500 holds a power request for each of its values 0 to 6, effecter 0x0502 resets the module in service and waits for the wave's end during self-test, effecter 0x0503 arms or disarms the safe state, and effecter 0x0504 clears the latch when every die is cool and else leaves it. SENSOR_UPDATE stores the present reading of every numeric and state sensor. -/
def Obligations.MonitoringRowsComplete : Prop :=
  (∀ (s : State) (handle id : Nat), endpointReady s = true → numericIds[max handle 1 - 1]? = some id → Gives (.getPdr handle) s fun t => t = pldmReply 0x51 0 ([u32 (if max handle 1 < numericIds.length then max handle 1 + 1 else 0), u32 (max handle 1)] ++ pdrFields id) s)
  ∧ (∀ (s : State), endpointReady s = true → Gives .getPdrRepositoryInfo s fun t => t = pldmReply 0x50 0 [u8 0, u32 numericIds.length] s)
  ∧ (∀ (s : State) (sensor : Nat), endpointReady s = true → numericSensor sensor = true → Gives (.getSensorReading sensor) s fun t => t = pldmReply 0x11 0 [u8 (tget ((0, 1) : Reading) s.mgmt.mirror sensor).2, u32 ((tget ((0, 1) : Reading) s.mgmt.mirror sensor).1 % 2 ^ 32).toNat] s)
  ∧ (∀ (s : State) (sensor : Nat), endpointReady s = true → stateSensor sensor = true → Gives (.getStateSensorReadings sensor) s fun t => t = pldmReply 0x21 0 [u8 1, u8 0, u8 (stateReading s sensor)] s)
  ∧ (∀ (s : State) (effecter v : Nat), endpointReady s = true → ((effecter = 0x500 ∧ v = s.mgmt.effPower) ∨ (effecter = 0x502 ∧ v = s.mgmt.effReset) ∨ (effecter = 0x503 ∧ v = b2n s.power.safeArmed) ∨ (effecter = 0x504 ∧ v = s.mgmt.effLatch)) → Gives (.getStateEffecterStates effecter) s fun t => t = pldmReply 0x3A 0 [u8 1, u8 v, u8 v] s)
  ∧ (∀ (s : State) (tid : Nat), endpointReady s = true → 1 ≤ tid → tid < 0xFF → Gives (.setTid tid) s fun t => t.mgmt.tid = tid ∧ t.out = s.out ++ [.mctp 1 1 (leBytes 1 0)])
  ∧ (∀ (s : State) (enable : Bool) (eid : Nat), endpointReady s = true → Gives (.setEventReceiver enable eid) s fun t => t.mgmt.receiver = (if enable then some eid else none) ∧ t.mgmt.events = s.mgmt.events ∧ t.out = s.out ++ [.mctp 1 4 (leBytes 1 0)])
  ∧ (∀ (s : State), endpointReady s = true → Gives .pollForPlatformEventMessage s fun t => (∀ e rest, s.mgmt.events = e :: rest → t.mgmt.events = rest ∧ t.out = s.out ++ [.mctp 1 0x0B (pack [u8 0, u8 1] ++ e)]) ∧ (s.mgmt.events = [] → t = pldmReply 0x0B 0 [u8 0] s))
  ∧ (∀ (s : State) (value target : Nat), endpointReady s = true → value ≤ 6 → (target = (if value = 5 then 3 else if value = 6 then 4 else value)) → inSafe s = false → requestError s target = none → Gives (.powerStateEffecter value) s fun t => t.mgmt.effPower = value ∧ t.power.pending = some { target := target, release := decide (5 ≤ value), waitMs := 10, source := .pldm } ∧ t.power.state = s.power.state)
  ∧ (∀ (s : State), endpointReady s = true → (s.power.boot = .serving ∨ s.power.boot = .safe) → Gives (.resetEffecter 1) s fun t => t.mgmt.effReset = 1 ∧ t.power.boot = .standby ∧ t.power.state = some 4 ∧ t.rings = [] ∧ t.post.lbs = [] ∧ t.mem = {} ∧ t.xlat = {})
  ∧ (∀ (s : State) (n : Nat), endpointReady s = true → (s.power.boot = .waves n ∨ s.power.boot = .retried) → Gives (.resetEffecter 1) s fun t => t.mgmt.effReset = 1 ∧ t.power.resetPending = true ∧ t.power.boot = s.power.boot ∧ t.rings = s.rings ∧ t.mem = s.mem)
  ∧ (∀ (s : State) (value : Nat), endpointReady s = true → value ≤ 1 → Gives (.safeStateEffecter value) s fun t => t.power.safeArmed = (value == 1) ∧ t.out = s.out ++ [.mctp 1 0x39 (leBytes 1 0)])
  ∧ (∀ (s : State), endpointReady s = true → Gives (.latchClearEffecter 1) s fun t => t.mgmt.effLatch = 1 ∧ t.out = s.out ++ [.mctp 1 0x39 (leBytes 1 0)] ∧ t.power.latch = (if allCool s then {} else s.power.latch) ∧ t.power.latchPending = (!allCool s && s.power.latchPending))
  ∧ (∀ (s : State) (readings : List (Nat × Int)), mgmtUp s = true → Gives (.sensorUpdate readings) s fun t => (∀ id ∈ numericIds, tget ((0, 1) : Reading) t.mgmt.mirror id = numericReading s readings id) ∧ ∀ id ∈ stateIds, tget 0 t.mgmt.stateLast id = stateReading s id ∧ tget ((0, 1) : Reading) t.mgmt.mirror id = ((stateReading s id : Int), 0))

/-- PLDM firmware update requests act. Each PLDM firmware request in the state of the update that it belongs to is answered and moves the update as R419 and R420 say. -/
def Obligations.UpdateRowsComplete : Prop :=
  (∀ (s : State), endpointReady s = true → Gives .queryDeviceIdentifiers s fun t => t = pldmReply 0x01 0 [u8 2, u16 0, u16 2, u16 0x1D7F, u16 0x100, u16 2, u16 0x4B01] s)
  ∧ (∀ (s : State), endpointReady s = true → Gives .getFirmwareParameters s fun t => t = pldmReply 0x02 0 (firmwareParameters s) s)
  ∧ (∀ (s : State), endpointReady s = true → s.mgmt.update = 0 → storeBusy s = false → Gives .requestUpdate s fun t => t.mgmt.update = 1 ∧ t.out = s.out ++ [.mctp 1 0x10 (leBytes 1 0)])
  ∧ (∀ (s : State), endpointReady s = true → s.mgmt.update = 1 → Gives (.passComponentTable 1) s fun t => t.mgmt.update = 2 ∧ t.out = s.out ++ [.mctp 1 0x13 (leBytes 1 0 ++ leBytes 1 0)])
  ∧ (∀ (s : State) (length : Nat), endpointReady s = true → s.mgmt.update = 2 → length ≤ firmwareMax → Gives (.updateComponent 1 length) s fun t => t.mgmt.update = 3 ∧ t.mgmt.updateLength = length ∧ t.mgmt.updateData = [])
  ∧ (∀ (s : State) (data : List Byte), endpointReady s = true → s.mgmt.update = 3 → s.mgmt.updateData.length < s.mgmt.updateLength → data.length = min 1024 (s.mgmt.updateLength - s.mgmt.updateData.length) → Gives (.requestFirmwareData data true) s fun t => t.mgmt.updateData = s.mgmt.updateData ++ data)
  ∧ (∀ (s : State), endpointReady s = true → s.mgmt.update = 3 → s.mgmt.updateLength ≤ s.mgmt.updateData.length → Gives .transferComplete s fun t => t.mgmt.update = 4 ∧ t.out = s.out ++ [.mctp 1 0x16 (leBytes 1 0)])
  ∧ (∀ (s : State), endpointReady s = true → s.mgmt.update = 4 → s.mgmt.updateResult = 0 → Gives .verifyComplete s fun t => t.mgmt.update = 5 ∧ t.out = s.out ++ [.mctp 1 0x17 (leBytes 1 0)])
  ∧ (∀ (s : State), endpointReady s = true → s.mgmt.update = 5 → Gives .applyComplete s fun t => t.mgmt.update = 2 ∧ t.out = s.out ++ [.mctp 1 0x18 (leBytes 1 0)])
  ∧ (∀ (s : State) (ok2 ok4 : Bool) (d : List Byte), endpointReady s = true → s.mgmt.update = 2 → verifiedImage s = some d → (s.post.standby = false ∨ handoverReady s none = true) → Gives (.activateFirmware ok2 ok4) s fun t => t.mgmt.update = 0)
  ∧ (∀ (s : State), endpointReady s = true → Gives .getStatus s fun t => t = pldmReply 0x1B 0 [u8 s.mgmt.update, u16 s.mgmt.updateResult, u32 s.mgmt.updateData.length] s)
  ∧ (∀ (s : State), endpointReady s = true → 3 ≤ s.mgmt.update → Gives .cancelUpdateComponent s fun t => t.mgmt.update = 2 ∧ t.mgmt.updateData = [])
  ∧ (∀ (s : State), endpointReady s = true → 3 ≤ s.mgmt.update → Gives .cancelUpdate s fun t => t.mgmt.update = 0 ∧ t.mgmt.updateData = [])
  ∧ (∀ (s : State), mgmtUp s = true → s.mgmt.update = 3 → Gives .updateIdleTimeout s fun t => t.mgmt.update = 0 ∧ t.mgmt.updateData = [])

/-- SPDM requests act. On an open transport and after the negotiation they need, SPDM requests are answered: the version request starts negotiation anew, capabilities and algorithms advance it, and digests, certificates, challenges and measurements answer with their content; a DOE discovery object is answered. -/
def Obligations.AttestationRowsComplete : Prop :=
  (∀ (s : State) (transport : Nat), transport < 3 → spdmOpen s transport = true → Gives (.spdmGetVersion transport) s fun t => spdmOf t transport = { negotiated := 1, resync := false })
  ∧ (∀ (s : State) (transport : Nat), transport < 3 → spdmOpen s transport = true → (spdmOf s transport).resync = false → 1 ≤ (spdmOf s transport).negotiated → Gives (.spdmGetCapabilities transport) s fun t => 2 ≤ (spdmOf t transport).negotiated)
  ∧ (∀ (s : State) (transport : Nat), transport < 3 → spdmOpen s transport = true → (spdmOf s transport).resync = false → 2 ≤ (spdmOf s transport).negotiated → Gives (.spdmNegotiateAlgorithms transport true true) s fun t => (spdmOf t transport).negotiated = 3)
  ∧ (∀ (s : State) (transport : Nat), transport < 3 → spdmOpen s transport = true → (spdmOf s transport).resync = false → 3 ≤ (spdmOf s transport).negotiated → Gives (.spdmGetDigests transport) s fun t => t = spdmReply transport 0x01 (leBytes 1 1 ++ chainDigest) s)
  ∧ (∀ (s : State) (transport : Nat) (offset length : Nat), transport < 3 → spdmOpen s transport = true → (spdmOf s transport).resync = false → 3 ≤ (spdmOf s transport).negotiated → offset ≤ Config.certificateChain.length → Gives (.spdmGetCertificate transport 0 offset length) s fun t => t = spdmReply transport 0x02 (leBytes 2 ((Config.certificateChain.drop offset).take length).length ++ leBytes 2 (Config.certificateChain.length - offset - ((Config.certificateChain.drop offset).take length).length) ++ (Config.certificateChain.drop offset).take length) s)
  ∧ (∀ (s : State) (transport : Nat) (nonce : List Byte), transport < 3 → spdmOpen s transport = true → (spdmOf s transport).resync = false → 3 ≤ (spdmOf s transport).negotiated → Gives (.spdmChallenge transport 0 nonce) s fun t => t = spdmSigned transport 0x03 nonce chainDigest s ∧ t.free = s.free + 1)
  ∧ (∀ (s : State) (transport : Nat) (index : Nat) (nonce : List Byte), transport < 3 → spdmOpen s transport = true → (spdmOf s transport).resync = false → 3 ≤ (spdmOf s transport).negotiated → 1 ≤ index → index ≤ 6 → Gives (.spdmGetMeasurements transport index nonce) s fun t => t = spdmSigned transport 0x60 nonce (leBytes 1 1 ++ measurement s index) s)
  ∧ (∀ (s : State) (port : Nat), port < 2 → spdmOpen s (port + 1) = true → Gives (.doeObject port 0 [0]) s fun t => t = emit (.doe port [1, 0, 0, 1]) s)

/-- Power-up, resets and self-test complete. The first input, with a management processor that starts, brings the module to P4 in standby with ENABLE at the level the operand gives, and without one leaves it unpowered; an undervoltage takes its input away; a cold reset does the same from no input with the board as free values give it, and clears what is volatile; the watchdogs raise ALERT; a rise of ENABLE is recorded and a fall asks for P4 in service and ends self-test otherwise; phase B starts the waves, each wave advances, the retry pass ends them, the verdict without a reason for the safe state opens service in P0, and the time-out of phase C opens the safe state with reason 5. -/
def Obligations.PowerUpRowsComplete : Prop :=
  (∀ (s : State) (a b : Bool) (board : BoardStart), s.power.boot = .unpowered → s.power.inA = false → s.power.inB = false → (a || b) = true → board.processorStarts = true → Gives (.inputPowerUp a b board) s fun t => t.power.boot = .standby ∧ t.power.state = some 4 ∧ t.power.inA = a ∧ t.power.inB = b ∧ t.power.enable = board.enableAbove ∧ t.power.mctpOpen = true ∧ t.power.alertSupervisor = !board.supervisorOk)
  ∧ (∀ (s : State) (a b : Bool) (board : BoardStart), s.power.boot = .unpowered → board.processorStarts = false → Gives (.inputPowerUp a b board) s fun t => t.power.boot = .unpowered ∧ t.power.inA = (s.power.inA || a) ∧ t.power.inB = (s.power.inB || b) ∧ t.power.mctpOpen = s.power.mctpOpen)
  ∧ (∀ (s : State) (input : Nat), input < 2 → postUp s = false → Gives (.inputUndervoltage input) s fun t => (if input = 0 then t.power.inA = false ∧ t.power.inB = s.power.inB else t.power.inB = false ∧ t.power.inA = s.power.inA))
  ∧ (∀ (s : State) (board : BoardStart), s.power.inA = false → s.power.inB = false → board = (freshBoard s).1 → Gives .coldReset s fun t => (if board.processorStarts then t.power.boot = .standby ∧ t.power.state = some 4 else t.power.boot = .unpowered) ∧ t.power.inA = true ∧ t.power.inB = true ∧ t.power.enable = board.enableAbove ∧ t.power.latch = {} ∧ t.rings = [] ∧ t.mem = {} ∧ t.time = {})
  ∧ (∀ (s : State), (s.power.inA || s.power.inB) = true → s.power.boot ≠ .shutdown → s.power.mctpOpen = false → Gives .mctpWatchdogExpiry s fun t => t.power.alertMctp = true)
  ∧ (∀ (s : State), postUp s = true → Gives .heartbeatWatchdogExpiry s fun t => t.power.alertHeartbeat = true)
  ∧ (∀ (s : State), s.power.enable = false → Gives .enableAssert s fun t => t.power.enable = true ∧ t.power.latchPending = false)
  ∧ (∀ (s : State) (n : Nat), s.power.enable = true → s.power.boot = .serving → s.power.state = some n → n ≠ 4 → Gives .enableDeassert s fun t => t.power.enable = false ∧ t.power.pending = some { target := 4, release := false, waitMs := 10, source := .enable })
  ∧ (∀ (s : State) (n : Nat), s.power.enable = true → (s.power.boot = .retried ∨ s.power.boot = .waves n) → Gives .enableDeassert s fun t => t.power.enable = false ∧ t.power.enableDropped = true ∧ t.power.boot = s.power.boot ∧ t.post.journal.next = s.post.journal.next + 1)
  ∧ (∀ (s : State) (r0 r8 : TestOutcome), s.power.boot = .standby → s.power.enable = true → s.power.latchPending = false → s.power.alertSupervisor = false → tapHolds s = false → s.power.inA = true → s.power.inB = true → Gives (.powerupPhaseB r0 r8) s fun t => t.power.boot = .waves 0)
  ∧ (∀ (s : State) (n : Nat) (rs : List TestResult), s.power.boot = .waves n → n < 9 → testStops s = none → Gives (.selftestWave rs) s fun t => t.power.boot = .waves (n + 1))
  ∧ (∀ (s : State) (rs : List TestResult), s.power.boot = .waves 9 → (untestedMembers s).isEmpty = false → testStops s = none → Gives (.selftestRetryPass rs) s fun t => t.power.boot = .retried)
  ∧ (∀ (s : State) (ok : Bool), (s.power.boot = .retried ∨ (s.power.boot = .waves 9 ∧ untestedMembers s = [])) → testStops s = none → s.power.inA = true → s.power.inB = true → (safeReason (selectedMap s).isNone (onMem (fun _ => {}) (writeFindings ok s)) = none) → Gives (.powerupVerdict ok) s fun t => t.power.boot = .serving ∧ t.power.state = some 0 ∧ t.power.ready = true)
  ∧ (∀ (s : State) (n : Nat), (s.power.boot = .retried ∨ s.power.boot = .waves n) → testStops s = none → Gives .phaseCTimeout s fun t => t.power.boot = .safe ∧ t.power.safeReason = 5 ∧ t.power.state = some 3 ∧ t.power.frondsOn = false)

/-- The power governor's rows complete. In service a pending request to a deeper state starts its entry with launches held; with no launch running or started and no load, step 3 enters P1 and holds the rings; with no descriptor running, step 4 hands on; with nothing in flight, step 7 enters P2 and ends a request for P2; a wait limit or a bound exceeded ends the request and returns the module to P0; an exit from P1 ends in P0; a budget update stores the budgets of R55, a tick steps each issue fraction by R56, the fast guard caps it at 32; an input's failure in P0 to P2 drops to P3; a failed monitor sets its frond to 1/64 or marks the input reading, and a failed clock change goes back and, the second time, fences the frond; POWER_REQUEST waits with its request pending, and POWER_QUERY, FROND_CLOCK_SET and GOV_WEIGHT_SET answer. -/
def Obligations.GovernorRowsComplete : Prop :=
  (∀ (s : State) (q : PowerReq), s.power.pending = some q → s.power.trans = none → s.power.state = some 0 → s.power.boot = .serving → requestError s q.target = none → q.target ≠ 0 → Gives .governorTransition s fun t => t.power.pending = none ∧ t.power.launchesHeld = true ∧ t.power.trans = some { req := q, step := .waitLaunches } ∧ t.power.state = some 0)
  ∧ (∀ (s : State) (q : PowerReq), s.power.trans = some { req := q, step := .waitLaunches } → s.res.launches = [] → launchStarted s = false → ((s.res.phs.any fun e => e.2.state == .loading) = false) → q.target ≠ 1 → Gives .entryLaunchesEnded s fun t => t.power.state = some 1 ∧ t.power.arraysGated = true ∧ t.power.trans = some { req := q, step := .waitRings } ∧ t.power.ringsHeld = true)
  ∧ (∀ (s : State) (q : PowerReq), s.power.trans = some { req := q, step := .waitRings } → ((s.rings.any fun e => e.2.started.any fun d => d.status.isNone) = false) → Gives .entryRingsStopped s fun t => t.power.trans = some { req := q, step := .waitInflight })
  ∧ (∀ (s : State) (q : PowerReq), s.power.trans = some { req := q, step := .waitInflight } → inFlightCount s = 0 → q.target = 2 → Gives .entryInflightZero s fun t => t.power.state = some 2 ∧ t.power.trans = none ∧ t.power.frondClocksOn = false ∧ t.power.portsKept = true)
  ∧ (∀ (s : State) (q : PowerReq) (st : Step49) (n : Nat), s.power.trans = some { req := q, step := st } → (st = .waitLaunches ∨ st = .waitRings) → s.power.state = some n → Gives .waitLimitExpiry s fun t => t.power.state = some n ∧ (if n = 0 then t.power.trans = none ∧ t.power.launchesHeld = false ∧ t.power.ringsHeld = false else t.power.trans = some { req := { target := 0, release := false, waitMs := 10, source := .input }, step := .exiting }))
  ∧ (∀ (s : State) (q : PowerReq) (st : Step49) (n : Nat), s.power.trans = some { req := q, step := st } → (st = .waitInflight ∨ st = .exiting) → s.power.state = some n → n ≠ 0 → Gives .transitionTimeout s fun t => t.power.trans = some { req := { target := 0, release := false, waitMs := 10, source := .input }, step := .exiting } ∧ t.power.state = some n)
  ∧ (∀ (s : State) (q : PowerReq), s.power.trans = some { req := q, step := .exiting } → s.power.state = some 1 → q.target = 0 → Gives .exitSequence s fun t => t.power.state = some 0 ∧ t.power.launchesHeld = false ∧ t.power.arraysGated = false ∧ t.power.trans = none)
  ∧ (∀ (s : State) (input f : Nat) (w : Rat), s.power.state = some 0 → ((f, w) ∈ budgetsOf (onPower (fun p => trimPool { p with inputBad := false, inputMw := input }) s)) → Gives (.budgetUpdate input true) s fun t => (frondPowerOf t f).budget = w ∧ t.power.inputMw = input)
  ∧ (∀ (s : State) (powers : List (Option Nat)) (f mw : Nat), s.power.state = some 0 → f ∈ budgetFronds s → powers[f]? = some (some mw) → Gives (.governorTick powers) s fun t => frondPowerOf t f = issueStep (frondPowerOf s f) mw)
  ∧ (∀ (s : State) (input f : Nat), 34000000 < input → f < 84 → Gives (.fastGuard input) s fun t => (frondPowerOf t f).issue = min (frondPowerOf s f).issue 32)
  ∧ (∀ (s : State) (input n : Nat), input < 2 → s.power.boot = .serving → s.power.state = some n → n < 3 → Gives (.busBarInputFail input) s fun t => t.power.state = some 3 ∧ t.power.frondsOn = false)
  ∧ (∀ (s : State) (f : Nat), f < 84 → Gives (.powerMonitorFail (some f)) s fun t => (frondPowerOf t f).monitorBad = true ∧ (frondPowerOf t f).issue = 1 ∧ t.post.journal.next = s.post.journal.next + 1)
  ∧ (∀ (s : State), Gives (.powerMonitorFail none) s fun t => t.power.inputBad = true ∧ t.post.journal.next = s.post.journal.next + 1)
  ∧ (∀ (s : State) (f : Nat), f < 84 → Gives (.clockLockFail f true) s fun t => (frondPowerOf t f).clockMhz = (frondPowerOf s f).oldClockMhz ∧ t.post.journal.next = s.post.journal.next + 1)
  ∧ (∀ (s : State) (f : Nat), f < 84 → Gives (.clockLockFail f false) s fun t => (dieOf t f).fenced = true)
  ∧ (∀ (s : State) (lb : Nat), Started s lb 0x0501 → s.power.pending = none → requestError s (argOf s lb 0x0501 0) = none → Gives (.powerRequest lb) s fun t => t.power.pending = some { target := argOf s lb 0x0501 0, release := argOf s lb 0x0501 1 == 1, waitMs := if argOf s lb 0x0501 2 = 0 then 10 else argOf s lb 0x0501 2, source := .letterbox lb } ∧ (lbOf t lb).phase = .waiting ∧ (lbOf t lb).state = .running)
  ∧ (∀ (s : State) (lb : Nat), Started s lb 0x0502 → Answers (.powerQuery lb) lb 0 s fun t => resultData t lb (powerQueryBytes s).length = powerQueryBytes s)
  ∧ (∀ (s : State) (lb f : Nat), Started s lb 0x0503 → f ∈ frondsInService s → (argOf s lb 0x0503 0 = f ∨ argOf s lb 0x0503 0 = 0xFF) → Answers (.frondClockSet lb) lb 0 s fun t => (frondPowerOf t f).clockMhz = argOf s lb 0x0503 1 ∧ (frondPowerOf t f).oldClockMhz = (frondPowerOf s f).clockMhz ∧ (frondPowerOf t f).changedAt = s.time.rackTime)
  ∧ (∀ (s : State) (lb f : Nat), Started s lb 0x0504 → f < 84 → (argOf s lb 0x0504 0 = f ∨ argOf s lb 0x0504 0 = 0xFF) → Answers (.govWeightSet lb) lb 0 s fun t => (frondPowerOf t f).weight = argOf s lb 0x0504 1)

/-- Rack time acts. A load that is due takes effect at its PPS edge, a missing edge is journalled, loss, holdover, return and failover of the reference follow R61 to R66, a slew ends at its tick, and the two commands ask for a load and read the postmark. -/
def Obligations.TimeRowsComplete : Prop :=
  (∀ (s : State) (l : RackLoad), postUp s = true → s.time.loads = [l] → loadDue s l = true → s.time.rackTime ≤ l.seconds * ticksPerSecond → s.time.awaitingPps = false → Gives .ppsEdge s fun t => t.time.rackTime = l.seconds * ticksPerSecond ∧ t.time.loads = [] ∧ t.time.loadedSinceReset = true ∧ t.time.badPhaseCount = 0)
  ∧ (∀ (s : State), postUp s = true → Gives .ppsMissing s fun t => t.post.journal.next = s.post.journal.next + 1 ∧ t.time = s.time)
  ∧ (∀ (s : State), postUp s = true → s.time.holdover = false → Gives .referenceLoss s fun t => t.time.holdover = true ∧ t.time.rackTime = s.time.rackTime ∧ t.post.journal.next = s.post.journal.next + 1)
  ∧ (∀ (s : State), postUp s = true → s.time.holdover = true → s.time.freeRunning = false → Gives .holdoverExpiry s fun t => t.time.freeRunning = true ∧ t.post.journal.next = s.post.journal.next + 1)
  ∧ (∀ (s : State), postUp s = true → s.time.holdover = true → Gives .referenceReturn s fun t => t.time.holdover = false ∧ t.time.awaitingPps = true)
  ∧ (∀ (s : State), s.time.slew ≠ 0 → Gives .slewEnd s fun t => t.time.slew = 0 ∧ t.time.freeRunning = false ∧ t.time.rackTime = ((s.time.rackTime : Int) + (1024 * s.time.slew.natAbs - s.time.slewPeriods : Nat) + s.time.slew).toNat % 2 ^ 64)
  ∧ (∀ (s : State), postUp s = true → s.time.onE8 = false → Gives .timebaseFailover s fun t => t.time.onE8 = true ∧ t.time.rackTime = s.time.rackTime)
  ∧ (∀ (s : State) (lb : Nat), Started s lb 0x0505 → argOf s lb 0x0505 0 * ticksPerSecond < 2 ^ 64 → Gives (.rackTimeSet lb) s fun t => t.time.loads = s.time.loads ++ [{ seconds := argOf s lb 0x0505 0, acceptedAt := s.time.rackTime, assigned := false, lb := some lb }] ∧ (lbOf t lb).phase = .waiting ∧ t.time.rackTime = s.time.rackTime)
  ∧ (∀ (s : State) (lb : Nat), Started s lb 0x0506 → Answers (.rackTimeQuery lb) lb 0 s fun t => resultData t lb 8 = leBytes 8 (postmark s.time).toNat)
  ∧ (∀ (s : State) (l : RackLoad) (rest : List RackLoad) (lb : Nat), s.time.loads = l :: rest → l.assigned = false → l.lb = some lb → Waits s lb 0x0505 → Answers .rackTimeSetTimeout lb eTimeout s fun t => t.time.loads = rest)

/-- The repair and diagnostic commands complete. Started with arguments in range, SELFTEST_REPORT_READ and JOURNAL_READ of at most 31 records answer the part asked for; JOURNAL_APPEND answers the index of its record; REPAIR_MAP_EDIT reads at most 250 entries, adds one below the limit and deletes one that the map holds; TILE_RETIRE with a free spare retires its tile; FROND_FENCE fences a frond that is not fenced; FROND_RETEST returns a fenced frond to service where its test, with a neighbour in service, passes or is repaired, and leaves it fenced else; COUNTERS_READ answers at most 250 counters of an existing group; MODULE_RESET in service leaves the module in P4 with no ring, letterbox, memory or translation state. -/
def Obligations.RepairCommandsComplete : Prop :=
  (∀ (s : State) (lb : Nat) (part : List Byte), Started s lb 0x0601 → argOf s lb 0x0601 0 ≤ (reportBytes s).length → part = ((reportBytes s).drop (argOf s lb 0x0601 0)).take 2026 → Answers (.selftestReportRead lb) lb 0 s fun t => resultData t lb (6 + part.length) = pack [u32 (reportBytes s).length, u16 part.length] ++ part ∧ t.power = s.power ∧ t.mem = s.mem)
  ∧ (∀ (s : State) (lb : Nat) (recs : List JRec) (d : List Byte), Started s lb 0x0602 → oldestRecord s.post.journal ≤ argOf s lb 0x0602 1 → argOf s lb 0x0602 1 ≤ s.post.journal.next → (recs = (s.post.journal.recs.filter fun r => decide (argOf s lb 0x0602 1 ≤ r.index)).take (argOf s lb 0x0602 0)) → (d = pack [u8 recs.length, u64 (match recs.getLast? with | some r => r.index + 1 | none => argOf s lb 0x0602 1)] ++ recs.flatMap recordBytes) → argOf s lb 0x0602 0 ≤ 31 → Answers (.journalRead lb) lb 0 s fun t => resultData t lb d.length = d ∧ t.power = s.power ∧ t.mem = s.mem)
  ∧ (∀ (s : State) (lb : Nat), Started s lb 0x0603 → Answers (.journalAppend lb) lb 0 s fun t => resultData t lb 8 = leBytes 8 s.post.journal.next)
  ∧ (∀ (s : State) (lb : Nat), Started s lb 0x0604 → argOf s lb 0x0604 0 = 0 → argOf s lb 0x0604 2 + argOf s lb 0x0604 1 ≤ s.post.entries.length → argOf s lb 0x0604 1 ≤ 250 → Answers (.repairMapRead lb) lb 0 s fun t => resultData t lb (pack (((s.post.entries.drop (argOf s lb 0x0604 2)).take (argOf s lb 0x0604 1)).map fun e => u64 e.toNat)).length = pack (((s.post.entries.drop (argOf s lb 0x0604 2)).take (argOf s lb 0x0604 1)).map fun e => u64 e.toNat))
  ∧ (∀ (s : State) (lb : Nat), Started s lb 0x0604 → argOf s lb 0x0604 0 = 1 → s.post.entries.length < mapLimit → Answers (.repairMapAdd lb true) lb 0 s fun t => t.post.entries = s.post.entries ++ [BitVec.ofNat 64 (argOf s lb 0x0604 3)])
  ∧ (∀ (s : State) (lb : Nat), Started s lb 0x0604 → argOf s lb 0x0604 0 = 2 → s.post.entries.contains (BitVec.ofNat 64 (argOf s lb 0x0604 3)) = true → Answers (.repairMapDelete lb true) lb 0 s fun t => t.post.entries = eraseFirst (fun e => e == BitVec.ofNat 64 (argOf s lb 0x0604 3)) s.post.entries)
  ∧ (∀ (s : State) (lb f k : Nat), Started s lb 0x0605 → f = argOf s lb 0x0605 0 → k = argOf s lb 0x0605 1 → spareFree s f k = true → Answers (.tileRetire lb) lb 0 s fun t => (dieOf t f).retired = k :: (dieOf s f).retired.filter (· != k))
  ∧ (∀ (s : State) (lb f : Nat), Started s lb 0x0606 → f = argOf s lb 0x0606 0 → (dieOf s f).fenced = false → Answers (.frondFence lb) lb 0 s fun t => (dieOf t f).fenced = true ∧ (dieOf t f).tallies = [])
  ∧ (∀ (s : State) (lb f : Nat) (o : TestOutcome), Started s lb 0x0607 → f = argOf s lb 0x0607 0 → (dieOf s f).fenced = true → ((dieNeighbours f).any (dieUp s)) = true → (∀ m, o ≠ .failed m) → Answers (.frondRetest lb o) lb 0 s fun t => (dieOf t f).fenced = false ∧ (frondPowerOf t f).clockMhz = 900 ∧ resultData t lb 1 = leBytes 1 (if o = .pass then 0 else 1))
  ∧ (∀ (s : State) (lb f : Nat) (o : TestOutcome), Started s lb 0x0607 → f = argOf s lb 0x0607 0 → (dieOf s f).fenced = true → (((dieNeighbours f).any (dieUp s)) = false ∨ ∃ m, o = .failed m) → Answers (.frondRetest lb o) lb 0 s fun t => (dieOf t f).fenced = true ∧ resultData t lb 1 = leBytes 1 2)
  ∧ (∀ (s : State) (lb last : Nat) (c : Nat → Nat), Started s lb 0x0608 → (counterGroup s (argOf s lb 0x0608 0)).map Prod.fst = some last → ((counterGroup s (argOf s lb 0x0608 0)).map (fun g => (List.range (argOf s lb 0x0608 2)).map fun i => g.2 (argOf s lb 0x0608 1 + i)) = some ((List.range (argOf s lb 0x0608 2)).map fun i => c (argOf s lb 0x0608 1 + i))) → argOf s lb 0x0608 1 + argOf s lb 0x0608 2 ≤ last + 1 → argOf s lb 0x0608 2 ≤ 250 → Answers (.countersRead lb) lb 0 s fun t => resultData t lb (pack ((List.range (argOf s lb 0x0608 2)).map fun i => u64 (c (argOf s lb 0x0608 1 + i)))).length = pack ((List.range (argOf s lb 0x0608 2)).map fun i => u64 (c (argOf s lb 0x0608 1 + i))))
  ∧ (∀ (s : State) (lb : Nat), Started s lb 0x0609 → s.power.boot = .serving → Gives (.moduleReset lb) s fun t => t.power.boot = .standby ∧ t.power.state = some 4 ∧ t.rings = [] ∧ t.post.lbs = [] ∧ t.mem = {} ∧ t.xlat = {})

/-- The firmware and failover commands and rows complete. FW_QUERY answers the slots and the floor; FW_STAGE of an own context empties the inactive slots and issues its first read; FW_VERIFY answers the outcome of the checks and marks a good image verified; FW_ACTIVATE at reset names the inactive slots active and raises the floor, or with a failed MRAM write ends so with the floor as it was; live, with a standby and no other atomic command running, it moves the role from E0 to E8 and back E0 as standby; AGENT_RELOAD runs the active image's agent; FAILOVER, with a standby and no other atomic command running, exchanges the roles; a heartbeat counts and ends its ALERT; E8 takes over a silent E0, whose one restart makes it standby; a lost standby leaves none. -/
def Obligations.FirmwareCommandsComplete : Prop :=
  (∀ (s : State) (lb : Nat), Started s lb 0x0701 → Answers (.fwQuery lb) lb 0 s fun t => t.post.fw = s.post.fw ∧ resultData t lb (fwQueryBytes s).length = fwQueryBytes s)
  ∧ (∀ (s : State) (lb tag at_ n : Nat) (ok : Bool) (c : Ctx), Started s lb 0x0702 → storeHeld s = false → inSafe s = false → tfind s.xlat.ctxs (argOf s lb 0x0702 0) = some c → c.owner = lb → (lbOf s lb).buffer = [] → at_ = argOf s lb 0x0702 2 → 0 < argOf s lb 0x0702 1 → n = pieceLen at_ (argOf s lb 0x0702 1) (fnOf s lb).maxRead → stageBusy s lb = false → canRead s lb = true → tfree (hostPortOf s (lb / 64)).reads 0 16384 = some tag → Gives (.fwStage lb ok) s fun t => (lbOf t lb).state = .running ∧ (lbOf t lb).phase = .waiting ∧ (lbOf t lb).mramBad = !ok ∧ (∀ d ∈ mramDies s, fwSlotOf t d (inactiveSlot s d) = {}) ∧ tfind (hostPortOf t (lb / 64)).reads tag = some { fn := lb, addr := at_, len := n, purpose := .firmware lb 0 } ∧ t.out = s.out ++ [.dmaRead (lb / 64) (lb % 64) tag at_ n (pasidFor s lb (argOf s lb 0x0702 0)) false])
  ∧ (∀ (s : State) (lb : Nat), Started s lb 0x0703 → storeHeld s = false → Answers (.fwVerify lb) lb (match verifyStaged s with | .ok _ => 0 | .error e => e) s fun t => (match verifyStaged s with | .ok _ => t.post.fw = (markVerified s).post.fw | .error _ => t.post.fw = s.post.fw))
  ∧ (∀ (s : State) (lb : Nat) (b : List Byte), Started s lb 0x0704 → argOf s lb 0x0704 0 = 0 → storeHeld s = false → verifiedImage s = some b → Answers (.fwActivateAtReset { lb := lb, ok := true }) lb 0 s fun t => (∀ d ∈ mramDies s, activeSlot t d = inactiveSlot s d) ∧ t.post.floor = max s.post.floor (securityVersion b))
  ∧ (∀ (s : State) (lb : Nat) (b : List Byte), Started s lb 0x0704 → argOf s lb 0x0704 0 = 0 → storeHeld s = false → verifiedImage s = some b → Answers (.fwActivateAtReset { lb := lb, ok := false }) lb eMram s fun t => t.post.floor = s.post.floor ∧ t.post.fw = s.post.fw)
  ∧ (∀ (s : State) (lb : Nat) (b : List Byte), Started s lb 0x0704 → argOf s lb 0x0704 0 = 1 → storeHeld s = false → verifiedImage s = some b → inSafe s = false → s.post.standby = true → s.post.onE8 = false → handoverReady s (some lb) = true → Answers (.fwActivateLive lb true true) lb 0 s fun t => (∀ d ∈ mramDies s, activeSlot t d = inactiveSlot s d) ∧ t.post.onE8 = true ∧ t.post.standby = true)
  ∧ (∀ (s : State) (lb e : Nat), Started s lb 0x0705 → e = argOf s lb 0x0705 0 → edgeWorks s e = true → Answers (.agentReload lb) lb 0 s fun t => tget [] t.post.agents e = runningImage s)
  ∧ (∀ (s : State) (lb : Nat), Started s lb 0x0706 → s.post.standby = true → handoverReady s (some lb) = true → Answers (.failover lb) lb 0 s fun t => t.post.onE8 = !s.post.onE8 ∧ t.post.standby = true ∧ resultData t lb 1 = leBytes 1 (if s.post.onE8 then 0 else 8))
  ∧ (∀ (s : State), postUp s = true → Gives .postmasterHeartbeat s fun t => t.post.heartbeats = s.post.heartbeats + 1 ∧ t.power.alertHeartbeat = false)
  ∧ (∀ (s : State), postUp s = true → s.post.onE8 = false → s.post.standby = true → Gives .unplannedFailover s fun t => t.post.onE8 = true ∧ t.post.e0Fenced = true ∧ t.post.standby = false)
  ∧ (∀ (s : State), s.post.onE8 = true → s.post.e0Fenced = true → s.post.restartTried = false → edgeWorks s 0 = true → Gives (.e0Restart true) s fun t => t.post.standby = true ∧ t.post.e0Fenced = false ∧ t.post.restartTried = true ∧ t.post.onE8 = true)
  ∧ (∀ (s : State), s.post.standby = true → Gives .standbyLost s fun t => t.post.standby = false ∧ t.post.onE8 = s.post.onE8)

/-- The host ports' and functions' rows complete. A port whose edge die passed trains when PERST# is deasserted; PERST# and a lost link take its link down with no read outstanding; a configuration read of a function that exists is answered with the register's value and a write with its effect; Bus Master Enable clears with the function's rings waiting for a doorbell, and sets; an FLR begins, and once its reads are done and its letterbox runs no command it leaves the registers at reset with the quotas kept and the rings free; VF Enable, D3hot, D0 and the page-request enable take effect at functions that exist. -/
def Obligations.HostFunctionRowsComplete : Prop :=
  (∀ (s : State) (port : Nat), port < 2 → (mayTrain (onHostPort port (fun p => { p with perst := false }) s) port = true) → (hostPortOf s port).link = 0 → Gives (.hostPortTraining port) s fun t => (hostPortOf t port).link = 1 ∧ (hostPortOf t port).perst = false ∧ (hostPortOf t port).configReady = configOpen s)
  ∧ (∀ (s : State) (port : Nat), port < 2 → Gives (.perstAssert port) s fun t => (hostPortOf t port).perst = true ∧ ((hostPortOf s port).link = 1 → (hostPortOf t port).link = 0 ∧ (hostPortOf t port).configReady = false ∧ (hostPortOf t port).reads = []))
  ∧ (∀ (s : State) (port : Nat), port < 2 → (hostPortOf s port).link = 1 → Gives (.hostLinkDown port) s fun t => (hostPortOf t port).link = 0 ∧ (hostPortOf t port).configReady = false ∧ (hostPortOf t port).reads = [])
  ∧ (∀ (s : State) (port fn k : Nat) (reg : CfgReg) (v : Nat), port < 2 → fn < 64 → k = 64 * port + fn → (hostPortOf s port).link = 1 → (hostPortOf s port).configReady = true → fnVisible s k = true → Gives (.configRequest port fn false reg v) s fun t => t = emit (.configReply port fn 0 (cfgRead s k reg)) s)
  ∧ (∀ (s : State) (port fn k v : Nat) (reg : CfgReg), port < 2 → fn < 64 → k = 64 * port + fn → (hostPortOf s port).link = 1 → (hostPortOf s port).configReady = true → fnVisible s k = true → Gives (.configRequest port fn true reg v) s fun t => t = emit (.configReply port fn 0 0) (cfgWrite k reg v s))
  ∧ (∀ (s : State) (port fn k v : Nat), port < 2 → fn < 64 → k = 64 * port + fn → (hostPortOf s port).link = 1 → (hostPortOf s port).configReady = true → fnVisible s k = true → (fnOf s k).flr = false → ([128, 256, 512] : List Nat).contains v = true → Gives (.configRequest port fn true .maxPayload v) s fun t => (fnOf t k).maxPayload = v ∧ t.out = s.out ++ [.configReply port fn 0 0])
  ∧ (∀ (s : State) (port fn k : Nat), port < 2 → fn < 64 → k = 64 * port + fn → fnVisible s k = true → (fnOf s k).busMaster = true → (fnOf s k).flr = false → Gives (.busMasterEnableClear port fn) s fun t => (fnOf t k).busMaster = false ∧ ∀ r ∈ fnRings s k, (ringOf t r).awaitDoorbell = true)
  ∧ (∀ (s : State) (port fn k : Nat), port < 2 → fn < 64 → k = 64 * port + fn → fnVisible s k = true → (fnOf s k).busMaster = false → (fnOf s k).flr = false → Gives (.busMasterEnableSet port fn) s fun t => (fnOf t k).busMaster = true)
  ∧ (∀ (s : State) (port fn k : Nat), port < 2 → fn < 64 → k = 64 * port + fn → fnVisible s k = true → (fnOf s k).flr = false → Gives (.initiateFlr port fn) s fun t => (fnOf t k).flr = true)
  ∧ (∀ (s : State) (port fn k : Nat), port < 2 → fn < 64 → k = 64 * port + fn → (fnOf s k).flr = true → isRunning (lbOf s k) = false → Gives (.flrReadsDone port fn) s fun t => fnOf t k = { quotaRings := (fnOf s k).quotaRings, quotaContexts := (fnOf s k).quotaContexts, quotaClaims := (fnOf s k).quotaClaims } ∧ ∀ r ∈ fnRings s k, (ringOf t r).state = .free)
  ∧ (∀ (s : State) (port : Nat), port < 2 → fnVisible s (64 * port) = true → inSafe s = false → (fnOf s (64 * port)).flr = false → Gives (.vfEnableSet port) s fun t => (fnOf t (64 * port)).vfEnabled = true ∧ (fnOf t (64 * port)).numVfs = (fnOf s (64 * port)).numVfs)
  ∧ (∀ (s : State) (port : Nat), port < 2 → fnVisible s (64 * port) = true → Gives (.vfEnableClear port) s fun t => (fnOf t (64 * port)).vfEnabled = false)
  ∧ (∀ (s : State) (port fn k : Nat), port < 2 → fn < 64 → k = 64 * port + fn → fnVisible s k = true → (fnOf s k).d3 = false → Gives (.d3hotEntry port fn) s fun t => (fnOf t k).d3 = true ∧ (fnOf t k).busMaster = (fnOf s k).busMaster)
  ∧ (∀ (s : State) (port fn k : Nat), port < 2 → fn < 64 → k = 64 * port + fn → fnVisible s k = true → (fnOf s k).d3 = true → Gives (.d0Return port fn) s fun t => (fnOf t k).d3 = false ∧ (fnOf t k).busMaster = (fnOf s k).busMaster)
  ∧ (∀ (s : State) (port fn k : Nat), port < 2 → fn < 64 → k = 64 * port + fn → fnVisible s k = true → inSafe s = false → (fnOf s k).flr = false → Gives (.priEnableToggle port fn) s fun t => (fnOf t k).pri = true ∧ (fnOf t k).priStopped = false)

/-- Host register writes, completions and messages complete. At a function that can be reached and outside the safe state: MSIX_UNMASK clears the mask of a vector, of the function, or sets MSI-X Enable or Bus Master Enable, and a vector's pending message that nothing else withholds is sent; REGISTER_WRITE of 4 or 8 bytes acts on FN_EVENT, INT_EVENT_VECTOR, INT_SELECT, INT_STATUS, a letterbox's doorbell, a ring page's doorbell and the data word of an MSI-X entry, a bit that hardware sets in the same cycle staying set; INT_EVENT_VECTOR and INT_SELECT take the value and set INT_STATUS[2] for a vector that does not exist; MSIX_TABLE_WRITE changes its one field of its entry. An access of a bad size or alignment is logged and changes no register. An outstanding read's completion hands its data on, or its failure once the error, the time-out or the poison is logged; an unexpected completion, a malformed TLP and a correctable error are logged. An ATS invalidation leaves no cached ATS result of its range and, with nothing to wait for, is completed. A page response resumes the copy with the page's leaves dropped, or ends it with a page fault, as its time-out does. -/
def Obligations.HostRegisterRowsComplete : Prop :=
  (∀ (s : State) (port fn k : Nat) (v : Nat), port < 2 → fn < 64 → k = 64 * port + fn → barOpen s k = true → inSafe s = false → v < vectorCount k → Gives (.msixUnmask port fn (.vector v)) s fun t => (tget {} (fnOf t k).vectors v).control = 0 ∧ (tget {} (fnOf t k).vectors v).address = (tget {} (fnOf s k).vectors v).address ∧ (tget {} (fnOf t k).vectors v).data = (tget {} (fnOf s k).vectors v).data ∧ ((tget {} (fnOf s k).vectors v).pending = true → mayIssue (fnOf s k) = true → (fnOf s k).functionMask = false → (fnOf s k).msixEnable = true → (tget {} (fnOf t k).vectors v).pending = false ∧ Out.msix port fn v (tget {} (fnOf s k).vectors v).address (tget {} (fnOf s k).vectors v).data ∈ t.out))
  ∧ (∀ (s : State) (port fn k : Nat), port < 2 → fn < 64 → k = 64 * port + fn → fnVisible s k = true → inSafe s = false → (fnOf s k).flr = false → Gives (.msixUnmask port fn .functionMask) s fun t => (fnOf t k).functionMask = false)
  ∧ (∀ (s : State) (port fn k : Nat), port < 2 → fn < 64 → k = 64 * port + fn → fnVisible s k = true → inSafe s = false → (fnOf s k).flr = false → Gives (.msixUnmask port fn .msixEnable) s fun t => (fnOf t k).msixEnable = true)
  ∧ (∀ (s : State) (port fn k : Nat), port < 2 → fn < 64 → k = 64 * port + fn → fnVisible s k = true → (fnOf s k).flr = false → Gives (.msixUnmask port fn .busMaster) s fun t => (fnOf t k).busMaster = true)
  ∧ (∀ (s : State) (port fn k : Nat) (bar offset size : Nat) (write : Bool), port < 2 → fn < 64 → k = 64 * port + fn → (bar = 0 ∨ bar = 2) → fnVisible s k = true → goodAccess offset size = false → (write = false ∨ barOpen s k = true) → Gives (.badSizeAccess port fn bar offset size write) s fun t => (hostPortOf t port).aerNonFatal = (hostPortOf s port).aerNonFatal + 1 ∧ t.post.journal.next = s.post.journal.next + 1 ∧ fnOf t k = fnOf s k ∧ t.out = s.out ++ [.aer port 1 8] ++ (if write then [] else [.unsupported port fn]))
  ∧ (∀ (s : State) (port fn k : Nat) (size value hw : Nat), port < 2 → fn < 64 → k = 64 * port + fn → (size = 4 ∨ size = 8) → barOpen s k = true → inSafe s = false → Gives (.registerWrite port fn 0 0x010 size value hw) s fun t => ∀ b < 5, bit (fnOf t k).events b = ((bit (fnOf s k).events b && !bit value b) || bit hw b))
  ∧ (∀ (s : State) (port fn k : Nat) (size value hw : Nat), port < 2 → fn < 64 → k = 64 * port + fn → (size = 4 ∨ size = 8) → barOpen s k = true → inSafe s = false → Gives (.registerWrite port fn 0 0x2008 size value hw) s fun t => (fnOf t k).eventVector = bits value 10 0 ∧ (fnOf t k).eventEnable = bit value 15)
  ∧ (∀ (s : State) (port fn k : Nat) (size value hw : Nat), port < 2 → fn < 64 → k = 64 * port + fn → (size = 4 ∨ size = 8) → barOpen s k = true → inSafe s = false → Gives (.registerWrite port fn 0 0x2010 size value hw) s fun t => (fnOf t k).intSelect = bits value 10 0)
  ∧ (∀ (s : State) (port fn k : Nat) (size value hw : Nat), port < 2 → fn < 64 → k = 64 * port + fn → (size = 4 ∨ size = 8) → barOpen s k = true → inSafe s = false → Gives (.registerWrite port fn 0 0x2020 size value hw) s fun t => (fnOf t k).intStatus = w1c (fnOf s k).intStatus value (hw % 8) ∧ (fnOf t k).withheld = (if bit hw 0 || bit hw 1 then m32 ((fnOf s k).withheld + 1) else (fnOf s k).withheld))
  ∧ (∀ (s : State) (port fn k : Nat) (size value hw : Nat), port < 2 → fn < 64 → k = 64 * port + fn → (size = 4 ∨ size = 8) → barOpen s k = true → inSafe s = false → Gives (.registerWrite port fn 0 0x1010 size value hw) s fun t => Gives (.lbDoorbell k value) s fun u => t = u)
  ∧ (∀ (s : State) (port fn k : Nat) (page off size value hw : Nat), port < 2 → fn < 64 → k = 64 * port + fn → (size = 4 ∨ size = 8) → barOpen s k = true → inSafe s = false → page < (if fn = 0 then 1024 else 64) → off = (if fn = 0 then 0x400000 else 0x40000) + 0x1000 * page → Gives (.registerWrite port fn 0 off size value hw) s fun t => Gives (.ringDoorbell port fn page value) s fun u => t = u)
  ∧ (∀ (s : State) (port fn k : Nat) (v value hw : Nat), port < 2 → fn < 64 → k = 64 * port + fn → barOpen s k = true → inSafe s = false → v < vectorCount k → Gives (.registerWrite port fn 2 (16 * v + 8) 4 value hw) s fun t => (tget {} (fnOf t k).vectors v).data = value % 2 ^ 32 ∧ (tget {} (fnOf t k).vectors v).address = (tget {} (fnOf s k).vectors v).address ∧ (tget {} (fnOf t k).vectors v).control = (tget {} (fnOf s k).vectors v).control)
  ∧ (∀ (s : State) (port fn k : Nat) (value : Nat), port < 2 → fn < 64 → k = 64 * port + fn → barOpen s k = true → inSafe s = false → Gives (.intEventVector port fn value) s fun t => (fnOf t k).eventVector = bits value 10 0 ∧ (fnOf t k).eventEnable = bit value 15 ∧ (fnOf t k).intStatus = (if vectorCount k ≤ bits value 10 0 then setBit (fnOf s k).intStatus 2 true else (fnOf s k).intStatus))
  ∧ (∀ (s : State) (port fn k : Nat) (value : Nat), port < 2 → fn < 64 → k = 64 * port + fn → barOpen s k = true → inSafe s = false → Gives (.intSelect port fn value) s fun t => (fnOf t k).intSelect = bits value 10 0 ∧ (fnOf t k).intStatus = (if vectorCount k ≤ bits value 10 0 then setBit (fnOf s k).intStatus 2 true else (fnOf s k).intStatus))
  ∧ (∀ (s : State) (port fn k : Nat) (v value : Nat) (field : MsixField), port < 2 → fn < 64 → k = 64 * port + fn → barOpen s k = true → inSafe s = false → v < vectorCount k → Gives (.msixTableWrite port fn v field value) s fun t => (tget {} (fnOf t k).vectors v).address = (if field = .addressLow then (tget {} (fnOf s k).vectors v).address / 2 ^ 32 * 2 ^ 32 + value % 2 ^ 32 else if field = .addressHigh then value % 2 ^ 32 * 2 ^ 32 + (tget {} (fnOf s k).vectors v).address % 2 ^ 32 else (tget {} (fnOf s k).vectors v).address) ∧ (tget {} (fnOf t k).vectors v).data = (if field = .data then value % 2 ^ 32 else (tget {} (fnOf s k).vectors v).data) ∧ (tget {} (fnOf t k).vectors v).control = (if field = .control then value % 2 ^ 32 % 2 else (tget {} (fnOf s k).vectors v).control))
  ∧ (∀ (s : State) (port tag : Nat) (r : HostRead) (data : List Byte), port < 2 → (hostPortOf s port).link = 1 → tfind (hostPortOf s port).reads tag = some r → Gives (.hostReadCompletion port tag .success data) s fun t => t = readEnded port tag r .ok (padTo r.len data) s)
  ∧ (∀ (s : State) (port tag : Nat) (r : HostRead) (status : CplStatus) (data : List Byte), port < 2 → (hostPortOf s port).link = 1 → tfind (hostPortOf s port).reads tag = some r → status ≠ .success → Gives (.hostReadCompletion port tag status data) s fun t => ∃ u, (hostPortOf u port).aerNonFatal = (hostPortOf s port).aerNonFatal + 1 ∧ u.post.journal.next = s.post.journal.next + 1 ∧ u.out = s.out ++ [.aer port 2 4] ∧ t = readEnded port tag r .failed [] u)
  ∧ (∀ (s : State) (port tag : Nat) (r : HostRead), port < 2 → (hostPortOf s port).link = 1 → tfind (hostPortOf s port).reads tag = some r → (fnOf s r.fn).completionTimeoutUs ≠ 0 → Gives (.completionTimeout port tag) s fun t => ∃ u, (hostPortOf u port).aerNonFatal = (hostPortOf s port).aerNonFatal + 1 ∧ u.post.journal.next = s.post.journal.next + 1 ∧ u.out = s.out ++ [.aer port 1 3] ∧ t = readEnded port tag r .failed [] u)
  ∧ (∀ (s : State) (port tag : Nat) (r : HostRead) (data : List Byte), port < 2 → (hostPortOf s port).link = 1 → tfind (hostPortOf s port).reads tag = some r → Gives (.poisonedCompletion port tag data) s fun t => ∃ u, (hostPortOf u port).aerNonFatal = (hostPortOf s port).aerNonFatal + 1 ∧ u.post.journal.next = s.post.journal.next + 1 ∧ u.out = s.out ++ [.aer port 2 5] ∧ t = readEnded port tag r .poisoned (padTo r.len data) u)
  ∧ (∀ (s : State) (port tag : Nat), port < 2 → (hostPortOf s port).link = 1 → tfind (hostPortOf s port).reads tag = none → Gives (.unexpectedCompletion port tag) s fun t => (hostPortOf t port).aerNonFatal = (hostPortOf s port).aerNonFatal + 1 ∧ t.post.journal.next = s.post.journal.next + 1 ∧ t.out = s.out ++ [.aer port 2 6])
  ∧ (∀ (s : State) (port : Nat), port < 2 → (hostPortOf s port).link = 1 → Gives (.malformedTlp port) s fun t => (hostPortOf t port).aerFatal = (hostPortOf s port).aerFatal + 1 ∧ t.post.journal.next = s.post.journal.next + 1 ∧ t.out = s.out ++ [.aer port 3 7])
  ∧ (∀ (s : State) (port kind : Nat), port < 2 → kind < 3 → (hostPortOf s port).link = 1 → Gives (.correctableLinkError port kind) s fun t => (hostPortOf t port).aerCorrectable = (hostPortOf s port).aerCorrectable + 1 ∧ t.post.journal.next = s.post.journal.next + 1 ∧ t.out = s.out ++ [.aer port 0 kind])
  ∧ (∀ (s : State) (port fn k : Nat) (pasid va len : Nat) (c : Ctx), port < 2 → fn < 64 → k = 64 * port + fn → fnVisible s k = true → inSafe s = false → tfind s.xlat.ctxs pasid = some c → c.owner = k → Gives (.atsInvalidationRequest port fn pasid va len) s fun t => (∀ d, ∀ l ∈ (unitOf t d).tlb ++ (unitOf t d).dtc, l.ctx = atsCtx pasid → overlaps va len l.va l.size = false) ∧ (((s.xlat.units.all fun e => e.2.walks.isEmpty) = true) → s.xlat.waits = [] → readsUnder s pasid true = [] → issuersUnder s pasid va len = [] → t.out = s.out ++ [.atsCompletion port fn]))
  ∧ (∀ (s : State) (port fn k : Nat) (pasid va len : Nat), port < 2 → fn < 64 → k = 64 * port + fn → fnVisible s k = true → inSafe s = false → tfind s.xlat.ctxs pasid = none → Gives (.atsInvalidationRequest port fn pasid va len) s fun t => t = emit (.atsCompletion port fn) s)
  ∧ (∀ (s : State) (port fn k : Nat) (index : Nat) (q : PageReq) (d : Started), port < 2 → fn < 64 → k = 64 * port + fn → fnVisible s k = true → ((fnOf s k).pageReqs.find? (fun q => q.index == index) = some q) → startedOf s q.ring q.count = some d → q.orphan = false → d.page = some index → Gives (.pageResponse port fn index .success) s fun t => ∃ u, (∀ e, ∀ l ∈ (unitOf u e).tlb, l.ctx = q.ctx → overlaps q.va (2 ^ 16) l.va l.size = false) ∧ startedOf u q.ring q.count = some { d with page := none } ∧ (fnOf u k).pageReqs = (fnOf s k).pageReqs.filter (fun q => q.index != index) ∧ t = pageResume q u)
  ∧ (∀ (s : State) (port fn k : Nat) (index : Nat) (q : PageReq) (d : Started) (code : PageCode), port < 2 → fn < 64 → k = 64 * port + fn → fnVisible s k = true → ((fnOf s k).pageReqs.find? (fun q => q.index == index) = some q) → startedOf s q.ring q.count = some d → q.orphan = false → d.page = some index → d.status = none → code ≠ .success → Gives (.pageResponse port fn index code) s fun t => startedOf t q.ring q.count = some { d with page := none, status := some stFault, result := 0 } ∧ (fnOf t k).pageReqs = (fnOf s k).pageReqs.filter (fun q => q.index != index) ∧ t.post.journal.next = s.post.journal.next + 1 ∧ (fnOf t k).priStopped = (code == .responseFailure || (fnOf s k).priStopped))
  ∧ (∀ (s : State) (port fn k : Nat) (index : Nat) (q : PageReq) (d : Started), port < 2 → fn < 64 → k = 64 * port + fn → ((fnOf s k).pageReqs.find? (fun q => q.index == index) = some q) → startedOf s q.ring q.count = some d → q.orphan = false → d.page = some index → d.status = none → Gives (.pageResponseTimeout port fn index) s fun t => startedOf t q.ring q.count = some { d with page := none, status := some stFault, result := 0 } ∧ (fnOf t k).pageReqs = (fnOf s k).pageReqs.filter (fun q => q.index != index) ∧ t.post.journal.next = s.post.journal.next + 1 ∧ (fnOf t k).priStopped = (fnOf s k).priStopped)

/-- The image and pigeonhole commands complete. On contexts, images and pigeonholes of the requester: IMAGE_LOAD waits and asks for its image, from host memory with a read of its first piece; IMAGE_DROP of an unused image removes it and IMAGE_QUERY shows it; PH_CREATE with a source, a budget, a route set, places, claims, pins, slots and cores for it enters Loading with its places bound; PH_CLAIM adds a claim within the quota; PH_RELEASE takes it off, and the last one evicts; PH_EVICT removes the pigeonhole and its pins; PH_STOP on this module sends its stops and waits for the fronds; PH_QUERY shows a pigeonhole and FREE_MAP_READ at most 50 fronds. -/
def Obligations.ImageCommandsComplete : Prop :=
  (∀ (s : State) (lb : Nat) (c : Ctx), Started s lb 0x0301 → tfind s.xlat.ctxs (argOf s lb 0x0301 1) = some c → c.owner = lb → Gives (.imageLoad lb) s fun t => t = imageNext lb (onLb lb (fun l => { l with phase := .waiting }) s))
  ∧ (∀ (s : State) (lb tag at_ n : Nat) (c : Ctx), Started s lb 0x0301 → argOf s lb 0x0301 0 = 0 → tfind s.xlat.ctxs (argOf s lb 0x0301 1) = some c → c.owner = lb → (lbOf s lb).buffer = [] → at_ = argOf s lb 0x0301 3 → 0 < argOf s lb 0x0301 2 → n = pieceLen at_ (argOf s lb 0x0301 2) (fnOf s lb).maxRead → imageBusy s lb = false → canRead s lb = true → tfree (hostPortOf s (lb / 64)).reads 0 16384 = some tag → Gives (.imageLoad lb) s fun t => (lbOf t lb).state = .running ∧ (lbOf t lb).phase = .waiting ∧ tfind (hostPortOf t (lb / 64)).reads tag = some { fn := lb, addr := at_, len := n, purpose := .image lb 0 } ∧ t.out = s.out ++ [.dmaRead (lb / 64) (lb % 64) tag at_ n (pasidFor s lb (argOf s lb 0x0301 1)) false])
  ∧ (∀ (s : State) (lb h : Nat) (i : Image), Started s lb 0x0302 → h = argOf s lb 0x0302 0 → ownImage s (some lb) h = some i → phUsing s h = 0 → Answers (.imageDrop lb) lb 0 s fun t => tfind t.res.images h = none ∧ t.res.phs = s.res.phs)
  ∧ (∀ (s : State) (lb h : Nat) (i : Image), Started s lb 0x0303 → h = argOf s lb 0x0303 0 → ownImage s (some lb) h = some i → Answers (.imageQuery lb) lb 0 s fun t => resultData t lb (pack (imageResult h i ++ [u16 (phUsing s h)])).length = pack (imageResult h i ++ [u16 (phUsing s h)]))
  ∧ (∀ (s : State) (lb h set_ : Nat) (i : Image) (pl : Placing) (p : Ph), Started s lb 0x0304 → ownImage s (some lb) (argOf s lb 0x0304 0) = some i → weightSourceOk s (BitVec.ofNat 32 (argOf s lb 0x0304 2)) = true → budgetError i (argOf s lb 0x0304 1 == 1) = none → routeSetOf s i.ctx = some set_ → tfree s.res.phs 0 4096 = some h → placeAll s i.fronds {} = some pl → claimsOf s lb < claimQuota s lb → p = { image := argOf s lb 0x0304 0, overflow := decide (0 < excessOf i), source := { pc := BitVec.ofNat 32 (argOf s lb 0x0304 2), off := argOf s lb 0x0304 4 }, bound := pl.bound, tileOf := pl.tiles, claims := [lb], order := s.res.nextOrder, lb := some lb } → s.xlat.pins.length + (phPins (moduleNumber s) h i p).length ≤ pinStoreSize → (((phFronds p).any fun f => !slotsFit s i f) = false) → i.stewards ≤ (freeCores s (phFronds p)).length → Gives (.phCreate lb) s fun t => (lbOf t lb).phase = .waiting ∧ (phOf t h).map Ph.state = some .loading ∧ (phOf t h).map Ph.bound = some pl.bound ∧ (phOf t h).map Ph.tileOf = some pl.tiles ∧ (phOf t h).map Ph.claims = some [lb] ∧ (phOf t h).map Ph.lb = some (some lb))
  ∧ (∀ (s : State) (lb h : Nat) (p : Ph), Started s lb 0x0305 → h = argOf s lb 0x0305 0 → phOf s h = some p → (lb % 64 = 0 ∨ p.claims.contains (lb / 64 * 64) = true) → p.claims.contains lb = false → claimsOf s lb < claimQuota s lb → Answers (.phClaim lb) lb 0 s fun t => phOf t h = some { p with claims := p.claims ++ [lb] })
  ∧ (∀ (s : State) (lb h : Nat) (p : Ph), Started s lb 0x0306 → h = argOf s lb 0x0306 0 → claimedPh s (some lb) h = some p → (p.claims.filter (· != lb)).isEmpty = false → Answers (.phRelease lb) lb 0 s fun t => phOf t h = some { p with claims := p.claims.filter (· != lb) })
  ∧ (∀ (s : State) (lb h : Nat) (p : Ph), Started s lb 0x0306 → h = argOf s lb 0x0306 0 → claimedPh s (some lb) h = some p → (p.claims.filter (· != lb)).isEmpty = true → p.state ≠ .evicting → Answers (.phRelease lb) lb 0 s fun t => phOf t h = none)
  ∧ (∀ (s : State) (lb h : Nat) (p : Ph), Started s lb 0x0307 → h = argOf s lb 0x0307 0 → claimedPh s (some lb) h = some p → Answers (.phEvict lb) lb 0 s fun t => phOf t h = none ∧ t.xlat.pins = s.xlat.pins.filter (fun q => q.programmed != some h))
  ∧ (∀ (s : State) (lb h : Nat) (p : Ph), Started s lb 0x0308 → argOf s lb 0x0308 0 = 0xFFFF → h = argOf s lb 0x0308 1 → claimedPh s (some lb) h = some p → Gives (.phStop lb) s fun t => t = stopSend lb h (onLb lb (fun l => { l with phase := .waiting }) s))
  ∧ (∀ (s : State) (lb h : Nat) (p : Ph) (fs : List Nat), Started s lb 0x0308 → argOf s lb 0x0308 0 = 0xFFFF → h = argOf s lb 0x0308 1 → claimedPh s (some lb) h = some p → fs = (phFronds p).filter (dieUp s) → fs ≠ [] → Gives (.phStop lb) s fun t => (lbOf t lb).phase = .waiting ∧ (lbOf t lb).state = .running ∧ t.res.stops = s.res.stops ++ [(lb, h, fs, 0)])
  ∧ (∀ (s : State) (lb h : Nat) (p : Ph) (i : Image), Started s lb 0x0309 → h = argOf s lb 0x0309 0 → claimedPh s (some lb) h = some p → imageOf s p = some i → Answers (.phQuery lb) lb 0 s fun t => resultData t lb 14 = (pack [u8 (phCode p.state), u8 (b2n p.stamp), u8 (b2n p.overflow), u32 p.image, u32 i.tiles, u16 p.claims.length]).take 14)
  ∧ (∀ (s : State) (lb : Nat), Started s lb 0x030A → argOf s lb 0x030A 1 ≤ 50 → Answers (.freeMapRead lb) lb 0 s fun t => resultData t lb (40 * argOf s lb 0x030A 1) = (List.range (argOf s lb 0x030A 1)).flatMap fun i => freeMapOf s (boundTiles s) (argOf s lb 0x030A 0 + i))

/-- Loads, walks and windows complete. A load that reached its target becomes resident with its stamp; a PH_CREATE that takes too long ends "timeout" with its load cancelled, as a load read does that has been asked for twice; a cancelled load is evicted; a stamp error of a resident pigeonhole loads it again; a walk that holds a walker and lacks its line asks the host for it; a window of hot-page counting without a hot page ends with its counts cleared; and a broadcast without an answer ends "unreachable". -/
def Obligations.ResidencyRowsComplete : Prop :=
  (∀ (s : State) (h : Nat) (p : Ph) (i : Image), h < 4096 → phOf s h = some p → p.state = .loading → p.target ≤ p.residency → p.loads = [] → imageOf s p = some i → Gives (.residencyTargetReached h) s fun t => (phOf t h).map (fun q => (q.state, q.stamp, q.lb)) = some (.resident, true, none))
  ∧ (∀ (s : State) (h lb : Nat) (p : Ph), h < 4096 → phOf s h = some p → p.state = .loading → p.lb = some lb → Waits s lb 0x0304 → Answers (.phCreateTimeout h) lb eTimeout s fun t => (phOf t h).map (fun q => (q.state, q.cancel, q.lb, q.loads)) = some (.evicting, some eTimeout, none, []))
  ∧ (∀ (s : State) (h : Nat) (p : Ph), h < 4096 → phOf s h = some p → p.state = .evicting → p.cancel.isSome = true → Gives (.loadCancel h) s fun t => phOf t h = none)
  ∧ (∀ (s : State) (h record lb : Nat) (p : Ph) (l : Loading), h < 4096 → phOf s h = some p → (p.loads.find? (fun l => l.record == record) = some l) → p.state = .loading → l.outstanding ≠ 0 → l.retried = true → p.lb = some lb → Gives (.loadReadTimeout h record) s fun t => (phOf t h).map (fun q => (q.state, q.cancel, q.loads)) = some (.evicting, some eTimeout, []) ∧ t.post.journal.next = s.post.journal.next + 2)
  ∧ (∀ (s : State) (h : Nat) (p : Ph), h < 4096 → phOf s h = some p → p.state = .resident → Gives (.stampError h) s fun t => t = reload h 336 (dropLoadTags h (fun _ => true) (journalRule 8 1 1 false 336 [u16 h] s)))
  ∧ (∀ (s : State) (unit n tag : Nat) (w : Walk) (c : Ctx), isDie unit = true → tfind (unitOf s unit).walks n = some w → hasWalker s unit n = true → w.waiting = false → w.discard = false → w.ats = false → w.lines = [] → c = tget {} s.xlat.ctxs w.ctx → mirrorFind (unitOf s unit) w.ctx ((w.table + 8 * levelIndex w.va w.level) / 64 * 64) = none → canRead s c.owner = true → tfree (hostPortOf s (c.owner / 64)).reads 0 16384 = some tag → Gives (.tableWalk unit n) s fun t => t.out = s.out ++ [.dmaRead (c.owner / 64) (c.owner % 64) tag ((w.table + 8 * levelIndex w.va w.level) / 64 * 64) 64 none false] ∧ tfind (unitOf t unit).walks n = some { w with waiting := true })
  ∧ (∀ (s : State) (port fn ctx i : Nat) (h : HotPage), port < 2 → fn < 64 → (s.xlat.hot.findIdx? (fun h => h.owner == 64 * port + fn && h.ctx == ctx) = some i) → s.xlat.hot[i]? = some h → h.windowMs ≠ 0 → h.threshold ≠ 0 → (((hotSums h).all fun e => decide (e.2 < h.threshold)) = true) → Gives (.hotpageWindowEnd port fn ctx) s fun t => t.xlat.hot = s.xlat.hot.set i { h with windowNo := h.windowNo + 1, counts := [], perUnit := [] })
  ∧ (∀ (s : State) (lb : Nat), Waits s lb 0x0205 → (lbOf s lb).waitingFor.isEmpty = false → Answers (.broadcastAnswerTimeout lb) lb eUnreachable s fun t => t.xlat = s.xlat)

/-- Route tables and commits complete. ROUTE_STAGE writes entries of the staged bank, but for the derived kind 4; ROUTE_COMMIT of tables that pass their checks holds its class and waits; ROUTE_READ answers at most 200 entries of the active bank; ROUTE_SET_DEFINE of disjoint sets and DEFLECT_LIMIT take effect; a drained commit makes the staged bank active, and one that does not drain ends "timeout" with the old tables. -/
def Obligations.RouteCommandsComplete : Prop :=
  (∀ (s : State) (lb : Nat), Started s lb 0x0401 → argOf s lb 0x0401 0 ≠ 4 → argOf s lb 0x0401 2 + argOf s lb 0x0401 1 ≤ kindEntries (argOf s lb 0x0401 0) → Answers (.routeStage lb) lb 0 s fun t => t.fabric.staged = putEntries (argOf s lb 0x0401 0) (argOf s lb 0x0401 2) ((argFields 0x0401 (cmdArgs (lbOf s lb))).drop 3) s.fabric.staged ∧ t.fabric.active = s.fabric.active)
  ∧ (∀ (s : State) (lb : Nat), Started s lb 0x0402 → s.fabric.commit = none → stagedOk s = true → Gives (.routeCommit lb) s fun t => t.fabric.commit = some { lb := some lb, set_ := argOf s lb 0x0402 0 } ∧ (lbOf t lb).phase = .waiting ∧ t.fabric.active = s.fabric.active)
  ∧ (∀ (s : State) (lb : Nat), Started s lb 0x0403 → argOf s lb 0x0403 2 + argOf s lb 0x0403 1 ≤ kindEntries (argOf s lb 0x0403 0) → argOf s lb 0x0403 1 ≤ 200 → Answers (.routeRead lb) lb 0 s fun t => t.fabric = s.fabric ∧ resultData t lb (pack ((List.range (argOf s lb 0x0403 1)).map fun i => u64 (getEntry s (argOf s lb 0x0403 0) (argOf s lb 0x0403 2 + i)))).length = pack ((List.range (argOf s lb 0x0403 1)).map fun i => u64 (getEntry s (argOf s lb 0x0403 0) (argOf s lb 0x0403 2 + i))))
  ∧ (∀ (s : State) (lb : Nat) (cs : List Nat), Started s lb 0x0404 → cs = ((argFields 0x0404 (cmdArgs (lbOf s lb))).drop 2).eraseDups → ((cs.all fun c => decide (c < 2 ^ 20)) = true) → setsDisjoint (tset s.fabric.routeSets (argOf s lb 0x0404 0) cs) = true → Answers (.routeSetDefine lb) lb 0 s fun t => tget [] t.fabric.routeSets (argOf s lb 0x0404 0) = cs)
  ∧ (∀ (s : State) (lb : Nat), Started s lb 0x0405 → Answers (.deflectLimit lb) lb 0 s fun t => t.fabric.deflectLimit = argOf s lb 0x0405 0 ∧ t.fabric.active = s.fabric.active)
  ∧ (∀ (s : State) (c : Commit), s.fabric.commit = some c → drained s = true → Gives .bankSwap s fun t => t.fabric.active = swapped c.set_ s.fabric.staged s.fabric.active ∧ t.fabric.staged = t.fabric.active ∧ t.fabric.commit = none)
  ∧ (∀ (s : State) (c : Commit) (lb : Nat), s.fabric.commit = some c → drained s = false → c.lb = some lb → Waits s lb 0x0402 → Answers .commitDrainTimeout lb eTimeout s fun t => t.fabric.commit = none ∧ t.fabric.active = s.fabric.active)

/-- The port commands complete. PORT_QUERY answers a port's state, width, rate and reason; PORT_SET_WIDTH sets the limit of a port that is Disabled or in Diagnostic, starts Detect from Back-off, and narrows an Active port; PORT_SPARE gives the spare the port's logical number and starts its Detect; PORT_ADMIN disables a port, enables a Disabled or Diagnostic one, and retrains one that is not Disabled, clearing its failures. -/
def Obligations.PortCommandsComplete : Prop :=
  (∀ (s : State) (lb p : Nat), Started s lb 0x0406 → p = argOf s lb 0x0406 0 → Answers (.portQuery lb) lb 0 s fun t => t.fabric = s.fabric ∧ resultData t lb 4 = leBytes 1 (portCode (portOf s p).state) ++ leBytes 1 (if (portOf s p).state = .pattern ∨ (portOf s p).state = .lock ∨ (portOf s p).state = .exchange ∨ (portOf s p).state = .active ∨ (portOf s p).state = .keepalive then maskWidth (portOf s p).mask else 0) ++ leBytes 1 (laneRate (portOf s p)) ++ leBytes 1 (portOf s p).reason)
  ∧ (∀ (s : State) (lb p : Nat), Started s lb 0x0407 → p = argOf s lb 0x0407 0 → ((portOf s p).state = .disabled ∨ (portOf s p).state = .diagnostic) → Answers (.portSetWidth lb) lb 0 s fun t => (portOf t p).widthLimit = argOf s lb 0x0407 1 ∧ (portOf t p).state = (portOf s p).state)
  ∧ (∀ (s : State) (lb p : Nat), Started s lb 0x0407 → p = argOf s lb 0x0407 0 → (portOf s p).state = .backoff → Answers (.portSetWidth lb) lb 0 s fun t => (portOf t p).widthLimit = argOf s lb 0x0407 1 ∧ (portOf t p).state = .detect ∧ (portOf t p).reason = 0x0D)
  ∧ (∀ (s : State) (lb p : Nat), Started s lb 0x0407 → p = argOf s lb 0x0407 0 → (portOf s p).state = .active → argOf s lb 0x0407 1 < maskWidth (portOf s p).mask → rewinding (portOf s p) = false → (portOf s p).narrowing = none → Gives (.portSetWidth lb) s fun t => (portOf t p).widthLimit = argOf s lb 0x0407 1 ∧ (portOf t p).mask = formSet (portOf s p).mask (argOf s lb 0x0407 1) ∧ (portOf t p).widthLb = some lb ∧ (lbOf t lb).phase = .waiting)
  ∧ (∀ (s : State) (lb bad spare : Nat), Started s lb 0x0408 → bad = argOf s lb 0x0408 0 → spare = argOf s lb 0x0408 1 → portClass bad = 2 → portClass spare = 2 → bad ≠ spare → spare < 96 → logicalOf s bad < 96 → Answers (.portSpare lb) lb 0 s fun t => (portOf t bad).state = .disabled ∧ (portOf t spare).state = .detect ∧ physicalPort t (logicalOf s bad) = some spare)
  ∧ (∀ (s : State) (lb p : Nat), Started s lb 0x0409 → p = argOf s lb 0x0409 0 → adminIs 0 (cmdArgs (lbOf s lb)) = true → Answers (.portDisable lb) lb 0 s fun t => (portOf t p).state = .disabled ∧ (portOf t p).failures = 0 ∧ (portOf t p).up = false)
  ∧ (∀ (s : State) (lb p : Nat), Started s lb 0x0409 → p = argOf s lb 0x0409 0 → adminIs 1 (cmdArgs (lbOf s lb)) = true → ((portOf s p).state = .disabled ∨ (portOf s p).state = .diagnostic) → Answers (.portEnable lb) lb 0 s fun t => (portOf t p).state = .detect ∧ (portOf t p).attempt = (portOf s p).attempt + 1 ∧ (portOf t p).failures = 0)
  ∧ (∀ (s : State) (lb p : Nat), Started s lb 0x0409 → p = argOf s lb 0x0409 0 → adminIs 2 (cmdArgs (lbOf s lb)) = true → (portOf s p).state ≠ .disabled → (portOf s p).state ≠ .backoff → Answers (.portRetrain lb) lb 0 s fun t => (portOf t p).state = .detect ∧ (portOf t p).idle = true ∧ (portOf t p).reason = 0x0D ∧ (portOf t p).failures = 0)
  ∧ (∀ (s : State) (lb p : Nat), Started s lb 0x0409 → p = argOf s lb 0x0409 0 → adminIs 2 (cmdArgs (lbOf s lb)) = true → (portOf s p).state = .backoff → Answers (.portRetrain lb) lb 0 s fun t => (portOf t p).state = .detect ∧ (portOf t p).idle = false ∧ (portOf t p).reason = 0x0D ∧ (portOf t p).failures = 0)

/-- The lane diagnostics complete. In the port states R224 allows and with parameters in their stated values: STATUS, EYE_SUMMARY and EYE_SCAN answer and change nothing; DIAG_ENTER puts a Disabled port in Diagnostic at the rate; TX_TAPS_SET, PRBS_GEN, PRBS_CHECK, PATTERN_LOW, PATTERN_HIGH, BIT_SLIP, LOOPBACK and RATE_LIMIT set their lane or port; PRBS_READ answers the counters and clears them where asked, and counts a word against the user pattern; CAPTURE answers the last word received. -/
def Obligations.LaneDiagnosticRowsComplete : Prop :=
  (∀ (s : State) (lb p l v : Nat), Started s lb 0x040A → diagIs 0x00 (cmdArgs (lbOf s lb)) = true → p = argOf s lb 0x040A 0 → l = argOf s lb 0x040A 1 → v = argOf s lb 0x040A 3 → v = 0 → Answers (.status lb) lb 0 s fun t => t.fabric = s.fabric ∧ resultData t lb (statusBytes s p l).length = statusBytes s p l)
  ∧ (∀ (s : State) (lb p l v : Nat), Started s lb 0x040A → diagIs 0x01 (cmdArgs (lbOf s lb)) = true → p = argOf s lb 0x040A 0 → l = argOf s lb 0x040A 1 → v = argOf s lb 0x040A 3 → (portOf s p).state = .disabled → classRate (portClass p) v = true → Answers (.diagEnter lb) lb 0 s fun t => (portOf t p).state = .diagnostic ∧ (portOf t p).rate = v)
  ∧ (∀ (s : State) (lb p l v : Nat), Started s lb 0x040A → diagIs 0x02 (cmdArgs (lbOf s lb)) = true → p = argOf s lb 0x040A 0 → l = argOf s lb 0x040A 1 → v = argOf s lb 0x040A 3 → (portOf s p).state = .diagnostic → v < 2 ^ 16 → v % 256 ≤ 4 → tapsOk (portClass p) ((laneOf (portOf s p) l).taps.set (v % 256) (signed8 (v / 256))) = true → Answers (.txTapsSet lb) lb 0 s fun t => (laneOf (portOf t p) l).taps = (laneOf (portOf s p) l).taps.set (v % 256) (signed8 (v / 256)))
  ∧ (∀ (s : State) (lb p l v : Nat), Started s lb 0x040A → diagIs 0x03 (cmdArgs (lbOf s lb)) = true → p = argOf s lb 0x040A 0 → l = argOf s lb 0x040A 1 → v = argOf s lb 0x040A 3 → (portOf s p).state = .diagnostic → v < 32 → v % 16 ≤ 8 → patternFits s p v = true → Answers (.prbsGen lb) lb 0 s fun t => (laneOf (portOf t p) l).gen = v % 16 ∧ (laneOf (portOf t p) l).genInvert = bit v 4)
  ∧ (∀ (s : State) (lb p l v : Nat), Started s lb 0x040A → diagIs 0x04 (cmdArgs (lbOf s lb)) = true → p = argOf s lb 0x040A 0 → l = argOf s lb 0x040A 1 → v = argOf s lb 0x040A 3 → (portOf s p).state = .diagnostic → v < 32 → v % 16 ≤ 8 → patternFits s p v = true → Answers (.prbsCheck lb) lb 0 s fun t => (laneOf (portOf t p) l).check = v % 16 ∧ (laneOf (portOf t p) l).checkInvert = bit v 4 ∧ (laneOf (portOf t p) l).errors = 0 ∧ (laneOf (portOf t p) l).bitsSeen = 0)
  ∧ (∀ (s : State) (lb p l v : Nat), Started s lb 0x040A → diagIs 0x05 (cmdArgs (lbOf s lb)) = true → p = argOf s lb 0x040A 0 → l = argOf s lb 0x040A 1 → v = argOf s lb 0x040A 3 → (portOf s p).state = .diagnostic → v ≤ 1 → Answers (.prbsRead lb 0 0 true) lb 0 s fun t => resultData t lb 17 = leBytes 8 (laneOf (portOf s p) l).errors ++ leBytes 8 (laneOf (portOf s p) l).bitsSeen ++ leBytes 1 (b2n (laneOf (portOf s p) l).checkLock) ∧ (laneOf (portOf t p) l).errors = (if v = 1 then 0 else (laneOf (portOf s p) l).errors) ∧ (laneOf (portOf t p) l).bitsSeen = (if v = 1 then 0 else (laneOf (portOf s p) l).bitsSeen))
  ∧ (∀ (s : State) (lb p l v : Nat) (w : BitVec 64), Started s lb 0x040A → diagIs 0x05 (cmdArgs (lbOf s lb)) = true → p = argOf s lb 0x040A 0 → l = argOf s lb 0x040A 1 → v = argOf s lb 0x040A 3 → (portOf s p).state = .diagnostic → v = 0 → (laneOf (portOf s p) l).check = 8 → (laneOf (portOf s p) l).checkInvert = false → (laneOf (portOf s p) l).loopback = 0 → (laneOf (portOf s p) l).slip = 0 → Answers (.prbsRead lb w.toNat 1 true) lb 0 s fun t => (laneOf (portOf t p) l).errors = count48 ((laneOf (portOf s p) l).errors + bitErrors w.toNat (laneOf (portOf s p) l).pattern) ∧ (laneOf (portOf t p) l).bitsSeen = count48 ((laneOf (portOf s p) l).bitsSeen + 64))
  ∧ (∀ (s : State) (lb p l v : Nat), Started s lb 0x040A → diagIs 0x06 (cmdArgs (lbOf s lb)) = true → p = argOf s lb 0x040A 0 → l = argOf s lb 0x040A 1 → v = argOf s lb 0x040A 3 → (portOf s p).state = .diagnostic → Answers (.patternLow lb) lb 0 s fun t => (laneOf (portOf t p) l).pattern = (laneOf (portOf s p) l).pattern / 2 ^ 32 * 2 ^ 32 + v)
  ∧ (∀ (s : State) (lb p l v : Nat), Started s lb 0x040A → diagIs 0x07 (cmdArgs (lbOf s lb)) = true → p = argOf s lb 0x040A 0 → l = argOf s lb 0x040A 1 → v = argOf s lb 0x040A 3 → (portOf s p).state = .diagnostic → Answers (.patternHigh lb) lb 0 s fun t => (laneOf (portOf t p) l).pattern = v * 2 ^ 32 + (laneOf (portOf s p) l).pattern % 2 ^ 32)
  ∧ (∀ (s : State) (lb p l v w : Nat), Started s lb 0x040A → diagIs 0x08 (cmdArgs (lbOf s lb)) = true → p = argOf s lb 0x040A 0 → l = argOf s lb 0x040A 1 → v = argOf s lb 0x040A 3 → (portOf s p).state = .diagnostic → v = 0 → (laneOf (portOf s p) l).last = some w → (laneOf (portOf s p) l).slip = 0 → Answers (.capture lb []) lb 0 s fun t => t.fabric = s.fabric ∧ resultData t lb 8 = leBytes 8 w)
  ∧ (∀ (s : State) (lb p l v : Nat) (w : BitVec 64), Started s lb 0x040A → diagIs 0x08 (cmdArgs (lbOf s lb)) = true → p = argOf s lb 0x040A 0 → l = argOf s lb 0x040A 1 → v = argOf s lb 0x040A 3 → (portOf s p).state = .diagnostic → v = 0 → (laneOf (portOf s p) l).loopback = 0 → (laneOf (portOf s p) l).slip = 0 → Answers (.capture lb [w]) lb 0 s fun t => resultData t lb 8 = leBytes 8 w.toNat)
  ∧ (∀ (s : State) (lb p l v : Nat), Started s lb 0x040A → diagIs 0x09 (cmdArgs (lbOf s lb)) = true → p = argOf s lb 0x040A 0 → l = argOf s lb 0x040A 1 → v = argOf s lb 0x040A 3 → (portOf s p).state = .diagnostic → 1 ≤ v → v ≤ 63 → Answers (.bitSlip lb) lb 0 s fun t => (laneOf (portOf t p) l).slip = ((laneOf (portOf s p) l).slip + v) % 64)
  ∧ (∀ (s : State) (lb p l v : Nat), Started s lb 0x040A → diagIs 0x0A (cmdArgs (lbOf s lb)) = true → p = argOf s lb 0x040A 0 → l = argOf s lb 0x040A 1 → v = argOf s lb 0x040A 3 → (portOf s p).state = .diagnostic → v ≤ 2 → Answers (.loopback lb) lb 0 s fun t => (laneOf (portOf t p) l).loopback = v)
  ∧ (∀ (s : State) (lb p l v : Nat) (eyes : List EyeReading), Started s lb 0x040A → diagIs 0x0B (cmdArgs (lbOf s lb)) = true → p = argOf s lb 0x040A 0 → l = argOf s lb 0x040A 1 → v = argOf s lb 0x040A 3 → eyeStates (portOf s p).state = true → v = 0 → Answers (.eyeSummary lb eyes) lb 0 s fun t => t.fabric = s.fabric ∧ resultData t lb (pack ((eyes.take (eyeCount (portOf s p))).flatMap eyeFields)).length = pack ((eyes.take (eyeCount (portOf s p))).flatMap eyeFields))
  ∧ (∀ (s : State) (lb p l v : Nat) (errors : List Nat), Started s lb 0x040A → diagIs 0x0C (cmdArgs (lbOf s lb)) = true → p = argOf s lb 0x040A 0 → l = argOf s lb 0x040A 1 → v = argOf s lb 0x040A 3 → eyeStates (portOf s p).state = true → eyeParam (portOf s p) v = true → Answers (.eyeScan lb errors) lb 0 s fun t => t.fabric = s.fabric ∧ resultData t lb (eyeBitmap (v / 256) errors).length = eyeBitmap (v / 256) errors)
  ∧ (∀ (s : State) (lb p l v : Nat), Started s lb 0x040A → diagIs 0x0D (cmdArgs (lbOf s lb)) = true → p = argOf s lb 0x040A 0 → l = argOf s lb 0x040A 1 → v = argOf s lb 0x040A 3 → 1 ≤ v → v ≤ 3 → classRate (portClass p) v = true → Answers (.rateLimit lb) lb 0 s fun t => (portOf t p).rateLimit = v)

/-- Discovery acts. A started DISCOVERY_START opens the next epoch, in its mode, and its letterbox waits; HELLO_SEND sends a HELLO at every Active port whose agent is not reloaded; a lone module's quiet election makes it the root that computes, and its computation gives it number 0 and a commit time 1 ms ahead; a HELLO records the neighbour with its identity and its root; at the root a REPORT of the epoch is added with its port, and an acknowledgement while it assigns is recorded; elsewhere an assignment for another module is passed on, one for this module that it does not refuse is kept, held when the number differs, and a COMMIT records its time; a FAIL of the epoch, or the step timeout at the root, ends the discovery with the number unchanged; at the commit time with no commit in progress the assigned number is adopted and the hold ends -/
def Obligations.DiscoveryRowsComplete : Prop :=
  (∀ (s : State) (lb : Nat), Started s lb 0x040B → Gives (.discoveryStart lb) s fun t => t.disc.step = .electing ∧ t.disc.root.epoch = (s.disc.highest + 1) % 65536 ∧ t.disc.mode = argOf s lb 0x040B 0 ∧ t.disc.lb = some lb ∧ (lbOf t lb).phase = .waiting)
  ∧ (∀ (s : State), Gives .helloSend s fun t => t = updates ((activePorts s).filter fun p => !(reloadingDies s).contains (p / 6)) (fun p s => sendDiscovery p 0x10 (helloFields s p) s) s)
  ∧ (∀ (s : State), s.disc.step = .electing → activePorts s = [] → isRoot s = true → children s = [] → Gives .electionQuiet s fun t => t.disc.step = .computing)
  ∧ (∀ (s : State), s.disc.step = .computing → s.disc.reports = [] → isRoot s = true → refuses s { identity := ownIdentity, number := 0, rack := 0, position := 0, mode := s.disc.mode, dimX := 1 - s.disc.mode, dimY := 1 - s.disc.mode, dimZ := 1 - s.disc.mode } = false → children s = [] → Gives .rootCompute s fun t => t.disc.step = .committing ∧ t.disc.commitAt = s.time.rackTime + ticksUs 1000 ∧ t.disc.mine.map Assign.number = some 0)
  ∧ (∀ (s : State) (p : Nat) (b : List Byte) (q : Pkt), p < 96 → (portOf s p).state = .active → b.length = 64 → hdrKind b = 1 → field b 3 1 = 0x10 → stageB (moduleNumber s) (some 2) b = none → q = readPkt b → Gives (.hello p b) s fun t => (tfind t.disc.neighbours p).map Neighbour.identity = some (ctlArg q 0x18 8) ∧ (tfind t.disc.neighbours p).map Neighbour.root = some { identity := ctlArg q 0x20 8, epoch := ctlArg q 0x28 2, priority := ctlArg q 0x2D 1 })
  ∧ (∀ (s : State) (p : Nat) (b : List Byte) (q : Pkt), p < 96 → (portOf s p).state = .active → b.length = 64 → hdrKind b = 1 → field b 3 1 = 0x11 → stageB (moduleNumber s) (some 2) b = none → q = readPkt b → ctlArg q 0x28 2 = s.disc.root.epoch → ctlArg q 0x2A 1 ≠ 0xFF → isRoot s = true → Gives (.report p b) s fun t => t.disc.reports = s.disc.reports ++ [readReport q] ∧ t.disc.via.head? = some (ctlArg q 0x18 8, p))
  ∧ (∀ (s : State) (p : Nat) (b : List Byte) (q : Pkt), p < 96 → (portOf s p).state = .active → b.length = 64 → hdrKind b = 1 → field b 3 1 = 0x12 → stageB (moduleNumber s) (some 2) b = none → q = readPkt b → ctlArg q 0x20 2 = s.disc.root.epoch → isRoot s = false → Gives (.assign p b) s fun t => (ctlArg q 0x18 8 ≠ ownIdentity → t = sendAssign (readAssign q) s) ∧ (ctlArg q 0x18 8 = ownIdentity → refuses s (readAssign q) = false → t.disc.mine = some (readAssign q) ∧ t.disc.held = ((readAssign q).number != s.disc.number)))
  ∧ (∀ (s : State) (p : Nat) (b : List Byte) (q : Pkt), p < 96 → (portOf s p).state = .active → b.length = 64 → hdrKind b = 1 → field b 3 1 = 0x13 → stageB (moduleNumber s) (some 2) b = none → q = readPkt b → ctlArg q 0x20 2 = s.disc.root.epoch → isRoot s = true → s.disc.step = .assigning → ctlArg q 0x24 1 = 0 → Gives (.assignAck p b) s fun t => t.disc.acks.contains (ctlArg q 0x18 8) = true ∧ (t.disc.step = .assigning ∨ t.disc.step = .committing))
  ∧ (∀ (s : State) (p : Nat) (b : List Byte) (q : Pkt), p < 96 → (portOf s p).state = .active → b.length = 64 → hdrKind b = 1 → field b 3 1 = 0x14 → stageB (moduleNumber s) (some 2) b = none → q = readPkt b → ctlArg q 0x18 2 = s.disc.root.epoch → isRoot s = false → Gives (.commit p b) s fun t => t.disc.step = .committing ∧ t.disc.commitAt = ctlArg q 0x20 8)
  ∧ (∀ (s : State) (p : Nat) (b : List Byte) (q : Pkt), p < 96 → (portOf s p).state = .active → b.length = 64 → hdrKind b = 1 → field b 3 1 = 0x15 → stageB (moduleNumber s) (some 2) b = none → q = readPkt b → ctlArg q 0x18 2 = s.disc.root.epoch → s.disc.step ≠ .idle → Gives (.fail p b) s fun t => t.disc.step = .idle ∧ t.disc.mine = none ∧ t.disc.number = s.disc.number)
  ∧ (∀ (s : State) (a : Assign), s.disc.step = .committing → s.disc.commitAt ≤ s.time.rackTime → s.fabric.commit = none → s.disc.mine = some a → Gives .commitTime s fun t => t.disc.number = a.number ∧ t.disc.assigned = true ∧ t.disc.committed = some a ∧ t.disc.step = .idle ∧ t.disc.held = false)
  ∧ (∀ (s : State), s.disc.step ≠ .idle → isRoot s = true → Gives .discoveryStepTimeout s fun t => t.disc.step = .idle ∧ t.disc.number = s.disc.number)

/-- Lane events act. On a port below 96: in Detect a valid beacon adds one to the lane's count and records its polarity and the partner's lane; READY_TIMER sets Ready once a lane is detected; in Pattern a training frame with both CRCs right sets the lane's trained mark and its sequence number; in Lock a right marker is counted, and the fourth gives symbol lock; a lock window with no uncorrectable codeword, a skew of at most 64 ns and every lane locked passes to Exchange with the same lanes; a timeout falls back to Detect, idle, with its reason and one more failure; the end of the idle starts the next attempt, or, after 8 failures, Back-off, from which an attempt starts Detect; LOS sets the lane's LOS and clears its lock and its beacons, its end clears it, loss of lock clears both locks; the return check after Keep-alive ends the return when every lane has bit lock, as the row gives it, and symbol lock, and falls back with reason 0x0C when one has not; a laser failure on an optical port excludes the lane and is journalled -/
def Obligations.LaneRowsComplete : Prop :=
  (∀ (s : State) (p l : Nat) (w v : BitVec 64) (inv : Bool), p < 96 → l < 4 → (portOf s p).state = .detect → (portOf s p).idle = false → readBeacon w = some (v, inv) → Gives (.beacon p l w) s fun t => (laneOf (portOf t p) l).beacons = (laneOf (portOf s p) l).beacons + 1 ∧ (laneOf (portOf t p) l).inverted = inv ∧ (laneOf (portOf t p) l).partnerLane = bv v 17 16)
  ∧ (∀ (s : State) (p : Nat), p < 96 → (portOf s p).state = .detect → (portOf s p).idle = false → (portOf s p).ready = false → ((List.range 4).any (detected (portOf s p))) = true → Gives (.readyTimer p) s fun t => (portOf t p).ready = true)
  ∧ (∀ (s : State) (p l : Nat) (control status : BitVec 32) (own : Bool), p < 96 → l < 4 → (portOf s p).state = .pattern → bit (portOf s p).mask l = true → trainOk control = true → trainOk status = true → Gives (.trainingFrame p l control status own) s fun t => (laneOf (portOf t p) l).trained = own ∧ (laneOf (portOf t p) l).sequence = bits control.toNat 23 16)
  ∧ (∀ (s : State) (p l : Nat) (w : BitVec 64), p < 96 → l < 4 → (portOf s p).state = .lock → bit (portOf s p).mask l = true → markerOk w = true → Gives (.alignmentMarker p l w) s fun t => (laneOf (portOf t p) l).markers = (laneOf (portOf s p) l).markers + 1 ∧ (laneOf (portOf t p) l).symbolLock = ((laneOf (portOf s p) l).symbolLock || decide (4 ≤ (laneOf (portOf s p) l).markers + 1)))
  ∧ (∀ (s : State) (p skew locked : Nat), p < 96 → (portOf s p).state = .lock → (portOf s p).fecBad = false → skew ≤ 64 → locked < 16 → (portOf s p).mask &&& locked = (portOf s p).mask →
      (((maskLanes (portOf s p).mask).all fun l => (laneOf (portOf s p) l).symbolLock) = true) →
      Gives (.lockFecWindow p false skew locked) s fun t => (portOf t p).state = .exchange ∧ (portOf t p).mask = (portOf s p).mask)
  ∧ (∀ (s : State) (p : Nat) (r : Nat), p < 96 → timeoutReason s p = some r → Gives (.trainingTimeout p) s fun t => (portOf t p).state = .detect ∧ (portOf t p).idle = true ∧ (portOf t p).reason = r ∧ (portOf t p).failures = (portOf s p).failures + 1)
  ∧ (∀ (s : State) (p : Nat), p < 96 → (portOf s p).idle = true → (portOf s p).inBackoff = false → (portOf s p).failures < 8 → Gives (.fallbackIdleEnd p) s fun t => (portOf t p).state = .detect ∧ (portOf t p).idle = false ∧ (portOf t p).attempt = (portOf s p).attempt + 1)
  ∧ (∀ (s : State) (p : Nat), p < 96 → (portOf s p).idle = true → 8 ≤ (portOf s p).failures → Gives (.fallbackIdleEnd p) s fun t => (portOf t p).state = .backoff ∧ (portOf t p).idle = false ∧ (portOf t p).inBackoff = true)
  ∧ (∀ (s : State) (p : Nat), p < 96 → (portOf s p).state = .backoff → Gives (.backoffAttempt p) s fun t => (portOf t p).state = .detect ∧ (portOf t p).attempt = (portOf s p).attempt + 1)
  ∧ (∀ (s : State) (p l : Nat), p < 96 → l < 4 → Gives (.losAssert p l) s fun t => (laneOf (portOf t p) l).los = true ∧ (laneOf (portOf t p) l).bitLock = false ∧ (laneOf (portOf t p) l).beacons = 0)
  ∧ (∀ (s : State) (p l : Nat), p < 96 → l < 4 → Gives (.losClear p l) s fun t => (laneOf (portOf t p) l).los = false)
  ∧ (∀ (s : State) (p l : Nat), p < 96 → l < 4 → Gives (.lossOfLock p l) s fun t => (laneOf (portOf t p) l).bitLock = false ∧ (laneOf (portOf t p) l).symbolLock = false)
  ∧ (∀ (s : State) (p bitLocked : Nat), p < 96 → (portOf s p).returning = true → (((maskLanes (portOf s p).mask).all fun l => bit bitLocked l && (laneOf (portOf s p) l).symbolLock) = true) →
      Gives (.keepaliveReturnCheck p bitLocked) s fun t => (portOf t p).returning = false ∧ (portOf t p).state = (portOf s p).state)
  ∧ (∀ (s : State) (p bitLocked : Nat), p < 96 → (portOf s p).returning = true → (((maskLanes (portOf s p).mask).all fun l => bit bitLocked l && (laneOf (portOf s p) l).symbolLock) = false) →
      Gives (.keepaliveReturnCheck p bitLocked) s fun t => (portOf t p).state = .detect ∧ (portOf t p).idle = true ∧ (portOf t p).reason = 0x0C)
  ∧ (∀ (s : State) (p l : Nat), p < 96 → l < 4 → portClass p = 2 → Gives (.laserFailure p l) s fun t => (laneOf (portOf t p) l).excluded = true ∧ t.post.journal.next = s.post.journal.next + 1)

/-- Link layer events act. On a port below 96: FLIT_SEND in Active or Keep-alive with flits to send again sends the first of them, with an output and the escape credits it can carry; a payload flit that passes its checks in Active, whose header leaves the port Active and which carries the expected number, advances that number and clears NAK; the replay timer, with flits unacknowledged and fewer than three rewinds, starts sending every one of them again; the repeat in Exchange records the firmware hold it is given and queues a CAP; a compatible CAP before the eighth sample is recorded with its token; START is recorded and gives Active when this end has sent its own; NARROW takes the lanes in both masks and queues its answer, NARROW_ACK, with no PORT_SET_WIDTH waiting, takes them, ends the narrowing and starts sending again, a narrowing not answered falls back with 0x26, and a lane over its error limit is left out with a narrowing; an own KA_ENTER met by the partner's, by its KA_ACK or by the timeout gives Keep-alive, KA_EXIT in Keep-alive gives Active with the return check and an answer; an escape packet that waits at a port without credits is journalled and the fabric stays -/
def Obligations.LinkRowsComplete : Prop :=
  (∀ (s : State) (p : Nat) (f : TxFlit) (rest : List TxFlit), p < 96 → ((portOf s p).state = .active ∨ (portOf s p).state = .keepalive) → (portOf s p).resend = f :: rest → Gives (.flitSend p) s fun t => (portOf t p).resend = rest ∧ t.out.length > s.out.length ∧ (portOf t p).owedCredits = (portOf s p).owedCredits - min (portOf s p).owedCredits 255)
  ∧ (∀ (s : State) (p : Nat) (flit : List Byte), p < 96 → (portOf s p).state = .active → flitBad flit false = false → field flit 0 1 % 4 = 1 → (portOf (takeHeader p flit s) p).state = .active → field flit 2 2 = (portOf s p).expected → Gives (.payloadFlitReceive p (.flit flit) false) s fun t => (portOf t p).expected = ((portOf s p).expected + 1) % 65536 ∧ (portOf t p).nak = false)
  ∧ (∀ (s : State) (p : Nat), p < 96 → isUp (portOf s p) = true → (portOf s p).acked ≠ (portOf s p).next → (portOf s p).rewinds < 3 → Gives (.replayTimerExpiry p) s fun t => (portOf t p).resend = (portOf s p).replay ∧ (portOf t p).rewinds = (portOf s p).rewinds + 1)
  ∧ (∀ (s : State) (p : Nat) (held : Bool), p < 96 → (portOf s p).state = .exchange →
      Gives (.linkControlRepeat { port := p, held := held }) s fun t => (portOf t p).held = held ∧ (portOf t p).controls.contains 0x01 = true ∧ (portOf t p).state = .exchange)
  ∧ (∀ (s : State) (p : Nat) (b : List Byte) (rtt : Nat), p < 96 → (portOf s p).state = .exchange → field b 0 1 = 1 → capReason b = none → (portOf s p).samples < 7 → Gives (.cap p b rtt) s fun t => (portOf t p).cap = some (readCap b) ∧ (portOf t p).partnerToken = field b 0x1A 2)
  ∧ (∀ (s : State) (p : Nat), p < 96 → (portOf s p).state = .exchange → Gives (.start p) s fun t => (portOf t p).startGot = true ∧ (portOf t p).state = (if (portOf s p).startSent then .active else .exchange))
  ∧ (∀ (s : State) (p m new : Nat), p < 96 → isUp (portOf s p) = true → (portOf s p).narrowGot ≠ some m →
      new = formSet (ownMask (portOf s p) m &&& (portOf s p).mask) 4 → new ≠ 0 →
      Gives (.narrow p m) s fun t => (portOf t p).mask = new ∧ (portOf t p).rxMask = new ∧ (portOf t p).controls.contains 0x04 = true)
  ∧ (∀ (s : State) (p m new : Nat), p < 96 → (portOf s p).narrowing.isSome = true → (portOf s p).widthLb = none →
      new = formSet (ownMask (portOf s p) m &&& (portOf s p).mask) 4 → new ≠ 0 →
      Gives (.narrowAck p m) s fun t => (portOf t p).mask = new ∧ (portOf t p).rxMask = new ∧ (portOf t p).narrowing = none ∧ (portOf t p).resend = (portOf s p).replay)
  ∧ (∀ (s : State) (p : Nat), p < 96 → (portOf s p).narrowing.isSome = true → Gives (.narrowTimeout p) s fun t => (portOf t p).state = .detect ∧ (portOf t p).reason = 0x26 ∧ (portOf t p).narrowing = none)
  ∧ (∀ (s : State) (p l : Nat) (unc : Bool) (left : Nat), p < 96 → l < 4 → (portOf s p).state = .active → bit (portOf s p).mask l = true → left = formSet (lanesMask ((maskLanes (portOf s p).mask).filter (· != l))) 4 → left ≠ 0 → Gives (.laneErrorThreshold p l unc) s fun t => (portOf t p).mask = left ∧ (portOf t p).narrowing = some { oldMask := (portOf s p).mask, newMask := left })
  ∧ (∀ (s : State) (p : Nat) (c : CapInfo), p < 96 → (portOf s p).state = .active → (portOf s p).exitSent = false → (portOf s p).cap = some c → bit c.features 2 = true → (portOf s p).kaSent = true → Gives (.kaEnter p) s fun t => (portOf t p).state = .keepalive ∧ (portOf t p).kaSent = false)
  ∧ (∀ (s : State) (p : Nat), p < 96 → (portOf s p).state = .active → (portOf s p).kaSent = true → Gives (.kaAck p) s fun t => (portOf t p).state = .keepalive ∧ (portOf t p).kaSent = false)
  ∧ (∀ (s : State) (p : Nat), p < 96 → (portOf s p).state = .active → (portOf s p).kaSent = true → Gives (.kaEnterTimeout p) s fun t => (portOf t p).state = .keepalive ∧ (portOf t p).kaSent = false)
  ∧ (∀ (s : State) (p : Nat), p < 96 → (portOf s p).state = .keepalive → (portOf s p).exitSent = false → Gives (.kaExit p) s fun t => (portOf t p).state = .active ∧ (portOf t p).returning = true ∧ (portOf t p).controls.contains 0x07 = true)
  ∧ (∀ (s : State) (p : Nat), p < 96 → isUp (portOf s p) = true → (portOf s p).credits = 0 → ((s.fabric.flights.any fun e => e.2.loc == .egress p && outerEscape e.2.pkt) = true) → Gives (.escapeCreditStall p) s fun t => t.post.journal.next = s.post.journal.next + 1 ∧ t.fabric = s.fabric)

/-- The ring engine acts. A doorbell through a page of the ring, on an enabled BAR and in the ring's range, moves the tail, and one that exceeds the entries moves nothing, sets RING_STATUS[1] and is journalled; a consumed count within what was written is taken; a Running ring with no entry owed, room to fetch and a host translation cached reads its next descriptors; in its turn the oldest fetched descriptor that may start joins the started ones with its engine and its leaves, with the status of the check that it fails if it fails one; a quiet descriptor that ended ok settles without an entry, and another one with room and a host translation cached writes one; RING_ERROR with reason 1 to 4 puts a live ring, and with reason 3 a Stopped ring that has entries to write, in Error with its reason, status bit, event and record; the moderation timer of a ring with a time limit sends the message for what is unsignalled -/
def Obligations.RingEngineRowsComplete : Prop :=
  (∀ (s : State) (port fn page value r : Nat), port < 2 → fn < 64 → barOpen s (64 * port + fn) = true → pageRing s (64 * port + fn) page = some r → (ringOf s r).state ≠ .allocated → sub32 value (ringOf s r).head ≤ (ringOf s r).entries → sub32 (ringOf s r).tail (ringOf s r).head ≤ sub32 value (ringOf s r).head → (ringOf s r).state ≠ .free → Gives (.ringDoorbell port fn page value) s fun t => (ringOf t r).tail = value % 2 ^ 32 ∧ (ringOf t r).head = (ringOf s r).head ∧ t.post = s.post)
  ∧ (∀ (s : State) (port fn page value r : Nat), port < 2 → fn < 64 → barOpen s (64 * port + fn) = true → pageRing s (64 * port + fn) page = some r → (ringOf s r).state ≠ .free → (ringOf s r).state ≠ .allocated → (ringOf s r).entries < sub32 value (ringOf s r).head → Gives (.ringDoorbell port fn page value) s fun t => (ringOf t r).tail = (ringOf s r).tail ∧ bit (ringOf t r).status 1 = true ∧ t.post.journal.next = s.post.journal.next + 1)
  ∧ (∀ (s : State) (port fn page value r : Nat), port < 2 → fn < 64 → barOpen s (64 * port + fn) = true → pageRing s (64 * port + fn) page = some r → sub32 value (ringOf s r).cqConsumed ≤ sub32 (ringOf s r).cqWritten (ringOf s r).cqConsumed → Gives (.ringCqConsumed port fn page value) s fun t => (ringOf t r).cqConsumed = value % 2 ^ 32 ∧ (ringOf t r).cqWritten = (ringOf s r).cqWritten)
  ∧ (∀ (s : State) (ring a left m tag : Nat) (tr : Bool), ring < 1088 → (ringOf s ring).state = .running → (ringOf s ring).fetching = false → (ringOf s ring).owed = 0 → fetchRoom (ringOf s ring) ≠ 0 → ringResolve s ring ((ringOf s ring).base + 64 * (nextFetch (ringOf s ring) % max 1 (ringOf s ring).entries)) false = some (some (.host a tr, left)) → m = min (fetchRoom (ringOf s ring)) (pieceLen a (min (64 * fetchRoom (ringOf s ring)) left) (fnOf s (ringOf s ring).owner).maxRead / 64) → m ≠ 0 → canRead s (ringOf s ring).owner = true → tfree (hostPortOf s ((ringOf s ring).owner / 64)).reads 0 16384 = some tag → Gives (.descriptorFetch ring) s fun t => (ringOf t ring).fetching = true ∧ tfind (hostPortOf t ((ringOf s ring).owner / 64)).reads tag = some { fn := (ringOf s ring).owner, addr := a, len := 64 * m, purpose := .fetch ring (nextFetch (ringOf s ring)) m })
  ∧ (∀ (s : State) (ring : Nat) (f : Fetched) (rest : List Fetched) (l : List Leaf), ring < 1088 → (ringOf s ring).fetched = f :: rest → mayStartDesc s ring f = true → turnOf s ring = true →
      descCheck s ring f.bytes = none → (descType f.bytes ≠ 1 ∨ fanoutBad s f.bytes = false) →
      l = (if f.stale ∧ descType f.bytes ≠ 1 ∧ descType f.bytes ≠ 4 then pinnedLeaves s ring f.bytes else f.leaves) →
      Gives (.descriptorStart ring) s fun t => (ringOf t ring).fetched = rest ∧ tfind t.host.turns (ringDie ring - 96) = some ring
        ∧ (ringOf t ring).started = (ringOf s ring).started ++ [{ count := f.count, bytes := f.bytes, status := f.fail, engine := chooseEngine s ring l f.bytes, leaves := l }])
  ∧ (∀ (s : State) (ring e : Nat) (f : Fetched) (rest : List Fetched) (l : List Leaf), ring < 1088 → (ringOf s ring).fetched = f :: rest → mayStartDesc s ring f = true → turnOf s ring = true →
      descCheck s ring f.bytes = some e →
      l = (if f.stale ∧ descType f.bytes ≠ 1 ∧ descType f.bytes ≠ 4 then pinnedLeaves s ring f.bytes else f.leaves) →
      Gives (.descriptorStart ring) s fun t => (ringOf t ring).fetched = rest
        ∧ (ringOf t ring).started = (ringOf s ring).started ++ [{ count := f.count, bytes := f.bytes, status := some e, engine := chooseEngine s ring l f.bytes, leaves := l }])
  ∧ (∀ (s : State) (ring : Nat) (d : Started) (rest : List Started), ring < 1088 → (ringLive (ringOf s ring).state = true ∨ (ringOf s ring).state = .stopped) → (ringOf s ring).started = d :: rest → d.status = some stOk → flagQuiet d.bytes = true → Gives (.descriptorSettle ring) s fun t => (ringOf t ring).head = (d.count + 1) % 2 ^ 32 ∧ (ringOf t ring).started = rest ∧ (ringOf t ring).cqWritten = (ringOf s ring).cqWritten)
  ∧ (∀ (s : State) (ring st a left : Nat) (tr : Bool) (d : Started) (rest : List Started), ring < 1024 → (ringLive (ringOf s ring).state = true ∨ (ringOf s ring).state = .stopped) → (ringOf s ring).started = d :: rest → d.status = some st → (flagQuiet d.bytes = false ∨ st ≠ stOk) → mayIssue (fnOf s (ringOf s ring).owner) = true → sub32 (ringOf s ring).cqWritten (ringOf s ring).cqConsumed < (ringOf s ring).cqEntries → ringResolve s ring ((ringOf s ring).cqBase + 32 * ((ringOf s ring).cqWritten % max 1 (ringOf s ring).cqEntries)) true = some (some (.host a tr, left)) → Gives (.descriptorSettle ring) s fun t => (ringOf t ring).head = (d.count + 1) % 2 ^ 32 ∧ (ringOf t ring).started = rest ∧ (ringOf t ring).cqWritten = ((ringOf s ring).cqWritten + 1) % 2 ^ 32 ∧ s.out.length < t.out.length)
  ∧ (∀ (s : State) (ring reason : Nat), ring < 1024 → 1 ≤ reason → reason ≤ 4 → (ringLive (ringOf s ring).state = true ∨ ((ringOf s ring).state = .stopped ∧ reason = 3 ∧ (ringOf s ring).started ≠ [])) →
      Gives (.ringError ring reason) s fun t => (ringOf t ring).state = .error ∧ (ringOf t ring).reason = reason ∧ bit (ringOf t ring).status 0 = true
        ∧ (ringOf t ring).head = (ringOf s ring).head ∧ bit (fnOf t (ringOf s ring).owner).events 2 = true ∧ t.post.journal.next = s.post.journal.next + 1)
  ∧ (∀ (s : State) (ring : Nat), ring < 1024 → (ringOf s ring).timerOn = true → 0 < (ringOf s ring).modTime → 0 < (ringOf s ring).unsignalled → Gives (.moderationTimer ring) s fun t => (ringOf t ring).unsignalled = 0 ∧ (ringOf t ring).timerOn = false ∧ t.host = (ringMessage ring s).host ∧ t.out = (ringMessage ring s).out)

/-- Started descriptors execute. On a started descriptor of its type that has not ended: NOP ends ok and touches nothing else; a COPY without fan-out whose engine is chosen, with a channel to take, issues a piece when it names its places and their units have room, and begins a walk when the unit holds no translation of either address and has a walker for the first; an ATOMIC whose target is found sends its request under the next tag with its size done; a SPECTRAL whose slot is sound, whose source reads and whose destination lies in the frond reports its frames and the samples that they took; TALLY_WAIT ends with the tally's bytes and packets when both thresholds are met, and is marked as waiting when its bytes are not, and its timeout reports the counts; TALLY_SET queues its control packet, and its timeout, a late receipt, an unreachable destination and a late relay end return to sender, naming the place that failed; STEWARD_SUBMIT of a running core, neither halted nor parked, with room in its queue, queues the descriptor and names its array -/
def Obligations.DescriptorRowsComplete : Prop :=
  (∀ (s : State) (ring count : Nat) (d : Started), ring < 1088 → startedOf s ring count = some d → d.status = none → descType d.bytes = 0 → Gives (.nopDescriptor ring count) s fun t => startedOf t ring count = some { d with status := some stOk, result := 0 } ∧ t.out = s.out ∧ t.mem = s.mem)
  ∧ (∀ (s : State) (ring count : Nat) (d : Started) (a b : Addr), ring < 1088 → startedOf s ring count = some d → d.status = none → descType d.bytes = 1 → d.page = none → d.engine ≠ noPostcode → d.walk = false → d.relay = none → copyMode d.bytes = 0 → d.issued < copyLength d.bytes → (takeChannel ring count s).isSome = true → flagPhys d.bytes = true → a = addrAt d.bytes 0x10 → b = addrAt d.bytes 0x20 → 0 < unitRoom (.place a.pc (a.off + d.issued)) → 0 < unitRoom (.place b.pc (b.off + d.issued)) → Gives (.copy ring count) s fun t => (startedOf t ring count).map Started.acted = some true ∧ d.issued < ((startedOf t ring count).map Started.issued).getD 0)
  ∧ (∀ (s s1 : State) (ring count : Nat) (d d1 : Started) (a b : Addr), ring < 1088 → startedOf s ring count = some d → d.status = none → descType d.bytes = 1 → d.page = none → d.walk = false →
      d.engine ≠ noPostcode → d.relay = none → copyMode d.bytes = 0 → d.issued < copyLength d.bytes → takeChannel ring count s = some s1 → startedOf s1 ring count = some d1 →
      a = addrAt d.bytes 0x10 → b = addrAt d.bytes 0x20 → resolve s1 ring d1 a d.issued false = .walk → resolve s1 ring d1 b d.issued true = .walk →
      (startWalk (if (ringOf s1 ring).mode = 1 then ringDie ring else copyUnit (ringOf s1 ring) ring d1.engine) (ringOf s1 ring).ctx (a.off + d.issued) ((ringOf s1 ring).mode == 1) false
        (.copy ring count (a.off + d.issued) false false) s1).isSome = true →
      Gives (.copy ring count) s fun t => (startedOf t ring count).map Started.acted = some true ∧ (startedOf t ring count).map Started.walk = some true)
  ∧ (∀ (s : State) (ring count : Nat) (d : Started) (pc : Postcode) (off : Nat), ring < 1088 → startedOf s ring count = some d → d.status = none → descType d.bytes = 2 → d.acted = false → (atomicTarget s ring d).toOption = some (pc, off) → Gives (.atomic ring count) s fun t => (startedOf t ring count).map Started.acted = some true ∧ (startedOf t ring count).map Started.bytesDone = some (atomicSize d.bytes) ∧ tfind t.fabric.tags s.fabric.nextTag = some (.atomic ring count pc))
  ∧ (∀ (s : State) (ring count : Nat) (d : Started) (look : Nat → Option Leaf) (f n frames outLen : Nat) (rec src : List Byte) (st : List Nat) (s' : State) (ps : List (Target × Nat)), ring < 1088 →
      startedOf s ring count = some d → d.status = none → descType d.bytes = 5 → d.acted = false → look = pinLook s ring d →
      (f = if descEngine d.bytes = noPostcode then sourceFrond s look (addrAt d.bytes 0x10) (pcDie d.engine) else pcDie d.engine) →
      tfind (dieOf s f).slots (specSlot d.bytes) = some (rec, st) → (dieOf s f).badSlots.contains (specSlot d.bytes) = false →
      n = sampleBytes (field rec 0 1) → frames = frameCount (specSamples d.bytes) (field rec 4 2) (field rec 6 2) →
      outLen = frames * field rec 0x0A 2 * specOutBytes (field rec 0x0C 1) →
      s' = (readSource f (frankOf s ring) look (addrAt d.bytes 0x10) (specSamples d.bytes * n) s).2 →
      (readSource f (frankOf s ring) look (addrAt d.bytes 0x10) (specSamples d.bytes * n) s).1.toOption = some src →
      (pinSpan look (addrAt d.bytes 0x20) outLen true).toOption = some ps →
      ((ps.all fun p => match p.1 with | .place pc off => localMem (moduleNumber s') pc && pcDie pc == f && decide (off + p.2 ≤ unitSize pc) | .host _ _ => false) = true) →
      Gives (.spectral ring count) s fun t => (startedOf t ring count).map Started.acted = some true ∧ (startedOf t ring count).map Started.result = some frames
        ∧ (startedOf t ring count).map Started.bytesDone = some (frames * field rec 6 2 * n))
  ∧ (∀ (s : State) (ring count : Nat) (d : Started), ring < 1088 → startedOf s ring count = some d → d.status = none → descType d.bytes = 6 → (tallyOf s (pcDie (pcField d.bytes 0x10)) (descTally d.bytes)).bad = false → field d.bytes 0x18 8 ≤ (tallyOf s (pcDie (pcField d.bytes 0x10)) (descTally d.bytes)).bytes → field d.bytes 0x14 4 ≤ (tallyOf s (pcDie (pcField d.bytes 0x10)) (descTally d.bytes)).packets → Gives (.tallyWait ring count) s fun t => (startedOf t ring count).map Started.status = some (some stOk) ∧ (startedOf t ring count).map Started.result = some (tallyOf s (pcDie (pcField d.bytes 0x10)) (descTally d.bytes)).bytes ∧ (startedOf t ring count).map Started.bytesDone = some (tallyOf s (pcDie (pcField d.bytes 0x10)) (descTally d.bytes)).packets)
  ∧ (∀ (s : State) (ring count : Nat) (d : Started), ring < 1088 → startedOf s ring count = some d → d.status = none → descType d.bytes = 6 → (tallyOf s (pcDie (pcField d.bytes 0x10)) (descTally d.bytes)).bad = false → (tallyOf s (pcDie (pcField d.bytes 0x10)) (descTally d.bytes)).bytes < field d.bytes 0x18 8 → Gives (.tallyWait ring count) s fun t => startedOf t ring count = some { d with acted := true })
  ∧ (∀ (s : State) (ring count : Nat) (d : Started), ring < 1088 → startedOf s ring count = some d → d.status = none → descType d.bytes = 6 → d.acted = true → Gives (.tallyWaitTimeout ring count) s fun t => (startedOf t ring count).map Started.status = some (some stTimeout) ∧ (startedOf t ring count).map Started.result = some (tallyOf s (pcDie (pcField d.bytes 0x10)) (descTally d.bytes)).bytes ∧ (startedOf t ring count).map Started.bytesDone = some (tallyOf s (pcDie (pcField d.bytes 0x10)) (descTally d.bytes)).packets)
  ∧ (∀ (s : State) (ring count : Nat) (d : Started) (q : List Pkt), ring < 1088 → startedOf s ring count = some d → d.status = none → descType d.bytes = 7 → d.acted = false → q = tget [] s.fabric.control (pointOf d.engine) → Gives (.tallySet ring count) s fun t => (startedOf t ring count).map Started.acted = some true ∧ tget [] t.fabric.control (pointOf d.engine) = q ++ [mkControl 0x03 (tallySetDest s (pcField d.bytes 0x10)) d.engine (frankOf s ring) [(0x18, u16 (descTally d.bytes)), (0x20, u64 (field d.bytes 0x18 8)), (0x28, u32 (field d.bytes 0x20 4))]])
  ∧ (∀ (s : State) (ring count : Nat) (d : Started) (pc : Postcode), ring < 1088 → startedOf s ring count = some d → d.status = none → descType d.bytes = 7 → d.acted = true → pc = tallySetDest s (pcField d.bytes 0x10) → Gives (.tallySetTimeout ring count) s fun t => (startedOf t ring count).map Started.status = some (some stReturn) ∧ (startedOf t ring count).map Started.result = some pc.toNat ∧ (runOf (ringOf t ring) (destKey pc)).lost = true)
  ∧ (∀ (s : State) (ring count : Nat) (d : Started) (pc : Postcode), ring < 1088 → startedOf s ring count = some d → d.status = none → awaitedDest s ring d = some pc → Gives (.receiptTimeout ring count) s fun t => (startedOf t ring count).map Started.status = some (some stReturn) ∧ (startedOf t ring count).map Started.result = some pc.toNat ∧ (runOf (ringOf t ring) (destKey pc)).lost = true ∧ bit (fnOf t (ringOf s ring).owner).events 3 = true)
  ∧ (∀ (s : State) (ring count : Nat) (d : Started) (pc : Postcode), ring < 1088 → startedOf s ring count = some d → d.status = none → (waitsOn s ring d).find? (unreachable s) = some pc → Gives (.unreachableTimeout ring count) s fun t => (startedOf t ring count).map Started.status = some (some stReturn) ∧ (startedOf t ring count).map Started.result = some pc.toNat ∧ (runOf (ringOf t ring) (destKey pc)).lost = true ∧ bit (fnOf t (ringOf s ring).owner).events 3 = true)
  ∧ (∀ (s : State) (ring count : Nat) (d : Started) (id : Nat) (x : Relay), ring < 1088 → startedOf s ring count = some d → d.status = none → descType d.bytes = 1 → d.relay = some id → tfind s.fabric.relays id = some x → Gives (.relayTimeout ring count) s fun t => (startedOf t ring count).map Started.status = some (some stReturn) ∧ (startedOf t ring count).map Started.result = some x.place.pc.toNat)
  ∧ (∀ (s : State) (core array : Nat) (b : List Byte) (g : Ring), core < 64 → stewardRing s core = some g → (stewardOf s core).running = true → (stewardOf s core).halted = false → (stewardOf s core).parked = false → b.length = 64 → g.started.length + g.fetched.length < 64 → array + 32 * 64 ≤ 2 ^ 21 → Gives (.stewardSubmit core array b) s fun t => (ringOf t (1024 + core)).fetched = g.fetched ++ [{ count := nextFetch g, bytes := b }] ∧ (stewardOf t core).array = array)

/-- Data packets act at their destination. For a packet at its destination die that passes stage D as `p`, at a die that is in service and, for what may be held, holds nothing else: a write that passes its lock writes exactly its bytes, adds to its tally and, registered, queues its receipt, and one whose run is incomplete is held; one that fails its lock is refused, counted and writes nothing; a packet that fails stage D takes the next dead-letter number; an atomic writes its result and answers, a read request of this module answers with the bytes read; a read response of a ring's fetch adds its descriptors to what the ring has fetched, and an atomic response gives its descriptor the old value; a tagged list for an open context that it does not complete joins its list, its sources and its entries, and one for no context is parked; a discarded hold leaves, is counted and is journalled -/
def Obligations.PacketRowsComplete : Prop :=
  (∀ (s : State) (pid e : Nat) (x : Flight) (p : Pkt), flightOf s pid = some x → x.loc = .eject e → (accept s x.pkt).toOption = some p → isData 0 p = true → toSelect p = false → discardIndex s p.dest = none → lockCheck s p.dest (touched p).1 (touched p).2 p.frank (rightOf p) = none → mustHold s (pcDie p.dest) p = false → (dieOf s (pcDie p.dest)).holds = [] → Gives (.dataPacketDelivery pid) s fun t => t.mem = (writeMem p.dest (p.offset + p.lead) ((p.body.drop p.lead).take (writtenBytes p)) (((bytePoison p).drop p.lead).take (writtenBytes p)) s).mem ∧ (p.tally = 0xFFFF ∨ (tallyOf t (pcDie p.dest) p.tally).bytes = ((tallyOf s (pcDie p.dest) p.tally).bytes + writtenBytes p) % 2 ^ 48 ∧ (tallyOf t (pcDie p.dest) p.tally).packets = ((tallyOf s (pcDie p.dest) p.tally).packets + 1) % 2 ^ 32) ∧ (p.registered = false ∨ mkReceipt p ∈ tget [] t.fabric.control (pointOf p.dest)))
  ∧ (∀ (s : State) (pid e : Nat) (x : Flight) (p : Pkt), flightOf s pid = some x → x.loc = .eject e → (accept s x.pkt).toOption = some p → isData 0 p = true → toSelect p = false → discardIndex s p.dest = none → lockCheck s p.dest (touched p).1 (touched p).2 p.frank (rightOf p) = none → mustHold s (pcDie p.dest) p = true → (dieOf s (pcDie p.dest)).holds = [] → Gives (.dataPacketDelivery pid) s fun t => (dieOf t (pcDie p.dest)).holds = [{ x with pkt := p }] ∧ t.mem = s.mem)
  ∧ (∀ (s : State) (pid e : Nat) (x : Flight) (p : Pkt) (l : Nat), flightOf s pid = some x → x.loc = .eject e → (accept s x.pkt).toOption = some p → isData 0 p = true → toSelect p = false → discardIndex s p.dest = none → lockCheck s p.dest (touched p).1 (touched p).2 p.frank (rightOf p) = some l → (dieOf s (pcDie p.dest)).holds = [] → Gives (.dataPacketDelivery pid) s fun t => mkRefusal p l ∈ tget [] t.fabric.control (pointOf p.dest) ∧ tget 0 (dieOf t (pcDie p.dest)).counts 0 = (tget 0 (dieOf s (pcDie p.dest)).counts 0 + 1) % 2 ^ 64 ∧ t.mem = s.mem)
  ∧ (∀ (s : State) (pid e : Nat) (x : Flight), flightOf s pid = some x → x.loc = .eject e → (accept s x.pkt).toOption = none → Gives (.dataPacketDelivery pid) s fun t => (dieOf t e).deadSeq = (dieOf s e).deadSeq + 1 ∧ t.mem = s.mem)
  ∧ (∀ (s : State) (pid e : Nat) (x : Flight) (p : Pkt), flightOf s pid = some x → x.loc = .eject e → (accept s x.pkt).toOption = some p → isData 3 p = true → discardIndex s p.dest = none → lockCheck s p.dest (touched p).1 (touched p).2 p.frank (rightOf p) = none → mustHold s (pcDie p.dest) p = false → (dieOf s (pcDie p.dest)).holds = [] → (atomicPerform p s).1 = 0 → Gives (.atomicPacket pid) s fun t => t.mem = (atomicPerform p s).2.2.mem ∧ s.fabric.nextPid < t.fabric.nextPid)
  ∧ (∀ (s : State) (pid e : Nat) (x : Flight) (p : Pkt), flightOf s pid = some x → x.loc = .eject e → (accept s x.pkt).toOption = some p → isData 1 p = true → discardIndex s p.dest = none → lockCheck s p.dest (touched p).1 (touched p).2 p.frank (rightOf p) = none → (dieOf s (pcDie p.dest)).holds = [] → Gives (.readRequestPacket pid) s fun t => t.mem = (readMem p.dest p.offset (field p.body 0 2) s).2.2.mem ∧ t.fabric.nextPid = s.fabric.nextPid + 1)
  ∧ (∀ (s : State) (pid e : Nat) (x : Flight) (p : Pkt), flightOf s pid = some x → x.loc = .eject e → (accept s x.pkt).toOption = some p → isData 1 p = true → discardIndex s p.dest = none → lockCheck s p.dest (touched p).1 (touched p).2 p.frank (rightOf p) = none → (dieOf s (pcDie p.dest)).holds = [] → pcModule p.src = moduleNumber s → Gives (.readRequestPacket pid) s fun t => tfind t.fabric.flights s.fabric.nextPid = some { pkt := mkResponse p 2 (field p.body 8 8) (roundUp (field p.body 0 2) 64 - field p.body 0 2) (padTo (roundUp (field p.body 0 2) 64) (readMem p.dest p.offset (field p.body 0 2) s).1) (poisonMask (readMem p.dest p.offset (field p.body 0 2) s).2.1), loc := .inject (pcDie p.dest) 0 })
  ∧ (∀ (s : State) (pid e : Nat) (x : Flight) (p : Pkt) (r first n : Nat), flightOf s pid = some x → x.loc = .eject e → (accept s x.pkt).toOption = some p → isData 2 p = true →
      discardIndex s p.dest = none → tfind s.fabric.tags p.offset = some (.fetch r first n) → r < 1088 → (ringOf s r).fetching = true → ringLive (ringOf s r).state = true →
      nextFetch (ringOf s r) = first → p.poison = none →
      Gives (.readResponsePacket pid) s fun t => (ringOf t r).fetching = false ∧ (ringOf t r).fetched.map (fun f => (f.count, f.bytes)) = (ringOf s r).fetched.map (fun f => (f.count, f.bytes))
        ++ (List.range n).map fun i => ((first + i) % 2 ^ 32, ((p.body.take (p.body.length - p.trail)).drop (64 * i)).take 64))
  ∧ (∀ (s : State) (pid e : Nat) (x : Flight) (p : Pkt) (r c : Nat) (dest : Postcode) (d : Started), flightOf s pid = some x → x.loc = .eject e → (accept s x.pkt).toOption = some p → isData 4 p = true → discardIndex s p.dest = none → tfind s.fabric.tags p.offset = some (.atomic r c dest) → startedOf s r c = some d → d.status = none → d.readsOut ≠ 0 → field p.body 8 1 = 0 → Gives (.atomicResponsePacket pid) s fun t => (startedOf t r c).map Started.readsOut = some 0 ∧ (startedOf t r c).map Started.result = some (if atomicFetch d.bytes then field p.body 0 8 else 0))
  ∧ (∀ (s : State) (pid e : Nat) (x : Flight) (p : Pkt) (c : MergeCtx), flightOf s pid = some x → x.loc = .eject e → (accept s x.pkt).toOption = some p → isData 0 p = true → toSelect p = true → discardIndex s p.dest = none → ((mergesOf s (pcDie p.dest) (pcUnit p.dest)).find? (fun c => c.group == tagGroup p.body) = some c) → mergeFrankOk s c p.frank = true → tagFormat p.body = c.format → tagFlags p.body = c.flags → c.got + tagSources p.body < c.sources → mustHold s (pcDie p.dest) p = false → (dieOf s (pcDie p.dest)).holds = [] → Gives (.partialListArrival pid) s fun t => (mergesOf t (pcDie p.dest) (pcUnit p.dest)).find? (fun c => c.group == tagGroup p.body) = some { c with got := c.got + tagSources p.body, consumed := c.consumed + tagEntries p.body, list := bestOf c.format c.flags c.k (c.list ++ tagList p.body) })
  ∧ (∀ (s : State) (pid e : Nat) (x : Flight) (p : Pkt), flightOf s pid = some x → x.loc = .eject e → (accept s x.pkt).toOption = some p → isData 0 p = true → toSelect p = true → discardIndex s p.dest = none → ((mergesOf s (pcDie p.dest) (pcUnit p.dest)).find? (fun c => c.group == tagGroup p.body) = none) → (parkOf s (pcDie p.dest) (pcUnit p.dest)).length < 32 → (dieOf s (pcDie p.dest)).holds = [] → Gives (.partialListArrival pid) s fun t => parkOf t (pcDie p.dest) (pcUnit p.dest) = parkOf s (pcDie p.dest) (pcUnit p.dest) ++ [{ x with pkt := p }] ∧ t.mem = s.mem)
  ∧ (∀ (s : State) (die index : Nat) (f : Flight), isDie die = true → (dieOf s die).holds[index]? = some f → Gives (.holdDiscard die index) s fun t => (dieOf t die).holds = (dieOf s die).holds.eraseIdx index ∧ tget 0 (dieOf t die).counts 3 = (tget 0 (dieOf s die).counts 3 + 1) % 2 ^ 64 ∧ t.post.journal.next = s.post.journal.next + 1 ∧ t.mem = s.mem)

/-- Control packets act at their destination. For a control packet at its destination die that passes stage D as `p`, at a die in service: a RECEIPT for an awaited run of a ring with nothing held or kept ends the wait; a REFUSAL of a write that it finds ends its descriptor with frank refused and the bytes that went before; an allowed TALLY_SET_PACKET writes both counts and queues the acknowledgement, which ends its descriptor ok; PH_STOP at a frond queues the answer with the launches it stopped, and an answer that is not the last is counted; INVALIDATE of a context not held is answered at once, and of one held runs the invalidation; an answer that is not the last leaves the broadcast waiting for the rest; the last RELAY of a copy queues RELAY_DONE, which ends the copy; a steward interrupt is pending with its vector and payload, and put out. A SELECT of a row whose output has a place takes effect with its count of entries and its elements, and one that opens a context opens it -/
def Obligations.ControlPacketRowsComplete : Prop :=
  (∀ (s : State) (pid e : Nat) (x : Flight) (p : Pkt) (r : Nat), flightOf s pid = some x → x.loc = .eject e → (accept s x.pkt).toOption = some p → isControl 0x01 p = true → discardIndex s p.dest = none → regValid (ctlArg p 0x18 4) = true → r = regRing (ctlArg p 0x18 4) → (ringOf s r).state ≠ .free → (runOf (ringOf s r) (destKey p.src)).awaiting = true → (((ringOf s r).started.all fun d => d.held.isEmpty && d.lastOf.isEmpty && (descType d.bytes != 1 || d.status.isSome)) = true) → Gives (.receipt pid) s fun t => (runOf (ringOf t r) (destKey p.src)).awaiting = false)
  ∧ (∀ (s : State) (pid e : Nat) (x : Flight) (p : Pkt) (r c pos : Nat) (d : Started), flightOf s pid = some x → x.loc = .eject e → (accept s x.pkt).toOption = some p → isControl 0x02 p = true → discardIndex s p.dest = none → ctlArg p 0x1C 1 = 0 → refusedWrite s p = some (r, c, pos) → startedOf s r c = some d → d.status = none → Gives (.refusal pid) s fun t => (startedOf t r c).map Started.status = some (some stFrank) ∧ (startedOf t r c).map Started.bytesDone = some pos)
  ∧ (∀ (s : State) (pid e : Nat) (x : Flight) (p : Pkt), flightOf s pid = some x → x.loc = .eject e → (accept s x.pkt).toOption = some p → isControl 0x03 p = true → discardIndex s p.dest = none → tallySetAllowed s (pcDie p.dest) p.frank = true → Gives (.tallySetPacket pid) s fun t => tallyOf t (pcDie p.dest) (ctlArg p 0x18 2) = { bytes := ctlArg p 0x20 8, packets := ctlArg p 0x28 4, bad := false } ∧ mkControl 0x04 p.src p.dest p.frank [(0x18, u16 (ctlArg p 0x18 2))] ∈ tget [] t.fabric.control (pointOf p.dest))
  ∧ (∀ (s : State) (pid e : Nat) (x : Flight) (p : Pkt) (r c : Nat) (d : Started), flightOf s pid = some x → x.loc = .eject e → (accept s x.pkt).toOption = some p → isControl 0x04 p = true → discardIndex s p.dest = none → (tallySetter s p (fun d => descTally d.bytes == ctlArg p 0x18 2) = some (r, c)) → startedOf s r c = some d → d.status = none → Gives (.tallySetAck pid) s fun t => (startedOf t r c).map Started.status = some (some stOk))
  ∧ (∀ (s : State) (pid e : Nat) (x : Flight) (p : Pkt), flightOf s pid = some x → x.loc = .eject e → (accept s x.pkt).toOption = some p → isControl 0x05 p = true → discardIndex s p.dest = none → pcDie p.dest < 84 → Gives (.phStopPacket pid) s fun t => mkControl 0x06 p.src p.dest {} [(0x18, u16 (ctlArg p 0x18 2)), (0x1C, u32 (stopLaunches (ctlArg p 0x18 2) (fun x => match phOf s (ctlArg p 0x18 2) with | some q => q.tileOf.any fun e => decide ((launchRange s x).1 ≤ e.1 ∧ e.1 < (launchRange s x).1 + (launchRange s x).2) && e.2 / 320 == pcDie p.dest | none => false) s).1)] ∈ tget [] t.fabric.control (pointOf p.dest))
  ∧ (∀ (s : State) (pid e : Nat) (x : Flight) (p : Pkt) (who n : Nat) (left : List Nat), flightOf s pid = some x → x.loc = .eject e → (accept s x.pkt).toOption = some p → isControl 0x06 p = true → discardIndex s p.dest = none → atPostmaster s p = true → pcModule p.src = moduleNumber s → (s.res.stops.find? (fun e => e.2.1 == ctlArg p 0x18 2 && e.2.2.1.contains (pcDie p.src)) = some (who, ctlArg p 0x18 2, left, n)) → left.filter (· != pcDie p.src) ≠ [] → Gives (.phStopDone pid) s fun t => (who, ctlArg p 0x18 2, left.filter (· != pcDie p.src), n + ctlArg p 0x1C 4) ∈ t.res.stops)
  ∧ (∀ (s : State) (pid e : Nat) (x : Flight) (p : Pkt), flightOf s pid = some x → x.loc = .eject e → (accept s x.pkt).toOption = some p → isControl 0x07 p = true → discardIndex s p.dest = none → atPostmaster s p = true → tfind s.xlat.ctxs (ctlArg p 0x18 4) = none → Gives (.invalidate pid) s fun t => mkControl 0x08 p.src p.dest {} [(0x18, u32 (ctlArg p 0x18 4))] ∈ tget [] t.fabric.control (pointOf p.dest) ∧ t.xlat = s.xlat)
  ∧ (∀ (s : State) (pid e : Nat) (x : Flight) (p : Pkt) (c : Ctx), flightOf s pid = some x → x.loc = .eject e → (accept s x.pkt).toOption = some p → isControl 0x07 p = true → discardIndex s p.dest = none → atPostmaster s p = true → tfind s.xlat.ctxs (ctlArg p 0x18 4) = some c → Gives (.invalidate pid) s fun t => t.xlat = (settleWaits (beginInvalidate (.remote p.src (ctlArg p 0x18 4)) (ctlArg p 0x18 4) (ctlArg p 0x20 8) (ctlArg p 0x28 8) false s)).xlat)
  ∧ (∀ (s : State) (pid e : Nat) (x : Flight) (p : Pkt) (lb : Nat) (l : Letterbox), flightOf s pid = some x → x.loc = .eject e → (accept s x.pkt).toOption = some p → isControl 0x08 p = true → discardIndex s p.dest = none → atPostmaster s p = true → (s.post.lbs.find? (fun e => waitingOn s e.1 0x0205 && arg 0x0205 (cmdArgs e.2) 0 == ctlArg p 0x18 4 && e.2.waitingFor.contains (pcModule p.src)) = some (lb, l)) → l.waitingFor.filter (· != pcModule p.src) ≠ [] → Gives (.invalidateDone pid) s fun t => (lbOf t lb).waitingFor = l.waitingFor.filter (· != pcModule p.src))
  ∧ (∀ (s : State) (pid e : Nat) (x : Flight) (p : Pkt) (m : RelayMsg), flightOf s pid = some x → x.loc = .eject e → (accept s x.pkt).toOption = some p → isControl 0x20 p = true → discardIndex s p.dest = none → m = readRelay p → m.left = 0 → m.total ≤ relayedBytes s m.issuer m.id + m.len → Gives (.relay pid) s fun t => mkControl 0x21 m.issuer p.dest m.frank [(0x18, u16 m.id), (0x1A, u8 0), (0x1C, u32 0), (0x20, u64 (relayedBytes s m.issuer m.id + m.len))] ∈ tget [] t.fabric.control (pointOf p.dest))
  ∧ (∀ (s : State) (pid e : Nat) (x : Flight) (p : Pkt) (id : Nat) (y : Relay) (d : Started), flightOf s pid = some x → x.loc = .eject e → (accept s x.pkt).toOption = some p → isControl 0x21 p = true → discardIndex s p.dest = none → id = ctlArg p 0x18 2 → tfind s.fabric.relays id = some y → startedOf s y.ring y.count = some d → d.status = none → d.engine = p.dest → ctlArg p 0x1A 1 = 0 → Gives (.relayDone pid) s fun t => (startedOf t y.ring y.count).map Started.status = some (some (if d.poisoned then stPoisoned else stOk)))
  ∧ (∀ (s : State) (pid e : Nat) (x : Flight) (p : Pkt) (c : Nat), flightOf s pid = some x → x.loc = .eject e → (accept s x.pkt).toOption = some p → isControl 0x30 p = true → discardIndex s p.dest = none → c = 4 * (pcDie p.dest - 96) + pcTile p.dest → Gives (.stewardIrq pid) s fun t => (stewardOf t c).irqPending = true ∧ (stewardOf t c).irqVector = ctlArg p 0x18 2 ∧ (stewardOf t c).irqPayload = ctlArg p 0x20 8 ∧ t.out = s.out ++ [.stewardInterrupt c (ctlArg p 0x18 2) (ctlArg p 0x20 8)])
  ∧ (∀ (s : State) (ring count f : Nat) (d : Started) (look : Nat → Option Leaf) (engine : Postcode) (l best : List SelEntry) (out : List Byte) (s' : State) (ps : List (Target × Nat)), ring < 1088 →
      startedOf s ring count = some d → d.status = none → descType d.bytes = 3 → d.acted = false → d.walk = false → selContext (moduleNumber s) d.bytes = false → bit (selFlags d.bytes) 2 = false →
      look = pinLook s ring d → f = (if descEngine d.bytes = noPostcode then sourceFrond s look (addrAt d.bytes 0x10) (pcDie d.engine) else pcDie d.engine) → engine = hubUnit (moduleNumber s) f (pcUnit d.engine) →
      (readRow f (frankOf s ring) look d.bytes s).1.toOption = some l → s' = (readRow f (frankOf s ring) look d.bytes s).2 → best = bestOf (selFormat d.bytes) (selFlags d.bytes) (selK d.bytes) l →
      out = (if bit (selFlags d.bytes) 3 then taggedBytes (selGroup d.bytes) (selFormat d.bytes) (selFlags d.bytes) (selK d.bytes) 1 best else untaggedBytes (selFormat d.bytes) (selK d.bytes) best) →
      selDest s' ring d engine (addrAt d.bytes 0x20) out.length = .at_ ps →
      ((ps.all fun q => match q.1 with | .place pc off => isSelectUnit pc || memPlaceOk s' pc off q.2 | .host _ _ => mayIssue (fnOf s' (ringOf s' ring).owner)) = true) → (dieOf s (pcDie d.engine)).holds = [] →
      Gives (.select ring count) s fun t => (startedOf t ring count).map Started.acted = some true ∧ (startedOf t ring count).map Started.result = some best.length
        ∧ (startedOf t ring count).map Started.bytesDone = some (selLen d.bytes))
  ∧ (∀ (s : State) (ring count : Nat) (d : Started) (e : Postcode), ring < 1088 → startedOf s ring count = some d → d.status = none → descType d.bytes = 3 → d.acted = false → d.walk = false → selContext (moduleNumber s) d.bytes = true → e = pcField d.bytes 0x10 → contextBusy s e (field d.bytes 0x18 2) = false → parkOf s (pcDie e) (pcUnit e) = [] → (dieOf s (pcDie d.engine)).holds = [] → Gives (.select ring count) s fun t => (startedOf t ring count).map Started.acted = some true ∧ mergesOf t (pcDie e) (pcUnit e) = mergesOf s (pcDie e) (pcUnit e) ++ [{ group := field d.bytes 0x18 2, ring := ring, count := d.count, sources := selLen d.bytes, k := selK d.bytes, format := selFormat d.bytes, flags := selFlags d.bytes % 4 }])

/-- The fabric moves packets. In slot 0 a point of a die not draining injects up to 8 control packets of its frame, while no shutdown has stopped injection; a packet alone in the fabric, on the way without a tunnel and below the deflection limit, takes its first free productive output at a router or at its start, and at a router or after a landing wait, where none is free, the first other free output, deflected and counted; a packet alone crosses a seam whose two links are up; a packet in an escape buffer that has waited makes its die drain, and a drain that lasts is journalled with MOD_EVENT[6]; an expired merge context closes and ends its descriptor return to sender, with the sources it got, and an expired parked list leaves, counted and journalled -/
def Obligations.RoutingRowsComplete : Prop :=
  (∀ (s : State) (point n : Nat), validPoint point = true → slotOf s = 0 → (dieOf s (pointDie point)).drain = false → injectionStopped s = false → (n = min (8 - if (tget (0, 0) s.fabric.injected point).1 = frameOf s then (tget (0, 0) s.fabric.injected point).2 else 0) (tget [] s.fabric.control point).length) → Gives (.controlInject point) s fun t => tget [] t.fabric.control point = (tget [] s.fabric.control point).drop n ∧ t.fabric.nextPid = s.fabric.nextPid + n ∧ t.mem = s.mem)
  ∧ (∀ (s : State) (die router pid : Nat) (f : Flight) (o : Output) (l : Loc) (i : Nat), validRouter die router = true → f.loc = .mesh die router i → s.fabric.flights = [(pid, f)] → f.pkt.tunnel = none → (targetOf s die f.pkt).2.1 = f.pkt → (targetOf s die f.pkt).2.2 = false → outerEscape f.pkt = false → outerDefl f.pkt < s.fabric.deflectLimit → s.fabric.badEntries.contains die = false → firstFree s die router f [] (productive die router (targetOf s die f.pkt).1) = some (o, l) → Gives (.routeDecision die router) s fun t => flightOf t pid = some { f with loc := l, via := i } ∧ tget 0 (dieOf t die).fabric 0 = (tget 0 (dieOf s die).fabric 0 + 1) % 2 ^ 64)
  ∧ (∀ (s : State) (die router pid : Nat) (f : Flight) (o : Output) (l : Loc) (i : Nat), validRouter die router = true → f.loc = .mesh die router i → s.fabric.flights = [(pid, f)] → f.pkt.tunnel = none → (targetOf s die f.pkt).2.1 = f.pkt → (targetOf s die f.pkt).2.2 = false → outerEscape f.pkt = false → outerDefl f.pkt < s.fabric.deflectLimit → s.fabric.badEntries.contains die = false → firstFree s die router f [] (productive die router (targetOf s die f.pkt).1) = none → firstFree s die router f [] (otherOutputs s die f.pkt (.transit i)) = some (o, l) → Gives (.routeDecision die router) s fun t => flightOf t pid = some { f with loc := l, via := i, pkt := setOuter f.pkt (outerDefl f.pkt + 1) false } ∧ tget 0 (dieOf t die).fabric 1 = (tget 0 (dieOf s die).fabric 1 + 1) % 2 ^ 64)
  ∧ (∀ (s : State) (die router pid : Nat) (f : Flight) (o : Output) (l : Loc), validRouter die router = true → f.loc = .inject die 0 → mayStart s die router f = true → (dieOf s die).drain = false → s.fabric.flights = [(pid, f)] → pid < s.fabric.nextPid → f.pkt.tunnel = none → (targetOf s die f.pkt).2.1 = f.pkt → (targetOf s die f.pkt).2.2 = false → outerEscape f.pkt = false → outerDefl f.pkt < s.fabric.deflectLimit → s.fabric.badEntries.contains die = false → firstFree s die router f [] (productive die router (targetOf s die f.pkt).1) = some (o, l) → Gives (.injectionStart die router pid) s fun t => flightOf t pid = some { f with loc := l, via := 4 } ∧ tget 0 (dieOf t die).fabric 0 = (tget 0 (dieOf s die).fabric 0 + 1) % 2 ^ 64)
  ∧ (∀ (s : State) (die router pid : Nat) (f : Flight) (o : Output) (l : Loc) (input : Nat) (four : Bool), f.loc = .seamRx die input → (router = if die < 84 then input / 4 else 0) → (dieOf s die).drain = false → (die < 84 ∨ isEdge die = true) → s.fabric.flights = [(pid, f)] → f.pkt.tunnel = none → (targetOf s die f.pkt).2.1 = f.pkt → (targetOf s die f.pkt).2.2 = false → outerEscape f.pkt = false → outerDefl f.pkt < s.fabric.deflectLimit → s.fabric.badEntries.contains die = false → firstFree s die router f [] (productive die router (targetOf s die f.pkt).1) = none → (firstFree s die router f [] (otherOutputs s die f.pkt (if four = true ∧ 96 ≤ die then .offModule else .onModule)) = some (o, l)) → Gives (.landingWaitExpiry pid four) s fun t => flightOf t pid = some { f with loc := l, via := ingressCode die f.loc, pkt := setOuter f.pkt (outerDefl f.pkt + 1) false } ∧ tget 0 (dieOf t die).fabric 1 = (tget 0 (dieOf s die).fabric 1 + 1) % 2 ^ 64)
  ∧ (∀ (s : State) (die output pid g l : Nat) (f : Flight), validOutput die output = true → s.fabric.flights = [(pid, f)] → f.loc = .seamTx die output → ((if die < 84 then frondFar die (output / 4) (output % 4) else switchFar (die - 96) output) = some (g, l)) → linkUp s die output = true → linkUp s g l = true → Gives (.seamCrossing die output) s fun t => flightOf t pid = some { f with loc := .seamRx g l })
  ∧ (∀ (s : State) (pid d : Nat) (f : Flight), flightOf s pid = some f → escapeDie f = some d →
      Gives (.escapeWaitExpiry pid) s fun t => (dieOf t d).drain = true ∧ (dieOf t d).waited.contains pid = true ∧ t.fabric.flights = s.fabric.flights)
  ∧ (∀ (s : State) (die : Nat), isDie die = true → (dieOf s die).drain = true → Gives (.escapeDrainAlarm die) s fun t => t.post.journal.next = s.post.journal.next + 1 ∧ bit t.host.modEvents 6 = true ∧ t.fabric.flights = s.fabric.flights)
  ∧ (∀ (s : State) (die engine group : Nat) (c : MergeCtx) (d : Started), die < 84 → engine < 2 → ((mergesOf s die (8 + engine)).find? (fun c => c.group == group) = some c) → startedOf s c.ring c.count = some d → d.status = none → Gives (.mergeContextExpiry die engine group) s fun t => mergesOf t die (8 + engine) = (mergesOf s die (8 + engine)).filter (fun x => x.group != group) ∧ (startedOf t c.ring c.count).map Started.status = some (some stReturn) ∧ (startedOf t c.ring c.count).map Started.result = some ((hubUnit (moduleNumber s) die (8 + engine)).toNat + c.got * 2 ^ 32))
  ∧ (∀ (s : State) (die engine index : Nat), die < 84 → engine < 2 → index < (parkOf s die (8 + engine)).length → Gives (.parkExpiry die engine index) s fun t => parkOf t die (8 + engine) = (parkOf s die (8 + engine)).eraseIdx index ∧ tget 0 (dieOf t die).select (8 * engine + 2) = (tget 0 (dieOf s die).select (8 * engine + 2) + 1) % 2 ^ 64 ∧ t.post.journal.next = s.post.journal.next + 1)

/-- Launches run. A LAUNCH of a resident pigeonhole claimed by its function, with an entry and inline arguments within it, is queued under the next number, and one of a pigeonhole without stamp ends not resident; a grant that may be given runs the launch with its streams and its reads counted, and memory is what writing the control areas of its tiles makes it; the end of a running launch settles its descriptor ok when nothing of it is outstanding or awaits injection, and is only marked otherwise; a tile fault with a code, or the time limit of an entry that has one, ends it launch fault with its tile and code, journalled; a stream read that is late ends it return to sender, naming its source; a tile core writes below its control area and reads its whole scratchpad when nothing in it is poisoned; an operator's write and read of a range that is one piece of a place send their packet, the write's to this module; a running steward core, neither halted nor parked, reaches its L2 and writes its regions, and an exception halts it, journalled -/
def Obligations.LaunchRowsComplete : Prop :=
  (∀ (s : State) (ring count : Nat) (d : Started) (p : Ph) (i : Image) (e : Entry), ring < 1088 → startedOf s ring count = some d → d.status = none → descType d.bytes = 4 → d.acted = false → phOf s (launchPh d.bytes) = some p → p.stamp = true → p.claims.contains (ringOf s ring).owner = true → imageOf s p = some i → i.entries[launchEntry d.bytes]? = some e → launchArgs d.bytes ≤ e.maxArgs → launchArgs d.bytes ≤ 24 → Gives (.launch ring count) s fun t => launchOf t s.res.nextLaunch = some { ph := launchPh d.bytes, entry := launchEntry d.bytes, argLen := launchArgs d.bytes, ring := ring, count := d.count, args := (d.bytes.drop 0x28).take (launchArgs d.bytes), argsReady := true } ∧ (startedOf t ring count).map Started.launch = some (some s.res.nextLaunch) ∧ t.res.nextLaunch = s.res.nextLaunch + 1)
  ∧ (∀ (s : State) (ring count : Nat) (d : Started) (p : Ph), ring < 1088 → startedOf s ring count = some d → d.status = none → descType d.bytes = 4 → d.acted = false → phOf s (launchPh d.bytes) = some p → p.stamp = false → Gives (.launch ring count) s fun t => (startedOf t ring count).map Started.status = some (some stNotResident) ∧ t.res = s.res)
  ∧ (∀ (s : State) (pigeonhole launch : Nat) (x : Launch) (p : Ph) (i : Image), pigeonhole < 4096 → launchOf s launch = some x → mayGrant s pigeonhole launch x = true → phOf s pigeonhole = some p → imageOf s p = some i → Gives (.launchGrant pigeonhole launch) s fun t => (launchOf t launch).map Launch.running = some true ∧ (launchOf t launch).map Launch.streams = some (streamsOf s x) ∧ (launchOf t launch).map Launch.readsOut = some (streamsOf s x).length ∧ t.mem = (updates ((List.range (launchRange s x).2).map ((launchRange s x).1 + ·)) (fun lt s' => updates (controlArea s' x lt) (fun w s'' => writeMem (scratchPc (moduleNumber s'') (tileAt p lt).1 (tileAt p lt).2) w.1 w.2 [] s'') s') s).mem)
  ∧ (∀ (s : State) (launch : Nat) (x : Launch) (d : Started), launchOf s launch = some x → x.running = true → startedOf s x.ring x.count = some d → d.status = none → x.localOut = 0 → x.streamOut = 0 → x.readsOut = 0 → awaitsInjection s (.launch launch) = false → Gives (.launchEnd launch) s fun t => (startedOf t x.ring x.count).map Started.status = some (some stOk))
  ∧ (∀ (s : State) (launch : Nat) (x : Launch), launchOf s launch = some x → x.running = true → (x.localOut ≠ 0 ∨ x.streamOut ≠ 0 ∨ x.readsOut ≠ 0 ∨ awaitsInjection s (.launch launch) = true) → Gives (.launchEnd launch) s fun t => launchOf t launch = some { x with ended := true } ∧ t.rings = s.rings)
  ∧ (∀ (s : State) (launch tile code : Nat) (x : Launch) (d : Started), launchOf s launch = some x → x.running = true → startedOf s x.ring x.count = some d → d.status = none → 1 ≤ code → code ≤ 8 → inLaunch s x tile = true → Gives (.tileFault launch tile code) s fun t => (startedOf t x.ring x.count).map Started.status = some (some stLaunchFault) ∧ (startedOf t x.ring x.count).map Started.result = some (tile % 2 ^ 16 + code * 2 ^ 16) ∧ t.post.journal.next = s.post.journal.next + 1)
  ∧ (∀ (s : State) (launch tile : Nat) (x : Launch) (d : Started) (e : Entry), launchOf s launch = some x → x.running = true → startedOf s x.ring x.count = some d → d.status = none → entryOf s x = some e → e.limitMs ≠ 0 → inLaunch s x tile = true → Gives (.entryTimeLimit launch tile) s fun t => (startedOf t x.ring x.count).map Started.status = some (some stLaunchFault) ∧ (startedOf t x.ring x.count).map Started.result = some (tile % 2 ^ 16 + 0x0004 * 2 ^ 16) ∧ t.post.journal.next = s.post.journal.next + 1)
  ∧ (∀ (s : State) (launch : Nat) (x : Launch) (d : Started) (p : Ph), launchOf s launch = some x → x.running = true → startedOf s x.ring x.count = some d → d.status = none → x.reading ≠ [] → phOf s x.ph = some p → Gives (.streamReadTimeout launch) s fun t => (startedOf t x.ring x.count).map Started.status = some (some stReturn) ∧ (startedOf t x.ring x.count).map Started.result = some p.source.pc.toNat)
  ∧ (∀ (s : State) (frond tile l lt offset : Nat) (bytes : List Byte), frond < 84 → tile < 320 → launchAt s frond tile = some (l, lt) → offset + bytes.length ≤ 0xFE000 → exec (.tileCoreAccess frond tile true offset bytes) s = .next (writeMem (scratchPc (moduleNumber s) frond tile) offset bytes [] s))
  ∧ (∀ (s : State) (frond tile l lt offset : Nat) (bytes : List Byte), frond < 84 → tile < 320 → launchAt s frond tile = some (l, lt) → offset + bytes.length ≤ 0x100000 → (readMem (scratchPc (moduleNumber s) frond tile) offset bytes.length s).2.1.any id = false → exec (.tileCoreAccess frond tile false offset bytes) s = .next (readMem (scratchPc (moduleNumber s) frond tile) offset bytes.length s).2.2)
  ∧ (∀ (s : State) (launch tile operand n off : Nat) (pc : Postcode) (bytes : List Byte) (x : Launch) (p : Ph) (i : Image), launchOf s launch = some x → phOf s x.ph = some p → imageOf s p = some i → x.running = true → x.ended = false → x.streams = [] → x.streamOut = 0 → inLaunch s x tile = true → operand < field x.args 4 1 → bytes.length ≤ field ((x.args.drop (8 + 24 * operand)).take 24) 0x10 8 * formatBytes (field ((x.args.drop (8 + 24 * operand)).take 24) 1 1) → 0 < bytes.length → bytes.length ≤ 4032 → n = bytes.length → (operandPieces s i p tile ((x.args.drop (8 + 24 * operand)).take 24) true bytes.length).toOption = some [(.place pc off, n)] → pcModule pc = moduleNumber s → Gives (.operatorLibraryCall launch tile operand true bytes) s fun t => launchOf t launch = some { x with localOut := x.localOut + 1 } ∧ tfind t.fabric.flights s.fabric.nextPid = some { pkt := mkWrite (hubUnit (moduleNumber s) (tileAt p tile).1 (4 + tile % 4)) pc off (field ((x.args.drop (8 + 24 * operand)).take 24) 2 2) (imageFrank i) bytes [], loc := .inject (pcDie (hubUnit (moduleNumber s) (tileAt p tile).1 (4 + tile % 4))) 0, origin := .launch launch })
  ∧ (∀ (s : State) (launch tile operand n off : Nat) (pc : Postcode) (bytes : List Byte) (x : Launch) (p : Ph) (i : Image), launchOf s launch = some x → phOf s x.ph = some p → imageOf s p = some i → x.running = true → x.ended = false → x.streams = [] → x.streamOut = 0 → inLaunch s x tile = true → operand < field x.args 4 1 → field ((x.args.drop (8 + 24 * operand)).take 24) 2 2 = 0xFFFF → 0 < n → n ≤ 4096 → (operandPieces s i p tile ((x.args.drop (8 + 24 * operand)).take 24) false (field ((x.args.drop (8 + 24 * operand)).take 24) 0x10 8 * formatBytes (field ((x.args.drop (8 + 24 * operand)).take 24) 1 1))).toOption = some [(.place pc off, n)] → Gives (.operatorLibraryCall launch tile operand false bytes) s fun t => launchOf t launch = some { x with readsOut := x.readsOut + 1 } ∧ tfind t.fabric.tags s.fabric.nextTag = some (.operand launch) ∧ t.fabric.nextPid = s.fabric.nextPid + 1)
  ∧ (∀ (s : State) (core address : Nat) (bytes : List Byte), core < 64 → (stewardOf s core).running = true → (stewardOf s core).halted = false → (stewardOf s core).parked = false → address + bytes.length ≤ 2 ^ 21 → exec (.stewardCoreAccess core true address bytes) s = .next (onMem (fun m => m.putBytes (stewardKey core address) bytes) s) ∧ exec (.stewardCoreAccess core false address bytes) s = .next s)
  ∧ (∀ (s : State) (core address h off : Nat) (bytes : List Byte) (p : Ph) (i : Image) (pc : Postcode), core < 64 → (stewardOf s core).running = true → (stewardOf s core).halted = false → (stewardOf s core).parked = false → 2 ^ 32 ≤ address → (stewardOf s core).ph = some h → phOf s h = some p → imageOf s p = some i → stewardPlaceFrom (moduleNumber s) i p 0 i.regions (address - 2 ^ 32) = some (pc, off) → lockCheck s pc off bytes.length (imageFrank i) rightWrite = none → exec (.stewardCoreAccess core true address bytes) s = .next (writeMem pc off bytes [] s))
  ∧ (∀ (s : State) (core : Nat), core < 64 → (stewardOf s core).running = true → (stewardOf s core).halted = false → (stewardOf s core).parked = false → Gives (.stewardCoreException core) s fun t => (stewardOf t core).halted = true ∧ t.post.journal.next = s.post.journal.next + 1 ∧ t.mem = s.mem)

/-- Errors the module finds in itself take effect. A contact imbalance within limits marks and journals its die, and one beyond them fences a frond and fails an edge die; a failed self-check or engine error of a frond in service fences it; a crossed correction threshold is journalled and its window starts again; an edge die that fails is failed and journalled; a failed wire takes its group's spare, and where that is in use its link leaves service, both under the link's one name; a tile with three faults, or a word found twice, is retired; a page flush takes the next sequence number and keeps the records; a link key's old phase ends; a parity error marks its lock, key copy, route table, dead letter, spectral slot or tally, drops its translation, mirror line, run count with its holds, or hold, and leaves a pinned page without its leaf; the scrub of a powered die's memories counts a good word, corrects and counts a correctable one and marks an uncorrectable one -/
def Obligations.FaultRowsComplete : Prop :=
  (∀ (s : State) (die : Nat), isDie die = true → Gives (.contactImbalance die true) s fun t => (dieOf t die).contactsBad = true ∧ t.post.journal.next = s.post.journal.next + 1 ∧ (dieOf t die).fenced = (dieOf s die).fenced ∧ (dieOf t die).failed = (dieOf s die).failed)
  ∧ (∀ (s : State) (die : Nat), die < 84 → Gives (.contactImbalance die false) s fun t => (dieOf t die).fenced = true)
  ∧ (∀ (s : State) (die : Nat), isEdge die = true → Gives (.contactImbalance die false) s fun t => (dieOf t die).failed = true)
  ∧ (∀ (s : State) (frond : Nat), frond < 84 → dieUp s frond = true → Gives (.cryptoSelfCheck frond false) s fun t => (dieOf t frond).fenced = true ∧ s.post.journal.next + 2 ≤ t.post.journal.next)
  ∧ (∀ (s : State) (frond unit : Nat), frond < 84 → selfChecking unit = true → dieUp s frond = true → Gives (.engineError frond unit) s fun t => (dieOf t frond).fenced = true ∧ s.post.journal.next + 2 ≤ t.post.journal.next)
  ∧ (∀ (s : State) (die : Nat), isDie die = true → (1000 < (dieOf s die).recentCorrections ∨ (dieOf s die).corrections.any (fun e => decide (3 ≤ e.2)) = true) → Gives (.eccThreshold die) s fun t => (dieOf t die).recentCorrections = 0 ∧ (dieOf t die).corrections = [] ∧ t.post.journal.next = s.post.journal.next + 1)
  ∧ (∀ (s : State) (edge : Nat), edge < 16 → (dieOf s (96 + edge)).failed = false → Gives (.edgeDieFailure edge) s fun t => (dieOf t (96 + edge)).failed = true ∧ s.post.journal.next < t.post.journal.next)
  ∧ (∀ (s : State) (die link group wire : Nat) (inbound : Bool) (n : Nat × Nat × Bool), isDie die = true → link < linkCount die → group < 8 → wire < groupWires die link → n = linkName die link inbound →
      (dieOf s n.1).linksOut.contains n.2.1 = false → groupUsed s n.1 n.2.1 group n.2.2 = false →
      Gives (.wireFailure die link { index := group, inbound := inbound } wire) s fun t => (dieOf t n.1).badWires = (dieOf s n.1).badWires ++ [{ link := n.2.1, group := group, wire := wire, inbound := n.2.2 }]
        ∧ (dieOf t n.1).linksOut = (dieOf s n.1).linksOut ∧ t.post.journal.next = s.post.journal.next + 1)
  ∧ (∀ (s : State) (die link group wire : Nat) (inbound : Bool) (n : Nat × Nat × Bool), isDie die = true → link < linkCount die → group < 8 → wire < groupWires die link → n = linkName die link inbound →
      (dieOf s n.1).linksOut.contains n.2.1 = false → (dieOf s n.1).badWires.contains { link := n.2.1, group := group, wire := wire, inbound := n.2.2 } = false → groupUsed s n.1 n.2.1 group n.2.2 = true →
      Gives (.wireFailure die link { index := group, inbound := inbound } wire) s fun t => (dieOf t n.1).linksOut.contains n.2.1 = true ∧ (dieOf t n.1).badWires = (dieOf s n.1).badWires
        ∧ s.post.journal.next < t.post.journal.next)
  ∧ (∀ (s : State) (frond tile : Nat), frond < 84 → tile < 320 → (dieOf s frond).retired.contains tile = false → (3 ≤ tget 0 (dieOf s frond).tileFaults tile ∨ foundTwice s frond tile = true) → Gives (.tileAutoRetire frond tile) s fun t => (dieOf t frond).retired.contains tile = true ∧ s.post.journal.next < t.post.journal.next)
  ∧ (∀ (s : State), postUp s = true → s.post.journal.unwritten ≠ 0 → Gives (.journalFlush true) s fun t => t.post.journal.unwritten = 0 ∧ t.post.journal.sequence = (s.post.journal.sequence + 1) % 2 ^ 32 ∧ t.post.journal.recs = s.post.journal.recs)
  ∧ (∀ (s : State) (slot : Nat) (k : KeySlot), 160 ≤ slot → slot < 224 → tfind s.fabric.keys slot = some k → Gives (.linkKeyPhaseExpiry slot) s fun t => tfind t.fabric.keys slot = some { k with previous := none, switchedRecently := false })
  ∧ (∀ (s : State) (die index : Nat), isDie die = true → index < parityRange .lock die → Gives (.parityError .lock die index) s fun t => (dieOf t die).badLocks.contains index = true ∧ t.post.journal.next = s.post.journal.next + 1)
  ∧ (∀ (s : State) (die index : Nat), isDie die = true → index < parityRange .keySlot die → index < 160 → Gives (.parityError .keySlot die index) s fun t => (dieOf t die).badKeys.contains index = true ∧ t.post.journal.next = s.post.journal.next + 1)
  ∧ (∀ (s : State) (die index : Nat), isDie die = true → index < parityRange .routeTable die → Gives (.parityError .routeTable die index) s fun t => t.fabric.badEntries.contains die = true ∧ t.post.journal.next = s.post.journal.next + 1)
  ∧ (∀ (s : State) (die index : Nat), isDie die = true → index < parityRange .queueEntry die → Gives (.parityError .queueEntry die index) s fun t => (dieOf t die).dead = (dieOf s die).dead.map (fun e => if e.sequence % 32 = index then { e with bad := true } else e))
  ∧ (∀ (s : State) (die index : Nat), isDie die = true → index < tlbSize die → Gives (.parityError .tlb die index) s fun t => (unitOf t die).tlb = (unitOf s die).tlb.eraseIdx index ∧ t.post.journal.next = s.post.journal.next + 1)
  ∧ (∀ (s : State) (die index : Nat), isDie die = true → index < dtcSize die → Gives (.parityError .tlb die (tlbSize die + index)) s fun t => (unitOf t die).dtc = (unitOf s die).dtc.eraseIdx index ∧ (unitOf t die).tlb = (unitOf s die).tlb ∧ t.post.journal.next = s.post.journal.next + 1)
  ∧ (∀ (s : State) (die index : Nat), isDie die = true → index < parityRange .mirror die → Gives (.parityError .mirror die index) s fun t => (unitOf t die).mirror = (unitOf s die).mirror.eraseIdx index ∧ t.post.journal.next = s.post.journal.next + 1)
  ∧ (∀ (s : State) (die index : Nat) (p : Pin), isDie die = true → index < parityRange .pin die → s.xlat.pins[index]? = some p → p.programmed = none → Gives (.parityError .pin die index) s fun t => t.xlat.pins[index]? = some { p with leaf := none } ∧ t.post.journal.next = s.post.journal.next + 1)
  ∧ (∀ (s : State) (die index : Nat), isDie die = true → index < parityRange .spectralTable die → Gives (.parityError .spectralTable die index) s fun t => (dieOf t die).badSlots.contains index = true)
  ∧ (∀ (s : State) (die index : Nat) (r : RunCount), isDie die = true → index < parityRange .runCount die → (dieOf s die).runs[index]? = some r → Gives (.parityError .runCount die index) s fun t => (dieOf t die).runs = (dieOf s die).runs.eraseIdx index ∧ (dieOf t die).holds = (dieOf s die).holds.filter (fun f => !pktRunMatch f.pkt r) ∧ t.post.journal.next = s.post.journal.next + 1)
  ∧ (∀ (s : State) (die index : Nat), isDie die = true → index < parityRange .holdBuffer die → Gives (.parityError .holdBuffer die index) s fun t => (dieOf t die).holds = (dieOf s die).holds.eraseIdx index ∧ t.post.journal.next = s.post.journal.next + 1)
  ∧ (∀ (s : State) (die index : Nat), isDie die = true → index < parityRange .tally die → Gives (.parityError .tally die index) s fun t => (tallyOf t die index).bad = true ∧ t.post.journal.next = s.post.journal.next + 1)
  ∧ (∀ (s : State) (die word : Nat), isDie die = true → wordOnDie die word = true → powered s die = true → (dieOf s die).failed = false → word < otherStores → (dieOf s die).scrubbed + 1 < wordsOfDie die → markOf s word = none → Gives (.sramScrub die word .good) s fun t => (dieOf t die).scrubbed = (dieOf s die).scrubbed + 1 ∧ t.mem = s.mem ∧ t.post = s.post)
  ∧ (∀ (s : State) (die word : Nat), isDie die = true → wordOnDie die word = true → powered s die = true → (dieOf s die).failed = false → word < otherStores → markOf s word = none → Gives (.sramScrub die word .uncorrectable) s fun t => markOf t word = some .poison ∧ t.mem.cells = s.mem.cells ∧ t.post.journal.next = s.post.journal.next + 1)
  ∧ (∀ (s : State) (die word : Nat), isDie die = true → wordOnDie die word = true → powered s die = true → (dieOf s die).failed = false → word < otherStores → markOf s word = none → Gives (.sramScrub die word .correctable) s fun t => tget 0 (dieOf t die).ecc 0 = (tget 0 (dieOf s die).ecc 0 + 1) % 2 ^ 64 ∧ t.mem.cells = s.mem.cells ∧ markOf t word = none)

/-- Sensors, throttle and shutdown act. The last reading of a powered die's sensor is taken when it lies in range and fails the sensor otherwise; a hot frond's issue limit goes down by 8, not below 1, and a cool one's up by 1, not above 64; 115 C and an input above 58.5 V each shut a powered module down, raise ALERT, gate the arrays, for the first, and fill the latch with their cause; the power then goes off with the memories and rings cleared and the MRAM and the latch kept; the cool-down's end with an input present powers the module up to standby at the board's levels, or leaves it unpowered when no management processor starts; the supervisor answers its three latch bytes -/
def Obligations.ThermalRowsComplete : Prop :=
  (∀ (s : State) (rs : List SensorReading) (die index : Nat) (tenths : Int), postUp s = true → isDie die = true → index < sensorCount die → powered s die = true → -400 ≤ tenths → tenths ≤ 1500 → Gives (.thermalSample (rs ++ [{ die := die, index := index, tenths := some tenths }])) s fun t => sensorOf t die index = { tenths := tenths, condition := 0 })
  ∧ (∀ (s : State) (rs : List SensorReading) (die index : Nat) (tenths : Int), postUp s = true → isDie die = true → index < sensorCount die → powered s die = true → (tenths < -400 ∨ 1500 < tenths) → Gives (.thermalSample (rs ++ [{ die := die, index := index, tenths := some tenths }])) s fun t => (sensorOf t die index).condition = 2)
  ∧ (∀ (s : State) (frond : Nat), frond < 84 → dieHot s frond = true → Gives (.thermalLimitDecrease frond) s fun t => (frondPowerOf t frond).thermalLimit = max ((frondPowerOf s frond).thermalLimit - 8) 1)
  ∧ (∀ (s : State) (frond : Nat), frond < 84 → dieCool s frond = true → Gives (.thermalLimitIncrease frond) s fun t => (frondPowerOf t frond).thermalLimit = min ((frondPowerOf s frond).thermalLimit + 1) 64)
  ∧ (∀ (s : State) (die celsius : Nat), isDie die = true → 115 ≤ celsius → s.power.boot ≠ .unpowered → s.power.boot ≠ .shutdown → Gives (.thermalTrip die celsius) s fun t => t.power.boot = .shutdown ∧ t.power.alertShutdown = true ∧ t.power.arraysGated = true ∧ t.power.latch = { cause := 1, die := die, celsius := celsius % 256 } ∧ t.post = s.post)
  ∧ (∀ (s : State) (input millivolts : Nat), input < 2 → 58500 < millivolts → s.power.boot ≠ .unpowered → s.power.boot ≠ .shutdown → Gives (.overvoltageTrip input millivolts) s fun t => t.power.boot = .shutdown ∧ t.power.alertShutdown = true ∧ t.power.latch.cause = 2 ∧ t.post = s.post)
  ∧ (∀ (s : State) (b : Bool), s.power.boot = .shutdown → s.power.allOff = false → Gives (.shutdownPowerOff b) s fun t => t.power.boot = .shutdown ∧ t.power.allOff = true ∧ t.power.latch = s.power.latch ∧ t.mem = {} ∧ t.rings = [] ∧ t.post.maps = s.post.maps ∧ t.post.fw = s.post.fw)
  ∧ (∀ (s : State) (board : BoardStart), s.power.boot = .shutdown → s.power.allOff = true → (s.power.inA = true ∨ s.power.inB = true) → board.processorStarts = true →
      Gives (.cooldownExpiry board) s fun t => t.power.boot = .standby ∧ t.power.state = some 4 ∧ t.power.alertShutdown = false ∧ t.power.mctpOpen = true ∧ t.power.enable = board.enableAbove
        ∧ t.power.alertSupervisor = !board.supervisorOk ∧ s.post.journal.next < t.post.journal.next)
  ∧ (∀ (s : State) (board : BoardStart), s.power.boot = .shutdown → s.power.allOff = true → (s.power.inA = true ∨ s.power.inB = true) → board.processorStarts = false →
      Gives (.cooldownExpiry board) s fun t => t.power.boot = .unpowered ∧ t.power.alertShutdown = false ∧ t.power.mctpOpen = s.power.mctpOpen ∧ t.post = s.post)
  ∧ (∀ (s : State) (command v : Nat), s.power.boot = .shutdown → command < 3 → (v = (if command = 0 then s.power.latch.cause else if command = 1 then s.power.latch.die else s.power.latch.celsius)) → Gives (.supervisorReadByte command) s fun t => t = { s with out := s.out ++ [.smbusByte v] })

/-- A step runs the command at the front of the queue. With command c at the front of the queue, a step is exec of c on the state with the queue's rest. -/
def Obligations.StepRunsFront : Prop :=
  ∀ (c : Instr) (rest : List Instr) (s : State), s.pending = c :: rest → step s = exec c { s with pending := rest }

/-- A step with no command waiting is one reference period. With an empty queue a step is one tick of the fabric's time counters, where the postmaster runs, and of rack time (the model's choice, assumption 1); it changes no memory, ring, translation, image, function or power state, and of the fabric only what its dies have counted as time. -/
def Obligations.StepIdleTicks : Prop :=
  ∀ s : State, s.pending = [] → step s = .next (timeTick (if postUp s then fabricTick s else s)) ∧ (idleTick s).mem = s.mem ∧ (idleTick s).rings = s.rings
    ∧ (idleTick s).xlat = s.xlat ∧ (idleTick s).res = s.res ∧ (idleTick s).power = s.power ∧ (idleTick s).host.fns = s.host.fns
    ∧ (idleTick s).fabric = { s.fabric with dies := (idleTick s).fabric.dies }
    ∧ (∀ d, dieOf (idleTick s) d = { dieOf s d with waits := (dieOf (idleTick s) d).waits })

/-- The state after reset. After reset the memory is in canonical form, the ladder stands at no state, the queue is empty, every letterbox is Idle with a clear status, every ring is Free, every MSI-X entry is masked with address and data 0, every interrupt and event register is 0, the completion timeout is 40 ms, the deflection limit is 24 and every frond's weight is 8. -/
def Obligations.ResetState : Prop :=
  CanonicalMemory State.reset ∧ LegalLadder State.reset ∧ State.reset.pending = [] ∧ State.reset.out = []
  ∧ (∀ lb, (lbOf State.reset lb).state = .idle ∧ (lbOf State.reset lb).ready = false ∧ (lbOf State.reset lb).overrun = false
      ∧ (lbOf State.reset lb).overruns = 0)
  ∧ (∀ r, (ringOf State.reset r).state = .free)
  ∧ (∀ k v, tget {} (fnOf State.reset k).vectors v = { address := 0, data := 0, control := 1, pending := false })
  ∧ (∀ k, (fnOf State.reset k).events = 0 ∧ (fnOf State.reset k).intStatus = 0 ∧ (fnOf State.reset k).eventEnable = false
      ∧ (fnOf State.reset k).sent = 0 ∧ (fnOf State.reset k).withheld = 0 ∧ (fnOf State.reset k).completionTimeoutUs = 40000)
  ∧ State.reset.fabric.deflectLimit = 24 ∧ (∀ f, (frondPowerOf State.reset f).weight = 8)

/-- Every step keeps the memory in its canonical form. Whatever the command, a step from a state whose memory lists strictly rising addresses and no byte at its unlisted value leads to such a state. -/
def Obligations.StepKeepsCanonicalMemory : Prop :=
  StepKeeps CanonicalMemory

/-- The power ladder stands only at P0 to P4. Whatever the command, a step from a state whose ladder stands at no state or at one of P0 to P4 leads to such a state. -/
def Obligations.StepKeepsLegalLadder : Prop :=
  StepKeeps LegalLadder

/-- The journal keeps the newest records in the order of their indexes. Whatever the command, a step keeps the journal's records at most 57,344, at strictly rising indexes, and each below the next index to be assigned. -/
def Obligations.StepKeepsJournal : Prop :=
  StepKeeps OrderedJournal

/-- A journal index is never reused. Whatever the command, a reset and a loss of power included, the next record index never falls. -/
def Obligations.JournalIndexesNeverReused : Prop :=
  ∀ (i : Instr) (s t : State), exec i s = .next t → s.post.journal.next ≤ t.post.journal.next

/-- No well-formed command stops the machine. In every state, a command whose operands name units that exist answers a next state: never a fault and never a refusal. -/
def Obligations.WellFormedCommandsComplete : Prop :=
  ∀ (i : Instr) (s : State), i.wf = true → ∃ t, exec i s = .next t

/-- A command that names no existing unit changes nothing. In every state, a command with an operand that names a unit the module does not have, or a value that no such unit takes, completes and leaves the state as it is (the model's choice, assumption 7). -/
def Obligations.IllFormedCommandsChangeNothing : Prop :=
  ∀ (i : Instr) (s : State), i.wf = false → exec i s = .next s

/-- No command changes the queue of commands or takes back what has left the module. Every command that completes leaves the waiting commands as they are, in their order, and only appends to the list of what has left the module. -/
def Obligations.CommandsLeaveQueueAndOutputs : Prop :=
  ∀ (i : Instr) (s t : State), exec i s = .next t → t.pending = s.pending ∧ ∃ l, t.out = s.out ++ l

/-- Only a firmware activation moves the boot selector or the security floor, and the floor never falls. Any command but FW_ACTIVATE at reset, FW_ACTIVATE live and PLDM ActivateFirmware leaves the boot selectors and the floor; those never lower the floor. -/
def Obligations.OnlyActivationChangesBootFloor : Prop :=
  ∀ (i : Instr) (s t : State), exec i s = .next t → s.post.floor ≤ t.post.floor
    ∧ (mayActivate i = false → t.post.boot = s.post.boot ∧ t.post.floor = s.post.floor)

/-- Keys, route sets and contexts change by their own commands only. Any command that neither resets the module, nor ends self-test, nor is the table's own command leaves every key slot, every route set, every context and the deflection limit as they are. -/
def Obligations.OnlyKeyCommandsChangeKeys : Prop :=
  ∀ (i : Instr) (s t : State), exec i s = .next t → clearsModule i = false →
    (mayChangeKeys i = false → t.fabric.keys = s.fabric.keys)
    ∧ (mayChangeRouteSets i = false → t.fabric.routeSets = s.fabric.routeSets)
    ∧ (mayChangeContexts i = false → t.xlat.ctxs = s.xlat.ctxs)
    ∧ (mayChangeLimit i = false → t.fabric.deflectLimit = s.fabric.deflectLimit)

/-- The power state moves only at the ladder's own steps. Any command but power-up, the self-test steps, the resets, the governor's entry and exit steps, an input's failure, and a shutdown and its end leaves the power state as it is; a request alone never moves it. -/
def Obligations.OnlyTheLadderMovesTheLadder : Prop :=
  ∀ (i : Instr) (s t : State), exec i s = .next t → clearsModule i = false → movesLadder i = false → t.power.state = s.power.state

/-- The module's number and its management names change by their own commands only. Any command that does not clear the module leaves the module number unless it is discovery's commit time, the endpoint ID unless it is SetEndpointID, and every TAP unless it is a TAP's own command. -/
def Obligations.OnlyCommitChangesModuleNumber : Prop :=
  ∀ (i : Instr) (s t : State), exec i s = .next t → clearsModule i = false →
    (i ≠ .commitTime → t.disc.number = s.disc.number)
    ∧ ((∀ o e, i ≠ .mctpSetEndpointId o e) → t.mgmt.eid = s.mgmt.eid)
    ∧ (movesTap i = false → t.mgmt.taps = s.mgmt.taps)

/-- The host ports, functions, letterboxes and module commands leave the rest of the state alone. When a command of these families completes, every part of the state that its rule gives it no effect on is as before: for each row, the parts named at it (memory with every byte and mark, rings, packets and dies, translation, pigeonholes and launches, host functions, letterboxes and firmware, power, time, outputs). -/
def Obligations.HostAndLetterboxFrame : Prop :=
  (∀ (port : Nat), ∀ s t, exec (Instr.hostPortTraining port) s = .next t →
      t.mem = s.mem ∧ t.rings = s.rings ∧ t.fabric = s.fabric ∧ t.res = s.res ∧ t.xlat = s.xlat ∧ t.disc = s.disc ∧ t.mgmt = s.mgmt ∧ t.post = s.post ∧ t.power = s.power ∧ t.time = s.time ∧ t.out = s.out ∧ t.host.fns = s.host.fns)
  ∧ (∀ (port : Nat), ∀ i ∈ [Instr.perstAssert port, .hostLinkDown port], ∀ s t, exec i s = .next t →
      t.fabric.active = s.fabric.active ∧ t.fabric.staged = s.fabric.staged ∧ t.fabric.ports = s.fabric.ports ∧ t.res.images = s.res.images ∧ t.disc.mine = s.disc.mine ∧ t.mgmt.spdm = s.mgmt.spdm ∧ t.post.maps = s.post.maps ∧ t.time.rackTime = s.time.rackTime)
  ∧ (∀ (port : Nat) (fn : Nat) (write : Bool) (reg : CfgReg) (value : Nat), ∀ s t, exec (Instr.configRequest port fn write reg value) s = .next t →
      t.fabric.active = s.fabric.active ∧ t.fabric.staged = s.fabric.staged ∧ t.fabric.ports = s.fabric.ports ∧ t.res.images = s.res.images ∧ t.disc.mine = s.disc.mine ∧ t.mgmt.spdm = s.mgmt.spdm ∧ t.post.maps = s.post.maps ∧ t.time.rackTime = s.time.rackTime)
  ∧ (∀ (port : Nat) (fn : Nat), ∀ i ∈ [Instr.busMasterEnableClear port fn, .busMasterEnableSet port fn], ∀ s t, exec i s = .next t →
      t.disc = s.disc ∧ t.power = s.power ∧ t.time = s.time ∧ t.fabric.active = s.fabric.active ∧ t.fabric.staged = s.fabric.staged ∧ t.fabric.ports = s.fabric.ports ∧ t.res.images = s.res.images ∧ t.mgmt.spdm = s.mgmt.spdm ∧ t.post.maps = s.post.maps)
  ∧ (∀ (port : Nat) (fn : Nat), ∀ s t, exec (Instr.initiateFlr port fn) s = .next t →
      t.mem.cells = s.mem.cells ∧ t.fabric.active = s.fabric.active ∧ t.fabric.staged = s.fabric.staged ∧ t.fabric.ports = s.fabric.ports ∧ t.res.images = s.res.images ∧ t.disc.mine = s.disc.mine ∧ t.mgmt.spdm = s.mgmt.spdm ∧ t.post.maps = s.post.maps ∧ t.time.rackTime = s.time.rackTime)
  ∧ (∀ (port : Nat) (fn : Nat), ∀ s t, exec (Instr.flrReadsDone port fn) s = .next t →
      t.disc = s.disc ∧ t.power = s.power ∧ t.time = s.time ∧ t.fabric.active = s.fabric.active ∧ t.fabric.staged = s.fabric.staged ∧ t.fabric.ports = s.fabric.ports ∧ t.res.images = s.res.images ∧ t.mgmt.spdm = s.mgmt.spdm ∧ t.post.fw = s.post.fw ∧ t.post.maps = s.post.maps)
  ∧ (∀ (port : Nat), ∀ s t, exec (Instr.vfEnableSet port) s = .next t →
      t.mem = s.mem ∧ t.rings = s.rings ∧ t.fabric = s.fabric ∧ t.res = s.res ∧ t.xlat = s.xlat ∧ t.disc = s.disc ∧ t.mgmt = s.mgmt ∧ t.post = s.post ∧ t.power = s.power ∧ t.time = s.time ∧ t.out = s.out ∧ t.host.ports = s.host.ports)
  ∧ (∀ (port : Nat), ∀ s t, exec (Instr.vfEnableClear port) s = .next t →
      t.mem.cells = s.mem.cells ∧ t.fabric.active = s.fabric.active ∧ t.fabric.staged = s.fabric.staged ∧ t.fabric.ports = s.fabric.ports ∧ t.res.images = s.res.images ∧ t.disc.mine = s.disc.mine ∧ t.mgmt.spdm = s.mgmt.spdm ∧ t.post.maps = s.post.maps ∧ t.time.rackTime = s.time.rackTime)
  ∧ (∀ (port : Nat) (fn : Nat), ∀ s t, exec (Instr.d3hotEntry port fn) s = .next t →
      t.disc = s.disc ∧ t.power = s.power ∧ t.time = s.time ∧ t.mem.cells = s.mem.cells ∧ t.fabric.active = s.fabric.active ∧ t.fabric.staged = s.fabric.staged ∧ t.fabric.ports = s.fabric.ports ∧ t.res.images = s.res.images ∧ t.mgmt.spdm = s.mgmt.spdm ∧ t.post.maps = s.post.maps)
  ∧ (∀ (port : Nat) (fn : Nat), ∀ s t, exec (Instr.d0Return port fn) s = .next t →
      t.res = s.res ∧ t.disc = s.disc ∧ t.power = s.power ∧ t.time = s.time ∧ t.fabric.active = s.fabric.active ∧ t.fabric.staged = s.fabric.staged ∧ t.fabric.ports = s.fabric.ports ∧ t.xlat.pins = s.xlat.pins ∧ t.mgmt.spdm = s.mgmt.spdm ∧ t.host.ports = s.host.ports ∧ t.post.fw = s.post.fw ∧ t.post.maps = s.post.maps)
  ∧ (∀ (port : Nat) (fn : Nat), ∀ s t, exec (Instr.priEnableToggle port fn) s = .next t →
      t.mem = s.mem ∧ t.rings = s.rings ∧ t.fabric = s.fabric ∧ t.res = s.res ∧ t.xlat = s.xlat ∧ t.disc = s.disc ∧ t.mgmt = s.mgmt ∧ t.post = s.post ∧ t.power = s.power ∧ t.time = s.time ∧ t.out = s.out ∧ t.host.ports = s.host.ports)
  ∧ (∀ (port : Nat) (fn : Nat) (what : Unmask), ∀ s t, exec (Instr.msixUnmask port fn what) s = .next t →
      t.fabric.active = s.fabric.active ∧ t.fabric.staged = s.fabric.staged ∧ t.fabric.ports = s.fabric.ports ∧ t.res.images = s.res.images ∧ t.disc.mine = s.disc.mine ∧ t.mgmt.spdm = s.mgmt.spdm ∧ t.post.maps = s.post.maps ∧ t.time.rackTime = s.time.rackTime)
  ∧ (∀ (port : Nat) (fn : Nat) (bar : Nat) (offset : Nat) (size : Nat) (write : Bool), ∀ s t, exec (Instr.badSizeAccess port fn bar offset size write) s = .next t →
      t.mem = s.mem ∧ t.rings = s.rings ∧ t.fabric = s.fabric ∧ t.res = s.res ∧ t.xlat = s.xlat ∧ t.disc = s.disc ∧ t.power = s.power ∧ t.time = s.time ∧ t.mgmt.spdm = s.mgmt.spdm ∧ t.host.fns = s.host.fns ∧ t.post.lbs = s.post.lbs ∧ t.post.fw = s.post.fw ∧ t.post.maps = s.post.maps)
  ∧ (∀ (port : Nat) (fn : Nat) (bar : Nat) (offset : Nat) (size : Nat) (value : Nat) (hwSet : Nat), ∀ s t, exec (Instr.registerWrite port fn bar offset size value hwSet) s = .next t →
      t.mem = s.mem ∧ t.fabric = s.fabric ∧ t.res = s.res ∧ t.xlat = s.xlat ∧ t.disc.mine = s.disc.mine ∧ t.mgmt.spdm = s.mgmt.spdm ∧ t.post.fw = s.post.fw ∧ t.post.maps = s.post.maps ∧ t.time.rackTime = s.time.rackTime)
  ∧ (∀ (port : Nat) (tag : Nat) (status : CplStatus) (data : List Byte), ∀ s t, exec (Instr.hostReadCompletion port tag status data) s = .next t →
      t.disc = s.disc ∧ t.power = s.power ∧ t.time = s.time ∧ t.mem.cells = s.mem.cells ∧ t.fabric.active = s.fabric.active ∧ t.fabric.staged = s.fabric.staged ∧ t.fabric.ports = s.fabric.ports ∧ t.mgmt.spdm = s.mgmt.spdm ∧ t.post.maps = s.post.maps)
  ∧ (∀ (port : Nat) (tag : Nat), ∀ s t, exec (Instr.completionTimeout port tag) s = .next t →
      t.disc = s.disc ∧ t.power = s.power ∧ t.time = s.time ∧ t.mem.cells = s.mem.cells ∧ t.fabric.active = s.fabric.active ∧ t.fabric.staged = s.fabric.staged ∧ t.fabric.ports = s.fabric.ports ∧ t.mgmt.spdm = s.mgmt.spdm ∧ t.post.maps = s.post.maps)
  ∧ (∀ (port : Nat) (tag : Nat) (data : List Byte), ∀ s t, exec (Instr.poisonedCompletion port tag data) s = .next t →
      t.disc = s.disc ∧ t.power = s.power ∧ t.time = s.time ∧ t.mem.cells = s.mem.cells ∧ t.fabric.active = s.fabric.active ∧ t.fabric.staged = s.fabric.staged ∧ t.fabric.ports = s.fabric.ports ∧ t.mgmt.spdm = s.mgmt.spdm ∧ t.post.maps = s.post.maps)
  ∧ (∀ (port : Nat) (tag : Nat), ∀ i ∈ [Instr.unexpectedCompletion port tag, .correctableLinkError port tag], ∀ s t, exec i s = .next t →
      t.mem = s.mem ∧ t.rings = s.rings ∧ t.fabric = s.fabric ∧ t.res = s.res ∧ t.xlat = s.xlat ∧ t.disc = s.disc ∧ t.power = s.power ∧ t.time = s.time ∧ t.mgmt.spdm = s.mgmt.spdm ∧ t.host.fns = s.host.fns ∧ t.post.lbs = s.post.lbs ∧ t.post.fw = s.post.fw ∧ t.post.maps = s.post.maps)
  ∧ (∀ (port : Nat), ∀ s t, exec (Instr.malformedTlp port) s = .next t →
      t.mem = s.mem ∧ t.rings = s.rings ∧ t.fabric = s.fabric ∧ t.res = s.res ∧ t.xlat = s.xlat ∧ t.disc = s.disc ∧ t.power = s.power ∧ t.time = s.time ∧ t.mgmt.spdm = s.mgmt.spdm ∧ t.host.fns = s.host.fns ∧ t.post.lbs = s.post.lbs ∧ t.post.fw = s.post.fw ∧ t.post.maps = s.post.maps)
  ∧ (∀ (port : Nat) (fn : Nat) (pasid : Nat) (va : Nat) (length : Nat), ∀ s t, exec (Instr.atsInvalidationRequest port fn pasid va length) s = .next t →
      t.mem = s.mem ∧ t.res = s.res ∧ t.disc = s.disc ∧ t.power = s.power ∧ t.time = s.time ∧ t.fabric.active = s.fabric.active ∧ t.fabric.staged = s.fabric.staged ∧ t.fabric.ports = s.fabric.ports ∧ t.fabric.dies = s.fabric.dies ∧ t.xlat.pins = s.xlat.pins ∧ t.mgmt.spdm = s.mgmt.spdm ∧ t.post.fw = s.post.fw ∧ t.post.maps = s.post.maps)
  ∧ (∀ (port : Nat) (fn : Nat) (index : Nat) (code : PageCode), ∀ s t, exec (Instr.pageResponse port fn index code) s = .next t →
      t.disc = s.disc ∧ t.power = s.power ∧ t.time = s.time ∧ t.mem.cells = s.mem.cells ∧ t.fabric.active = s.fabric.active ∧ t.fabric.staged = s.fabric.staged ∧ t.fabric.ports = s.fabric.ports ∧ t.res.images = s.res.images ∧ t.xlat.pins = s.xlat.pins ∧ t.mgmt.spdm = s.mgmt.spdm ∧ t.post.fw = s.post.fw ∧ t.post.maps = s.post.maps)
  ∧ (∀ (port : Nat) (fn : Nat) (index : Nat), ∀ s t, exec (Instr.pageResponseTimeout port fn index) s = .next t →
      t.mem = s.mem ∧ t.fabric = s.fabric ∧ t.res = s.res ∧ t.xlat = s.xlat ∧ t.disc = s.disc ∧ t.power = s.power ∧ t.time = s.time ∧ t.mgmt.spdm = s.mgmt.spdm ∧ t.host.ports = s.host.ports ∧ t.post.lbs = s.post.lbs ∧ t.post.fw = s.post.fw ∧ t.post.maps = s.post.maps)
  ∧ (∀ (port : Nat) (type : Nat) (body : List Byte), ∀ s t, exec (Instr.doeObject port type body) s = .next t →
      t.mem = s.mem ∧ t.rings = s.rings ∧ t.fabric = s.fabric ∧ t.res = s.res ∧ t.xlat = s.xlat ∧ t.disc = s.disc ∧ t.host = s.host ∧ t.post = s.post ∧ t.power = s.power ∧ t.time = s.time)
  ∧ (∀ (lb : Nat) (value : Nat), ∀ s t, exec (Instr.lbDoorbell lb value) s = .next t →
      t.mem = s.mem ∧ t.rings = s.rings ∧ t.fabric = s.fabric ∧ t.res = s.res ∧ t.xlat = s.xlat ∧ t.disc = s.disc ∧ t.mgmt = s.mgmt ∧ t.host = s.host ∧ t.power = s.power ∧ t.time = s.time ∧ t.post.fw = s.post.fw ∧ t.post.maps = s.post.maps ∧ t.post.journal = s.post.journal)
  ∧ (∀ (lb : Nat) (value : Nat), ∀ s t, exec (Instr.lbAbort lb value) s = .next t →
      t.mem = s.mem ∧ t.fabric = s.fabric ∧ t.res = s.res ∧ t.xlat = s.xlat ∧ t.disc.mine = s.disc.mine ∧ t.mgmt.spdm = s.mgmt.spdm ∧ t.host.ports = s.host.ports ∧ t.post.fw = s.post.fw ∧ t.post.maps = s.post.maps ∧ t.time.rackTime = s.time.rackTime)
  ∧ (∀ (lb : Nat) (value : Nat) (hwSet : Bool), ∀ s t, exec (Instr.lbResultClear lb value hwSet) s = .next t →
      t.mem = s.mem ∧ t.rings = s.rings ∧ t.fabric = s.fabric ∧ t.res = s.res ∧ t.xlat = s.xlat ∧ t.disc = s.disc ∧ t.mgmt = s.mgmt ∧ t.host = s.host ∧ t.power = s.power ∧ t.time = s.time ∧ t.post.fw = s.post.fw ∧ t.post.maps = s.post.maps ∧ t.post.journal = s.post.journal)
  ∧ (∀ (lb : Nat) (offset : Nat) (size : Nat) (value : Nat), ∀ s t, exec (Instr.lbFrameWrite lb offset size value) s = .next t →
      t.mem = s.mem ∧ t.rings = s.rings ∧ t.fabric = s.fabric ∧ t.res = s.res ∧ t.xlat = s.xlat ∧ t.disc = s.disc ∧ t.power = s.power ∧ t.time = s.time ∧ t.mgmt.spdm = s.mgmt.spdm ∧ t.host.fns = s.host.fns ∧ t.post.fw = s.post.fw ∧ t.post.maps = s.post.maps)
  ∧ (∀ (lb : Nat), ∀ s t, exec (Instr.commandStart lb) s = .next t →
      t.mem = s.mem ∧ t.rings = s.rings ∧ t.fabric = s.fabric ∧ t.res = s.res ∧ t.xlat = s.xlat ∧ t.disc = s.disc ∧ t.mgmt = s.mgmt ∧ t.power = s.power ∧ t.time = s.time ∧ t.host.ports = s.host.ports ∧ t.post.fw = s.post.fw ∧ t.post.maps = s.post.maps ∧ t.post.journal = s.post.journal)
  ∧ (∀ (lb : Nat), ∀ i ∈ [Instr.nop lb, .getVersion lb, .getModuleInfo lb, .fnSetQuota lb, .fnQuery lb], ∀ s t, exec i s = .next t →
      t.mem = s.mem ∧ t.rings = s.rings ∧ t.fabric = s.fabric ∧ t.res = s.res ∧ t.xlat = s.xlat ∧ t.disc = s.disc ∧ t.power = s.power ∧ t.time = s.time ∧ t.mgmt.spdm = s.mgmt.spdm ∧ t.host.ports = s.host.ports ∧ t.post.fw = s.post.fw ∧ t.post.maps = s.post.maps)

/-- The ring, translation and key commands, the ring engine and the descriptors leave the rest of the state alone. When a command of these families completes, every part of the state that its rule gives it no effect on is as before: for each row, the parts named at it (memory with every byte and mark, rings, packets and dies, translation, pigeonholes and launches, host functions, letterboxes and firmware, power, time, outputs). -/
def Obligations.RingAndTranslationFrame : Prop :=
  (∀ (lb : Nat), ∀ s t, exec (Instr.ringAlloc lb) s = .next t →
      t.mem = s.mem ∧ t.res = s.res ∧ t.xlat = s.xlat ∧ t.disc = s.disc ∧ t.power = s.power ∧ t.time = s.time ∧ t.fabric.active = s.fabric.active ∧ t.fabric.staged = s.fabric.staged ∧ t.fabric.ports = s.fabric.ports ∧ t.fabric.dies = s.fabric.dies ∧ t.mgmt.spdm = s.mgmt.spdm ∧ t.host.ports = s.host.ports ∧ t.post.fw = s.post.fw ∧ t.post.maps = s.post.maps)
  ∧ (∀ (lb : Nat), ∀ s t, exec (Instr.ringFree lb) s = .next t →
      t.mem = s.mem ∧ t.xlat.pins = s.xlat.pins ∧ t.disc = s.disc ∧ t.power = s.power ∧ t.time = s.time ∧ t.fabric.active = s.fabric.active ∧ t.fabric.staged = s.fabric.staged ∧ t.fabric.ports = s.fabric.ports ∧ t.fabric.dies = s.fabric.dies ∧ t.res.images = s.res.images ∧ t.res.phs = s.res.phs ∧ t.mgmt.spdm = s.mgmt.spdm ∧ t.host.ports = s.host.ports ∧ t.post.fw = s.post.fw ∧ t.post.maps = s.post.maps)
  ∧ (∀ (lb : Nat), ∀ i ∈ [Instr.ringBind lb, .ringSetPhysical lb, .ringStart lb, .ringStop lb, .ringModerate lb], ∀ s t, exec i s = .next t →
      t.mem = s.mem ∧ t.fabric = s.fabric ∧ t.res = s.res ∧ t.xlat = s.xlat ∧ t.disc = s.disc ∧ t.power = s.power ∧ t.time = s.time ∧ t.mgmt.spdm = s.mgmt.spdm ∧ t.host.ports = s.host.ports ∧ t.post.fw = s.post.fw ∧ t.post.maps = s.post.maps)
  ∧ (∀ (lb : Nat), ∀ s t, exec (Instr.ringConfig lb) s = .next t →
      t.mem = s.mem ∧ t.fabric = s.fabric ∧ t.res = s.res ∧ t.xlat.pins = s.xlat.pins ∧ t.disc = s.disc ∧ t.power = s.power ∧ t.time = s.time ∧ t.mgmt.spdm = s.mgmt.spdm ∧ t.host.ports = s.host.ports ∧ t.post.fw = s.post.fw ∧ t.post.maps = s.post.maps)
  ∧ (∀ (lb : Nat), ∀ s t, exec (Instr.ringQuery lb) s = .next t →
      t.mem = s.mem ∧ t.rings = s.rings ∧ t.fabric = s.fabric ∧ t.res = s.res ∧ t.xlat = s.xlat ∧ t.disc = s.disc ∧ t.power = s.power ∧ t.time = s.time ∧ t.mgmt.spdm = s.mgmt.spdm ∧ t.host.ports = s.host.ports ∧ t.post.fw = s.post.fw ∧ t.post.maps = s.post.maps)
  ∧ (∀ (lb : Nat), ∀ s t, exec (Instr.broadcastAnswerTimeout lb) s = .next t →
      t.mem = s.mem ∧ t.rings = s.rings ∧ t.fabric = s.fabric ∧ t.res.images = s.res.images ∧ t.res.launches = s.res.launches ∧ t.res.phs = s.res.phs ∧ t.xlat = s.xlat ∧ t.disc = s.disc ∧ t.power = s.power ∧ t.time = s.time ∧ t.mgmt.spdm = s.mgmt.spdm ∧ t.host.ports = s.host.ports ∧ t.post.fw = s.post.fw ∧ t.post.maps = s.post.maps)
  ∧ (∀ (lb : Nat), ∀ s t, exec (Instr.ringAckLoss lb) s = .next t →
      t.mem = s.mem ∧ t.res = s.res ∧ t.xlat = s.xlat ∧ t.disc = s.disc ∧ t.power = s.power ∧ t.time = s.time ∧ t.fabric.active = s.fabric.active ∧ t.fabric.staged = s.fabric.staged ∧ t.fabric.ports = s.fabric.ports ∧ t.mgmt.spdm = s.mgmt.spdm ∧ t.host.ports = s.host.ports ∧ t.post.fw = s.post.fw ∧ t.post.maps = s.post.maps)
  ∧ (∀ (lb : Nat), ∀ i ∈ [Instr.ctxCreate lb, .pinRange lb, .hotpageConfig lb], ∀ s t, exec i s = .next t →
      t.mem = s.mem ∧ t.rings = s.rings ∧ t.fabric = s.fabric ∧ t.res = s.res ∧ t.disc = s.disc ∧ t.power = s.power ∧ t.time = s.time ∧ t.xlat.pins = s.xlat.pins ∧ t.mgmt.spdm = s.mgmt.spdm ∧ t.host.ports = s.host.ports ∧ t.post.fw = s.post.fw ∧ t.post.maps = s.post.maps)
  ∧ (∀ (lb : Nat), ∀ i ∈ [Instr.ctxDestroy lb, .unpinRange lb], ∀ s t, exec i s = .next t →
      t.mem = s.mem ∧ t.rings = s.rings ∧ t.fabric = s.fabric ∧ t.res = s.res ∧ t.disc = s.disc ∧ t.power = s.power ∧ t.time = s.time ∧ t.mgmt.spdm = s.mgmt.spdm ∧ t.host.ports = s.host.ports ∧ t.post.fw = s.post.fw ∧ t.post.maps = s.post.maps)
  ∧ (∀ (lb : Nat), ∀ i ∈ [Instr.ctxSetRoot lb, .tlbInvalidate lb, .tlbInvalidateBcast lb, .tableSync lb], ∀ s t, exec i s = .next t →
      t.mem = s.mem ∧ t.res = s.res ∧ t.disc = s.disc ∧ t.power = s.power ∧ t.time = s.time ∧ t.fabric.active = s.fabric.active ∧ t.fabric.staged = s.fabric.staged ∧ t.fabric.ports = s.fabric.ports ∧ t.fabric.dies = s.fabric.dies ∧ t.xlat.pins = s.xlat.pins ∧ t.mgmt.spdm = s.mgmt.spdm ∧ t.host.ports = s.host.ports ∧ t.post.fw = s.post.fw ∧ t.post.maps = s.post.maps)
  ∧ (∀ (lb : Nat), ∀ s t, exec (Instr.keyLoad lb) s = .next t →
      t.mem = s.mem ∧ t.rings = s.rings ∧ t.res = s.res ∧ t.xlat = s.xlat ∧ t.disc = s.disc ∧ t.power = s.power ∧ t.time = s.time ∧ t.fabric.active = s.fabric.active ∧ t.fabric.staged = s.fabric.staged ∧ t.fabric.ports = s.fabric.ports ∧ t.mgmt.spdm = s.mgmt.spdm ∧ t.host.ports = s.host.ports ∧ t.post.fw = s.post.fw ∧ t.post.maps = s.post.maps)
  ∧ (∀ (lb : Nat), ∀ s t, exec (Instr.keyClear lb) s = .next t →
      t.mem = s.mem ∧ t.rings = s.rings ∧ t.res = s.res ∧ t.xlat = s.xlat ∧ t.disc = s.disc ∧ t.power = s.power ∧ t.time = s.time ∧ t.fabric.active = s.fabric.active ∧ t.fabric.staged = s.fabric.staged ∧ t.fabric.ports = s.fabric.ports ∧ t.fabric.dies = s.fabric.dies ∧ t.mgmt.spdm = s.mgmt.spdm ∧ t.host.ports = s.host.ports ∧ t.post.fw = s.post.fw ∧ t.post.maps = s.post.maps)
  ∧ (∀ (port : Nat) (fn : Nat) (page : Nat) (value : Nat), ∀ s t, exec (Instr.ringDoorbell port fn page value) s = .next t →
      t.mem = s.mem ∧ t.fabric = s.fabric ∧ t.res = s.res ∧ t.xlat = s.xlat ∧ t.disc = s.disc ∧ t.power = s.power ∧ t.time = s.time ∧ t.mgmt.spdm = s.mgmt.spdm ∧ t.host.fns = s.host.fns ∧ t.host.ports = s.host.ports ∧ t.post.lbs = s.post.lbs ∧ t.post.fw = s.post.fw ∧ t.post.maps = s.post.maps)
  ∧ (∀ (port : Nat) (fn : Nat) (page : Nat) (value : Nat), ∀ s t, exec (Instr.ringCqConsumed port fn page value) s = .next t →
      t.mem = s.mem ∧ t.fabric = s.fabric ∧ t.res = s.res ∧ t.xlat = s.xlat ∧ t.disc = s.disc ∧ t.mgmt = s.mgmt ∧ t.host = s.host ∧ t.post = s.post ∧ t.power = s.power ∧ t.time = s.time)
  ∧ (∀ (port : Nat) (fn : Nat) (value : Nat), ∀ i ∈ [Instr.intEventVector port fn value, .intSelect port fn value], ∀ s t, exec i s = .next t →
      t.mem = s.mem ∧ t.rings = s.rings ∧ t.fabric = s.fabric ∧ t.res = s.res ∧ t.xlat = s.xlat ∧ t.disc = s.disc ∧ t.mgmt = s.mgmt ∧ t.post = s.post ∧ t.power = s.power ∧ t.time = s.time ∧ t.host.ports = s.host.ports)
  ∧ (∀ (port : Nat) (fn : Nat) (vector : Nat) (field : MsixField) (value : Nat), ∀ s t, exec (Instr.msixTableWrite port fn vector field value) s = .next t →
      t.mem = s.mem ∧ t.rings = s.rings ∧ t.fabric = s.fabric ∧ t.res = s.res ∧ t.xlat = s.xlat ∧ t.disc = s.disc ∧ t.mgmt = s.mgmt ∧ t.post = s.post ∧ t.power = s.power ∧ t.time = s.time ∧ t.host.ports = s.host.ports)
  ∧ (∀ (ring : Nat), ∀ s t, exec (Instr.descriptorFetch ring) s = .next t →
      t.mem = s.mem ∧ t.res = s.res ∧ t.disc = s.disc ∧ t.power = s.power ∧ t.time = s.time ∧ t.fabric.active = s.fabric.active ∧ t.fabric.staged = s.fabric.staged ∧ t.fabric.ports = s.fabric.ports ∧ t.xlat.pins = s.xlat.pins ∧ t.mgmt.spdm = s.mgmt.spdm ∧ t.post.lbs = s.post.lbs ∧ t.post.fw = s.post.fw ∧ t.post.maps = s.post.maps)
  ∧ (∀ (ring : Nat), ∀ s t, exec (Instr.descriptorStart ring) s = .next t →
      t.mem = s.mem ∧ t.fabric = s.fabric ∧ t.res = s.res ∧ t.xlat.pins = s.xlat.pins ∧ t.disc = s.disc ∧ t.mgmt = s.mgmt ∧ t.host.fns = s.host.fns ∧ t.host.ports = s.host.ports ∧ t.post = s.post ∧ t.power = s.power ∧ t.time = s.time ∧ t.out = s.out)
  ∧ (∀ (ring : Nat), ∀ s t, exec (Instr.descriptorSettle ring) s = .next t →
      t.res = s.res ∧ t.disc = s.disc ∧ t.power = s.power ∧ t.time = s.time ∧ t.fabric.active = s.fabric.active ∧ t.fabric.staged = s.fabric.staged ∧ t.fabric.ports = s.fabric.ports ∧ t.xlat.pins = s.xlat.pins ∧ t.mgmt.spdm = s.mgmt.spdm ∧ t.host.ports = s.host.ports ∧ t.post.fw = s.post.fw ∧ t.post.maps = s.post.maps)
  ∧ (∀ (ring : Nat) (reason : Nat), ∀ s t, exec (Instr.ringError ring reason) s = .next t →
      t.mem = s.mem ∧ t.fabric = s.fabric ∧ t.res = s.res ∧ t.xlat = s.xlat ∧ t.disc = s.disc ∧ t.power = s.power ∧ t.time = s.time ∧ t.mgmt.spdm = s.mgmt.spdm ∧ t.host.ports = s.host.ports ∧ t.post.lbs = s.post.lbs ∧ t.post.fw = s.post.fw ∧ t.post.maps = s.post.maps)
  ∧ (∀ (ring : Nat), ∀ s t, exec (Instr.moderationTimer ring) s = .next t →
      t.mem = s.mem ∧ t.fabric = s.fabric ∧ t.res = s.res ∧ t.xlat = s.xlat ∧ t.disc = s.disc ∧ t.mgmt = s.mgmt ∧ t.post = s.post ∧ t.power = s.power ∧ t.time = s.time ∧ t.host.ports = s.host.ports)
  ∧ (∀ (ring : Nat) (count : Nat), ∀ i ∈ [Instr.nopDescriptor ring count, .tallyWaitTimeout ring count], ∀ s t, exec i s = .next t →
      t.mem = s.mem ∧ t.fabric = s.fabric ∧ t.res = s.res ∧ t.xlat = s.xlat ∧ t.disc = s.disc ∧ t.mgmt = s.mgmt ∧ t.host = s.host ∧ t.post = s.post ∧ t.power = s.power ∧ t.time = s.time ∧ t.out = s.out)
  ∧ (∀ (ring : Nat) (count : Nat), ∀ s t, exec (Instr.copy ring count) s = .next t →
      t.mem = s.mem ∧ t.res = s.res ∧ t.disc = s.disc ∧ t.mgmt.spdm = s.mgmt.spdm ∧ t.post.fw = s.post.fw ∧ t.post.maps = s.post.maps ∧ t.power = s.power ∧ t.time = s.time ∧ t.fabric.active = s.fabric.active ∧ t.fabric.staged = s.fabric.staged ∧ t.fabric.ports = s.fabric.ports ∧ t.xlat.pins = s.xlat.pins)
  ∧ (∀ (ring : Nat) (count : Nat), ∀ s t, exec (Instr.atomic ring count) s = .next t →
      t.mem = s.mem ∧ t.res = s.res ∧ t.xlat.pins = s.xlat.pins ∧ t.disc = s.disc ∧ t.mgmt = s.mgmt ∧ t.host = s.host ∧ t.post = s.post ∧ t.power = s.power ∧ t.time = s.time ∧ t.out = s.out ∧ t.fabric.active = s.fabric.active ∧ t.fabric.staged = s.fabric.staged ∧ t.fabric.ports = s.fabric.ports)
  ∧ (∀ (ring : Nat) (count : Nat), ∀ s t, exec (Instr.spectral ring count) s = .next t →
      t.res = s.res ∧ t.xlat.pins = s.xlat.pins ∧ t.disc = s.disc ∧ t.power = s.power ∧ t.time = s.time ∧ t.mem.cells = s.mem.cells ∧ t.fabric.active = s.fabric.active ∧ t.fabric.staged = s.fabric.staged ∧ t.fabric.ports = s.fabric.ports ∧ t.mgmt.spdm = s.mgmt.spdm ∧ t.host.fns = s.host.fns ∧ t.host.ports = s.host.ports ∧ t.post.lbs = s.post.lbs ∧ t.post.fw = s.post.fw ∧ t.post.maps = s.post.maps)
  ∧ (∀ (ring : Nat) (count : Nat), ∀ s t, exec (Instr.launch ring count) s = .next t →
      t.mem = s.mem ∧ t.disc = s.disc ∧ t.mgmt = s.mgmt ∧ t.post = s.post ∧ t.power = s.power ∧ t.time = s.time ∧ t.fabric.active = s.fabric.active ∧ t.fabric.staged = s.fabric.staged ∧ t.fabric.ports = s.fabric.ports ∧ t.res.images = s.res.images ∧ t.xlat.pins = s.xlat.pins ∧ t.host.fns = s.host.fns)
  ∧ (∀ (ring : Nat) (count : Nat), ∀ s t, exec (Instr.tallyWait ring count) s = .next t →
      t.mem = s.mem ∧ t.fabric = s.fabric ∧ t.res = s.res ∧ t.xlat = s.xlat ∧ t.disc = s.disc ∧ t.power = s.power ∧ t.time = s.time ∧ t.mgmt.spdm = s.mgmt.spdm ∧ t.host.fns = s.host.fns ∧ t.host.ports = s.host.ports ∧ t.post.lbs = s.post.lbs ∧ t.post.fw = s.post.fw ∧ t.post.maps = s.post.maps)
  ∧ (∀ (ring : Nat) (count : Nat), ∀ s t, exec (Instr.tallySet ring count) s = .next t →
      t.mem = s.mem ∧ t.res = s.res ∧ t.xlat = s.xlat ∧ t.disc = s.disc ∧ t.mgmt = s.mgmt ∧ t.host = s.host ∧ t.post = s.post ∧ t.power = s.power ∧ t.time = s.time ∧ t.out = s.out ∧ t.fabric.active = s.fabric.active ∧ t.fabric.staged = s.fabric.staged ∧ t.fabric.ports = s.fabric.ports ∧ t.fabric.dies = s.fabric.dies)
  ∧ (∀ (ring : Nat) (count : Nat), ∀ i ∈ [Instr.tallySetTimeout ring count, .receiptTimeout ring count, .unreachableTimeout ring count], ∀ s t, exec i s = .next t →
      t.mem = s.mem ∧ t.fabric = s.fabric ∧ t.res = s.res ∧ t.xlat = s.xlat ∧ t.disc = s.disc ∧ t.mgmt = s.mgmt ∧ t.post = s.post ∧ t.power = s.power ∧ t.time = s.time ∧ t.host.ports = s.host.ports)
  ∧ (∀ (ring : Nat) (count : Nat), ∀ s t, exec (Instr.relayTimeout ring count) s = .next t →
      t.mem = s.mem ∧ t.res = s.res ∧ t.xlat = s.xlat ∧ t.disc = s.disc ∧ t.mgmt = s.mgmt ∧ t.post = s.post ∧ t.power = s.power ∧ t.time = s.time ∧ t.fabric.active = s.fabric.active ∧ t.fabric.staged = s.fabric.staged ∧ t.fabric.ports = s.fabric.ports ∧ t.fabric.dies = s.fabric.dies ∧ t.host.ports = s.host.ports)
  ∧ (∀ (core : Nat) (array : Nat) (descriptor : List Byte), ∀ s t, exec (Instr.stewardSubmit core array descriptor) s = .next t →
      t.mem = s.mem ∧ t.fabric = s.fabric ∧ t.xlat = s.xlat ∧ t.disc = s.disc ∧ t.mgmt = s.mgmt ∧ t.host = s.host ∧ t.post = s.post ∧ t.power = s.power ∧ t.time = s.time ∧ t.out = s.out ∧ t.res.images = s.res.images ∧ t.res.phs = s.res.phs ∧ t.res.launches = s.res.launches)
  ∧ (∀ (unit : Nat) (walk : Nat), ∀ s t, exec (Instr.tableWalk unit walk) s = .next t →
      t.disc = s.disc ∧ t.power = s.power ∧ t.time = s.time ∧ t.mem.cells = s.mem.cells ∧ t.fabric.active = s.fabric.active ∧ t.fabric.staged = s.fabric.staged ∧ t.fabric.ports = s.fabric.ports ∧ t.res.images = s.res.images ∧ t.mgmt.spdm = s.mgmt.spdm ∧ t.post.fw = s.post.fw ∧ t.post.maps = s.post.maps)
  ∧ (∀ (port : Nat) (fn : Nat) (context : Nat), ∀ s t, exec (Instr.hotpageWindowEnd port fn context) s = .next t →
      t.res = s.res ∧ t.disc = s.disc ∧ t.mgmt.spdm = s.mgmt.spdm ∧ t.post.lbs = s.post.lbs ∧ t.post.fw = s.post.fw ∧ t.post.maps = s.post.maps ∧ t.power = s.power ∧ t.time = s.time ∧ t.fabric.active = s.fabric.active ∧ t.fabric.staged = s.fabric.staged ∧ t.fabric.ports = s.fabric.ports ∧ t.xlat.pins = s.xlat.pins ∧ t.host.ports = s.host.ports)

/-- The image, pigeonhole and launch rows leave the rest of the state alone. When a command of these families completes, every part of the state that its rule gives it no effect on is as before: for each row, the parts named at it (memory with every byte and mark, rings, packets and dies, translation, pigeonholes and launches, host functions, letterboxes and firmware, power, time, outputs). -/
def Obligations.ResidencyFrame : Prop :=
  (∀ (lb : Nat), ∀ s t, exec (Instr.imageLoad lb) s = .next t →
      t.mem = s.mem ∧ t.rings = s.rings ∧ t.xlat = s.xlat ∧ t.disc = s.disc ∧ t.power = s.power ∧ t.time = s.time ∧ t.fabric.active = s.fabric.active ∧ t.fabric.staged = s.fabric.staged ∧ t.fabric.ports = s.fabric.ports ∧ t.res.phs = s.res.phs ∧ t.res.launches = s.res.launches ∧ t.mgmt.spdm = s.mgmt.spdm ∧ t.post.fw = s.post.fw ∧ t.post.maps = s.post.maps)
  ∧ (∀ (lb : Nat), ∀ s t, exec (Instr.imageDrop lb) s = .next t →
      t.mem = s.mem ∧ t.rings = s.rings ∧ t.fabric = s.fabric ∧ t.xlat = s.xlat ∧ t.disc = s.disc ∧ t.power = s.power ∧ t.time = s.time ∧ t.res.phs = s.res.phs ∧ t.res.launches = s.res.launches ∧ t.mgmt.spdm = s.mgmt.spdm ∧ t.host.ports = s.host.ports ∧ t.post.fw = s.post.fw ∧ t.post.maps = s.post.maps)
  ∧ (∀ (lb : Nat), ∀ i ∈ [Instr.imageQuery lb, .phQuery lb, .freeMapRead lb], ∀ s t, exec i s = .next t →
      t.mem = s.mem ∧ t.rings = s.rings ∧ t.fabric = s.fabric ∧ t.res = s.res ∧ t.xlat = s.xlat ∧ t.disc = s.disc ∧ t.power = s.power ∧ t.time = s.time ∧ t.mgmt.spdm = s.mgmt.spdm ∧ t.host.ports = s.host.ports ∧ t.post.fw = s.post.fw ∧ t.post.maps = s.post.maps)
  ∧ (∀ (lb : Nat), ∀ s t, exec (Instr.phCreate lb) s = .next t →
      t.rings = s.rings ∧ t.disc = s.disc ∧ t.power = s.power ∧ t.time = s.time ∧ t.fabric.active = s.fabric.active ∧ t.fabric.staged = s.fabric.staged ∧ t.fabric.ports = s.fabric.ports ∧ t.res.images = s.res.images ∧ t.mgmt.spdm = s.mgmt.spdm ∧ t.host.ports = s.host.ports ∧ t.post.fw = s.post.fw ∧ t.post.maps = s.post.maps)
  ∧ (∀ (lb : Nat), ∀ i ∈ [Instr.phClaim lb, .residencyTargetReached lb], ∀ s t, exec i s = .next t →
      t.mem = s.mem ∧ t.rings = s.rings ∧ t.fabric = s.fabric ∧ t.xlat = s.xlat ∧ t.disc = s.disc ∧ t.power = s.power ∧ t.time = s.time ∧ t.res.images = s.res.images ∧ t.res.launches = s.res.launches ∧ t.mgmt.spdm = s.mgmt.spdm ∧ t.host.ports = s.host.ports ∧ t.post.fw = s.post.fw ∧ t.post.maps = s.post.maps)
  ∧ (∀ (lb : Nat), ∀ i ∈ [Instr.phRelease lb, .phEvict lb, .loadCancel lb], ∀ s t, exec i s = .next t →
      t.disc = s.disc ∧ t.power = s.power ∧ t.time = s.time ∧ t.fabric.active = s.fabric.active ∧ t.fabric.staged = s.fabric.staged ∧ t.fabric.ports = s.fabric.ports ∧ t.res.images = s.res.images ∧ t.mgmt.spdm = s.mgmt.spdm ∧ t.host.ports = s.host.ports ∧ t.post.fw = s.post.fw ∧ t.post.maps = s.post.maps)
  ∧ (∀ (lb : Nat), ∀ s t, exec (Instr.phStop lb) s = .next t →
      t.mem = s.mem ∧ t.rings = s.rings ∧ t.xlat = s.xlat ∧ t.disc = s.disc ∧ t.power = s.power ∧ t.time = s.time ∧ t.fabric.active = s.fabric.active ∧ t.fabric.staged = s.fabric.staged ∧ t.fabric.ports = s.fabric.ports ∧ t.fabric.dies = s.fabric.dies ∧ t.res.images = s.res.images ∧ t.res.phs = s.res.phs ∧ t.res.launches = s.res.launches ∧ t.mgmt.spdm = s.mgmt.spdm ∧ t.host.ports = s.host.ports ∧ t.post.fw = s.post.fw ∧ t.post.maps = s.post.maps)
  ∧ (∀ (pigeonhole : Nat) (launch : Nat), ∀ s t, exec (Instr.launchGrant pigeonhole launch) s = .next t →
      t.rings = s.rings ∧ t.xlat = s.xlat ∧ t.disc = s.disc ∧ t.power = s.power ∧ t.time = s.time ∧ t.fabric.active = s.fabric.active ∧ t.fabric.staged = s.fabric.staged ∧ t.fabric.ports = s.fabric.ports ∧ t.res.images = s.res.images ∧ t.mgmt.spdm = s.mgmt.spdm ∧ t.host.fns = s.host.fns ∧ t.host.ports = s.host.ports ∧ t.post.lbs = s.post.lbs ∧ t.post.fw = s.post.fw ∧ t.post.maps = s.post.maps)
  ∧ (∀ (launch : Nat), ∀ s t, exec (Instr.streamReadTimeout launch) s = .next t →
      t.mem = s.mem ∧ t.fabric.active = s.fabric.active ∧ t.fabric.staged = s.fabric.staged ∧ t.fabric.ports = s.fabric.ports ∧ t.xlat = s.xlat ∧ t.disc = s.disc ∧ t.mgmt = s.mgmt ∧ t.post = s.post ∧ t.power = s.power ∧ t.time = s.time ∧ t.res.images = s.res.images ∧ t.host.ports = s.host.ports)
  ∧ (∀ (frond : Nat) (tile : Nat) (write : Bool) (offset : Nat) (bytes : List Byte), ∀ s t, exec (Instr.tileCoreAccess frond tile write offset bytes) s = .next t →
      t.xlat = s.xlat ∧ t.disc = s.disc ∧ t.power = s.power ∧ t.time = s.time ∧ t.fabric.active = s.fabric.active ∧ t.fabric.staged = s.fabric.staged ∧ t.fabric.ports = s.fabric.ports ∧ t.res.images = s.res.images ∧ t.mgmt.spdm = s.mgmt.spdm ∧ t.host.fns = s.host.fns ∧ t.host.ports = s.host.ports ∧ t.post.lbs = s.post.lbs ∧ t.post.fw = s.post.fw ∧ t.post.maps = s.post.maps)
  ∧ (∀ (launch : Nat), ∀ s t, exec (Instr.launchEnd launch) s = .next t →
      t.mem = s.mem ∧ t.fabric.active = s.fabric.active ∧ t.fabric.staged = s.fabric.staged ∧ t.fabric.ports = s.fabric.ports ∧ t.xlat = s.xlat ∧ t.disc = s.disc ∧ t.mgmt = s.mgmt ∧ t.host = s.host ∧ t.post = s.post ∧ t.power = s.power ∧ t.time = s.time ∧ t.out = s.out ∧ t.res.images = s.res.images)
  ∧ (∀ (launch : Nat) (tile : Nat) (code : Nat), ∀ s t, exec (Instr.tileFault launch tile code) s = .next t →
      t.xlat = s.xlat ∧ t.disc = s.disc ∧ t.power = s.power ∧ t.time = s.time ∧ t.fabric.active = s.fabric.active ∧ t.fabric.staged = s.fabric.staged ∧ t.fabric.ports = s.fabric.ports ∧ t.res.images = s.res.images ∧ t.mgmt.spdm = s.mgmt.spdm ∧ t.host.fns = s.host.fns ∧ t.host.ports = s.host.ports ∧ t.post.lbs = s.post.lbs ∧ t.post.fw = s.post.fw ∧ t.post.maps = s.post.maps)
  ∧ (∀ (launch : Nat) (tile : Nat), ∀ s t, exec (Instr.entryTimeLimit launch tile) s = .next t →
      t.xlat = s.xlat ∧ t.disc = s.disc ∧ t.power = s.power ∧ t.time = s.time ∧ t.fabric.active = s.fabric.active ∧ t.fabric.staged = s.fabric.staged ∧ t.fabric.ports = s.fabric.ports ∧ t.res.images = s.res.images ∧ t.mgmt.spdm = s.mgmt.spdm ∧ t.host.fns = s.host.fns ∧ t.host.ports = s.host.ports ∧ t.post.lbs = s.post.lbs ∧ t.post.fw = s.post.fw ∧ t.post.maps = s.post.maps)
  ∧ (∀ (launch : Nat) (tile : Nat) (operand : Nat) (write : Bool) (bytes : List Byte), ∀ s t, exec (Instr.operatorLibraryCall launch tile operand write bytes) s = .next t →
      t.xlat.pins = s.xlat.pins ∧ t.disc = s.disc ∧ t.power = s.power ∧ t.time = s.time ∧ t.fabric.active = s.fabric.active ∧ t.fabric.staged = s.fabric.staged ∧ t.fabric.ports = s.fabric.ports ∧ t.res.images = s.res.images ∧ t.mgmt.spdm = s.mgmt.spdm ∧ t.host.fns = s.host.fns ∧ t.post.lbs = s.post.lbs ∧ t.post.fw = s.post.fw ∧ t.post.maps = s.post.maps)
  ∧ (∀ (core : Nat) (write : Bool) (address : Nat) (bytes : List Byte), ∀ s t, exec (Instr.stewardCoreAccess core write address bytes) s = .next t →
      t.rings = s.rings ∧ t.res = s.res ∧ t.xlat = s.xlat ∧ t.disc = s.disc ∧ t.power = s.power ∧ t.time = s.time ∧ t.fabric.active = s.fabric.active ∧ t.fabric.staged = s.fabric.staged ∧ t.fabric.ports = s.fabric.ports ∧ t.mgmt.spdm = s.mgmt.spdm ∧ t.host.fns = s.host.fns ∧ t.host.ports = s.host.ports ∧ t.post.lbs = s.post.lbs ∧ t.post.fw = s.post.fw ∧ t.post.maps = s.post.maps)
  ∧ (∀ (core : Nat), ∀ s t, exec (Instr.stewardCoreException core) s = .next t →
      t.mem = s.mem ∧ t.rings = s.rings ∧ t.fabric = s.fabric ∧ t.xlat = s.xlat ∧ t.disc = s.disc ∧ t.power = s.power ∧ t.time = s.time ∧ t.res.images = s.res.images ∧ t.res.phs = s.res.phs ∧ t.res.launches = s.res.launches ∧ t.mgmt.spdm = s.mgmt.spdm ∧ t.host.fns = s.host.fns ∧ t.host.ports = s.host.ports ∧ t.post.lbs = s.post.lbs ∧ t.post.fw = s.post.fw ∧ t.post.maps = s.post.maps)
  ∧ (∀ (pigeonhole : Nat), ∀ s t, exec (Instr.phCreateTimeout pigeonhole) s = .next t →
      t.mem = s.mem ∧ t.fabric.active = s.fabric.active ∧ t.fabric.staged = s.fabric.staged ∧ t.fabric.ports = s.fabric.ports ∧ t.xlat = s.xlat ∧ t.disc = s.disc ∧ t.power = s.power ∧ t.time = s.time ∧ t.res.images = s.res.images ∧ t.mgmt.spdm = s.mgmt.spdm ∧ t.host.ports = s.host.ports ∧ t.post.fw = s.post.fw ∧ t.post.maps = s.post.maps)
  ∧ (∀ (pigeonhole : Nat) (record : Nat), ∀ s t, exec (Instr.loadReadTimeout pigeonhole record) s = .next t →
      t.mem = s.mem ∧ t.xlat = s.xlat ∧ t.disc = s.disc ∧ t.power = s.power ∧ t.time = s.time ∧ t.fabric.active = s.fabric.active ∧ t.fabric.staged = s.fabric.staged ∧ t.fabric.ports = s.fabric.ports ∧ t.res.images = s.res.images ∧ t.mgmt.spdm = s.mgmt.spdm ∧ t.host.fns = s.host.fns ∧ t.host.ports = s.host.ports ∧ t.post.lbs = s.post.lbs ∧ t.post.fw = s.post.fw ∧ t.post.maps = s.post.maps)
  ∧ (∀ (pigeonhole : Nat), ∀ s t, exec (Instr.stampError pigeonhole) s = .next t →
      t.xlat = s.xlat ∧ t.disc = s.disc ∧ t.power = s.power ∧ t.time = s.time ∧ t.fabric.active = s.fabric.active ∧ t.fabric.staged = s.fabric.staged ∧ t.fabric.ports = s.fabric.ports ∧ t.res.images = s.res.images ∧ t.mgmt.spdm = s.mgmt.spdm ∧ t.host.fns = s.host.fns ∧ t.host.ports = s.host.ports ∧ t.post.lbs = s.post.lbs ∧ t.post.fw = s.post.fw ∧ t.post.maps = s.post.maps)

/-- The fabric commands, lanes, links and routers leave the rest of the state alone. When a command of these families completes, every part of the state that its rule gives it no effect on is as before: for each row, the parts named at it (memory with every byte and mark, rings, packets and dies, translation, pigeonholes and launches, host functions, letterboxes and firmware, power, time, outputs). -/
def Obligations.FabricFrame : Prop :=
  (∀ (lb : Nat), ∀ s t, exec (Instr.routeStage lb) s = .next t →
      t.mem = s.mem ∧ t.rings = s.rings ∧ t.res = s.res ∧ t.xlat = s.xlat ∧ t.disc = s.disc ∧ t.power = s.power ∧ t.time = s.time ∧ t.fabric.active = s.fabric.active ∧ t.fabric.ports = s.fabric.ports ∧ t.fabric.dies = s.fabric.dies ∧ t.mgmt.spdm = s.mgmt.spdm ∧ t.host.ports = s.host.ports ∧ t.post.fw = s.post.fw ∧ t.post.maps = s.post.maps)
  ∧ (∀ (lb : Nat), ∀ i ∈ [Instr.routeCommit lb, .portDisable lb, .portEnable lb, .portRetrain lb, .diagEnter lb, .txTapsSet lb, .prbsGen lb, .prbsCheck lb, .patternLow lb, .patternHigh lb, .bitSlip lb, .loopback lb, .rateLimit lb, .fallbackIdleEnd lb, .backoffAttempt lb], ∀ s t, exec i s = .next t →
      t.mem = s.mem ∧ t.rings = s.rings ∧ t.res = s.res ∧ t.xlat = s.xlat ∧ t.disc = s.disc ∧ t.power = s.power ∧ t.time = s.time ∧ t.fabric.active = s.fabric.active ∧ t.fabric.staged = s.fabric.staged ∧ t.fabric.dies = s.fabric.dies ∧ t.mgmt.spdm = s.mgmt.spdm ∧ t.host.ports = s.host.ports ∧ t.post.fw = s.post.fw ∧ t.post.maps = s.post.maps)
  ∧ (∀ (lb : Nat), ∀ i ∈ [Instr.routeRead lb, .portQuery lb, .status lb], ∀ s t, exec i s = .next t →
      t.mem = s.mem ∧ t.rings = s.rings ∧ t.fabric = s.fabric ∧ t.res = s.res ∧ t.xlat = s.xlat ∧ t.disc = s.disc ∧ t.power = s.power ∧ t.time = s.time ∧ t.mgmt.spdm = s.mgmt.spdm ∧ t.host.ports = s.host.ports ∧ t.post.fw = s.post.fw ∧ t.post.maps = s.post.maps)
  ∧ (∀ (lb : Nat), ∀ i ∈ [Instr.routeSetDefine lb, .deflectLimit lb], ∀ s t, exec i s = .next t →
      t.mem = s.mem ∧ t.rings = s.rings ∧ t.res = s.res ∧ t.xlat = s.xlat ∧ t.disc = s.disc ∧ t.power = s.power ∧ t.time = s.time ∧ t.fabric.active = s.fabric.active ∧ t.fabric.staged = s.fabric.staged ∧ t.fabric.ports = s.fabric.ports ∧ t.fabric.dies = s.fabric.dies ∧ t.mgmt.spdm = s.mgmt.spdm ∧ t.host.ports = s.host.ports ∧ t.post.fw = s.post.fw ∧ t.post.maps = s.post.maps)
  ∧ (∀ (lb : Nat), ∀ i ∈ [Instr.portSetWidth lb, .portSpare lb], ∀ s t, exec i s = .next t →
      t.mem = s.mem ∧ t.rings = s.rings ∧ t.res = s.res ∧ t.xlat = s.xlat ∧ t.disc = s.disc ∧ t.power = s.power ∧ t.time = s.time ∧ t.fabric.active = s.fabric.active ∧ t.fabric.staged = s.fabric.staged ∧ t.mgmt.spdm = s.mgmt.spdm ∧ t.host.ports = s.host.ports ∧ t.post.fw = s.post.fw)
  ∧ (∀ (lb stream words : Nat) (bitLock : Bool), ∀ s t, exec (Instr.prbsRead lb stream words bitLock) s = .next t →
      t.mem = s.mem ∧ t.rings = s.rings ∧ t.res = s.res ∧ t.xlat = s.xlat ∧ t.disc = s.disc ∧ t.power = s.power ∧ t.time = s.time ∧ t.fabric.active = s.fabric.active ∧ t.fabric.staged = s.fabric.staged ∧ t.fabric.dies = s.fabric.dies ∧ t.mgmt.spdm = s.mgmt.spdm ∧ t.host.ports = s.host.ports ∧ t.post.fw = s.post.fw ∧ t.post.maps = s.post.maps)
  ∧ (∀ (lb : Nat) (words : List (BitVec 64)), ∀ s t, exec (Instr.capture lb words) s = .next t →
      t.mem = s.mem ∧ t.rings = s.rings ∧ t.fabric.active = s.fabric.active ∧ t.fabric.staged = s.fabric.staged ∧ t.fabric.dies = s.fabric.dies ∧ t.res = s.res ∧ t.xlat = s.xlat ∧ t.disc = s.disc ∧ t.power = s.power ∧ t.time = s.time ∧ t.mgmt.spdm = s.mgmt.spdm ∧ t.host.ports = s.host.ports ∧ t.post.fw = s.post.fw ∧ t.post.maps = s.post.maps)
  ∧ (∀ (lb : Nat) (eyes : List EyeReading), ∀ s t, exec (Instr.eyeSummary lb eyes) s = .next t →
      t.mem = s.mem ∧ t.rings = s.rings ∧ t.fabric = s.fabric ∧ t.res = s.res ∧ t.xlat = s.xlat ∧ t.disc = s.disc ∧ t.power = s.power ∧ t.time = s.time ∧ t.mgmt.spdm = s.mgmt.spdm ∧ t.host.ports = s.host.ports ∧ t.post.fw = s.post.fw ∧ t.post.maps = s.post.maps)
  ∧ (∀ (lb : Nat) (errors : List Nat), ∀ s t, exec (Instr.eyeScan lb errors) s = .next t →
      t.mem = s.mem ∧ t.rings = s.rings ∧ t.fabric = s.fabric ∧ t.res = s.res ∧ t.xlat = s.xlat ∧ t.disc = s.disc ∧ t.power = s.power ∧ t.time = s.time ∧ t.mgmt.spdm = s.mgmt.spdm ∧ t.host.ports = s.host.ports ∧ t.post.fw = s.post.fw ∧ t.post.maps = s.post.maps)
  ∧ (∀ (port : Nat) (lane : Nat) (word : BitVec 64), ∀ s t, exec (Instr.beacon port lane word) s = .next t →
      t.mem = s.mem ∧ t.rings = s.rings ∧ t.res = s.res ∧ t.xlat = s.xlat ∧ t.disc = s.disc ∧ t.power = s.power ∧ t.time = s.time ∧ t.fabric.active = s.fabric.active ∧ t.fabric.staged = s.fabric.staged ∧ t.mgmt.spdm = s.mgmt.spdm ∧ t.host.fns = s.host.fns ∧ t.host.ports = s.host.ports ∧ t.post.lbs = s.post.lbs ∧ t.post.fw = s.post.fw)
  ∧ (∀ (port : Nat), ∀ s t, exec (Instr.readyTimer port) s = .next t →
      t.mem = s.mem ∧ t.rings = s.rings ∧ t.res = s.res ∧ t.xlat = s.xlat ∧ t.disc = s.disc ∧ t.power = s.power ∧ t.time = s.time ∧ t.fabric.active = s.fabric.active ∧ t.fabric.staged = s.fabric.staged ∧ t.mgmt.spdm = s.mgmt.spdm ∧ t.host.fns = s.host.fns ∧ t.host.ports = s.host.ports ∧ t.post.lbs = s.post.lbs ∧ t.post.fw = s.post.fw)
  ∧ (∀ (port : Nat) (lane : Nat) (control : BitVec 32) (status : BitVec 32) (ownTrained : Bool), ∀ s t, exec (Instr.trainingFrame port lane control status ownTrained) s = .next t →
      t.mem = s.mem ∧ t.rings = s.rings ∧ t.res = s.res ∧ t.xlat = s.xlat ∧ t.disc = s.disc ∧ t.power = s.power ∧ t.time = s.time ∧ t.fabric.active = s.fabric.active ∧ t.fabric.staged = s.fabric.staged ∧ t.fabric.dies = s.fabric.dies ∧ t.mgmt.spdm = s.mgmt.spdm ∧ t.host.fns = s.host.fns ∧ t.host.ports = s.host.ports ∧ t.post.lbs = s.post.lbs ∧ t.post.fw = s.post.fw ∧ t.post.maps = s.post.maps)
  ∧ (∀ (port : Nat) (lane : Nat) (marker : BitVec 64), ∀ s t, exec (Instr.alignmentMarker port lane marker) s = .next t →
      t.mem = s.mem ∧ t.rings = s.rings ∧ t.res = s.res ∧ t.xlat = s.xlat ∧ t.disc = s.disc ∧ t.mgmt = s.mgmt ∧ t.host = s.host ∧ t.post = s.post ∧ t.power = s.power ∧ t.time = s.time ∧ t.out = s.out ∧ t.fabric.active = s.fabric.active ∧ t.fabric.staged = s.fabric.staged ∧ t.fabric.dies = s.fabric.dies)
  ∧ (∀ (port : Nat) (uncorrectable : Bool) (skewNs : Nat) (locked : Nat), ∀ s t, exec (Instr.lockFecWindow port uncorrectable skewNs locked) s = .next t →
      t.mem = s.mem ∧ t.rings = s.rings ∧ t.res = s.res ∧ t.xlat = s.xlat ∧ t.disc = s.disc ∧ t.mgmt = s.mgmt ∧ t.host = s.host ∧ t.post = s.post ∧ t.power = s.power ∧ t.time = s.time ∧ t.out = s.out ∧ t.fabric.active = s.fabric.active ∧ t.fabric.staged = s.fabric.staged ∧ t.fabric.dies = s.fabric.dies)
  ∧ (∀ (port bitLocked : Nat), ∀ i ∈ [Instr.trainingTimeout port, .replayTimerExpiry port, .narrowTimeout port, .keepaliveReturnCheck port bitLocked], ∀ s t, exec i s = .next t →
      t.mem = s.mem ∧ t.rings = s.rings ∧ t.res = s.res ∧ t.xlat = s.xlat ∧ t.disc = s.disc ∧ t.power = s.power ∧ t.time = s.time ∧ t.fabric.active = s.fabric.active ∧ t.fabric.staged = s.fabric.staged ∧ t.fabric.dies = s.fabric.dies ∧ t.mgmt.spdm = s.mgmt.spdm ∧ t.host.fns = s.host.fns ∧ t.host.ports = s.host.ports ∧ t.post.lbs = s.post.lbs ∧ t.post.fw = s.post.fw ∧ t.post.maps = s.post.maps)
  ∧ (∀ (port : Nat), ∀ s t, exec (Instr.start port) s = .next t →
      t.mem = s.mem ∧ t.rings = s.rings ∧ t.res = s.res ∧ t.xlat = s.xlat ∧ t.disc.mine = s.disc.mine ∧ t.power = s.power ∧ t.time = s.time ∧ t.fabric.active = s.fabric.active ∧ t.fabric.staged = s.fabric.staged ∧ t.fabric.dies = s.fabric.dies ∧ t.mgmt.spdm = s.mgmt.spdm ∧ t.host.fns = s.host.fns ∧ t.host.ports = s.host.ports ∧ t.post.lbs = s.post.lbs ∧ t.post.fw = s.post.fw ∧ t.post.maps = s.post.maps)
  ∧ (∀ (port : Nat) (lane : Nat), ∀ i ∈ [Instr.losAssert port lane, .lossOfLock port lane, .laserFailure port lane, .narrow port lane], ∀ s t, exec i s = .next t →
      t.mem = s.mem ∧ t.rings = s.rings ∧ t.res = s.res ∧ t.xlat = s.xlat ∧ t.disc = s.disc ∧ t.power = s.power ∧ t.time = s.time ∧ t.fabric.active = s.fabric.active ∧ t.fabric.staged = s.fabric.staged ∧ t.fabric.dies = s.fabric.dies ∧ t.mgmt.spdm = s.mgmt.spdm ∧ t.host.fns = s.host.fns ∧ t.host.ports = s.host.ports ∧ t.post.lbs = s.post.lbs ∧ t.post.fw = s.post.fw ∧ t.post.maps = s.post.maps)
  ∧ (∀ (port : Nat) (lane : Nat), ∀ i ∈ [Instr.losClear port lane, .narrowAck port lane], ∀ s t, exec i s = .next t →
      t.mem = s.mem ∧ t.rings = s.rings ∧ t.res = s.res ∧ t.xlat = s.xlat ∧ t.disc = s.disc ∧ t.power = s.power ∧ t.time = s.time ∧ t.fabric.active = s.fabric.active ∧ t.fabric.staged = s.fabric.staged ∧ t.fabric.dies = s.fabric.dies ∧ t.mgmt.spdm = s.mgmt.spdm ∧ t.host.ports = s.host.ports ∧ t.post.fw = s.post.fw ∧ t.post.maps = s.post.maps)
  ∧ (∀ (port : Nat), ∀ s t, exec (Instr.flitSend port) s = .next t →
      t.mem = s.mem ∧ t.rings = s.rings ∧ t.res = s.res ∧ t.xlat = s.xlat ∧ t.disc.mine = s.disc.mine ∧ t.mgmt.spdm = s.mgmt.spdm ∧ t.host.fns = s.host.fns ∧ t.host.ports = s.host.ports ∧ t.post.lbs = s.post.lbs ∧ t.post.fw = s.post.fw ∧ t.post.maps = s.post.maps ∧ t.power = s.power ∧ t.time = s.time ∧ t.fabric.active = s.fabric.active ∧ t.fabric.staged = s.fabric.staged ∧ t.fabric.dies = s.fabric.dies)
  ∧ (∀ (port : Nat), ∀ s t, exec (Instr.kaEnter port) s = .next t →
      t.mem = s.mem ∧ t.rings = s.rings ∧ t.res = s.res ∧ t.xlat = s.xlat ∧ t.disc = s.disc ∧ t.mgmt = s.mgmt ∧ t.host = s.host ∧ t.post = s.post ∧ t.power = s.power ∧ t.time = s.time ∧ t.fabric.active = s.fabric.active ∧ t.fabric.staged = s.fabric.staged ∧ t.fabric.dies = s.fabric.dies)
  ∧ (∀ (port : Nat) (received : Received) (uncorrectable : Bool), ∀ s t, exec (Instr.payloadFlitReceive port received uncorrectable) s = .next t →
      t.mem = s.mem ∧ t.rings = s.rings ∧ t.res = s.res ∧ t.xlat = s.xlat ∧ t.power = s.power ∧ t.fabric.active = s.fabric.active ∧ t.fabric.staged = s.fabric.staged ∧ t.mgmt.spdm = s.mgmt.spdm ∧ t.host.ports = s.host.ports ∧ t.post.fw = s.post.fw ∧ t.post.maps = s.post.maps ∧ t.time.rackTime = s.time.rackTime)
  ∧ (∀ (port : PortHold), ∀ s t, exec (Instr.linkControlRepeat port) s = .next t →
      t.mem = s.mem ∧ t.rings = s.rings ∧ t.res = s.res ∧ t.xlat = s.xlat ∧ t.disc = s.disc ∧ t.mgmt = s.mgmt ∧ t.host = s.host ∧ t.post = s.post ∧ t.power = s.power ∧ t.time = s.time ∧ t.out = s.out ∧ t.fabric.active = s.fabric.active ∧ t.fabric.staged = s.fabric.staged ∧ t.fabric.dies = s.fabric.dies)
  ∧ (∀ (port : Nat), ∀ i ∈ [Instr.kaAck port, .kaEnterTimeout port, .kaExit port], ∀ s t, exec i s = .next t →
      t.mem = s.mem ∧ t.rings = s.rings ∧ t.res = s.res ∧ t.xlat = s.xlat ∧ t.disc = s.disc ∧ t.mgmt = s.mgmt ∧ t.host = s.host ∧ t.post = s.post ∧ t.power = s.power ∧ t.time = s.time ∧ t.out = s.out ∧ t.fabric.active = s.fabric.active ∧ t.fabric.staged = s.fabric.staged ∧ t.fabric.dies = s.fabric.dies)
  ∧ (∀ (port : Nat) (body : List Byte) (roundTripNs : Nat), ∀ s t, exec (Instr.cap port body roundTripNs) s = .next t →
      t.mem = s.mem ∧ t.rings = s.rings ∧ t.res = s.res ∧ t.xlat = s.xlat ∧ t.disc = s.disc ∧ t.power = s.power ∧ t.time = s.time ∧ t.fabric.active = s.fabric.active ∧ t.fabric.staged = s.fabric.staged ∧ t.fabric.dies = s.fabric.dies ∧ t.mgmt.spdm = s.mgmt.spdm ∧ t.host.fns = s.host.fns ∧ t.host.ports = s.host.ports ∧ t.post.lbs = s.post.lbs ∧ t.post.fw = s.post.fw ∧ t.post.maps = s.post.maps)
  ∧ (∀ (port : Nat) (lane : Nat) (uncorrectable : Bool), ∀ s t, exec (Instr.laneErrorThreshold port lane uncorrectable) s = .next t →
      t.mem = s.mem ∧ t.rings = s.rings ∧ t.res = s.res ∧ t.xlat = s.xlat ∧ t.disc = s.disc ∧ t.power = s.power ∧ t.time = s.time ∧ t.fabric.active = s.fabric.active ∧ t.fabric.staged = s.fabric.staged ∧ t.fabric.dies = s.fabric.dies ∧ t.mgmt.spdm = s.mgmt.spdm ∧ t.host.fns = s.host.fns ∧ t.host.ports = s.host.ports ∧ t.post.lbs = s.post.lbs ∧ t.post.fw = s.post.fw ∧ t.post.maps = s.post.maps)
  ∧ (∀ (port : Nat), ∀ s t, exec (Instr.escapeCreditStall port) s = .next t →
      t.mem = s.mem ∧ t.rings = s.rings ∧ t.fabric = s.fabric ∧ t.res = s.res ∧ t.xlat = s.xlat ∧ t.disc = s.disc ∧ t.power = s.power ∧ t.time = s.time ∧ t.mgmt.spdm = s.mgmt.spdm ∧ t.host.fns = s.host.fns ∧ t.host.ports = s.host.ports ∧ t.post.lbs = s.post.lbs ∧ t.post.fw = s.post.fw ∧ t.post.maps = s.post.maps)
  ∧ (∀ (point : Nat), ∀ s t, exec (Instr.controlInject point) s = .next t →
      t.mem = s.mem ∧ t.rings = s.rings ∧ t.res = s.res ∧ t.xlat = s.xlat ∧ t.disc = s.disc ∧ t.mgmt = s.mgmt ∧ t.host = s.host ∧ t.post = s.post ∧ t.power = s.power ∧ t.time = s.time ∧ t.out = s.out ∧ t.fabric.active = s.fabric.active ∧ t.fabric.staged = s.fabric.staged ∧ t.fabric.ports = s.fabric.ports ∧ t.fabric.dies = s.fabric.dies)
  ∧ (∀ (die : Nat) (router : Nat), ∀ s t, exec (Instr.routeDecision die router) s = .next t →
      t.mem = s.mem ∧ t.rings = s.rings ∧ t.res = s.res ∧ t.xlat = s.xlat ∧ t.disc = s.disc ∧ t.power = s.power ∧ t.time = s.time ∧ t.fabric.active = s.fabric.active ∧ t.fabric.staged = s.fabric.staged ∧ t.mgmt.spdm = s.mgmt.spdm ∧ t.host.fns = s.host.fns ∧ t.host.ports = s.host.ports ∧ t.post.lbs = s.post.lbs ∧ t.post.fw = s.post.fw ∧ t.post.maps = s.post.maps)
  ∧ (∀ (die : Nat) (router : Nat) (pid : Nat), ∀ s t, exec (Instr.injectionStart die router pid) s = .next t →
      t.mem = s.mem ∧ t.res.images = s.res.images ∧ t.xlat.pins = s.xlat.pins ∧ t.disc = s.disc ∧ t.power = s.power ∧ t.time = s.time ∧ t.fabric.active = s.fabric.active ∧ t.fabric.staged = s.fabric.staged ∧ t.mgmt.spdm = s.mgmt.spdm ∧ t.post.fw = s.post.fw ∧ t.post.maps = s.post.maps)
  ∧ (∀ (pid : Nat) (fourMicros : Bool), ∀ s t, exec (Instr.landingWaitExpiry pid fourMicros) s = .next t →
      t.mem = s.mem ∧ t.rings = s.rings ∧ t.res = s.res ∧ t.xlat = s.xlat ∧ t.disc = s.disc ∧ t.power = s.power ∧ t.time = s.time ∧ t.fabric.active = s.fabric.active ∧ t.fabric.staged = s.fabric.staged ∧ t.mgmt.spdm = s.mgmt.spdm ∧ t.host.fns = s.host.fns ∧ t.host.ports = s.host.ports ∧ t.post.lbs = s.post.lbs ∧ t.post.fw = s.post.fw ∧ t.post.maps = s.post.maps)
  ∧ (∀ (die : Nat) (output : Nat), ∀ s t, exec (Instr.seamCrossing die output) s = .next t →
      t.mem = s.mem ∧ t.rings = s.rings ∧ t.res = s.res ∧ t.xlat = s.xlat ∧ t.disc = s.disc ∧ t.mgmt = s.mgmt ∧ t.host = s.host ∧ t.post = s.post ∧ t.power = s.power ∧ t.time = s.time ∧ t.out = s.out ∧ t.fabric.active = s.fabric.active ∧ t.fabric.staged = s.fabric.staged ∧ t.fabric.ports = s.fabric.ports ∧ t.fabric.dies = s.fabric.dies)
  ∧ (∀ (pid : Nat), ∀ s t, exec (Instr.escapeWaitExpiry pid) s = .next t →
      t.mem = s.mem ∧ t.rings = s.rings ∧ t.res = s.res ∧ t.xlat = s.xlat ∧ t.disc = s.disc ∧ t.mgmt = s.mgmt ∧ t.host = s.host ∧ t.post = s.post ∧ t.power = s.power ∧ t.time = s.time ∧ t.out = s.out ∧ t.fabric.active = s.fabric.active ∧ t.fabric.staged = s.fabric.staged ∧ t.fabric.ports = s.fabric.ports)
  ∧ (∀ (die : Nat), ∀ s t, exec (Instr.escapeDrainAlarm die) s = .next t →
      t.mem = s.mem ∧ t.rings = s.rings ∧ t.res = s.res ∧ t.xlat = s.xlat ∧ t.disc = s.disc ∧ t.power = s.power ∧ t.time = s.time ∧ t.fabric.active = s.fabric.active ∧ t.fabric.staged = s.fabric.staged ∧ t.fabric.ports = s.fabric.ports ∧ t.mgmt.spdm = s.mgmt.spdm ∧ t.host.fns = s.host.fns ∧ t.host.ports = s.host.ports ∧ t.post.lbs = s.post.lbs ∧ t.post.fw = s.post.fw ∧ t.post.maps = s.post.maps)
  ∧ (∀ s t, exec (Instr.bankSwap) s = .next t →
      t.mem = s.mem ∧ t.rings = s.rings ∧ t.res = s.res ∧ t.xlat = s.xlat ∧ t.disc = s.disc ∧ t.power = s.power ∧ t.time = s.time ∧ t.fabric.ports = s.fabric.ports ∧ t.fabric.dies = s.fabric.dies ∧ t.mgmt.spdm = s.mgmt.spdm ∧ t.host.ports = s.host.ports ∧ t.post.fw = s.post.fw ∧ t.post.maps = s.post.maps)
  ∧ (∀ s t, exec (Instr.commitDrainTimeout) s = .next t →
      t.mem = s.mem ∧ t.rings = s.rings ∧ t.res = s.res ∧ t.xlat = s.xlat ∧ t.disc = s.disc ∧ t.power = s.power ∧ t.time = s.time ∧ t.fabric.active = s.fabric.active ∧ t.fabric.staged = s.fabric.staged ∧ t.fabric.ports = s.fabric.ports ∧ t.fabric.dies = s.fabric.dies ∧ t.mgmt.spdm = s.mgmt.spdm ∧ t.host.ports = s.host.ports ∧ t.post.fw = s.post.fw ∧ t.post.maps = s.post.maps)

/-- Power-up, the ladder, time, firmware, thermal control and repair leave the rest of the state alone. When a command of these families completes, every part of the state that its rule gives it no effect on is as before: for each row, the parts named at it (memory with every byte and mark, rings, packets and dies, translation, pigeonholes and launches, host functions, letterboxes and firmware, power, time, outputs). -/
def Obligations.PowerAndRepairFrame : Prop :=
  (∀ (inA : Bool) (inB : Bool) (board : BoardStart), ∀ s t, exec (Instr.inputPowerUp inA inB board) s = .next t →
      t.mem = s.mem ∧ t.rings = s.rings ∧ t.fabric = s.fabric ∧ t.res = s.res ∧ t.xlat = s.xlat ∧ t.disc = s.disc ∧ t.time = s.time ∧ t.mgmt.spdm = s.mgmt.spdm ∧ t.host.fns = s.host.fns ∧ t.host.ports = s.host.ports ∧ t.post.lbs = s.post.lbs ∧ t.post.fw = s.post.fw ∧ t.post.maps = s.post.maps)
  ∧ (∀ (input : Nat), ∀ i ∈ [Instr.inputUndervoltage input, .busBarInputFail input], ∀ s t, exec i s = .next t →
      t.disc = s.disc ∧ t.time = s.time ∧ t.res.images = s.res.images ∧ t.xlat.pins = s.xlat.pins ∧ t.mgmt.spdm = s.mgmt.spdm ∧ t.host.ports = s.host.ports ∧ t.post.fw = s.post.fw ∧ t.post.maps = s.post.maps)
  ∧ (∀ s t, exec Instr.coldReset s = .next t →
      t.post.fw = s.post.fw ∧ t.post.maps = s.post.maps)
  ∧ (∀ i ∈ [Instr.mctpWatchdogExpiry, .heartbeatWatchdogExpiry, .entryRingsStopped], ∀ s t, exec i s = .next t →
      t.mem = s.mem ∧ t.rings = s.rings ∧ t.fabric = s.fabric ∧ t.res = s.res ∧ t.xlat = s.xlat ∧ t.disc = s.disc ∧ t.mgmt = s.mgmt ∧ t.host = s.host ∧ t.post = s.post ∧ t.time = s.time ∧ t.out = s.out)
  ∧ (∀ i ∈ [Instr.enableAssert, .enableDeassert], ∀ s t, exec i s = .next t →
      t.mem = s.mem ∧ t.rings = s.rings ∧ t.fabric = s.fabric ∧ t.res = s.res ∧ t.xlat = s.xlat ∧ t.disc = s.disc ∧ t.time = s.time ∧ t.mgmt.spdm = s.mgmt.spdm ∧ t.host.ports = s.host.ports ∧ t.post.fw = s.post.fw ∧ t.post.maps = s.post.maps)
  ∧ (∀ i ∈ [Instr.waitLimitExpiry, .transitionTimeout, .entryLaunchesEnded], ∀ s t, exec i s = .next t →
      t.mem = s.mem ∧ t.fabric = s.fabric ∧ t.res = s.res ∧ t.xlat = s.xlat ∧ t.disc = s.disc ∧ t.time = s.time ∧ t.mgmt.spdm = s.mgmt.spdm ∧ t.host.ports = s.host.ports ∧ t.post.fw = s.post.fw ∧ t.post.maps = s.post.maps)
  ∧ (∀ (result0 : TestOutcome) (result8 : TestOutcome), ∀ s t, exec (Instr.powerupPhaseB result0 result8) s = .next t →
      t.mem = s.mem ∧ t.rings = s.rings ∧ t.res = s.res ∧ t.xlat = s.xlat ∧ t.disc = s.disc ∧ t.time = s.time ∧ t.fabric.active = s.fabric.active ∧ t.fabric.staged = s.fabric.staged ∧ t.post.fw = s.post.fw ∧ t.post.maps = s.post.maps)
  ∧ (∀ (results : List TestResult), ∀ i ∈ [Instr.selftestWave results, .selftestRetryPass results], ∀ s t, exec i s = .next t →
      t.mgmt.spdm = s.mgmt.spdm ∧ t.post.maps = s.post.maps ∧ t.time.rackTime = s.time.rackTime)
  ∧ (∀ (mramOk : Bool), ∀ s t, exec (Instr.powerupVerdict mramOk) s = .next t →
      t.mgmt.spdm = s.mgmt.spdm ∧ t.time.rackTime = s.time.rackTime)
  ∧ (∀ s t, exec (Instr.phaseCTimeout) s = .next t →
      t.mgmt.spdm = s.mgmt.spdm ∧ t.post.maps = s.post.maps ∧ t.time.rackTime = s.time.rackTime)
  ∧ (∀ (lb : Nat), ∀ i ∈ [Instr.powerRequest lb, .frondClockSet lb, .govWeightSet lb], ∀ s t, exec i s = .next t →
      t.mem = s.mem ∧ t.rings = s.rings ∧ t.fabric = s.fabric ∧ t.res = s.res ∧ t.xlat = s.xlat ∧ t.disc = s.disc ∧ t.time = s.time ∧ t.mgmt.spdm = s.mgmt.spdm ∧ t.host.ports = s.host.ports ∧ t.post.fw = s.post.fw ∧ t.post.maps = s.post.maps)
  ∧ (∀ (lb : Nat), ∀ i ∈ [Instr.powerQuery lb, .rackTimeQuery lb, .selftestReportRead lb, .journalRead lb, .journalAppend lb, .repairMapRead lb, .countersRead lb, .fwQuery lb, .agentReload lb], ∀ s t, exec i s = .next t →
      t.mem = s.mem ∧ t.rings = s.rings ∧ t.fabric = s.fabric ∧ t.res = s.res ∧ t.xlat = s.xlat ∧ t.disc = s.disc ∧ t.power = s.power ∧ t.time = s.time ∧ t.mgmt.spdm = s.mgmt.spdm ∧ t.host.ports = s.host.ports ∧ t.post.fw = s.post.fw ∧ t.post.maps = s.post.maps)
  ∧ (∀ (lb : Nat), ∀ s t, exec (Instr.rackTimeSet lb) s = .next t →
      t.mem = s.mem ∧ t.rings = s.rings ∧ t.fabric = s.fabric ∧ t.res = s.res ∧ t.xlat = s.xlat ∧ t.disc = s.disc ∧ t.power = s.power ∧ t.mgmt.spdm = s.mgmt.spdm ∧ t.host.ports = s.host.ports ∧ t.post.fw = s.post.fw ∧ t.post.maps = s.post.maps ∧ t.time.rackTime = s.time.rackTime)
  ∧ (∀ (lb : Nat) (mramOk : Bool), ∀ i ∈ [Instr.repairMapAdd lb mramOk, .repairMapDelete lb mramOk], ∀ s t, exec i s = .next t →
      t.mem = s.mem ∧ t.rings = s.rings ∧ t.res = s.res ∧ t.xlat = s.xlat ∧ t.disc = s.disc ∧ t.power = s.power ∧ t.time = s.time ∧ t.fabric.active = s.fabric.active ∧ t.fabric.staged = s.fabric.staged ∧ t.fabric.ports = s.fabric.ports ∧ t.mgmt.spdm = s.mgmt.spdm ∧ t.host.ports = s.host.ports ∧ t.post.fw = s.post.fw)
  ∧ (∀ (lb : Nat), ∀ s t, exec (Instr.tileRetire lb) s = .next t →
      t.mem = s.mem ∧ t.xlat = s.xlat ∧ t.disc = s.disc ∧ t.power = s.power ∧ t.time = s.time ∧ t.fabric.active = s.fabric.active ∧ t.fabric.staged = s.fabric.staged ∧ t.fabric.ports = s.fabric.ports ∧ t.res.images = s.res.images ∧ t.mgmt.spdm = s.mgmt.spdm ∧ t.host.ports = s.host.ports ∧ t.post.fw = s.post.fw)
  ∧ (∀ (lb : Nat), ∀ s t, exec (Instr.frondFence lb) s = .next t →
      t.mem = s.mem ∧ t.xlat = s.xlat ∧ t.disc = s.disc ∧ t.time = s.time ∧ t.fabric.ports = s.fabric.ports ∧ t.res.images = s.res.images ∧ t.mgmt.spdm = s.mgmt.spdm ∧ t.host.ports = s.host.ports ∧ t.post.fw = s.post.fw)
  ∧ (∀ (lb : Nat) (outcome : TestOutcome), ∀ s t, exec (Instr.frondRetest lb outcome) s = .next t →
      t.rings = s.rings ∧ t.res = s.res ∧ t.disc = s.disc ∧ t.time = s.time ∧ t.xlat.pins = s.xlat.pins ∧ t.mgmt.spdm = s.mgmt.spdm ∧ t.host.ports = s.host.ports ∧ t.post.fw = s.post.fw)
  ∧ (∀ (lb : Nat), ∀ s t, exec (Instr.moduleReset lb) s = .next t →
      t.mgmt.spdm = s.mgmt.spdm ∧ t.post.maps = s.post.maps ∧ t.time.rackTime = s.time.rackTime)
  ∧ (∀ (lb : Nat) (mramOk : Bool), ∀ s t, exec (Instr.fwStage lb mramOk) s = .next t →
      t.mem = s.mem ∧ t.rings = s.rings ∧ t.fabric = s.fabric ∧ t.res = s.res ∧ t.xlat = s.xlat ∧ t.disc = s.disc ∧ t.power = s.power ∧ t.time = s.time ∧ t.mgmt.spdm = s.mgmt.spdm ∧ t.post.maps = s.post.maps)
  ∧ (∀ (lb : Nat), ∀ s t, exec (Instr.fwVerify lb) s = .next t →
      t.mem = s.mem ∧ t.rings = s.rings ∧ t.fabric = s.fabric ∧ t.res = s.res ∧ t.xlat = s.xlat ∧ t.disc = s.disc ∧ t.power = s.power ∧ t.time = s.time ∧ t.mgmt.spdm = s.mgmt.spdm ∧ t.host.ports = s.host.ports ∧ t.post.maps = s.post.maps)
  ∧ (∀ (write : MramWrite), ∀ s t, exec (Instr.fwActivateAtReset write) s = .next t →
      t.mem = s.mem ∧ t.rings = s.rings ∧ t.fabric.active = s.fabric.active ∧ t.fabric.staged = s.fabric.staged ∧ t.fabric.ports = s.fabric.ports ∧ t.res = s.res ∧ t.xlat = s.xlat ∧ t.disc = s.disc ∧ t.power = s.power ∧ t.time = s.time ∧ t.mgmt.spdm = s.mgmt.spdm ∧ t.host.ports = s.host.ports ∧ t.post.maps = s.post.maps)
  ∧ (∀ (lb : Nat) (step2Ok : Bool) (step4Ok : Bool), ∀ s t, exec (Instr.fwActivateLive lb step2Ok step4Ok) s = .next t →
      t.mem = s.mem ∧ t.rings = s.rings ∧ t.fabric.active = s.fabric.active ∧ t.fabric.staged = s.fabric.staged ∧ t.fabric.ports = s.fabric.ports ∧ t.res.launches = s.res.launches ∧ t.res.phs = s.res.phs ∧ t.disc = s.disc ∧ t.power = s.power ∧ t.time = s.time ∧ t.post.maps = s.post.maps)
  ∧ (∀ (lb : Nat), ∀ s t, exec (Instr.failover lb) s = .next t →
      t.mem = s.mem ∧ t.rings = s.rings ∧ t.fabric.active = s.fabric.active ∧ t.fabric.staged = s.fabric.staged ∧ t.fabric.ports = s.fabric.ports ∧ t.res.launches = s.res.launches ∧ t.res.phs = s.res.phs ∧ t.disc = s.disc ∧ t.power = s.power ∧ t.time = s.time ∧ t.post.maps = s.post.maps)
  ∧ (∀ s t, exec (Instr.postmasterHeartbeat) s = .next t →
      t.mem = s.mem ∧ t.rings = s.rings ∧ t.fabric = s.fabric ∧ t.res = s.res ∧ t.xlat = s.xlat ∧ t.disc = s.disc ∧ t.mgmt = s.mgmt ∧ t.host = s.host ∧ t.time = s.time ∧ t.out = s.out ∧ t.post.lbs = s.post.lbs ∧ t.post.fw = s.post.fw ∧ t.post.maps = s.post.maps ∧ t.post.journal = s.post.journal)
  ∧ (∀ s t, exec (Instr.unplannedFailover) s = .next t →
      t.disc = s.disc ∧ t.power = s.power ∧ t.time = s.time ∧ t.fabric.active = s.fabric.active ∧ t.fabric.staged = s.fabric.staged ∧ t.fabric.ports = s.fabric.ports ∧ t.post.maps = s.post.maps)
  ∧ (∀ (passed : Bool), ∀ s t, exec (Instr.e0Restart passed) s = .next t →
      t.mem = s.mem ∧ t.rings = s.rings ∧ t.fabric = s.fabric ∧ t.res = s.res ∧ t.xlat = s.xlat ∧ t.disc = s.disc ∧ t.mgmt = s.mgmt ∧ t.host = s.host ∧ t.power = s.power ∧ t.time = s.time ∧ t.out = s.out ∧ t.post.lbs = s.post.lbs ∧ t.post.fw = s.post.fw ∧ t.post.maps = s.post.maps ∧ t.post.journal = s.post.journal)
  ∧ (∀ i ∈ [Instr.standbyLost, .ppsMissing], ∀ s t, exec i s = .next t →
      t.mem = s.mem ∧ t.rings = s.rings ∧ t.fabric = s.fabric ∧ t.res = s.res ∧ t.xlat = s.xlat ∧ t.disc = s.disc ∧ t.power = s.power ∧ t.time = s.time ∧ t.mgmt.spdm = s.mgmt.spdm ∧ t.host.fns = s.host.fns ∧ t.host.ports = s.host.ports ∧ t.post.lbs = s.post.lbs ∧ t.post.fw = s.post.fw ∧ t.post.maps = s.post.maps)
  ∧ (∀ s t, exec (Instr.governorTransition) s = .next t →
      t.fabric.active = s.fabric.active ∧ t.fabric.staged = s.fabric.staged ∧ t.res.images = s.res.images ∧ t.disc.mine = s.disc.mine ∧ t.mgmt.spdm = s.mgmt.spdm ∧ t.post.maps = s.post.maps ∧ t.time.rackTime = s.time.rackTime)
  ∧ (∀ s t, exec (Instr.entryInflightZero) s = .next t →
      t.res.images = s.res.images ∧ t.disc.mine = s.disc.mine ∧ t.mgmt.spdm = s.mgmt.spdm ∧ t.post.maps = s.post.maps ∧ t.time.rackTime = s.time.rackTime)
  ∧ (∀ s t, exec (Instr.exitSequence) s = .next t →
      t.xlat = s.xlat ∧ t.disc = s.disc ∧ t.time = s.time ∧ t.res.images = s.res.images ∧ t.mgmt.spdm = s.mgmt.spdm ∧ t.post.fw = s.post.fw ∧ t.post.maps = s.post.maps)
  ∧ (∀ (input : Nat) (inputValid : Bool), ∀ s t, exec (Instr.budgetUpdate input inputValid) s = .next t →
      t.mem = s.mem ∧ t.rings = s.rings ∧ t.fabric = s.fabric ∧ t.res = s.res ∧ t.xlat = s.xlat ∧ t.disc = s.disc ∧ t.mgmt = s.mgmt ∧ t.host = s.host ∧ t.post = s.post ∧ t.time = s.time ∧ t.out = s.out)
  ∧ (∀ (powers : List (Option Nat)), ∀ s t, exec (Instr.governorTick powers) s = .next t →
      t.mem = s.mem ∧ t.rings = s.rings ∧ t.fabric = s.fabric ∧ t.res = s.res ∧ t.xlat = s.xlat ∧ t.disc = s.disc ∧ t.mgmt = s.mgmt ∧ t.host = s.host ∧ t.post = s.post ∧ t.time = s.time ∧ t.out = s.out)
  ∧ (∀ (input : Nat), ∀ i ∈ [Instr.fastGuard input, .thermalLimitDecrease input, .thermalLimitIncrease input], ∀ s t, exec i s = .next t →
      t.mem = s.mem ∧ t.rings = s.rings ∧ t.fabric = s.fabric ∧ t.res = s.res ∧ t.xlat = s.xlat ∧ t.disc = s.disc ∧ t.mgmt = s.mgmt ∧ t.host = s.host ∧ t.post = s.post ∧ t.time = s.time ∧ t.out = s.out)
  ∧ (∀ (frond : Option Nat), ∀ s t, exec (Instr.powerMonitorFail frond) s = .next t →
      t.mem = s.mem ∧ t.rings = s.rings ∧ t.fabric = s.fabric ∧ t.res = s.res ∧ t.xlat = s.xlat ∧ t.disc = s.disc ∧ t.time = s.time ∧ t.mgmt.spdm = s.mgmt.spdm ∧ t.host.fns = s.host.fns ∧ t.host.ports = s.host.ports ∧ t.post.lbs = s.post.lbs ∧ t.post.fw = s.post.fw ∧ t.post.maps = s.post.maps)
  ∧ (∀ (frond : Nat) (retryOk : Bool), ∀ i ∈ [Instr.clockLockFail frond retryOk, .cryptoSelfCheck frond retryOk], ∀ s t, exec i s = .next t →
      t.mem = s.mem ∧ t.xlat = s.xlat ∧ t.disc = s.disc ∧ t.time = s.time ∧ t.fabric.ports = s.fabric.ports ∧ t.res.images = s.res.images ∧ t.mgmt.spdm = s.mgmt.spdm ∧ t.host.ports = s.host.ports ∧ t.post.fw = s.post.fw)
  ∧ (∀ s t, exec (Instr.ppsEdge) s = .next t →
      t.mem = s.mem ∧ t.rings = s.rings ∧ t.fabric = s.fabric ∧ t.res = s.res ∧ t.xlat = s.xlat ∧ t.disc = s.disc ∧ t.power = s.power ∧ t.mgmt.spdm = s.mgmt.spdm ∧ t.host.ports = s.host.ports ∧ t.post.fw = s.post.fw ∧ t.post.maps = s.post.maps)
  ∧ (∀ i ∈ [Instr.referenceLoss, .holdoverExpiry, .timebaseFailover], ∀ s t, exec i s = .next t →
      t.mem = s.mem ∧ t.rings = s.rings ∧ t.fabric = s.fabric ∧ t.res = s.res ∧ t.xlat = s.xlat ∧ t.disc = s.disc ∧ t.power = s.power ∧ t.mgmt.spdm = s.mgmt.spdm ∧ t.host.fns = s.host.fns ∧ t.host.ports = s.host.ports ∧ t.post.lbs = s.post.lbs ∧ t.post.fw = s.post.fw ∧ t.post.maps = s.post.maps ∧ t.time.rackTime = s.time.rackTime)
  ∧ (∀ s t, exec (Instr.referenceReturn) s = .next t →
      t.mem = s.mem ∧ t.rings = s.rings ∧ t.fabric = s.fabric ∧ t.res = s.res ∧ t.xlat = s.xlat ∧ t.disc = s.disc ∧ t.mgmt = s.mgmt ∧ t.host = s.host ∧ t.post = s.post ∧ t.power = s.power ∧ t.out = s.out ∧ t.time.rackTime = s.time.rackTime)
  ∧ (∀ s t, exec (Instr.slewEnd) s = .next t →
      t.mem = s.mem ∧ t.rings = s.rings ∧ t.fabric = s.fabric ∧ t.res = s.res ∧ t.xlat = s.xlat ∧ t.disc = s.disc ∧ t.power = s.power ∧ t.mgmt.spdm = s.mgmt.spdm ∧ t.host.fns = s.host.fns ∧ t.host.ports = s.host.ports ∧ t.post.lbs = s.post.lbs ∧ t.post.fw = s.post.fw ∧ t.post.maps = s.post.maps)
  ∧ (∀ s t, exec (Instr.rackTimeSetTimeout) s = .next t →
      t.mem = s.mem ∧ t.rings = s.rings ∧ t.fabric = s.fabric ∧ t.res = s.res ∧ t.xlat = s.xlat ∧ t.disc = s.disc ∧ t.power = s.power ∧ t.mgmt.spdm = s.mgmt.spdm ∧ t.host.ports = s.host.ports ∧ t.post.fw = s.post.fw ∧ t.post.maps = s.post.maps ∧ t.time.rackTime = s.time.rackTime)
  ∧ (∀ (die : Nat) (word : Nat) (found : ScrubFinding), ∀ s t, exec (Instr.sramScrub die word found) s = .next t →
      t.rings = s.rings ∧ t.res = s.res ∧ t.xlat = s.xlat ∧ t.disc = s.disc ∧ t.power = s.power ∧ t.time = s.time ∧ t.mem.cells = s.mem.cells ∧ t.fabric.active = s.fabric.active ∧ t.fabric.staged = s.fabric.staged ∧ t.fabric.ports = s.fabric.ports ∧ t.mgmt.spdm = s.mgmt.spdm ∧ t.host.fns = s.host.fns ∧ t.host.ports = s.host.ports ∧ t.post.lbs = s.post.lbs ∧ t.post.fw = s.post.fw ∧ t.post.maps = s.post.maps)
  ∧ (∀ (die : Nat), ∀ s t, exec (Instr.eccThreshold die) s = .next t →
      t.mem = s.mem ∧ t.rings = s.rings ∧ t.res = s.res ∧ t.xlat = s.xlat ∧ t.disc = s.disc ∧ t.power = s.power ∧ t.time = s.time ∧ t.fabric.active = s.fabric.active ∧ t.fabric.staged = s.fabric.staged ∧ t.fabric.ports = s.fabric.ports ∧ t.mgmt.spdm = s.mgmt.spdm ∧ t.host.fns = s.host.fns ∧ t.host.ports = s.host.ports ∧ t.post.lbs = s.post.lbs ∧ t.post.fw = s.post.fw ∧ t.post.maps = s.post.maps)
  ∧ (∀ (frond : Nat) (tile : Nat), ∀ s t, exec (Instr.tileAutoRetire frond tile) s = .next t →
      t.mem = s.mem ∧ t.xlat = s.xlat ∧ t.disc = s.disc ∧ t.power = s.power ∧ t.time = s.time ∧ t.fabric.active = s.fabric.active ∧ t.fabric.staged = s.fabric.staged ∧ t.fabric.ports = s.fabric.ports ∧ t.res.images = s.res.images ∧ t.mgmt.spdm = s.mgmt.spdm ∧ t.host.ports = s.host.ports ∧ t.post.fw = s.post.fw)
  ∧ (∀ (edge : Nat), ∀ s t, exec (Instr.edgeDieFailure edge) s = .next t →
      t.disc.mine = s.disc.mine ∧ t.time.rackTime = s.time.rackTime)
  ∧ (∀ (die : Nat) (link : Nat) (group : WireGroup) (wire : Nat), ∀ s t, exec (Instr.wireFailure die link group wire) s = .next t →
      t.mem = s.mem ∧ t.res.images = s.res.images ∧ t.xlat = s.xlat ∧ t.disc = s.disc ∧ t.time = s.time ∧ t.fabric.ports = s.fabric.ports ∧ t.mgmt.spdm = s.mgmt.spdm ∧ t.host.ports = s.host.ports ∧ t.post.fw = s.post.fw)
  ∧ (∀ (die : Nat) (withinLimits : Bool), ∀ s t, exec (Instr.contactImbalance die withinLimits) s = .next t →
      t.disc.mine = s.disc.mine ∧ t.time.rackTime = s.time.rackTime)
  ∧ (∀ (slot : Nat), ∀ s t, exec (Instr.linkKeyPhaseExpiry slot) s = .next t →
      t.mem = s.mem ∧ t.rings = s.rings ∧ t.res = s.res ∧ t.xlat = s.xlat ∧ t.disc = s.disc ∧ t.mgmt = s.mgmt ∧ t.host = s.host ∧ t.post = s.post ∧ t.power = s.power ∧ t.time = s.time ∧ t.out = s.out ∧ t.fabric.active = s.fabric.active ∧ t.fabric.staged = s.fabric.staged ∧ t.fabric.ports = s.fabric.ports ∧ t.fabric.dies = s.fabric.dies)
  ∧ (∀ (kind : ParityKind) (die : Nat) (index : Nat), ∀ s t, exec (Instr.parityError kind die index) s = .next t →
      t.mem = s.mem ∧ t.rings = s.rings ∧ t.res = s.res ∧ t.disc = s.disc ∧ t.power = s.power ∧ t.time = s.time ∧ t.fabric.active = s.fabric.active ∧ t.fabric.staged = s.fabric.staged ∧ t.fabric.ports = s.fabric.ports ∧ t.mgmt.spdm = s.mgmt.spdm ∧ t.host.fns = s.host.fns ∧ t.host.ports = s.host.ports ∧ t.post.lbs = s.post.lbs ∧ t.post.fw = s.post.fw ∧ t.post.maps = s.post.maps)
  ∧ (∀ (mramOk : Bool), ∀ s t, exec (Instr.journalFlush mramOk) s = .next t →
      t.mem = s.mem ∧ t.rings = s.rings ∧ t.res = s.res ∧ t.xlat = s.xlat ∧ t.disc = s.disc ∧ t.power = s.power ∧ t.time = s.time ∧ t.fabric.active = s.fabric.active ∧ t.fabric.staged = s.fabric.staged ∧ t.fabric.ports = s.fabric.ports ∧ t.mgmt.spdm = s.mgmt.spdm ∧ t.host.fns = s.host.fns ∧ t.host.ports = s.host.ports ∧ t.post.lbs = s.post.lbs ∧ t.post.fw = s.post.fw ∧ t.post.maps = s.post.maps)
  ∧ (∀ (frond : Nat) (unit : Nat), ∀ s t, exec (Instr.engineError frond unit) s = .next t →
      t.mem = s.mem ∧ t.xlat = s.xlat ∧ t.disc = s.disc ∧ t.time = s.time ∧ t.fabric.ports = s.fabric.ports ∧ t.res.images = s.res.images ∧ t.mgmt.spdm = s.mgmt.spdm ∧ t.host.ports = s.host.ports ∧ t.post.fw = s.post.fw)
  ∧ (∀ (readings : List SensorReading), ∀ s t, exec (Instr.thermalSample readings) s = .next t →
      t.mem = s.mem ∧ t.xlat = s.xlat ∧ t.disc = s.disc ∧ t.time = s.time ∧ t.fabric.ports = s.fabric.ports ∧ t.res.images = s.res.images ∧ t.mgmt.spdm = s.mgmt.spdm ∧ t.host.ports = s.host.ports ∧ t.post.fw = s.post.fw)
  ∧ (∀ (die : Nat) (celsius : Nat), ∀ i ∈ [Instr.thermalTrip die celsius, .overvoltageTrip die celsius], ∀ s t, exec i s = .next t →
      t.mem = s.mem ∧ t.rings = s.rings ∧ t.fabric = s.fabric ∧ t.res = s.res ∧ t.xlat = s.xlat ∧ t.disc = s.disc ∧ t.mgmt = s.mgmt ∧ t.host = s.host ∧ t.post = s.post ∧ t.time = s.time ∧ t.out = s.out)
  ∧ (∀ (grantEnded : Bool), ∀ s t, exec (Instr.shutdownPowerOff grantEnded) s = .next t →
      t.post.fw = s.post.fw ∧ t.post.maps = s.post.maps)
  ∧ (∀ (board : BoardStart), ∀ s t, exec (Instr.cooldownExpiry board) s = .next t →
      t.mem = s.mem ∧ t.rings = s.rings ∧ t.fabric = s.fabric ∧ t.res = s.res ∧ t.xlat = s.xlat ∧ t.disc = s.disc ∧ t.time = s.time ∧ t.mgmt.spdm = s.mgmt.spdm ∧ t.host.fns = s.host.fns ∧ t.host.ports = s.host.ports ∧ t.post.lbs = s.post.lbs ∧ t.post.fw = s.post.fw ∧ t.post.maps = s.post.maps)
  ∧ (∀ (command : Nat), ∀ s t, exec (Instr.supervisorReadByte command) s = .next t →
      t.mem = s.mem ∧ t.rings = s.rings ∧ t.fabric = s.fabric ∧ t.res = s.res ∧ t.xlat = s.xlat ∧ t.disc = s.disc ∧ t.mgmt = s.mgmt ∧ t.host = s.host ∧ t.post = s.post ∧ t.power = s.power ∧ t.time = s.time)

/-- Packets at their destination and the select engine leave the rest of the state alone. When a command of these families completes, every part of the state that its rule gives it no effect on is as before: for each row, the parts named at it (memory with every byte and mark, rings, packets and dies, translation, pigeonholes and launches, host functions, letterboxes and firmware, power, time, outputs). -/
def Obligations.DeliveryFrame : Prop :=
  (∀ (pid : Nat), ∀ i ∈ [Instr.dataPacketDelivery pid, .readRequestPacket pid, .atomicPacket pid, .receipt pid, .partialListArrival pid], ∀ s t, exec i s = .next t →
      t.disc = s.disc ∧ t.power = s.power ∧ t.time = s.time ∧ t.fabric.active = s.fabric.active ∧ t.fabric.staged = s.fabric.staged ∧ t.fabric.ports = s.fabric.ports ∧ t.res.images = s.res.images ∧ t.xlat.pins = s.xlat.pins ∧ t.mgmt.spdm = s.mgmt.spdm ∧ t.post.fw = s.post.fw ∧ t.post.maps = s.post.maps)
  ∧ (∀ (die : Nat) (index : Nat), ∀ s t, exec (Instr.holdDiscard die index) s = .next t →
      t.mem = s.mem ∧ t.rings = s.rings ∧ t.res = s.res ∧ t.xlat = s.xlat ∧ t.disc = s.disc ∧ t.power = s.power ∧ t.time = s.time ∧ t.fabric.active = s.fabric.active ∧ t.fabric.staged = s.fabric.staged ∧ t.fabric.ports = s.fabric.ports ∧ t.mgmt.spdm = s.mgmt.spdm ∧ t.host.fns = s.host.fns ∧ t.host.ports = s.host.ports ∧ t.post.lbs = s.post.lbs ∧ t.post.fw = s.post.fw ∧ t.post.maps = s.post.maps)
  ∧ (∀ (pid : Nat), ∀ s t, exec (Instr.readResponsePacket pid) s = .next t →
      t.disc = s.disc ∧ t.power = s.power ∧ t.time = s.time ∧ t.fabric.active = s.fabric.active ∧ t.fabric.staged = s.fabric.staged ∧ t.fabric.ports = s.fabric.ports ∧ t.xlat.pins = s.xlat.pins ∧ t.mgmt.spdm = s.mgmt.spdm ∧ t.post.fw = s.post.fw ∧ t.post.maps = s.post.maps)
  ∧ (∀ (pid : Nat), ∀ i ∈ [Instr.atomicResponsePacket pid, .refusal pid, .tallySetPacket pid, .tallySetAck pid, .phStopPacket pid, .phStopDone pid, .invalidate pid, .invalidateDone pid, .relay pid, .relayDone pid, .stewardIrq pid], ∀ s t, exec i s = .next t →
      t.disc = s.disc ∧ t.power = s.power ∧ t.time = s.time ∧ t.fabric.active = s.fabric.active ∧ t.fabric.staged = s.fabric.staged ∧ t.fabric.ports = s.fabric.ports ∧ t.res.images = s.res.images ∧ t.xlat.pins = s.xlat.pins ∧ t.mgmt.spdm = s.mgmt.spdm ∧ t.host.ports = s.host.ports ∧ t.post.fw = s.post.fw ∧ t.post.maps = s.post.maps)
  ∧ (∀ (ring : Nat) (count : Nat), ∀ s t, exec (Instr.select ring count) s = .next t →
      t.disc = s.disc ∧ t.power = s.power ∧ t.time = s.time ∧ t.fabric.active = s.fabric.active ∧ t.fabric.staged = s.fabric.staged ∧ t.fabric.ports = s.fabric.ports ∧ t.res.images = s.res.images ∧ t.xlat.pins = s.xlat.pins ∧ t.mgmt.spdm = s.mgmt.spdm ∧ t.post.fw = s.post.fw ∧ t.post.maps = s.post.maps)
  ∧ (∀ (die : Nat) (engine : Nat) (index : Nat), ∀ s t, exec (Instr.parkExpiry die engine index) s = .next t →
      t.mem = s.mem ∧ t.rings = s.rings ∧ t.res = s.res ∧ t.xlat = s.xlat ∧ t.disc = s.disc ∧ t.power = s.power ∧ t.time = s.time ∧ t.fabric.active = s.fabric.active ∧ t.fabric.staged = s.fabric.staged ∧ t.fabric.ports = s.fabric.ports ∧ t.mgmt.spdm = s.mgmt.spdm ∧ t.host.fns = s.host.fns ∧ t.host.ports = s.host.ports ∧ t.post.lbs = s.post.lbs ∧ t.post.fw = s.post.fw ∧ t.post.maps = s.post.maps)
  ∧ (∀ (die : Nat) (engine : Nat) (group : Nat), ∀ s t, exec (Instr.mergeContextExpiry die engine group) s = .next t →
      t.mem = s.mem ∧ t.res = s.res ∧ t.xlat = s.xlat ∧ t.disc = s.disc ∧ t.mgmt = s.mgmt ∧ t.host = s.host ∧ t.post = s.post ∧ t.power = s.power ∧ t.time = s.time ∧ t.out = s.out ∧ t.fabric.active = s.fabric.active ∧ t.fabric.staged = s.fabric.staged ∧ t.fabric.ports = s.fabric.ports)

/-- Discovery, the management bus and the test access ports leave the rest of the state alone. When a command of these families completes, every part of the state that its rule gives it no effect on is as before: for each row, the parts named at it (memory with every byte and mark, rings, packets and dies, translation, pigeonholes and launches, host functions, letterboxes and firmware, power, time, outputs). -/
def Obligations.DiscoveryAndManagementFrame : Prop :=
  (∀ (lb : Nat), ∀ s t, exec (Instr.discoveryStart lb) s = .next t →
      t.mem = s.mem ∧ t.rings = s.rings ∧ t.fabric = s.fabric ∧ t.res = s.res ∧ t.xlat = s.xlat ∧ t.power = s.power ∧ t.time = s.time ∧ t.mgmt.spdm = s.mgmt.spdm ∧ t.host.ports = s.host.ports ∧ t.post.fw = s.post.fw ∧ t.post.maps = s.post.maps)
  ∧ (∀ s t, exec (Instr.helloSend) s = .next t →
      t.mem = s.mem ∧ t.rings = s.rings ∧ t.res = s.res ∧ t.xlat = s.xlat ∧ t.disc = s.disc ∧ t.mgmt = s.mgmt ∧ t.host = s.host ∧ t.post = s.post ∧ t.power = s.power ∧ t.time = s.time ∧ t.out = s.out ∧ t.fabric.active = s.fabric.active ∧ t.fabric.staged = s.fabric.staged ∧ t.fabric.ports = s.fabric.ports ∧ t.fabric.dies = s.fabric.dies)
  ∧ (∀ (port : Nat) (packet : List Byte), ∀ i ∈ [Instr.hello port packet, .report port packet, .assign port packet, .assignAck port packet, .commit port packet, .fail port packet], ∀ s t, exec i s = .next t →
      t.mem = s.mem ∧ t.rings = s.rings ∧ t.res = s.res ∧ t.xlat = s.xlat ∧ t.power = s.power ∧ t.fabric.active = s.fabric.active ∧ t.fabric.staged = s.fabric.staged ∧ t.mgmt.spdm = s.mgmt.spdm ∧ t.host.ports = s.host.ports ∧ t.post.fw = s.post.fw ∧ t.post.maps = s.post.maps ∧ t.time.rackTime = s.time.rackTime)
  ∧ (∀ s t, exec (Instr.electionQuiet) s = .next t →
      t.mem = s.mem ∧ t.rings = s.rings ∧ t.res = s.res ∧ t.xlat = s.xlat ∧ t.mgmt = s.mgmt ∧ t.host = s.host ∧ t.post = s.post ∧ t.power = s.power ∧ t.time = s.time ∧ t.out = s.out ∧ t.fabric.active = s.fabric.active ∧ t.fabric.staged = s.fabric.staged ∧ t.fabric.ports = s.fabric.ports ∧ t.fabric.dies = s.fabric.dies ∧ t.disc.mine = s.disc.mine)
  ∧ (∀ s t, exec (Instr.rootCompute) s = .next t →
      t.mem = s.mem ∧ t.rings = s.rings ∧ t.res = s.res ∧ t.xlat = s.xlat ∧ t.power = s.power ∧ t.fabric.active = s.fabric.active ∧ t.fabric.staged = s.fabric.staged ∧ t.fabric.ports = s.fabric.ports ∧ t.fabric.dies = s.fabric.dies ∧ t.mgmt.spdm = s.mgmt.spdm ∧ t.host.ports = s.host.ports ∧ t.post.fw = s.post.fw ∧ t.post.maps = s.post.maps ∧ t.time.rackTime = s.time.rackTime)
  ∧ (∀ s t, exec (Instr.commitTime) s = .next t →
      t.mem = s.mem ∧ t.rings = s.rings ∧ t.res = s.res ∧ t.xlat = s.xlat ∧ t.power = s.power ∧ t.time = s.time ∧ t.fabric.active = s.fabric.active ∧ t.fabric.dies = s.fabric.dies ∧ t.mgmt.spdm = s.mgmt.spdm ∧ t.host.ports = s.host.ports ∧ t.post.fw = s.post.fw ∧ t.post.maps = s.post.maps)
  ∧ (∀ s t, exec (Instr.discoveryStepTimeout) s = .next t →
      t.mem = s.mem ∧ t.rings = s.rings ∧ t.res = s.res ∧ t.xlat = s.xlat ∧ t.power = s.power ∧ t.time = s.time ∧ t.fabric.active = s.fabric.active ∧ t.fabric.staged = s.fabric.staged ∧ t.fabric.ports = s.fabric.ports ∧ t.fabric.dies = s.fabric.dies ∧ t.mgmt.spdm = s.mgmt.spdm ∧ t.host.ports = s.host.ports ∧ t.post.fw = s.post.fw ∧ t.post.maps = s.post.maps)
  ∧ (∀ (operation : Nat) (eid : Nat), ∀ i ∈ [Instr.mctpSetEndpointId operation eid, .bypass operation eid], ∀ s t, exec i s = .next t →
      t.mem = s.mem ∧ t.rings = s.rings ∧ t.fabric = s.fabric ∧ t.res = s.res ∧ t.xlat = s.xlat ∧ t.disc = s.disc ∧ t.host = s.host ∧ t.post = s.post ∧ t.power = s.power ∧ t.time = s.time ∧ t.mgmt.spdm = s.mgmt.spdm)
  ∧ (∀ (dest : Nat), ∀ i ∈ [Instr.mctpGetEndpointId dest, .mctpGetEndpointUuid dest, .mctpGetMessageTypeSupport dest, .getPdr dest, .getSensorReading dest, .getStateSensorReadings dest, .getStateEffecterStates dest], ∀ s t, exec i s = .next t →
      t.mem = s.mem ∧ t.rings = s.rings ∧ t.fabric = s.fabric ∧ t.res = s.res ∧ t.xlat = s.xlat ∧ t.disc = s.disc ∧ t.mgmt = s.mgmt ∧ t.host = s.host ∧ t.post = s.post ∧ t.power = s.power ∧ t.time = s.time)
  ∧ (∀ (dest : Nat) (messageType : Nat), ∀ i ∈ [Instr.mctpGetVersionSupport dest messageType, .mctpGetVendorMsgSupport dest messageType], ∀ s t, exec i s = .next t →
      t.mem = s.mem ∧ t.rings = s.rings ∧ t.fabric = s.fabric ∧ t.res = s.res ∧ t.xlat = s.xlat ∧ t.disc = s.disc ∧ t.mgmt = s.mgmt ∧ t.host = s.host ∧ t.post = s.post ∧ t.power = s.power ∧ t.time = s.time)
  ∧ (∀ (frame : List Byte) (mramOk : Bool), ∀ s t, exec (Instr.vendorDefinedMessage frame mramOk) s = .next t →
      t.mem = s.mem ∧ t.rings = s.rings ∧ t.res = s.res ∧ t.xlat = s.xlat ∧ t.disc = s.disc ∧ t.power = s.power ∧ t.time = s.time ∧ t.fabric.active = s.fabric.active ∧ t.fabric.staged = s.fabric.staged ∧ t.fabric.ports = s.fabric.ports ∧ t.mgmt.spdm = s.mgmt.spdm ∧ t.host.fns = s.host.fns ∧ t.host.ports = s.host.ports ∧ t.post.lbs = s.post.lbs ∧ t.post.fw = s.post.fw)
  ∧ (∀ (address : Nat), ∀ i ∈ [Instr.setdasa address, .entdaa address], ∀ s t, exec i s = .next t →
      t.mem = s.mem ∧ t.rings = s.rings ∧ t.fabric = s.fabric ∧ t.res = s.res ∧ t.xlat = s.xlat ∧ t.disc = s.disc ∧ t.host = s.host ∧ t.post = s.post ∧ t.power = s.power ∧ t.time = s.time ∧ t.out = s.out ∧ t.mgmt.spdm = s.mgmt.spdm)
  ∧ (∀ i ∈ [Instr.rstdaa, .testLogicReset], ∀ s t, exec i s = .next t →
      t.mem = s.mem ∧ t.rings = s.rings ∧ t.fabric = s.fabric ∧ t.res = s.res ∧ t.xlat = s.xlat ∧ t.disc = s.disc ∧ t.host = s.host ∧ t.post = s.post ∧ t.power = s.power ∧ t.time = s.time ∧ t.out = s.out ∧ t.mgmt.spdm = s.mgmt.spdm)
  ∧ (∀ s t, exec (Instr.busHeldLow) s = .next t →
      t.mem = s.mem ∧ t.rings = s.rings ∧ t.fabric = s.fabric ∧ t.res = s.res ∧ t.xlat = s.xlat ∧ t.disc = s.disc ∧ t.power = s.power ∧ t.time = s.time ∧ t.mgmt.spdm = s.mgmt.spdm ∧ t.host.fns = s.host.fns ∧ t.host.ports = s.host.ports ∧ t.post.lbs = s.post.lbs ∧ t.post.fw = s.post.fw ∧ t.post.maps = s.post.maps)
  ∧ (∀ i ∈ [Instr.getPdrRepositoryInfo, .queryDeviceIdentifiers, .getFirmwareParameters, .getStatus], ∀ s t, exec i s = .next t →
      t.mem = s.mem ∧ t.rings = s.rings ∧ t.fabric = s.fabric ∧ t.res = s.res ∧ t.xlat = s.xlat ∧ t.disc = s.disc ∧ t.mgmt = s.mgmt ∧ t.host = s.host ∧ t.post = s.post ∧ t.power = s.power ∧ t.time = s.time)
  ∧ (∀ (tid : Nat), ∀ i ∈ [Instr.setTid tid, .passComponentTable tid, .spdmGetDigests tid, .idcode tid, .extest tid, .extestPulse tid, .extestTrain tid, .clamp tid, .highz tid], ∀ s t, exec i s = .next t →
      t.mem = s.mem ∧ t.rings = s.rings ∧ t.fabric = s.fabric ∧ t.res = s.res ∧ t.xlat = s.xlat ∧ t.disc = s.disc ∧ t.host = s.host ∧ t.post = s.post ∧ t.power = s.power ∧ t.time = s.time ∧ t.mgmt.spdm = s.mgmt.spdm)
  ∧ (∀ (value : Nat), ∀ s t, exec (Instr.powerStateEffecter value) s = .next t →
      t.mem = s.mem ∧ t.rings = s.rings ∧ t.fabric = s.fabric ∧ t.res = s.res ∧ t.xlat = s.xlat ∧ t.disc = s.disc ∧ t.time = s.time ∧ t.mgmt.spdm = s.mgmt.spdm ∧ t.host.ports = s.host.ports ∧ t.post.fw = s.post.fw ∧ t.post.maps = s.post.maps)
  ∧ (∀ (value : Nat), ∀ s t, exec (Instr.resetEffecter value) s = .next t →
      t.mgmt.spdm = s.mgmt.spdm ∧ t.post.maps = s.post.maps ∧ t.time.rackTime = s.time.rackTime)
  ∧ (∀ (value : Nat), ∀ s t, exec (Instr.safeStateEffecter value) s = .next t →
      t.mem = s.mem ∧ t.rings = s.rings ∧ t.fabric = s.fabric ∧ t.res = s.res ∧ t.xlat = s.xlat ∧ t.disc = s.disc ∧ t.mgmt = s.mgmt ∧ t.host = s.host ∧ t.post = s.post ∧ t.time = s.time)
  ∧ (∀ (value : Nat), ∀ s t, exec (Instr.latchClearEffecter value) s = .next t →
      t.mem = s.mem ∧ t.rings = s.rings ∧ t.fabric = s.fabric ∧ t.res = s.res ∧ t.xlat = s.xlat ∧ t.disc = s.disc ∧ t.host = s.host ∧ t.post = s.post ∧ t.time = s.time ∧ t.mgmt.spdm = s.mgmt.spdm)
  ∧ (∀ (enable : Bool) (eid : Nat), ∀ s t, exec (Instr.setEventReceiver enable eid) s = .next t →
      t.mem = s.mem ∧ t.rings = s.rings ∧ t.fabric = s.fabric ∧ t.res = s.res ∧ t.xlat = s.xlat ∧ t.disc = s.disc ∧ t.host = s.host ∧ t.post = s.post ∧ t.power = s.power ∧ t.time = s.time ∧ t.mgmt.spdm = s.mgmt.spdm)
  ∧ (∀ i ∈ [Instr.pollForPlatformEventMessage, .requestUpdate, .verifyComplete, .applyComplete], ∀ s t, exec i s = .next t →
      t.mem = s.mem ∧ t.rings = s.rings ∧ t.fabric = s.fabric ∧ t.res = s.res ∧ t.xlat = s.xlat ∧ t.disc = s.disc ∧ t.host = s.host ∧ t.post = s.post ∧ t.power = s.power ∧ t.time = s.time ∧ t.mgmt.spdm = s.mgmt.spdm)
  ∧ (∀ (readings : List (Nat × Int)), ∀ s t, exec (Instr.sensorUpdate readings) s = .next t →
      t.mem = s.mem ∧ t.rings = s.rings ∧ t.fabric = s.fabric ∧ t.res = s.res ∧ t.xlat = s.xlat ∧ t.disc = s.disc ∧ t.host = s.host ∧ t.post = s.post ∧ t.power = s.power ∧ t.time = s.time ∧ t.mgmt.spdm = s.mgmt.spdm)
  ∧ (∀ (identifier : Nat) (length : Nat), ∀ s t, exec (Instr.updateComponent identifier length) s = .next t →
      t.mem = s.mem ∧ t.rings = s.rings ∧ t.fabric = s.fabric ∧ t.res = s.res ∧ t.xlat = s.xlat ∧ t.disc = s.disc ∧ t.host = s.host ∧ t.power = s.power ∧ t.time = s.time ∧ t.mgmt.spdm = s.mgmt.spdm ∧ t.post.lbs = s.post.lbs ∧ t.post.maps = s.post.maps ∧ t.post.journal = s.post.journal)
  ∧ (∀ (data : List Byte) (mramOk : Bool), ∀ s t, exec (Instr.requestFirmwareData data mramOk) s = .next t →
      t.mem = s.mem ∧ t.rings = s.rings ∧ t.res = s.res ∧ t.xlat = s.xlat ∧ t.disc = s.disc ∧ t.power = s.power ∧ t.time = s.time ∧ t.fabric.active = s.fabric.active ∧ t.fabric.staged = s.fabric.staged ∧ t.fabric.ports = s.fabric.ports ∧ t.mgmt.spdm = s.mgmt.spdm ∧ t.host.fns = s.host.fns ∧ t.host.ports = s.host.ports ∧ t.post.lbs = s.post.lbs ∧ t.post.fw = s.post.fw ∧ t.post.maps = s.post.maps)
  ∧ (∀ i ∈ [Instr.transferComplete, .cancelUpdateComponent, .cancelUpdate], ∀ s t, exec i s = .next t →
      t.mem = s.mem ∧ t.rings = s.rings ∧ t.fabric = s.fabric ∧ t.res = s.res ∧ t.xlat = s.xlat ∧ t.disc = s.disc ∧ t.host = s.host ∧ t.power = s.power ∧ t.time = s.time ∧ t.mgmt.spdm = s.mgmt.spdm ∧ t.post.lbs = s.post.lbs ∧ t.post.maps = s.post.maps ∧ t.post.journal = s.post.journal)
  ∧ (∀ (step2Ok : Bool) (step4Ok : Bool), ∀ s t, exec (Instr.activateFirmware step2Ok step4Ok) s = .next t →
      t.mem = s.mem ∧ t.rings = s.rings ∧ t.fabric.active = s.fabric.active ∧ t.fabric.staged = s.fabric.staged ∧ t.fabric.ports = s.fabric.ports ∧ t.res.launches = s.res.launches ∧ t.res.phs = s.res.phs ∧ t.disc = s.disc ∧ t.power = s.power ∧ t.time = s.time ∧ t.post.maps = s.post.maps)
  ∧ (∀ s t, exec (Instr.updateIdleTimeout) s = .next t →
      t.mem = s.mem ∧ t.rings = s.rings ∧ t.fabric = s.fabric ∧ t.res = s.res ∧ t.xlat = s.xlat ∧ t.disc = s.disc ∧ t.host = s.host ∧ t.power = s.power ∧ t.time = s.time ∧ t.out = s.out ∧ t.mgmt.spdm = s.mgmt.spdm ∧ t.post.lbs = s.post.lbs ∧ t.post.maps = s.post.maps ∧ t.post.journal = s.post.journal)
  ∧ (∀ (transport : Nat), ∀ i ∈ [Instr.spdmGetVersion transport, .spdmGetCapabilities transport], ∀ s t, exec i s = .next t →
      t.mem = s.mem ∧ t.rings = s.rings ∧ t.fabric = s.fabric ∧ t.res = s.res ∧ t.xlat = s.xlat ∧ t.disc = s.disc ∧ t.host = s.host ∧ t.post = s.post ∧ t.power = s.power ∧ t.time = s.time)
  ∧ (∀ (transport : Nat) (ecdsaP384 : Bool) (sha384 : Bool), ∀ s t, exec (Instr.spdmNegotiateAlgorithms transport ecdsaP384 sha384) s = .next t →
      t.mem = s.mem ∧ t.rings = s.rings ∧ t.fabric = s.fabric ∧ t.res = s.res ∧ t.xlat = s.xlat ∧ t.disc = s.disc ∧ t.host = s.host ∧ t.post = s.post ∧ t.power = s.power ∧ t.time = s.time)
  ∧ (∀ (transport : Nat) (slot : Nat) (offset : Nat) (length : Nat), ∀ s t, exec (Instr.spdmGetCertificate transport slot offset length) s = .next t →
      t.mem = s.mem ∧ t.rings = s.rings ∧ t.fabric = s.fabric ∧ t.res = s.res ∧ t.xlat = s.xlat ∧ t.disc = s.disc ∧ t.host = s.host ∧ t.post = s.post ∧ t.power = s.power ∧ t.time = s.time ∧ t.mgmt.spdm = s.mgmt.spdm)
  ∧ (∀ (transport : Nat) (slot : Nat) (nonce : List Byte), ∀ i ∈ [Instr.spdmChallenge transport slot nonce, .spdmGetMeasurements transport slot nonce], ∀ s t, exec i s = .next t →
      t.mem = s.mem ∧ t.rings = s.rings ∧ t.fabric = s.fabric ∧ t.res = s.res ∧ t.xlat = s.xlat ∧ t.disc = s.disc ∧ t.host = s.host ∧ t.post = s.post ∧ t.power = s.power ∧ t.time = s.time ∧ t.mgmt.spdm = s.mgmt.spdm)
  ∧ (∀ (tap : Nat) (pins : BitVec 64) (preload : BitVec 64), ∀ s t, exec (Instr.samplePreload tap pins preload) s = .next t →
      t.mem = s.mem ∧ t.rings = s.rings ∧ t.fabric = s.fabric ∧ t.res = s.res ∧ t.xlat = s.xlat ∧ t.disc = s.disc ∧ t.host = s.host ∧ t.post = s.post ∧ t.power = s.power ∧ t.time = s.time ∧ t.mgmt.spdm = s.mgmt.spdm)

/-- A ring's commands leave every other ring, and a letterbox's registers and queries every other letterbox. Bind, configuration, physical naming, start, stop and moderation of a ring, and its fetch, starts, settlements, NOP descriptors and moderation timer, change no other ring; a doorbell, abort-free register write or query of a letterbox changes no other letterbox, and a query journals nothing. -/
def Obligations.OtherRingsAndLetterboxesStay : Prop :=
  ((∀ s t lb r, exec (.ringBind lb) s = .next t → r ≠ argOf s lb 0x0103 0 → ringOf t r = ringOf s r) ∧
    (∀ s t lb r, exec (.ringConfig lb) s = .next t → r ≠ argOf s lb 0x0104 0 → ringOf t r = ringOf s r) ∧
    (∀ s t lb r, exec (.ringSetPhysical lb) s = .next t → r ≠ argOf s lb 0x0105 0 → ringOf t r = ringOf s r) ∧
    (∀ s t lb r, exec (.ringStart lb) s = .next t → r ≠ argOf s lb 0x0106 0 → ringOf t r = ringOf s r) ∧
    (∀ s t lb r, exec (.ringStop lb) s = .next t → r ≠ argOf s lb 0x0107 0 → ringOf t r = ringOf s r) ∧
    (∀ s t lb r, exec (.ringModerate lb) s = .next t → r ≠ argOf s lb 0x010A 0 → ringOf t r = ringOf s r) ∧
    (∀ ring count r, ∀ i ∈ [Instr.nopDescriptor ring count, .descriptorFetch ring, .descriptorStart ring, .descriptorSettle ring, .moderationTimer ring], ∀ s t, exec i s = .next t → r ≠ ring → ringOf t r = ringOf s r) ∧
    (∀ lb value offset size hw l, ∀ i ∈ [Instr.lbDoorbell lb value, .lbResultClear lb value hw, .lbFrameWrite lb offset size value, .commandStart lb],
      ∀ s t, exec i s = .next t → l ≠ lb → lbOf t l = lbOf s l) ∧
    (∀ lb l, ∀ i ∈ [Instr.nop lb, .getVersion lb, .getModuleInfo lb, .fnQuery lb, .ringQuery lb, .imageQuery lb, .phQuery lb, .freeMapRead lb, .routeRead lb, .portQuery lb, .powerQuery lb, .rackTimeQuery lb, .selftestReportRead lb, .journalRead lb, .countersRead lb, .fwQuery lb],
      ∀ s t, exec i s = .next t → t.post.journal = s.post.journal ∧ (l ≠ lb → lbOf t l = lbOf s l)))

/-- A store changes only the bytes it stores. A delivered write or atomic changes no stored byte outside its own range and the ranges of the packets held on its die (whole 64-byte units in an encrypted granule); a tile core's and a steward core's store no byte outside the bytes they name; a grant no byte outside its tiles' control areas; a completion entry of a private queue no byte outside its 32; a settlement of any other ring no byte. -/
def Obligations.StoresReachOnlyTheirBytes : Prop :=
  (∀ (pid : Nat) (s t : State) (x : Flight) (d : Nat) (p : Pkt) (a : Nat), ∀ i ∈ [Instr.dataPacketDelivery pid, .atomicPacket pid],
      flightOf s pid = some x → x.loc = .eject d → accept s x.pkt = .ok p → discardIndex s p.dest = none → exec i s = .next t →
      ¬ storesAt s p a → (∀ f ∈ (dieOf s (pcDie p.dest)).holds, ¬ storesAt s f.pkt a) → t.mem.get a = s.mem.get a)
  ∧ (∀ (f l o : Nat) (bs : List Byte) (s t : State) (a : Nat), exec (.tileCoreAccess f l true o bs) s = .next t →
      o + bs.length ≤ 0xFE000 →
      ¬ (memKey (scratchPc (moduleNumber s) f l) o ≤ a ∧ a < memKey (scratchPc (moduleNumber s) f l) o + bs.length) →
      t.mem.get a = s.mem.get a)
  ∧ (∀ (c o : Nat) (bs : List Byte) (s t : State) (a : Nat), exec (.stewardCoreAccess c true o bs) s = .next t →
      o + bs.length ≤ 2 ^ 21 → ¬ (stewardKey c o ≤ a ∧ a < stewardKey c o + bs.length) → t.mem.get a = s.mem.get a)
  ∧ (∀ (c o : Nat) (bs : List Byte) (s t : State) (h : Nat) (p : Ph) (g : Image) (pc : Postcode) (off a : Nat),
      exec (.stewardCoreAccess c true o bs) s = .next t → 2 ^ 21 < o + bs.length → (stewardOf s c).ph = some h →
      phOf s h = some p → imageOf s p = some g →
      stewardPlaceFrom (moduleNumber s) g p 0 g.regions (o - 2 ^ 32) = some (pc, off) → ¬ storesRange s pc off bs.length a →
      t.mem.get a = s.mem.get a)
  ∧ (∀ (h l : Nat) (s t : State) (x : Launch) (p : Ph) (a : Nat), exec (.launchGrant h l) s = .next t → launchOf s l = some x →
      phOf s h = some p →
      (∀ lt, (launchRange s x).1 ≤ lt → lt < (launchRange s x).1 + (launchRange s x).2 →
        ∀ w ∈ controlArea s x lt, ¬ storesRange s (scratchPc (moduleNumber s) (tileAt p lt).1 (tileAt p lt).2) w.1 w.2.length a) →
      t.mem.get a = s.mem.get a)
  ∧ (∀ (r : Nat) (s t : State), exec (.descriptorSettle r) s = .next t → r < 1024 → t.mem = s.mem)
  ∧ (∀ (r : Nat) (s t : State) (a : Nat), exec (.descriptorSettle r) s = .next t → 1024 ≤ r →
      ¬ (stewardKey (r - 1024) ((stewardOf s (r - 1024)).array + 32 * ((ringOf s r).cqWritten % 64)) ≤ a
        ∧ a < stewardKey (r - 1024) ((stewardOf s (r - 1024)).array + 32 * ((ringOf s r).cqWritten % 64)) + 32) →
      t.mem.get a = s.mem.get a)

/-- A doorbell or frame write outside Idle is dropped and counted. A doorbell write of 1, and a write to the command frame, that reach a letterbox outside Idle change nothing of it but the overrun bit, which is set, and the overrun count, which goes up by one modulo 2^32; the accepted command frame is unchanged, and so is every other part of the state. -/
def Obligations.DroppedLetterboxWritesCounted : Prop :=
  (∀ (s : State) (lb value : Nat), lb < 128 → barOpen s lb = true → bit value 0 = true → (lbOf s lb).state ≠ .idle →
      Gives (.lbDoorbell lb value) s fun t => t = lbOverrun lb s ∧ (lbOf t lb).cmd = (lbOf s lb).cmd ∧ (lbOf t lb).state = (lbOf s lb).state
        ∧ (lbOf t lb).overrun = true ∧ (lbOf t lb).overruns = ((lbOf s lb).overruns + 1) % 2 ^ 32)
  ∧ (∀ (s : State) (lb offset size value : Nat), lb < 128 → barOpen s lb = true → (size = 4 ∨ size = 8) → offset % size = 0 →
      offset + size ≤ 1792 → (lbOf s lb).state ≠ .idle →
      Gives (.lbFrameWrite lb offset size value) s fun t => t = lbOverrun lb s ∧ (lbOf t lb).cmd = (lbOf s lb).cmd
        ∧ (lbOf t lb).state = (lbOf s lb).state ∧ (lbOf t lb).overrun = true
        ∧ (lbOf t lb).overruns = ((lbOf s lb).overruns + 1) % 2 ^ 32)

/-- KEY_LOAD leaves no byte of its command frame. Started, KEY_LOAD ends with a result in its letterbox, whose whole command frame then reads zero. -/
def Obligations.KeyLoadErasesItsFrame : Prop :=
  ∀ (s : State) (lb : Nat), Started s lb 0x0209 →
    Gives (.keyLoad lb) s fun t => (lbOf t lb).state = .done ∧ ∀ i, tget 0 (lbOf t lb).cmd i = 0

/-- A NOP descriptor completes ok, changes nothing, and with WAIT is a barrier. A started NOP ends ok and changes nothing but its own status; a fetched descriptor with WAIT, a NOP's among them, does not start while an earlier descriptor of its ring has not settled; and a settlement whose oldest started descriptor has not ended changes no ring and no byte of memory. -/
def Obligations.NopChangesNothing : Prop :=
  (∀ (s : State) (ring count : Nat) (d : Started), ring < 1088 → startedOf s ring count = some d → descType d.bytes = 0 → d.status = none →
      Gives (.nopDescriptor ring count) s fun t => t = { s with rings := t.rings }
        ∧ startedOf t ring count = some { d with status := some stOk, result := 0 }
        ∧ (∀ r, r ≠ ring → ringOf t r = ringOf s r)
        ∧ ringOf t ring = { ringOf s ring with started := (ringOf t ring).started }
        ∧ ∀ c, c ≠ count → startedOf t ring c = startedOf s ring c)
  ∧ (∀ (s : State) (ring : Nat) (f : Fetched) (rest : List Fetched), ring < 1088 → (ringOf s ring).fetched = f :: rest →
      flagWait f.bytes = true → (ringOf s ring).started ≠ [] →
      Gives (.descriptorStart ring) s fun t => (ringOf t ring).started = (ringOf s ring).started
        ∧ (ringOf t ring).fetched.map Fetched.bytes = (ringOf s ring).fetched.map Fetched.bytes ∧ t.mem = s.mem)
  ∧ (∀ (s : State) (ring : Nat) (d : Started) (rest : List Started), ring < 1088 → (ringOf s ring).started = d :: rest → d.status = none →
      Gives (.descriptorSettle ring) s fun t => t.rings = s.rings ∧ t.mem = s.mem)

/-- KEY_CLEAR of a bound slot ends object busy. Started, KEY_CLEAR of a memory slot that a configured ring or a valid lock names, or of a link slot whose route set is defined, ends with code 0x0006 and leaves every key. -/
def Obligations.BoundSlotKeepsItsKey : Prop :=
  (∀ (s : State) (lb r : Nat), Started s lb 0x020A → 1 ≤ argOf s lb 0x020A 0 → argOf s lb 0x020A 0 ≤ 159 → r < 1024 →
      (ringOf s r).state ≠ .free → (ringOf s r).state ≠ .allocated → (ringOf s r).key = argOf s lb 0x020A 0 →
      Answers (.keyClear lb) lb 0x0006 s fun t => t.fabric.keys = s.fabric.keys)
  ∧ (∀ (s : State) (lb d l : Nat), Started s lb 0x020A → 1 ≤ argOf s lb 0x020A 0 → argOf s lb 0x020A 0 ≤ 159 →
      lockValid (lockOf s d l) = true → lockSelector (lockOf s d l) = argOf s lb 0x020A 0 →
      Answers (.keyClear lb) lb 0x0006 s fun t => t.fabric.keys = s.fabric.keys)
  ∧ (∀ (s : State) (lb : Nat), Started s lb 0x020A → 160 ≤ argOf s lb 0x020A 0 → argOf s lb 0x020A 0 ≤ 223 →
      tget [] s.fabric.routeSets (argOf s lb 0x020A 0 - 160) ≠ [] →
      Answers (.keyClear lb) lb 0x0006 s fun t => t.fabric.keys = s.fabric.keys)

/-- An over-voltage input trips above 59.5 V and never at or below 58.5 V. On either connector, an event at or below 58.5 V changes nothing; one above 59.5 V on a powered module shuts it down with cause over-voltage and ALERT. -/
def Obligations.OvervoltageThreshold : Prop :=
  (∀ (s : State) (input mv : Nat), input < 2 → mv ≤ 58500 → exec (.overvoltageTrip input mv) s = .next s)
  ∧ (∀ (s : State) (input mv : Nat), input < 2 → 59500 < mv → s.power.boot ≠ .unpowered → s.power.boot ≠ .shutdown →
      Gives (.overvoltageTrip input mv) s fun t => t.power.boot = .shutdown ∧ t.power.latch.cause = 2 ∧ t.power.alertShutdown = true)
end

