-- ==== Sys2Proof/Laws/State.lean ====
section
/-! SUPPORT. What each update of a part of the state leaves in each field, and what the accessors of a numbered part read after
an update of it. -/

namespace Sys2Proof.Laws

open Sys2Proof.Machine

/-! ### Tables -/

@[simp] theorem tget_tset_self {α : Type} (d : α) (t : Tab α) (k : Nat) (v : α) : tget d (tset t k v) k = v := by
  induction t with
  | nil => simp [tset, tget]
  | cons e t ih =>
    obtain ⟨j, w⟩ := e
    unfold tset
    split
    · simp [tget]
    · split
      · simp [tget]
      · simp [tget, Ne.symm (by assumption : ¬k = j), ih]

theorem tget_tset_ne {α : Type} (d : α) (t : Tab α) {k j : Nat} (v : α) (h : j ≠ k) :
    tget d (tset t k v) j = tget d t j := by
  induction t with
  | nil => simp [tset, tget, Ne.symm h]
  | cons e t ih =>
    obtain ⟨i, w⟩ := e
    unfold tset
    split
    · simp [tget, Ne.symm h]
    · split
      · subst_vars; simp [tget, Ne.symm h]
      · simp [tget, ih]

@[simp] theorem tget_tmod_self {α : Type} (d : α) (t : Tab α) (k : Nat) (f : α → α) :
    tget d (tmod d t k f) k = f (tget d t k) := by simp [tmod]

theorem tget_tmod_ne {α : Type} (d : α) (t : Tab α) {k j : Nat} (f : α → α) (h : j ≠ k) :
    tget d (tmod d t k f) j = tget d t j := by simp [tmod, tget_tset_ne _ _ _ h]

@[simp] theorem tfind_tset_self {α : Type} (t : Tab α) (k : Nat) (v : α) : tfind (tset t k v) k = some v := by
  induction t with
  | nil => simp [tset, tfind]
  | cons e t ih =>
    obtain ⟨j, w⟩ := e
    unfold tset
    split
    · simp [tfind]
    · split
      · simp [tfind]
      · simp [tfind, Ne.symm (by assumption : ¬k = j), ih]

/-! ### Fields after an update of a part -/

@[simp] theorem ite_pending (c : Prop) [Decidable c] (a b : State) : (if c then a else b).pending = if c then a.pending else b.pending := by
  split <;> rfl
@[simp] theorem ite_power (c : Prop) [Decidable c] (a b : State) : (if c then a else b).power = if c then a.power else b.power := by
  split <;> rfl
@[simp] theorem ite_time (c : Prop) [Decidable c] (a b : State) : (if c then a else b).time = if c then a.time else b.time := by
  split <;> rfl
@[simp] theorem ite_host (c : Prop) [Decidable c] (a b : State) : (if c then a else b).host = if c then a.host else b.host := by
  split <;> rfl
@[simp] theorem ite_post (c : Prop) [Decidable c] (a b : State) : (if c then a else b).post = if c then a.post else b.post := by
  split <;> rfl
@[simp] theorem ite_rings (c : Prop) [Decidable c] (a b : State) : (if c then a else b).rings = if c then a.rings else b.rings := by
  split <;> rfl
@[simp] theorem ite_xlat (c : Prop) [Decidable c] (a b : State) : (if c then a else b).xlat = if c then a.xlat else b.xlat := by
  split <;> rfl
@[simp] theorem ite_fabric (c : Prop) [Decidable c] (a b : State) : (if c then a else b).fabric = if c then a.fabric else b.fabric := by
  split <;> rfl
@[simp] theorem ite_mem (c : Prop) [Decidable c] (a b : State) : (if c then a else b).mem = if c then a.mem else b.mem := by
  split <;> rfl
@[simp] theorem ite_res (c : Prop) [Decidable c] (a b : State) : (if c then a else b).res = if c then a.res else b.res := by
  split <;> rfl
@[simp] theorem ite_disc (c : Prop) [Decidable c] (a b : State) : (if c then a else b).disc = if c then a.disc else b.disc := by
  split <;> rfl
@[simp] theorem ite_mgmt (c : Prop) [Decidable c] (a b : State) : (if c then a else b).mgmt = if c then a.mgmt else b.mgmt := by
  split <;> rfl
@[simp] theorem ite_out (c : Prop) [Decidable c] (a b : State) : (if c then a else b).out = if c then a.out else b.out := by
  split <;> rfl
@[simp] theorem ite_free (c : Prop) [Decidable c] (a b : State) : (if c then a else b).free = if c then a.free else b.free := by
  split <;> rfl

@[simp] theorem onPower_pending (f : Power → Power) (s : State) : (onPower f s).pending = s.pending := rfl
@[simp] theorem onPower_power (f : Power → Power) (s : State) : (onPower f s).power = f s.power := rfl
@[simp] theorem onPower_time (f : Power → Power) (s : State) : (onPower f s).time = s.time := rfl
@[simp] theorem onPower_host (f : Power → Power) (s : State) : (onPower f s).host = s.host := rfl
@[simp] theorem onPower_post (f : Power → Power) (s : State) : (onPower f s).post = s.post := rfl
@[simp] theorem onPower_rings (f : Power → Power) (s : State) : (onPower f s).rings = s.rings := rfl
@[simp] theorem onPower_xlat (f : Power → Power) (s : State) : (onPower f s).xlat = s.xlat := rfl
@[simp] theorem onPower_fabric (f : Power → Power) (s : State) : (onPower f s).fabric = s.fabric := rfl
@[simp] theorem onPower_mem (f : Power → Power) (s : State) : (onPower f s).mem = s.mem := rfl
@[simp] theorem onPower_res (f : Power → Power) (s : State) : (onPower f s).res = s.res := rfl
@[simp] theorem onPower_disc (f : Power → Power) (s : State) : (onPower f s).disc = s.disc := rfl
@[simp] theorem onPower_mgmt (f : Power → Power) (s : State) : (onPower f s).mgmt = s.mgmt := rfl
@[simp] theorem onPower_out (f : Power → Power) (s : State) : (onPower f s).out = s.out := rfl
@[simp] theorem onPower_free (f : Power → Power) (s : State) : (onPower f s).free = s.free := rfl
@[simp] theorem onTime_pending (f : Timebase → Timebase) (s : State) : (onTime f s).pending = s.pending := rfl
@[simp] theorem onTime_power (f : Timebase → Timebase) (s : State) : (onTime f s).power = s.power := rfl
@[simp] theorem onTime_time (f : Timebase → Timebase) (s : State) : (onTime f s).time = f s.time := rfl
@[simp] theorem onTime_host (f : Timebase → Timebase) (s : State) : (onTime f s).host = s.host := rfl
@[simp] theorem onTime_post (f : Timebase → Timebase) (s : State) : (onTime f s).post = s.post := rfl
@[simp] theorem onTime_rings (f : Timebase → Timebase) (s : State) : (onTime f s).rings = s.rings := rfl
@[simp] theorem onTime_xlat (f : Timebase → Timebase) (s : State) : (onTime f s).xlat = s.xlat := rfl
@[simp] theorem onTime_fabric (f : Timebase → Timebase) (s : State) : (onTime f s).fabric = s.fabric := rfl
@[simp] theorem onTime_mem (f : Timebase → Timebase) (s : State) : (onTime f s).mem = s.mem := rfl
@[simp] theorem onTime_res (f : Timebase → Timebase) (s : State) : (onTime f s).res = s.res := rfl
@[simp] theorem onTime_disc (f : Timebase → Timebase) (s : State) : (onTime f s).disc = s.disc := rfl
@[simp] theorem onTime_mgmt (f : Timebase → Timebase) (s : State) : (onTime f s).mgmt = s.mgmt := rfl
@[simp] theorem onTime_out (f : Timebase → Timebase) (s : State) : (onTime f s).out = s.out := rfl
@[simp] theorem onTime_free (f : Timebase → Timebase) (s : State) : (onTime f s).free = s.free := rfl
@[simp] theorem onHost_pending (f : HostSide → HostSide) (s : State) : (onHost f s).pending = s.pending := rfl
@[simp] theorem onHost_power (f : HostSide → HostSide) (s : State) : (onHost f s).power = s.power := rfl
@[simp] theorem onHost_time (f : HostSide → HostSide) (s : State) : (onHost f s).time = s.time := rfl
@[simp] theorem onHost_host (f : HostSide → HostSide) (s : State) : (onHost f s).host = f s.host := rfl
@[simp] theorem onHost_post (f : HostSide → HostSide) (s : State) : (onHost f s).post = s.post := rfl
@[simp] theorem onHost_rings (f : HostSide → HostSide) (s : State) : (onHost f s).rings = s.rings := rfl
@[simp] theorem onHost_xlat (f : HostSide → HostSide) (s : State) : (onHost f s).xlat = s.xlat := rfl
@[simp] theorem onHost_fabric (f : HostSide → HostSide) (s : State) : (onHost f s).fabric = s.fabric := rfl
@[simp] theorem onHost_mem (f : HostSide → HostSide) (s : State) : (onHost f s).mem = s.mem := rfl
@[simp] theorem onHost_res (f : HostSide → HostSide) (s : State) : (onHost f s).res = s.res := rfl
@[simp] theorem onHost_disc (f : HostSide → HostSide) (s : State) : (onHost f s).disc = s.disc := rfl
@[simp] theorem onHost_mgmt (f : HostSide → HostSide) (s : State) : (onHost f s).mgmt = s.mgmt := rfl
@[simp] theorem onHost_out (f : HostSide → HostSide) (s : State) : (onHost f s).out = s.out := rfl
@[simp] theorem onHost_free (f : HostSide → HostSide) (s : State) : (onHost f s).free = s.free := rfl
@[simp] theorem onPost_pending (f : Post → Post) (s : State) : (onPost f s).pending = s.pending := rfl
@[simp] theorem onPost_power (f : Post → Post) (s : State) : (onPost f s).power = s.power := rfl
@[simp] theorem onPost_time (f : Post → Post) (s : State) : (onPost f s).time = s.time := rfl
@[simp] theorem onPost_host (f : Post → Post) (s : State) : (onPost f s).host = s.host := rfl
@[simp] theorem onPost_post (f : Post → Post) (s : State) : (onPost f s).post = f s.post := rfl
@[simp] theorem onPost_rings (f : Post → Post) (s : State) : (onPost f s).rings = s.rings := rfl
@[simp] theorem onPost_xlat (f : Post → Post) (s : State) : (onPost f s).xlat = s.xlat := rfl
@[simp] theorem onPost_fabric (f : Post → Post) (s : State) : (onPost f s).fabric = s.fabric := rfl
@[simp] theorem onPost_mem (f : Post → Post) (s : State) : (onPost f s).mem = s.mem := rfl
@[simp] theorem onPost_res (f : Post → Post) (s : State) : (onPost f s).res = s.res := rfl
@[simp] theorem onPost_disc (f : Post → Post) (s : State) : (onPost f s).disc = s.disc := rfl
@[simp] theorem onPost_mgmt (f : Post → Post) (s : State) : (onPost f s).mgmt = s.mgmt := rfl
@[simp] theorem onPost_out (f : Post → Post) (s : State) : (onPost f s).out = s.out := rfl
@[simp] theorem onPost_free (f : Post → Post) (s : State) : (onPost f s).free = s.free := rfl
@[simp] theorem onXlat_pending (f : Xlat → Xlat) (s : State) : (onXlat f s).pending = s.pending := rfl
@[simp] theorem onXlat_power (f : Xlat → Xlat) (s : State) : (onXlat f s).power = s.power := rfl
@[simp] theorem onXlat_time (f : Xlat → Xlat) (s : State) : (onXlat f s).time = s.time := rfl
@[simp] theorem onXlat_host (f : Xlat → Xlat) (s : State) : (onXlat f s).host = s.host := rfl
@[simp] theorem onXlat_post (f : Xlat → Xlat) (s : State) : (onXlat f s).post = s.post := rfl
@[simp] theorem onXlat_rings (f : Xlat → Xlat) (s : State) : (onXlat f s).rings = s.rings := rfl
@[simp] theorem onXlat_xlat (f : Xlat → Xlat) (s : State) : (onXlat f s).xlat = f s.xlat := rfl
@[simp] theorem onXlat_fabric (f : Xlat → Xlat) (s : State) : (onXlat f s).fabric = s.fabric := rfl
@[simp] theorem onXlat_mem (f : Xlat → Xlat) (s : State) : (onXlat f s).mem = s.mem := rfl
@[simp] theorem onXlat_res (f : Xlat → Xlat) (s : State) : (onXlat f s).res = s.res := rfl
@[simp] theorem onXlat_disc (f : Xlat → Xlat) (s : State) : (onXlat f s).disc = s.disc := rfl
@[simp] theorem onXlat_mgmt (f : Xlat → Xlat) (s : State) : (onXlat f s).mgmt = s.mgmt := rfl
@[simp] theorem onXlat_out (f : Xlat → Xlat) (s : State) : (onXlat f s).out = s.out := rfl
@[simp] theorem onXlat_free (f : Xlat → Xlat) (s : State) : (onXlat f s).free = s.free := rfl
@[simp] theorem onFabric_pending (f : Fabric → Fabric) (s : State) : (onFabric f s).pending = s.pending := rfl
@[simp] theorem onFabric_power (f : Fabric → Fabric) (s : State) : (onFabric f s).power = s.power := rfl
@[simp] theorem onFabric_time (f : Fabric → Fabric) (s : State) : (onFabric f s).time = s.time := rfl
@[simp] theorem onFabric_host (f : Fabric → Fabric) (s : State) : (onFabric f s).host = s.host := rfl
@[simp] theorem onFabric_post (f : Fabric → Fabric) (s : State) : (onFabric f s).post = s.post := rfl
@[simp] theorem onFabric_rings (f : Fabric → Fabric) (s : State) : (onFabric f s).rings = s.rings := rfl
@[simp] theorem onFabric_xlat (f : Fabric → Fabric) (s : State) : (onFabric f s).xlat = s.xlat := rfl
@[simp] theorem onFabric_fabric (f : Fabric → Fabric) (s : State) : (onFabric f s).fabric = f s.fabric := rfl
@[simp] theorem onFabric_mem (f : Fabric → Fabric) (s : State) : (onFabric f s).mem = s.mem := rfl
@[simp] theorem onFabric_res (f : Fabric → Fabric) (s : State) : (onFabric f s).res = s.res := rfl
@[simp] theorem onFabric_disc (f : Fabric → Fabric) (s : State) : (onFabric f s).disc = s.disc := rfl
@[simp] theorem onFabric_mgmt (f : Fabric → Fabric) (s : State) : (onFabric f s).mgmt = s.mgmt := rfl
@[simp] theorem onFabric_out (f : Fabric → Fabric) (s : State) : (onFabric f s).out = s.out := rfl
@[simp] theorem onFabric_free (f : Fabric → Fabric) (s : State) : (onFabric f s).free = s.free := rfl
@[simp] theorem onMem_pending (f : Memory → Memory) (s : State) : (onMem f s).pending = s.pending := rfl
@[simp] theorem onMem_power (f : Memory → Memory) (s : State) : (onMem f s).power = s.power := rfl
@[simp] theorem onMem_time (f : Memory → Memory) (s : State) : (onMem f s).time = s.time := rfl
@[simp] theorem onMem_host (f : Memory → Memory) (s : State) : (onMem f s).host = s.host := rfl
@[simp] theorem onMem_post (f : Memory → Memory) (s : State) : (onMem f s).post = s.post := rfl
@[simp] theorem onMem_rings (f : Memory → Memory) (s : State) : (onMem f s).rings = s.rings := rfl
@[simp] theorem onMem_xlat (f : Memory → Memory) (s : State) : (onMem f s).xlat = s.xlat := rfl
@[simp] theorem onMem_fabric (f : Memory → Memory) (s : State) : (onMem f s).fabric = s.fabric := rfl
@[simp] theorem onMem_mem (f : Memory → Memory) (s : State) : (onMem f s).mem = f s.mem := rfl
@[simp] theorem onMem_res (f : Memory → Memory) (s : State) : (onMem f s).res = s.res := rfl
@[simp] theorem onMem_disc (f : Memory → Memory) (s : State) : (onMem f s).disc = s.disc := rfl
@[simp] theorem onMem_mgmt (f : Memory → Memory) (s : State) : (onMem f s).mgmt = s.mgmt := rfl
@[simp] theorem onMem_out (f : Memory → Memory) (s : State) : (onMem f s).out = s.out := rfl
@[simp] theorem onMem_free (f : Memory → Memory) (s : State) : (onMem f s).free = s.free := rfl
@[simp] theorem onRes_pending (f : Residency → Residency) (s : State) : (onRes f s).pending = s.pending := rfl
@[simp] theorem onRes_power (f : Residency → Residency) (s : State) : (onRes f s).power = s.power := rfl
@[simp] theorem onRes_time (f : Residency → Residency) (s : State) : (onRes f s).time = s.time := rfl
@[simp] theorem onRes_host (f : Residency → Residency) (s : State) : (onRes f s).host = s.host := rfl
@[simp] theorem onRes_post (f : Residency → Residency) (s : State) : (onRes f s).post = s.post := rfl
@[simp] theorem onRes_rings (f : Residency → Residency) (s : State) : (onRes f s).rings = s.rings := rfl
@[simp] theorem onRes_xlat (f : Residency → Residency) (s : State) : (onRes f s).xlat = s.xlat := rfl
@[simp] theorem onRes_fabric (f : Residency → Residency) (s : State) : (onRes f s).fabric = s.fabric := rfl
@[simp] theorem onRes_mem (f : Residency → Residency) (s : State) : (onRes f s).mem = s.mem := rfl
@[simp] theorem onRes_res (f : Residency → Residency) (s : State) : (onRes f s).res = f s.res := rfl
@[simp] theorem onRes_disc (f : Residency → Residency) (s : State) : (onRes f s).disc = s.disc := rfl
@[simp] theorem onRes_mgmt (f : Residency → Residency) (s : State) : (onRes f s).mgmt = s.mgmt := rfl
@[simp] theorem onRes_out (f : Residency → Residency) (s : State) : (onRes f s).out = s.out := rfl
@[simp] theorem onRes_free (f : Residency → Residency) (s : State) : (onRes f s).free = s.free := rfl
@[simp] theorem onDisc_pending (f : Discovery → Discovery) (s : State) : (onDisc f s).pending = s.pending := rfl
@[simp] theorem onDisc_power (f : Discovery → Discovery) (s : State) : (onDisc f s).power = s.power := rfl
@[simp] theorem onDisc_time (f : Discovery → Discovery) (s : State) : (onDisc f s).time = s.time := rfl
@[simp] theorem onDisc_host (f : Discovery → Discovery) (s : State) : (onDisc f s).host = s.host := rfl
@[simp] theorem onDisc_post (f : Discovery → Discovery) (s : State) : (onDisc f s).post = s.post := rfl
@[simp] theorem onDisc_rings (f : Discovery → Discovery) (s : State) : (onDisc f s).rings = s.rings := rfl
@[simp] theorem onDisc_xlat (f : Discovery → Discovery) (s : State) : (onDisc f s).xlat = s.xlat := rfl
@[simp] theorem onDisc_fabric (f : Discovery → Discovery) (s : State) : (onDisc f s).fabric = s.fabric := rfl
@[simp] theorem onDisc_mem (f : Discovery → Discovery) (s : State) : (onDisc f s).mem = s.mem := rfl
@[simp] theorem onDisc_res (f : Discovery → Discovery) (s : State) : (onDisc f s).res = s.res := rfl
@[simp] theorem onDisc_disc (f : Discovery → Discovery) (s : State) : (onDisc f s).disc = f s.disc := rfl
@[simp] theorem onDisc_mgmt (f : Discovery → Discovery) (s : State) : (onDisc f s).mgmt = s.mgmt := rfl
@[simp] theorem onDisc_out (f : Discovery → Discovery) (s : State) : (onDisc f s).out = s.out := rfl
@[simp] theorem onDisc_free (f : Discovery → Discovery) (s : State) : (onDisc f s).free = s.free := rfl
@[simp] theorem onMgmt_pending (f : Mgmt → Mgmt) (s : State) : (onMgmt f s).pending = s.pending := rfl
@[simp] theorem onMgmt_power (f : Mgmt → Mgmt) (s : State) : (onMgmt f s).power = s.power := rfl
@[simp] theorem onMgmt_time (f : Mgmt → Mgmt) (s : State) : (onMgmt f s).time = s.time := rfl
@[simp] theorem onMgmt_host (f : Mgmt → Mgmt) (s : State) : (onMgmt f s).host = s.host := rfl
@[simp] theorem onMgmt_post (f : Mgmt → Mgmt) (s : State) : (onMgmt f s).post = s.post := rfl
@[simp] theorem onMgmt_rings (f : Mgmt → Mgmt) (s : State) : (onMgmt f s).rings = s.rings := rfl
@[simp] theorem onMgmt_xlat (f : Mgmt → Mgmt) (s : State) : (onMgmt f s).xlat = s.xlat := rfl
@[simp] theorem onMgmt_fabric (f : Mgmt → Mgmt) (s : State) : (onMgmt f s).fabric = s.fabric := rfl
@[simp] theorem onMgmt_mem (f : Mgmt → Mgmt) (s : State) : (onMgmt f s).mem = s.mem := rfl
@[simp] theorem onMgmt_res (f : Mgmt → Mgmt) (s : State) : (onMgmt f s).res = s.res := rfl
@[simp] theorem onMgmt_disc (f : Mgmt → Mgmt) (s : State) : (onMgmt f s).disc = s.disc := rfl
@[simp] theorem onMgmt_mgmt (f : Mgmt → Mgmt) (s : State) : (onMgmt f s).mgmt = f s.mgmt := rfl
@[simp] theorem onMgmt_out (f : Mgmt → Mgmt) (s : State) : (onMgmt f s).out = s.out := rfl
@[simp] theorem onMgmt_free (f : Mgmt → Mgmt) (s : State) : (onMgmt f s).free = s.free := rfl
@[simp] theorem emit_pending (o : Out) (s : State) : (emit o s).pending = s.pending := rfl
@[simp] theorem emit_power (o : Out) (s : State) : (emit o s).power = s.power := rfl
@[simp] theorem emit_time (o : Out) (s : State) : (emit o s).time = s.time := rfl
@[simp] theorem emit_host (o : Out) (s : State) : (emit o s).host = s.host := rfl
@[simp] theorem emit_post (o : Out) (s : State) : (emit o s).post = s.post := rfl
@[simp] theorem emit_rings (o : Out) (s : State) : (emit o s).rings = s.rings := rfl
@[simp] theorem emit_xlat (o : Out) (s : State) : (emit o s).xlat = s.xlat := rfl
@[simp] theorem emit_fabric (o : Out) (s : State) : (emit o s).fabric = s.fabric := rfl
@[simp] theorem emit_mem (o : Out) (s : State) : (emit o s).mem = s.mem := rfl
@[simp] theorem emit_res (o : Out) (s : State) : (emit o s).res = s.res := rfl
@[simp] theorem emit_disc (o : Out) (s : State) : (emit o s).disc = s.disc := rfl
@[simp] theorem emit_mgmt (o : Out) (s : State) : (emit o s).mgmt = s.mgmt := rfl
@[simp] theorem emit_out (o : Out) (s : State) : (emit o s).out = s.out ++ [o] := rfl
@[simp] theorem emit_free (o : Out) (s : State) : (emit o s).free = s.free := rfl

/-! ### Fields after an update of a numbered part -/

@[simp] theorem onRing_pending (k : Nat) (f : Ring → Ring) (s : State) :
    (onRing k f s).pending = s.pending := rfl
@[simp] theorem onRing_power (k : Nat) (f : Ring → Ring) (s : State) :
    (onRing k f s).power = s.power := rfl
@[simp] theorem onRing_time (k : Nat) (f : Ring → Ring) (s : State) :
    (onRing k f s).time = s.time := rfl
@[simp] theorem onRing_host (k : Nat) (f : Ring → Ring) (s : State) :
    (onRing k f s).host = s.host := rfl
@[simp] theorem onRing_post (k : Nat) (f : Ring → Ring) (s : State) :
    (onRing k f s).post = s.post := rfl
@[simp] theorem onRing_rings (k : Nat) (f : Ring → Ring) (s : State) :
    (onRing k f s).rings = tmod {} s.rings k f := rfl
@[simp] theorem onRing_xlat (k : Nat) (f : Ring → Ring) (s : State) :
    (onRing k f s).xlat = s.xlat := rfl
@[simp] theorem onRing_fabric (k : Nat) (f : Ring → Ring) (s : State) :
    (onRing k f s).fabric = s.fabric := rfl
@[simp] theorem onRing_mem (k : Nat) (f : Ring → Ring) (s : State) :
    (onRing k f s).mem = s.mem := rfl
@[simp] theorem onRing_res (k : Nat) (f : Ring → Ring) (s : State) :
    (onRing k f s).res = s.res := rfl
@[simp] theorem onRing_disc (k : Nat) (f : Ring → Ring) (s : State) :
    (onRing k f s).disc = s.disc := rfl
@[simp] theorem onRing_mgmt (k : Nat) (f : Ring → Ring) (s : State) :
    (onRing k f s).mgmt = s.mgmt := rfl
@[simp] theorem onRing_out (k : Nat) (f : Ring → Ring) (s : State) :
    (onRing k f s).out = s.out := rfl
@[simp] theorem onRing_free (k : Nat) (f : Ring → Ring) (s : State) :
    (onRing k f s).free = s.free := rfl
@[simp] theorem onFn_pending (k : Nat) (f : Fn → Fn) (s : State) :
    (onFn k f s).pending = s.pending := rfl
@[simp] theorem onFn_power (k : Nat) (f : Fn → Fn) (s : State) :
    (onFn k f s).power = s.power := rfl
@[simp] theorem onFn_time (k : Nat) (f : Fn → Fn) (s : State) :
    (onFn k f s).time = s.time := rfl
@[simp] theorem onFn_host (k : Nat) (f : Fn → Fn) (s : State) :
    (onFn k f s).host = { s.host with fns := tmod {} s.host.fns k f } := rfl
@[simp] theorem onFn_post (k : Nat) (f : Fn → Fn) (s : State) :
    (onFn k f s).post = s.post := rfl
@[simp] theorem onFn_rings (k : Nat) (f : Fn → Fn) (s : State) :
    (onFn k f s).rings = s.rings := rfl
@[simp] theorem onFn_xlat (k : Nat) (f : Fn → Fn) (s : State) :
    (onFn k f s).xlat = s.xlat := rfl
@[simp] theorem onFn_fabric (k : Nat) (f : Fn → Fn) (s : State) :
    (onFn k f s).fabric = s.fabric := rfl
@[simp] theorem onFn_mem (k : Nat) (f : Fn → Fn) (s : State) :
    (onFn k f s).mem = s.mem := rfl
@[simp] theorem onFn_res (k : Nat) (f : Fn → Fn) (s : State) :
    (onFn k f s).res = s.res := rfl
@[simp] theorem onFn_disc (k : Nat) (f : Fn → Fn) (s : State) :
    (onFn k f s).disc = s.disc := rfl
@[simp] theorem onFn_mgmt (k : Nat) (f : Fn → Fn) (s : State) :
    (onFn k f s).mgmt = s.mgmt := rfl
@[simp] theorem onFn_out (k : Nat) (f : Fn → Fn) (s : State) :
    (onFn k f s).out = s.out := rfl
@[simp] theorem onFn_free (k : Nat) (f : Fn → Fn) (s : State) :
    (onFn k f s).free = s.free := rfl
@[simp] theorem onHostPort_pending (k : Nat) (f : HostPort → HostPort) (s : State) :
    (onHostPort k f s).pending = s.pending := rfl
@[simp] theorem onHostPort_power (k : Nat) (f : HostPort → HostPort) (s : State) :
    (onHostPort k f s).power = s.power := rfl
@[simp] theorem onHostPort_time (k : Nat) (f : HostPort → HostPort) (s : State) :
    (onHostPort k f s).time = s.time := rfl
@[simp] theorem onHostPort_host (k : Nat) (f : HostPort → HostPort) (s : State) :
    (onHostPort k f s).host = { s.host with ports := tmod {} s.host.ports k f } := rfl
@[simp] theorem onHostPort_post (k : Nat) (f : HostPort → HostPort) (s : State) :
    (onHostPort k f s).post = s.post := rfl
@[simp] theorem onHostPort_rings (k : Nat) (f : HostPort → HostPort) (s : State) :
    (onHostPort k f s).rings = s.rings := rfl
@[simp] theorem onHostPort_xlat (k : Nat) (f : HostPort → HostPort) (s : State) :
    (onHostPort k f s).xlat = s.xlat := rfl
@[simp] theorem onHostPort_fabric (k : Nat) (f : HostPort → HostPort) (s : State) :
    (onHostPort k f s).fabric = s.fabric := rfl
@[simp] theorem onHostPort_mem (k : Nat) (f : HostPort → HostPort) (s : State) :
    (onHostPort k f s).mem = s.mem := rfl
@[simp] theorem onHostPort_res (k : Nat) (f : HostPort → HostPort) (s : State) :
    (onHostPort k f s).res = s.res := rfl
@[simp] theorem onHostPort_disc (k : Nat) (f : HostPort → HostPort) (s : State) :
    (onHostPort k f s).disc = s.disc := rfl
@[simp] theorem onHostPort_mgmt (k : Nat) (f : HostPort → HostPort) (s : State) :
    (onHostPort k f s).mgmt = s.mgmt := rfl
@[simp] theorem onHostPort_out (k : Nat) (f : HostPort → HostPort) (s : State) :
    (onHostPort k f s).out = s.out := rfl
@[simp] theorem onHostPort_free (k : Nat) (f : HostPort → HostPort) (s : State) :
    (onHostPort k f s).free = s.free := rfl
@[simp] theorem onLb_pending (k : Nat) (f : Letterbox → Letterbox) (s : State) :
    (onLb k f s).pending = s.pending := rfl
@[simp] theorem onLb_power (k : Nat) (f : Letterbox → Letterbox) (s : State) :
    (onLb k f s).power = s.power := rfl
@[simp] theorem onLb_time (k : Nat) (f : Letterbox → Letterbox) (s : State) :
    (onLb k f s).time = s.time := rfl
@[simp] theorem onLb_host (k : Nat) (f : Letterbox → Letterbox) (s : State) :
    (onLb k f s).host = s.host := rfl
@[simp] theorem onLb_post (k : Nat) (f : Letterbox → Letterbox) (s : State) :
    (onLb k f s).post = { s.post with lbs := tmod {} s.post.lbs k f } := rfl
@[simp] theorem onLb_rings (k : Nat) (f : Letterbox → Letterbox) (s : State) :
    (onLb k f s).rings = s.rings := rfl
@[simp] theorem onLb_xlat (k : Nat) (f : Letterbox → Letterbox) (s : State) :
    (onLb k f s).xlat = s.xlat := rfl
@[simp] theorem onLb_fabric (k : Nat) (f : Letterbox → Letterbox) (s : State) :
    (onLb k f s).fabric = s.fabric := rfl
@[simp] theorem onLb_mem (k : Nat) (f : Letterbox → Letterbox) (s : State) :
    (onLb k f s).mem = s.mem := rfl
@[simp] theorem onLb_res (k : Nat) (f : Letterbox → Letterbox) (s : State) :
    (onLb k f s).res = s.res := rfl
@[simp] theorem onLb_disc (k : Nat) (f : Letterbox → Letterbox) (s : State) :
    (onLb k f s).disc = s.disc := rfl
@[simp] theorem onLb_mgmt (k : Nat) (f : Letterbox → Letterbox) (s : State) :
    (onLb k f s).mgmt = s.mgmt := rfl
@[simp] theorem onLb_out (k : Nat) (f : Letterbox → Letterbox) (s : State) :
    (onLb k f s).out = s.out := rfl
@[simp] theorem onLb_free (k : Nat) (f : Letterbox → Letterbox) (s : State) :
    (onLb k f s).free = s.free := rfl
@[simp] theorem onDie_pending (k : Nat) (f : Die → Die) (s : State) :
    (onDie k f s).pending = s.pending := rfl
@[simp] theorem onDie_power (k : Nat) (f : Die → Die) (s : State) :
    (onDie k f s).power = s.power := rfl
@[simp] theorem onDie_time (k : Nat) (f : Die → Die) (s : State) :
    (onDie k f s).time = s.time := rfl
@[simp] theorem onDie_host (k : Nat) (f : Die → Die) (s : State) :
    (onDie k f s).host = s.host := rfl
@[simp] theorem onDie_post (k : Nat) (f : Die → Die) (s : State) :
    (onDie k f s).post = s.post := rfl
@[simp] theorem onDie_rings (k : Nat) (f : Die → Die) (s : State) :
    (onDie k f s).rings = s.rings := rfl
@[simp] theorem onDie_xlat (k : Nat) (f : Die → Die) (s : State) :
    (onDie k f s).xlat = s.xlat := rfl
@[simp] theorem onDie_fabric (k : Nat) (f : Die → Die) (s : State) :
    (onDie k f s).fabric = { s.fabric with dies := tmod {} s.fabric.dies k f } := rfl
@[simp] theorem onDie_mem (k : Nat) (f : Die → Die) (s : State) :
    (onDie k f s).mem = s.mem := rfl
@[simp] theorem onDie_res (k : Nat) (f : Die → Die) (s : State) :
    (onDie k f s).res = s.res := rfl
@[simp] theorem onDie_disc (k : Nat) (f : Die → Die) (s : State) :
    (onDie k f s).disc = s.disc := rfl
@[simp] theorem onDie_mgmt (k : Nat) (f : Die → Die) (s : State) :
    (onDie k f s).mgmt = s.mgmt := rfl
@[simp] theorem onDie_out (k : Nat) (f : Die → Die) (s : State) :
    (onDie k f s).out = s.out := rfl
@[simp] theorem onDie_free (k : Nat) (f : Die → Die) (s : State) :
    (onDie k f s).free = s.free := rfl
@[simp] theorem onPort_pending (k : Nat) (f : Port → Port) (s : State) :
    (onPort k f s).pending = s.pending := rfl
@[simp] theorem onPort_power (k : Nat) (f : Port → Port) (s : State) :
    (onPort k f s).power = s.power := rfl
@[simp] theorem onPort_time (k : Nat) (f : Port → Port) (s : State) :
    (onPort k f s).time = s.time := rfl
@[simp] theorem onPort_host (k : Nat) (f : Port → Port) (s : State) :
    (onPort k f s).host = s.host := rfl
@[simp] theorem onPort_post (k : Nat) (f : Port → Port) (s : State) :
    (onPort k f s).post = s.post := rfl
@[simp] theorem onPort_rings (k : Nat) (f : Port → Port) (s : State) :
    (onPort k f s).rings = s.rings := rfl
@[simp] theorem onPort_xlat (k : Nat) (f : Port → Port) (s : State) :
    (onPort k f s).xlat = s.xlat := rfl
@[simp] theorem onPort_fabric (k : Nat) (f : Port → Port) (s : State) :
    (onPort k f s).fabric = { s.fabric with ports := tmod {} s.fabric.ports k f } := rfl
@[simp] theorem onPort_mem (k : Nat) (f : Port → Port) (s : State) :
    (onPort k f s).mem = s.mem := rfl
@[simp] theorem onPort_res (k : Nat) (f : Port → Port) (s : State) :
    (onPort k f s).res = s.res := rfl
@[simp] theorem onPort_disc (k : Nat) (f : Port → Port) (s : State) :
    (onPort k f s).disc = s.disc := rfl
@[simp] theorem onPort_mgmt (k : Nat) (f : Port → Port) (s : State) :
    (onPort k f s).mgmt = s.mgmt := rfl
@[simp] theorem onPort_out (k : Nat) (f : Port → Port) (s : State) :
    (onPort k f s).out = s.out := rfl
@[simp] theorem onPort_free (k : Nat) (f : Port → Port) (s : State) :
    (onPort k f s).free = s.free := rfl
@[simp] theorem onFrondPower_pending (k : Nat) (f : FrondPower → FrondPower) (s : State) :
    (onFrondPower k f s).pending = s.pending := rfl
@[simp] theorem onFrondPower_power (k : Nat) (f : FrondPower → FrondPower) (s : State) :
    (onFrondPower k f s).power = { s.power with fronds := tmod {} s.power.fronds k f } := rfl
@[simp] theorem onFrondPower_time (k : Nat) (f : FrondPower → FrondPower) (s : State) :
    (onFrondPower k f s).time = s.time := rfl
@[simp] theorem onFrondPower_host (k : Nat) (f : FrondPower → FrondPower) (s : State) :
    (onFrondPower k f s).host = s.host := rfl
@[simp] theorem onFrondPower_post (k : Nat) (f : FrondPower → FrondPower) (s : State) :
    (onFrondPower k f s).post = s.post := rfl
@[simp] theorem onFrondPower_rings (k : Nat) (f : FrondPower → FrondPower) (s : State) :
    (onFrondPower k f s).rings = s.rings := rfl
@[simp] theorem onFrondPower_xlat (k : Nat) (f : FrondPower → FrondPower) (s : State) :
    (onFrondPower k f s).xlat = s.xlat := rfl
@[simp] theorem onFrondPower_fabric (k : Nat) (f : FrondPower → FrondPower) (s : State) :
    (onFrondPower k f s).fabric = s.fabric := rfl
@[simp] theorem onFrondPower_mem (k : Nat) (f : FrondPower → FrondPower) (s : State) :
    (onFrondPower k f s).mem = s.mem := rfl
@[simp] theorem onFrondPower_res (k : Nat) (f : FrondPower → FrondPower) (s : State) :
    (onFrondPower k f s).res = s.res := rfl
@[simp] theorem onFrondPower_disc (k : Nat) (f : FrondPower → FrondPower) (s : State) :
    (onFrondPower k f s).disc = s.disc := rfl
@[simp] theorem onFrondPower_mgmt (k : Nat) (f : FrondPower → FrondPower) (s : State) :
    (onFrondPower k f s).mgmt = s.mgmt := rfl
@[simp] theorem onFrondPower_out (k : Nat) (f : FrondPower → FrondPower) (s : State) :
    (onFrondPower k f s).out = s.out := rfl
@[simp] theorem onFrondPower_free (k : Nat) (f : FrondPower → FrondPower) (s : State) :
    (onFrondPower k f s).free = s.free := rfl
@[simp] theorem onUnit_pending (k : Nat) (f : XUnit → XUnit) (s : State) :
    (onUnit k f s).pending = s.pending := rfl
@[simp] theorem onUnit_power (k : Nat) (f : XUnit → XUnit) (s : State) :
    (onUnit k f s).power = s.power := rfl
@[simp] theorem onUnit_time (k : Nat) (f : XUnit → XUnit) (s : State) :
    (onUnit k f s).time = s.time := rfl
@[simp] theorem onUnit_host (k : Nat) (f : XUnit → XUnit) (s : State) :
    (onUnit k f s).host = s.host := rfl
@[simp] theorem onUnit_post (k : Nat) (f : XUnit → XUnit) (s : State) :
    (onUnit k f s).post = s.post := rfl
@[simp] theorem onUnit_rings (k : Nat) (f : XUnit → XUnit) (s : State) :
    (onUnit k f s).rings = s.rings := rfl
@[simp] theorem onUnit_xlat (k : Nat) (f : XUnit → XUnit) (s : State) :
    (onUnit k f s).xlat = { s.xlat with units := tmod {} s.xlat.units k f } := rfl
@[simp] theorem onUnit_fabric (k : Nat) (f : XUnit → XUnit) (s : State) :
    (onUnit k f s).fabric = s.fabric := rfl
@[simp] theorem onUnit_mem (k : Nat) (f : XUnit → XUnit) (s : State) :
    (onUnit k f s).mem = s.mem := rfl
@[simp] theorem onUnit_res (k : Nat) (f : XUnit → XUnit) (s : State) :
    (onUnit k f s).res = s.res := rfl
@[simp] theorem onUnit_disc (k : Nat) (f : XUnit → XUnit) (s : State) :
    (onUnit k f s).disc = s.disc := rfl
@[simp] theorem onUnit_mgmt (k : Nat) (f : XUnit → XUnit) (s : State) :
    (onUnit k f s).mgmt = s.mgmt := rfl
@[simp] theorem onUnit_out (k : Nat) (f : XUnit → XUnit) (s : State) :
    (onUnit k f s).out = s.out := rfl
@[simp] theorem onUnit_free (k : Nat) (f : XUnit → XUnit) (s : State) :
    (onUnit k f s).free = s.free := rfl
@[simp] theorem onPh_pending (k : Nat) (f : Ph → Ph) (s : State) :
    (onPh k f s).pending = s.pending := rfl
@[simp] theorem onPh_power (k : Nat) (f : Ph → Ph) (s : State) :
    (onPh k f s).power = s.power := rfl
@[simp] theorem onPh_time (k : Nat) (f : Ph → Ph) (s : State) :
    (onPh k f s).time = s.time := rfl
@[simp] theorem onPh_host (k : Nat) (f : Ph → Ph) (s : State) :
    (onPh k f s).host = s.host := rfl
@[simp] theorem onPh_post (k : Nat) (f : Ph → Ph) (s : State) :
    (onPh k f s).post = s.post := rfl
@[simp] theorem onPh_rings (k : Nat) (f : Ph → Ph) (s : State) :
    (onPh k f s).rings = s.rings := rfl
@[simp] theorem onPh_xlat (k : Nat) (f : Ph → Ph) (s : State) :
    (onPh k f s).xlat = s.xlat := rfl
@[simp] theorem onPh_fabric (k : Nat) (f : Ph → Ph) (s : State) :
    (onPh k f s).fabric = s.fabric := rfl
@[simp] theorem onPh_mem (k : Nat) (f : Ph → Ph) (s : State) :
    (onPh k f s).mem = s.mem := rfl
@[simp] theorem onPh_res (k : Nat) (f : Ph → Ph) (s : State) :
    (onPh k f s).res = { s.res with phs := s.res.phs.map fun e => if e.1 = k then (k, f e.2) else e } := rfl
@[simp] theorem onPh_disc (k : Nat) (f : Ph → Ph) (s : State) :
    (onPh k f s).disc = s.disc := rfl
@[simp] theorem onPh_mgmt (k : Nat) (f : Ph → Ph) (s : State) :
    (onPh k f s).mgmt = s.mgmt := rfl
@[simp] theorem onPh_out (k : Nat) (f : Ph → Ph) (s : State) :
    (onPh k f s).out = s.out := rfl
@[simp] theorem onPh_free (k : Nat) (f : Ph → Ph) (s : State) :
    (onPh k f s).free = s.free := rfl
@[simp] theorem onLaunch_pending (k : Nat) (f : Launch → Launch) (s : State) :
    (onLaunch k f s).pending = s.pending := rfl
@[simp] theorem onLaunch_power (k : Nat) (f : Launch → Launch) (s : State) :
    (onLaunch k f s).power = s.power := rfl
@[simp] theorem onLaunch_time (k : Nat) (f : Launch → Launch) (s : State) :
    (onLaunch k f s).time = s.time := rfl
@[simp] theorem onLaunch_host (k : Nat) (f : Launch → Launch) (s : State) :
    (onLaunch k f s).host = s.host := rfl
@[simp] theorem onLaunch_post (k : Nat) (f : Launch → Launch) (s : State) :
    (onLaunch k f s).post = s.post := rfl
@[simp] theorem onLaunch_rings (k : Nat) (f : Launch → Launch) (s : State) :
    (onLaunch k f s).rings = s.rings := rfl
@[simp] theorem onLaunch_xlat (k : Nat) (f : Launch → Launch) (s : State) :
    (onLaunch k f s).xlat = s.xlat := rfl
@[simp] theorem onLaunch_fabric (k : Nat) (f : Launch → Launch) (s : State) :
    (onLaunch k f s).fabric = s.fabric := rfl
@[simp] theorem onLaunch_mem (k : Nat) (f : Launch → Launch) (s : State) :
    (onLaunch k f s).mem = s.mem := rfl
@[simp] theorem onLaunch_res (k : Nat) (f : Launch → Launch) (s : State) :
    (onLaunch k f s).res = { s.res with launches := s.res.launches.map fun e => if e.1 = k then (k, f e.2) else e } := rfl
@[simp] theorem onLaunch_disc (k : Nat) (f : Launch → Launch) (s : State) :
    (onLaunch k f s).disc = s.disc := rfl
@[simp] theorem onLaunch_mgmt (k : Nat) (f : Launch → Launch) (s : State) :
    (onLaunch k f s).mgmt = s.mgmt := rfl
@[simp] theorem onLaunch_out (k : Nat) (f : Launch → Launch) (s : State) :
    (onLaunch k f s).out = s.out := rfl
@[simp] theorem onLaunch_free (k : Nat) (f : Launch → Launch) (s : State) :
    (onLaunch k f s).free = s.free := rfl
@[simp] theorem onSteward_pending (k : Nat) (f : Steward → Steward) (s : State) :
    (onSteward k f s).pending = s.pending := rfl
@[simp] theorem onSteward_power (k : Nat) (f : Steward → Steward) (s : State) :
    (onSteward k f s).power = s.power := rfl
@[simp] theorem onSteward_time (k : Nat) (f : Steward → Steward) (s : State) :
    (onSteward k f s).time = s.time := rfl
@[simp] theorem onSteward_host (k : Nat) (f : Steward → Steward) (s : State) :
    (onSteward k f s).host = s.host := rfl
@[simp] theorem onSteward_post (k : Nat) (f : Steward → Steward) (s : State) :
    (onSteward k f s).post = s.post := rfl
@[simp] theorem onSteward_rings (k : Nat) (f : Steward → Steward) (s : State) :
    (onSteward k f s).rings = s.rings := rfl
@[simp] theorem onSteward_xlat (k : Nat) (f : Steward → Steward) (s : State) :
    (onSteward k f s).xlat = s.xlat := rfl
@[simp] theorem onSteward_fabric (k : Nat) (f : Steward → Steward) (s : State) :
    (onSteward k f s).fabric = s.fabric := rfl
@[simp] theorem onSteward_mem (k : Nat) (f : Steward → Steward) (s : State) :
    (onSteward k f s).mem = s.mem := rfl
@[simp] theorem onSteward_res (k : Nat) (f : Steward → Steward) (s : State) :
    (onSteward k f s).res = { s.res with stewards := tmod {} s.res.stewards k f } := rfl
@[simp] theorem onSteward_disc (k : Nat) (f : Steward → Steward) (s : State) :
    (onSteward k f s).disc = s.disc := rfl
@[simp] theorem onSteward_mgmt (k : Nat) (f : Steward → Steward) (s : State) :
    (onSteward k f s).mgmt = s.mgmt := rfl
@[simp] theorem onSteward_out (k : Nat) (f : Steward → Steward) (s : State) :
    (onSteward k f s).out = s.out := rfl
@[simp] theorem onSteward_free (k : Nat) (f : Steward → Steward) (s : State) :
    (onSteward k f s).free = s.free := rfl

/-! ### Reading a numbered part after an update of it -/

@[simp] theorem ringOf_onRing (k : Nat) (f : Ring → Ring) (s : State) : ringOf (onRing k f s) k = f (ringOf s k) := by
  simp [ringOf]
theorem ringOf_onRing_ne (k j : Nat) (f : Ring → Ring) (s : State) (h : j ≠ k) : ringOf (onRing k f s) j = ringOf s j := by
  simp [ringOf, tget_tmod_ne _ _ _ h]
@[simp] theorem fnOf_onFn (k : Nat) (f : Fn → Fn) (s : State) : fnOf (onFn k f s) k = f (fnOf s k) := by
  simp [fnOf]
theorem fnOf_onFn_ne (k j : Nat) (f : Fn → Fn) (s : State) (h : j ≠ k) : fnOf (onFn k f s) j = fnOf s j := by
  simp [fnOf, tget_tmod_ne _ _ _ h]
@[simp] theorem hostPortOf_onHostPort (k : Nat) (f : HostPort → HostPort) (s : State) : hostPortOf (onHostPort k f s) k = f (hostPortOf s k) := by
  simp [hostPortOf]
theorem hostPortOf_onHostPort_ne (k j : Nat) (f : HostPort → HostPort) (s : State) (h : j ≠ k) : hostPortOf (onHostPort k f s) j = hostPortOf s j := by
  simp [hostPortOf, tget_tmod_ne _ _ _ h]
@[simp] theorem lbOf_onLb (k : Nat) (f : Letterbox → Letterbox) (s : State) : lbOf (onLb k f s) k = f (lbOf s k) := by
  simp [lbOf]
theorem lbOf_onLb_ne (k j : Nat) (f : Letterbox → Letterbox) (s : State) (h : j ≠ k) : lbOf (onLb k f s) j = lbOf s j := by
  simp [lbOf, tget_tmod_ne _ _ _ h]
@[simp] theorem dieOf_onDie (k : Nat) (f : Die → Die) (s : State) : dieOf (onDie k f s) k = f (dieOf s k) := by
  simp [dieOf]
theorem dieOf_onDie_ne (k j : Nat) (f : Die → Die) (s : State) (h : j ≠ k) : dieOf (onDie k f s) j = dieOf s j := by
  simp [dieOf, tget_tmod_ne _ _ _ h]
@[simp] theorem portOf_onPort (k : Nat) (f : Port → Port) (s : State) : portOf (onPort k f s) k = f (portOf s k) := by
  simp [portOf]
theorem portOf_onPort_ne (k j : Nat) (f : Port → Port) (s : State) (h : j ≠ k) : portOf (onPort k f s) j = portOf s j := by
  simp [portOf, tget_tmod_ne _ _ _ h]
@[simp] theorem frondPowerOf_onFrondPower (k : Nat) (f : FrondPower → FrondPower) (s : State) : frondPowerOf (onFrondPower k f s) k = f (frondPowerOf s k) := by
  simp [frondPowerOf]
theorem frondPowerOf_onFrondPower_ne (k j : Nat) (f : FrondPower → FrondPower) (s : State) (h : j ≠ k) : frondPowerOf (onFrondPower k f s) j = frondPowerOf s j := by
  simp [frondPowerOf, tget_tmod_ne _ _ _ h]
@[simp] theorem unitOf_onUnit (k : Nat) (f : XUnit → XUnit) (s : State) : unitOf (onUnit k f s) k = f (unitOf s k) := by
  simp [unitOf]
theorem unitOf_onUnit_ne (k j : Nat) (f : XUnit → XUnit) (s : State) (h : j ≠ k) : unitOf (onUnit k f s) j = unitOf s j := by
  simp [unitOf, tget_tmod_ne _ _ _ h]
@[simp] theorem stewardOf_onSteward (k : Nat) (f : Steward → Steward) (s : State) : stewardOf (onSteward k f s) k = f (stewardOf s k) := by
  simp [stewardOf]
theorem stewardOf_onSteward_ne (k j : Nat) (f : Steward → Steward) (s : State) (h : j ≠ k) : stewardOf (onSteward k f s) j = stewardOf s j := by
  simp [stewardOf, tget_tmod_ne _ _ _ h]

end Sys2Proof.Laws
end

