-- ==== Sys2Proof/Laws/Memory.lean ====
section
/-! SUPPORT. Sparse byte stores: a read after a write, the canonical form and the operations that keep it, and frames of bytes in
a letterbox. -/

namespace Sys2Proof.Laws

open Sys2Proof.Machine

/-! ### Rising keys -/

theorem tsorted_cons {α : Type} (j : Nat) (v : α) (t : Tab α) :
    tsorted ((j, v) :: t) = true ↔ (∀ e ∈ t, j < e.1) ∧ tsorted t = true := by
  induction t generalizing j v with
  | nil => simp [tsorted]
  | cons e t ih =>
    obtain ⟨k, w⟩ := e
    have h := ih k w
    simp only [tsorted, Bool.and_eq_true, decide_eq_true_eq, List.mem_cons, forall_eq_or_imp, h]
    constructor
    · rintro ⟨hjk, hk, ht⟩
      exact ⟨⟨hjk, fun e he => Nat.lt_trans hjk (hk e he)⟩, hk, ht⟩
    · rintro ⟨⟨hjk, _⟩, hk, ht⟩
      exact ⟨hjk, hk, ht⟩

theorem mem_tset {α : Type} {t : Tab α} {k : Nat} {v : α} {e : Nat × α} (h : e ∈ tset t k v) : e = (k, v) ∨ e ∈ t := by
  induction t with
  | nil => simpa [tset] using h
  | cons a t ih =>
    obtain ⟨j, w⟩ := a
    unfold tset at h
    split at h
    · simpa using h
    · split at h
      · rcases List.mem_cons.1 h with h | h
        · exact .inl h
        · exact .inr (List.mem_cons_of_mem _ h)
      · rcases List.mem_cons.1 h with h | h
        · exact .inr (by simp [h])
        · exact (ih h).imp id (List.mem_cons_of_mem _)

theorem mem_terase {α : Type} {t : Tab α} {k : Nat} {e : Nat × α} (h : e ∈ terase t k) : e ∈ t := by
  induction t with
  | nil => simp [terase] at h
  | cons a t ih =>
    obtain ⟨j, w⟩ := a
    unfold terase at h
    split at h
    · exact List.mem_cons_of_mem _ (ih h)
    · rcases List.mem_cons.1 h with h | h
      · simp [h]
      · exact List.mem_cons_of_mem _ (ih h)

theorem tsorted_tset {α : Type} (t : Tab α) (k : Nat) (v : α) (h : tsorted t = true) : tsorted (tset t k v) = true := by
  induction t with
  | nil => rfl
  | cons a t ih =>
    obtain ⟨j, w⟩ := a
    rw [tsorted_cons] at h
    unfold tset
    split
    · rename_i hk
      rw [tsorted_cons, tsorted_cons]
      refine ⟨fun e he => ?_, h⟩
      rcases List.mem_cons.1 he with he | he
      · simpa [he] using hk
      · exact Nat.lt_trans hk (h.1 e he)
    · split
      · rename_i hk
        subst hk
        rw [tsorted_cons]
        exact h
      · rename_i h1 h2
        rw [tsorted_cons]
        refine ⟨fun e he => ?_, ih h.2⟩
        rcases mem_tset he with he | he
        · simp only [he]; omega
        · exact h.1 e he

theorem tsorted_terase {α : Type} (t : Tab α) (k : Nat) (h : tsorted t = true) : tsorted (terase t k) = true := by
  induction t with
  | nil => rfl
  | cons a t ih =>
    obtain ⟨j, w⟩ := a
    rw [tsorted_cons] at h
    unfold terase
    split
    · exact ih h.2
    · rw [tsorted_cons]
      exact ⟨fun e he => h.1 e (mem_terase he), ih h.2⟩

theorem tget_terase {α : Type} (d : α) (t : Tab α) (k j : Nat) :
    tget d (terase t k) j = if j = k then d else tget d t j := by
  induction t with
  | nil => simp [terase, tget]
  | cons a t ih =>
    obtain ⟨i, w⟩ := a
    unfold terase
    split
    · rename_i hi
      subst hi
      by_cases hj : j = i
      · subst hj; simpa using ih
      · simp [tget, ih, hj, Ne.symm hj]
    · rename_i hi
      by_cases hj : i = j
      · subst hj; simp [tget, hi]
      · simp [tget, hj, ih]

theorem tfind_terase_self {α : Type} (t : Tab α) (k : Nat) : tfind (terase t k) k = none := by
  induction t with
  | nil => rfl
  | cons a t ih =>
    obtain ⟨i, w⟩ := a
    unfold terase
    split
    · exact ih
    · rename_i hi; simp [tfind, hi, ih]

/-- A read after a write in canonical form. -/
theorem tget_tput {α : Type} [DecidableEq α] (d : α) (t : Tab α) (k j : Nat) (v : α) :
    tget d (tput d t k v) j = if j = k then v else tget d t j := by
  unfold tput
  split
  · rename_i hv
    rw [tget_terase d t k j, hv]
  · split
    · rename_i hj; subst hj; simp
    · rename_i hj; exact tget_tset_ne d t v hj

theorem tsorted_tput {α : Type} [DecidableEq α] (d : α) (t : Tab α) (k : Nat) (v : α) (h : tsorted t = true) :
    tsorted (tput d t k v) = true := by
  unfold tput
  split
  · exact tsorted_terase t k h
  · exact tsorted_tset t k v h

theorem tsorted_filter {α : Type} (t : Tab α) (p : Nat × α → Bool) (h : tsorted t = true) : tsorted (t.filter p) = true := by
  induction t with
  | nil => rfl
  | cons a t ih =>
    obtain ⟨j, w⟩ := a
    rw [tsorted_cons] at h
    rw [List.filter_cons]
    split
    · rw [tsorted_cons]
      exact ⟨fun e he => h.1 e (List.mem_filter.1 he).1, ih h.2⟩
    · exact ih h.2

/-! ### Memory -/

/-- Storing one byte keeps the canonical form. -/
theorem put_wf (m : Memory) (k : Nat) (b : Byte) (h : m.wf = true) : (m.put k b).wf = true := by
  simp only [Memory.wf, Memory.put, Bool.and_eq_true, List.all_eq_true, decide_eq_true_eq] at *
  refine ⟨tsorted_tput 0 _ k b h.1, fun c hc => ?_⟩
  unfold tput at hc
  split at hc
  · exact h.2 c (mem_terase hc)
  · rename_i hb
    rcases mem_tset hc with hc | hc
    · simpa [hc] using hb
    · exact h.2 c hc

theorem putBytes_wf (m : Memory) (k : Nat) (bs : List Byte) (h : m.wf = true) : (m.putBytes k bs).wf = true := by
  induction bs generalizing m k with
  | nil => exact h
  | cons b t ih => exact ih (m.put k b) (k + 1) (put_wf m k b h)

theorem get_put (m : Memory) (k j : Nat) (b : Byte) : (m.put k b).get j = if j = k then b else m.get j :=
  tget_tput 0 m.cells k j b

/-- A store of bytes is read back at its addresses and leaves every other byte alone. -/
theorem get_putBytes (m : Memory) (k j : Nat) (bs : List Byte) :
    (m.putBytes k bs).get j = if k ≤ j ∧ j < k + bs.length then bs.getD (j - k) 0 else m.get j := by
  induction bs generalizing m k with
  | nil => simp only [Memory.putBytes, List.length_nil]; rw [if_neg (by omega)]
  | cons b t ih =>
    simp only [Memory.putBytes]
    rw [ih (m.put k b) (k + 1), get_put m k j b]
    by_cases hj : j = k
    · subst hj
      rw [if_neg (by omega), if_pos rfl, if_pos (by simp)]
      simp
    · by_cases hin : k + 1 ≤ j ∧ j < k + 1 + t.length
      · rw [if_pos hin, if_pos (by simp only [List.length_cons]; omega)]
        have : j - k = (j - (k + 1)) + 1 := by omega
        simp [this]
      · rw [if_neg hin, if_neg hj, if_neg (by simp only [List.length_cons]; omega)]

/-- Clearing a range of addresses, and what stands outside it. -/
theorem zeroRange_wf (lo hi : Nat) (s : State) (h : s.mem.wf = true) : (zeroRange lo hi s).mem.wf = true := by
  simp only [zeroRange, onMem_mem, Memory.wf, Bool.and_eq_true, List.all_eq_true] at *
  exact ⟨tsorted_filter _ _ h.1, fun c hc => h.2 c (List.mem_filter.1 hc).1⟩

@[simp] theorem setMark_cells (w : Nat) (k : WordMark) (s : State) : (setMark w k s).mem.cells = s.mem.cells := rfl
@[simp] theorem clearMark_cells (w : Nat) (s : State) : (clearMark w s).mem.cells = s.mem.cells := rfl

/-- The canonical form is a matter of the cells alone. -/
theorem wf_of_cells {m n : Memory} (h : m.cells = n.cells) : m.wf = n.wf := by simp [Memory.wf, h]

theorem reset_wf : State.reset.mem.wf = true := rfl

/-! ### Frames of bytes -/

theorem tsorted_putTab (t : Tab Byte) (off : Nat) (bs : List Byte) (h : tsorted t = true) : tsorted (putTab t off bs) = true := by
  induction bs generalizing t off with
  | nil => exact h
  | cons b bs ih => exact ih _ _ (tsorted_tput 0 t off b h)

theorem tget_putTab (t : Tab Byte) (off j : Nat) (bs : List Byte) :
    tget 0 (putTab t off bs) j = if off ≤ j ∧ j < off + bs.length then bs.getD (j - off) 0 else tget 0 t j := by
  induction bs generalizing t off with
  | nil => simp only [putTab, List.length_nil]; rw [if_neg (by omega)]
  | cons b t' ih =>
    simp only [putTab]
    rw [ih _ (off + 1), tget_tput 0 t off j b]
    by_cases hj : j = off
    · subst hj
      rw [if_neg (by omega), if_pos rfl, if_pos (by simp)]
      simp
    · by_cases hin : off + 1 ≤ j ∧ j < off + 1 + t'.length
      · rw [if_pos hin, if_pos (by simp only [List.length_cons]; omega)]
        have : j - off = (j - (off + 1)) + 1 := by omega
        simp [this]
      · rw [if_neg hin, if_neg hj, if_neg (by simp only [List.length_cons]; omega)]

/-- What a frame written from its start reads back as. -/
theorem tabBytes_putTab (bs : List Byte) (off n : Nat) :
    tabBytes (putTab [] 0 bs) off n = (List.range n).map fun i => bs.getD (off + i) 0 := by
  unfold tabBytes
  apply List.map_congr_left
  intro i _
  rw [tget_putTab [] 0 (off + i) bs]
  by_cases h : off + i < bs.length
  · rw [if_pos ⟨Nat.zero_le _, by omega⟩]; simp
  · rw [if_neg (by omega)]
    simp [tget, List.getElem?_eq_none (by omega : bs.length ≤ off + i)]

end Sys2Proof.Laws
end

