-- ==== Sys2Proof/Laws/Ops.lean ====
section
/-! SUPPORT. What the shared operations can do: the parts of the state that events, records, counters, messages and results
leave alone, and what they change. -/

namespace Sys2Proof.Laws

open Sys2Proof.Machine

/-! ### Updates under a condition -/

@[simp] theorem countMgmt_pending (i : Nat) (s : State) : (countMgmt i s).pending = s.pending := by simp [countMgmt]
@[simp] theorem countMgmt_power (i : Nat) (s : State) : (countMgmt i s).power = s.power := by simp [countMgmt]
@[simp] theorem countMgmt_time (i : Nat) (s : State) : (countMgmt i s).time = s.time := by simp [countMgmt]
@[simp] theorem countMgmt_host (i : Nat) (s : State) : (countMgmt i s).host = s.host := by simp [countMgmt]
@[simp] theorem countMgmt_post (i : Nat) (s : State) : (countMgmt i s).post = s.post := by simp [countMgmt]
@[simp] theorem countMgmt_rings (i : Nat) (s : State) : (countMgmt i s).rings = s.rings := by simp [countMgmt]
@[simp] theorem countMgmt_xlat (i : Nat) (s : State) : (countMgmt i s).xlat = s.xlat := by simp [countMgmt]
@[simp] theorem countMgmt_fabric (i : Nat) (s : State) : (countMgmt i s).fabric = s.fabric := by simp [countMgmt]
@[simp] theorem countMgmt_mem (i : Nat) (s : State) : (countMgmt i s).mem = s.mem := by simp [countMgmt]
@[simp] theorem countMgmt_res (i : Nat) (s : State) : (countMgmt i s).res = s.res := by simp [countMgmt]
@[simp] theorem countMgmt_disc (i : Nat) (s : State) : (countMgmt i s).disc = s.disc := by simp [countMgmt]
@[simp] theorem countMgmt_out (i : Nat) (s : State) : (countMgmt i s).out = s.out := by simp [countMgmt]
@[simp] theorem countMgmt_free (i : Nat) (s : State) : (countMgmt i s).free = s.free := by simp [countMgmt]

/-! ### PLDM events and the journal -/

@[simp] theorem pldmRaise_pending (b : List Byte) (s : State) : (pldmRaise b s).pending = s.pending := by 
  unfold pldmRaise Machine.when; split <;> simp
@[simp] theorem pldmRaise_power (b : List Byte) (s : State) : (pldmRaise b s).power = s.power := by 
  unfold pldmRaise Machine.when; split <;> simp
@[simp] theorem pldmRaise_time (b : List Byte) (s : State) : (pldmRaise b s).time = s.time := by 
  unfold pldmRaise Machine.when; split <;> simp
@[simp] theorem pldmRaise_host (b : List Byte) (s : State) : (pldmRaise b s).host = s.host := by 
  unfold pldmRaise Machine.when; split <;> simp
@[simp] theorem pldmRaise_post (b : List Byte) (s : State) : (pldmRaise b s).post = s.post := by 
  unfold pldmRaise Machine.when; split <;> simp
@[simp] theorem pldmRaise_rings (b : List Byte) (s : State) : (pldmRaise b s).rings = s.rings := by 
  unfold pldmRaise Machine.when; split <;> simp
@[simp] theorem pldmRaise_xlat (b : List Byte) (s : State) : (pldmRaise b s).xlat = s.xlat := by 
  unfold pldmRaise Machine.when; split <;> simp
@[simp] theorem pldmRaise_fabric (b : List Byte) (s : State) : (pldmRaise b s).fabric = s.fabric := by 
  unfold pldmRaise Machine.when; split <;> simp
@[simp] theorem pldmRaise_mem (b : List Byte) (s : State) : (pldmRaise b s).mem = s.mem := by 
  unfold pldmRaise Machine.when; split <;> simp
@[simp] theorem pldmRaise_res (b : List Byte) (s : State) : (pldmRaise b s).res = s.res := by 
  unfold pldmRaise Machine.when; split <;> simp
@[simp] theorem pldmRaise_disc (b : List Byte) (s : State) : (pldmRaise b s).disc = s.disc := by 
  unfold pldmRaise Machine.when; split <;> simp
@[simp] theorem pldmRaise_free (b : List Byte) (s : State) : (pldmRaise b s).free = s.free := by 
  unfold pldmRaise Machine.when; split <;> simp
@[simp] theorem putRecord_pending (r : JRec) (s : State) : (putRecord r s).pending = s.pending := rfl
@[simp] theorem putRecord_power (r : JRec) (s : State) : (putRecord r s).power = s.power := rfl
@[simp] theorem putRecord_time (r : JRec) (s : State) : (putRecord r s).time = s.time := rfl
@[simp] theorem putRecord_host (r : JRec) (s : State) : (putRecord r s).host = s.host := rfl
@[simp] theorem putRecord_rings (r : JRec) (s : State) : (putRecord r s).rings = s.rings := rfl
@[simp] theorem putRecord_xlat (r : JRec) (s : State) : (putRecord r s).xlat = s.xlat := rfl
@[simp] theorem putRecord_fabric (r : JRec) (s : State) : (putRecord r s).fabric = s.fabric := rfl
@[simp] theorem putRecord_mem (r : JRec) (s : State) : (putRecord r s).mem = s.mem := rfl
@[simp] theorem putRecord_res (r : JRec) (s : State) : (putRecord r s).res = s.res := rfl
@[simp] theorem putRecord_disc (r : JRec) (s : State) : (putRecord r s).disc = s.disc := rfl
@[simp] theorem putRecord_mgmt (r : JRec) (s : State) : (putRecord r s).mgmt = s.mgmt := rfl
@[simp] theorem putRecord_out (r : JRec) (s : State) : (putRecord r s).out = s.out := rfl
@[simp] theorem putRecord_free (r : JRec) (s : State) : (putRecord r s).free = s.free := rfl
@[simp] theorem journalFrom_pending (pc : Postcode) (c k p : Nat) (e : Bool) (fs : List Fld) (s : State) : (journalFrom pc c k p e fs s).pending = s.pending := by 
  unfold journalFrom; cases e <;> simp
@[simp] theorem journalFrom_power (pc : Postcode) (c k p : Nat) (e : Bool) (fs : List Fld) (s : State) : (journalFrom pc c k p e fs s).power = s.power := by 
  unfold journalFrom; cases e <;> simp
@[simp] theorem journalFrom_time (pc : Postcode) (c k p : Nat) (e : Bool) (fs : List Fld) (s : State) : (journalFrom pc c k p e fs s).time = s.time := by 
  unfold journalFrom; cases e <;> simp
@[simp] theorem journalFrom_rings (pc : Postcode) (c k p : Nat) (e : Bool) (fs : List Fld) (s : State) : (journalFrom pc c k p e fs s).rings = s.rings := by 
  unfold journalFrom; cases e <;> simp
@[simp] theorem journalFrom_xlat (pc : Postcode) (c k p : Nat) (e : Bool) (fs : List Fld) (s : State) : (journalFrom pc c k p e fs s).xlat = s.xlat := by 
  unfold journalFrom; cases e <;> simp
@[simp] theorem journalFrom_fabric (pc : Postcode) (c k p : Nat) (e : Bool) (fs : List Fld) (s : State) : (journalFrom pc c k p e fs s).fabric = s.fabric := by 
  unfold journalFrom; cases e <;> simp
@[simp] theorem journalFrom_mem (pc : Postcode) (c k p : Nat) (e : Bool) (fs : List Fld) (s : State) : (journalFrom pc c k p e fs s).mem = s.mem := by 
  unfold journalFrom; cases e <;> simp
@[simp] theorem journalFrom_res (pc : Postcode) (c k p : Nat) (e : Bool) (fs : List Fld) (s : State) : (journalFrom pc c k p e fs s).res = s.res := by 
  unfold journalFrom; cases e <;> simp
@[simp] theorem journalFrom_disc (pc : Postcode) (c k p : Nat) (e : Bool) (fs : List Fld) (s : State) : (journalFrom pc c k p e fs s).disc = s.disc := by 
  unfold journalFrom; cases e <;> simp
@[simp] theorem journalFrom_free (pc : Postcode) (c k p : Nat) (e : Bool) (fs : List Fld) (s : State) : (journalFrom pc c k p e fs s).free = s.free := by 
  unfold journalFrom; cases e <;> simp
@[simp] theorem journal_pending (c k p : Nat) (e : Bool) (fs : List Fld) (s : State) : (journal c k p e fs s).pending = s.pending := by simp [journal]
@[simp] theorem journal_power (c k p : Nat) (e : Bool) (fs : List Fld) (s : State) : (journal c k p e fs s).power = s.power := by simp [journal]
@[simp] theorem journal_time (c k p : Nat) (e : Bool) (fs : List Fld) (s : State) : (journal c k p e fs s).time = s.time := by simp [journal]
@[simp] theorem journal_rings (c k p : Nat) (e : Bool) (fs : List Fld) (s : State) : (journal c k p e fs s).rings = s.rings := by simp [journal]
@[simp] theorem journal_xlat (c k p : Nat) (e : Bool) (fs : List Fld) (s : State) : (journal c k p e fs s).xlat = s.xlat := by simp [journal]
@[simp] theorem journal_fabric (c k p : Nat) (e : Bool) (fs : List Fld) (s : State) : (journal c k p e fs s).fabric = s.fabric := by simp [journal]
@[simp] theorem journal_mem (c k p : Nat) (e : Bool) (fs : List Fld) (s : State) : (journal c k p e fs s).mem = s.mem := by simp [journal]
@[simp] theorem journal_res (c k p : Nat) (e : Bool) (fs : List Fld) (s : State) : (journal c k p e fs s).res = s.res := by simp [journal]
@[simp] theorem journal_disc (c k p : Nat) (e : Bool) (fs : List Fld) (s : State) : (journal c k p e fs s).disc = s.disc := by simp [journal]
@[simp] theorem journal_free (c k p : Nat) (e : Bool) (fs : List Fld) (s : State) : (journal c k p e fs s).free = s.free := by simp [journal]
@[simp] theorem journalRule_pending (a k p : Nat) (e : Bool) (r : Nat) (fs : List Fld) (s : State) : (journalRule a k p e r fs s).pending = s.pending := by simp [journalRule]
@[simp] theorem journalRule_power (a k p : Nat) (e : Bool) (r : Nat) (fs : List Fld) (s : State) : (journalRule a k p e r fs s).power = s.power := by simp [journalRule]
@[simp] theorem journalRule_time (a k p : Nat) (e : Bool) (r : Nat) (fs : List Fld) (s : State) : (journalRule a k p e r fs s).time = s.time := by simp [journalRule]
@[simp] theorem journalRule_rings (a k p : Nat) (e : Bool) (r : Nat) (fs : List Fld) (s : State) : (journalRule a k p e r fs s).rings = s.rings := by simp [journalRule]
@[simp] theorem journalRule_xlat (a k p : Nat) (e : Bool) (r : Nat) (fs : List Fld) (s : State) : (journalRule a k p e r fs s).xlat = s.xlat := by simp [journalRule]
@[simp] theorem journalRule_fabric (a k p : Nat) (e : Bool) (r : Nat) (fs : List Fld) (s : State) : (journalRule a k p e r fs s).fabric = s.fabric := by simp [journalRule]
@[simp] theorem journalRule_mem (a k p : Nat) (e : Bool) (r : Nat) (fs : List Fld) (s : State) : (journalRule a k p e r fs s).mem = s.mem := by simp [journalRule]
@[simp] theorem journalRule_res (a k p : Nat) (e : Bool) (r : Nat) (fs : List Fld) (s : State) : (journalRule a k p e r fs s).res = s.res := by simp [journalRule]
@[simp] theorem journalRule_disc (a k p : Nat) (e : Bool) (r : Nat) (fs : List Fld) (s : State) : (journalRule a k p e r fs s).disc = s.disc := by simp [journalRule]
@[simp] theorem journalRule_free (a k p : Nat) (e : Bool) (r : Nat) (fs : List Fld) (s : State) : (journalRule a k p e r fs s).free = s.free := by simp [journalRule]
/-- A record changes nothing of the postmaster but the journal. -/
theorem journalFrom_post (pc : Postcode) (c k p : Nat) (e : Bool) (fs : List Fld) (s : State) :
    ∃ j, (journalFrom pc c k p e fs s).post = { s.post with journal := j } := by
  unfold journalFrom
  cases e
  · exact ⟨_, rfl⟩
  · exact ⟨_, by simp only [if_true, onHost_post, pldmRaise_post]; rfl⟩

@[simp] theorem journalFrom_lbs (pc : Postcode) (c k p : Nat) (e : Bool) (fs : List Fld) (s : State) :
    (journalFrom pc c k p e fs s).post.lbs = s.post.lbs := by
  obtain ⟨j, h⟩ := journalFrom_post pc c k p e fs s
  rw [h]

@[simp] theorem journal_lbs (c k p : Nat) (e : Bool) (fs : List Fld) (s : State) :
    (journal c k p e fs s).post.lbs = s.post.lbs := by simp [journal]

/-- A record changes nothing of the host side but the module events. -/
@[simp] theorem journalFrom_fns (pc : Postcode) (c k p : Nat) (e : Bool) (fs : List Fld) (s : State) :
    (journalFrom pc c k p e fs s).host.fns = s.host.fns := by
  unfold journalFrom; cases e <;> simp

@[simp] theorem journalFrom_ports (pc : Postcode) (c k p : Nat) (e : Bool) (fs : List Fld) (s : State) :
    (journalFrom pc c k p e fs s).host.ports = s.host.ports := by
  unfold journalFrom; cases e <;> simp

@[simp] theorem journal_fns (c k p : Nat) (e : Bool) (fs : List Fld) (s : State) :
    (journal c k p e fs s).host.fns = s.host.fns := by simp [journal]

/-- The index of the next record rises by one with every record (R405). -/
@[simp] theorem appendRecord_next (mk : Nat → JRec) (j : Journal) (w : Bool) : (appendRecord mk j w).next = j.next + 1 := by
  simp only [appendRecord]; split <;> rfl

@[simp] theorem journalFrom_next (pc : Postcode) (c k p : Nat) (e : Bool) (fs : List Fld) (s : State) :
    (journalFrom pc c k p e fs s).post.journal.next = s.post.journal.next + 1 := by
  have h : ∀ r, (putRecord r s).post.journal.next = s.post.journal.next + 1 := fun r => by simp [putRecord]
  unfold journalFrom; cases e <;> simp [h]

@[simp] theorem journal_next (c k p : Nat) (e : Bool) (fs : List Fld) (s : State) :
    (journal c k p e fs s).post.journal.next = s.post.journal.next + 1 := by simp [journal]

/-! ### Messages and events of functions -/

@[simp] theorem msix_pending (k v : Nat) (s : State) : (msix k v s).pending = s.pending := by simp [msix]
@[simp] theorem msix_power (k v : Nat) (s : State) : (msix k v s).power = s.power := by simp [msix]
@[simp] theorem msix_time (k v : Nat) (s : State) : (msix k v s).time = s.time := by simp [msix]
@[simp] theorem msix_post (k v : Nat) (s : State) : (msix k v s).post = s.post := by simp [msix]
@[simp] theorem msix_rings (k v : Nat) (s : State) : (msix k v s).rings = s.rings := by simp [msix]
@[simp] theorem msix_xlat (k v : Nat) (s : State) : (msix k v s).xlat = s.xlat := by simp [msix]
@[simp] theorem msix_fabric (k v : Nat) (s : State) : (msix k v s).fabric = s.fabric := by simp [msix]
@[simp] theorem msix_mem (k v : Nat) (s : State) : (msix k v s).mem = s.mem := by simp [msix]
@[simp] theorem msix_res (k v : Nat) (s : State) : (msix k v s).res = s.res := by simp [msix]
@[simp] theorem msix_disc (k v : Nat) (s : State) : (msix k v s).disc = s.disc := by simp [msix]
@[simp] theorem msix_mgmt (k v : Nat) (s : State) : (msix k v s).mgmt = s.mgmt := by simp [msix]
@[simp] theorem msix_free (k v : Nat) (s : State) : (msix k v s).free = s.free := by simp [msix]
@[simp] theorem fnEvent_pending (k b : Nat) (s : State) : (fnEvent k b s).pending = s.pending := by simp [fnEvent]
@[simp] theorem fnEvent_power (k b : Nat) (s : State) : (fnEvent k b s).power = s.power := by simp [fnEvent]
@[simp] theorem fnEvent_time (k b : Nat) (s : State) : (fnEvent k b s).time = s.time := by simp [fnEvent]
@[simp] theorem fnEvent_post (k b : Nat) (s : State) : (fnEvent k b s).post = s.post := by simp [fnEvent]
@[simp] theorem fnEvent_rings (k b : Nat) (s : State) : (fnEvent k b s).rings = s.rings := by simp [fnEvent]
@[simp] theorem fnEvent_xlat (k b : Nat) (s : State) : (fnEvent k b s).xlat = s.xlat := by simp [fnEvent]
@[simp] theorem fnEvent_fabric (k b : Nat) (s : State) : (fnEvent k b s).fabric = s.fabric := by simp [fnEvent]
@[simp] theorem fnEvent_mem (k b : Nat) (s : State) : (fnEvent k b s).mem = s.mem := by simp [fnEvent]
@[simp] theorem fnEvent_res (k b : Nat) (s : State) : (fnEvent k b s).res = s.res := by simp [fnEvent]
@[simp] theorem fnEvent_disc (k b : Nat) (s : State) : (fnEvent k b s).disc = s.disc := by simp [fnEvent]
@[simp] theorem fnEvent_mgmt (k b : Nat) (s : State) : (fnEvent k b s).mgmt = s.mgmt := by simp [fnEvent]
@[simp] theorem fnEvent_free (k b : Nat) (s : State) : (fnEvent k b s).free = s.free := by simp [fnEvent]
@[simp] theorem modEvent_pending (b : Nat) (s : State) : (modEvent b s).pending = s.pending := by simp [modEvent]
@[simp] theorem modEvent_power (b : Nat) (s : State) : (modEvent b s).power = s.power := by simp [modEvent]
@[simp] theorem modEvent_time (b : Nat) (s : State) : (modEvent b s).time = s.time := by simp [modEvent]
@[simp] theorem modEvent_post (b : Nat) (s : State) : (modEvent b s).post = s.post := by simp [modEvent]
@[simp] theorem modEvent_rings (b : Nat) (s : State) : (modEvent b s).rings = s.rings := by simp [modEvent]
@[simp] theorem modEvent_xlat (b : Nat) (s : State) : (modEvent b s).xlat = s.xlat := by simp [modEvent]
@[simp] theorem modEvent_fabric (b : Nat) (s : State) : (modEvent b s).fabric = s.fabric := by simp [modEvent]
@[simp] theorem modEvent_mem (b : Nat) (s : State) : (modEvent b s).mem = s.mem := by simp [modEvent]
@[simp] theorem modEvent_res (b : Nat) (s : State) : (modEvent b s).res = s.res := by simp [modEvent]
@[simp] theorem modEvent_disc (b : Nat) (s : State) : (modEvent b s).disc = s.disc := by simp [modEvent]
@[simp] theorem modEvent_mgmt (b : Nat) (s : State) : (modEvent b s).mgmt = s.mgmt := by simp [modEvent]
@[simp] theorem modEvent_out (b : Nat) (s : State) : (modEvent b s).out = s.out := by simp [modEvent]
@[simp] theorem modEvent_free (b : Nat) (s : State) : (modEvent b s).free = s.free := by simp [modEvent]
@[simp] theorem aer_pending (port cls code : Nat) (s : State) : (aer port cls code s).pending = s.pending := by simp [aer]
@[simp] theorem aer_power (port cls code : Nat) (s : State) : (aer port cls code s).power = s.power := by simp [aer]
@[simp] theorem aer_time (port cls code : Nat) (s : State) : (aer port cls code s).time = s.time := by simp [aer]
@[simp] theorem aer_rings (port cls code : Nat) (s : State) : (aer port cls code s).rings = s.rings := by simp [aer]
@[simp] theorem aer_xlat (port cls code : Nat) (s : State) : (aer port cls code s).xlat = s.xlat := by simp [aer]
@[simp] theorem aer_fabric (port cls code : Nat) (s : State) : (aer port cls code s).fabric = s.fabric := by simp [aer]
@[simp] theorem aer_mem (port cls code : Nat) (s : State) : (aer port cls code s).mem = s.mem := by simp [aer]
@[simp] theorem aer_res (port cls code : Nat) (s : State) : (aer port cls code s).res = s.res := by simp [aer]
@[simp] theorem aer_disc (port cls code : Nat) (s : State) : (aer port cls code s).disc = s.disc := by simp [aer]
@[simp] theorem aer_free (port cls code : Nat) (s : State) : (aer port cls code s).free = s.free := by simp [aer]
/-- A message changes of a function only its vectors, its withheld state and its counts (R96). -/
theorem fnOf_msix (k v : Nat) (s : State) (j : Nat) : ∃ vs i w n,
    fnOf (msix k v s) j = { fnOf s j with vectors := vs, intStatus := i, withheld := w, sent := n } := by
  unfold msix
  dsimp only
  by_cases hj : j = k
  · subst hj
    split
    · exact ⟨_, _, _, _, rfl⟩
    · split <;> simp only [fnOf, emit_host, onFn_host, tget_tmod_self] <;> exact ⟨_, _, _, _, rfl⟩
  · refine ⟨(fnOf s j).vectors, (fnOf s j).intStatus, (fnOf s j).withheld, (fnOf s j).sent, ?_⟩
    split
    · rfl
    · split <;> simp only [fnOf, emit_host, onFn_host, tget_tmod_ne _ _ _ hj]


/-! ### Counters of a die -/

@[simp] theorem countDie_pending (d i n : Nat) (s : State) : (countDie d i n s).pending = s.pending := by simp [countDie]
@[simp] theorem countDie_power (d i n : Nat) (s : State) : (countDie d i n s).power = s.power := by simp [countDie]
@[simp] theorem countDie_time (d i n : Nat) (s : State) : (countDie d i n s).time = s.time := by simp [countDie]
@[simp] theorem countDie_host (d i n : Nat) (s : State) : (countDie d i n s).host = s.host := by simp [countDie]
@[simp] theorem countDie_post (d i n : Nat) (s : State) : (countDie d i n s).post = s.post := by simp [countDie]
@[simp] theorem countDie_rings (d i n : Nat) (s : State) : (countDie d i n s).rings = s.rings := by simp [countDie]
@[simp] theorem countDie_xlat (d i n : Nat) (s : State) : (countDie d i n s).xlat = s.xlat := by simp [countDie]
@[simp] theorem countDie_mem (d i n : Nat) (s : State) : (countDie d i n s).mem = s.mem := by simp [countDie]
@[simp] theorem countDie_res (d i n : Nat) (s : State) : (countDie d i n s).res = s.res := by simp [countDie]
@[simp] theorem countDie_disc (d i n : Nat) (s : State) : (countDie d i n s).disc = s.disc := by simp [countDie]
@[simp] theorem countDie_mgmt (d i n : Nat) (s : State) : (countDie d i n s).mgmt = s.mgmt := by simp [countDie]
@[simp] theorem countDie_out (d i n : Nat) (s : State) : (countDie d i n s).out = s.out := by simp [countDie]
@[simp] theorem countDie_free (d i n : Nat) (s : State) : (countDie d i n s).free = s.free := by simp [countDie]
@[simp] theorem countEcc_pending (d i n : Nat) (s : State) : (countEcc d i n s).pending = s.pending := by simp [countEcc]
@[simp] theorem countEcc_power (d i n : Nat) (s : State) : (countEcc d i n s).power = s.power := by simp [countEcc]
@[simp] theorem countEcc_time (d i n : Nat) (s : State) : (countEcc d i n s).time = s.time := by simp [countEcc]
@[simp] theorem countEcc_host (d i n : Nat) (s : State) : (countEcc d i n s).host = s.host := by simp [countEcc]
@[simp] theorem countEcc_post (d i n : Nat) (s : State) : (countEcc d i n s).post = s.post := by simp [countEcc]
@[simp] theorem countEcc_rings (d i n : Nat) (s : State) : (countEcc d i n s).rings = s.rings := by simp [countEcc]
@[simp] theorem countEcc_xlat (d i n : Nat) (s : State) : (countEcc d i n s).xlat = s.xlat := by simp [countEcc]
@[simp] theorem countEcc_mem (d i n : Nat) (s : State) : (countEcc d i n s).mem = s.mem := by simp [countEcc]
@[simp] theorem countEcc_res (d i n : Nat) (s : State) : (countEcc d i n s).res = s.res := by simp [countEcc]
@[simp] theorem countEcc_disc (d i n : Nat) (s : State) : (countEcc d i n s).disc = s.disc := by simp [countEcc]
@[simp] theorem countEcc_mgmt (d i n : Nat) (s : State) : (countEcc d i n s).mgmt = s.mgmt := by simp [countEcc]
@[simp] theorem countEcc_out (d i n : Nat) (s : State) : (countEcc d i n s).out = s.out := by simp [countEcc]
@[simp] theorem countEcc_free (d i n : Nat) (s : State) : (countEcc d i n s).free = s.free := by simp [countEcc]
@[simp] theorem countFabric_pending (d i n : Nat) (s : State) : (countFabric d i n s).pending = s.pending := by simp [countFabric]
@[simp] theorem countFabric_power (d i n : Nat) (s : State) : (countFabric d i n s).power = s.power := by simp [countFabric]
@[simp] theorem countFabric_time (d i n : Nat) (s : State) : (countFabric d i n s).time = s.time := by simp [countFabric]
@[simp] theorem countFabric_host (d i n : Nat) (s : State) : (countFabric d i n s).host = s.host := by simp [countFabric]
@[simp] theorem countFabric_post (d i n : Nat) (s : State) : (countFabric d i n s).post = s.post := by simp [countFabric]
@[simp] theorem countFabric_rings (d i n : Nat) (s : State) : (countFabric d i n s).rings = s.rings := by simp [countFabric]
@[simp] theorem countFabric_xlat (d i n : Nat) (s : State) : (countFabric d i n s).xlat = s.xlat := by simp [countFabric]
@[simp] theorem countFabric_mem (d i n : Nat) (s : State) : (countFabric d i n s).mem = s.mem := by simp [countFabric]
@[simp] theorem countFabric_res (d i n : Nat) (s : State) : (countFabric d i n s).res = s.res := by simp [countFabric]
@[simp] theorem countFabric_disc (d i n : Nat) (s : State) : (countFabric d i n s).disc = s.disc := by simp [countFabric]
@[simp] theorem countFabric_mgmt (d i n : Nat) (s : State) : (countFabric d i n s).mgmt = s.mgmt := by simp [countFabric]
@[simp] theorem countFabric_out (d i n : Nat) (s : State) : (countFabric d i n s).out = s.out := by simp [countFabric]
@[simp] theorem countFabric_free (d i n : Nat) (s : State) : (countFabric d i n s).free = s.free := by simp [countFabric]
@[simp] theorem countSelect_pending (d i n : Nat) (s : State) : (countSelect d i n s).pending = s.pending := by simp [countSelect]
@[simp] theorem countSelect_power (d i n : Nat) (s : State) : (countSelect d i n s).power = s.power := by simp [countSelect]
@[simp] theorem countSelect_time (d i n : Nat) (s : State) : (countSelect d i n s).time = s.time := by simp [countSelect]
@[simp] theorem countSelect_host (d i n : Nat) (s : State) : (countSelect d i n s).host = s.host := by simp [countSelect]
@[simp] theorem countSelect_post (d i n : Nat) (s : State) : (countSelect d i n s).post = s.post := by simp [countSelect]
@[simp] theorem countSelect_rings (d i n : Nat) (s : State) : (countSelect d i n s).rings = s.rings := by simp [countSelect]
@[simp] theorem countSelect_xlat (d i n : Nat) (s : State) : (countSelect d i n s).xlat = s.xlat := by simp [countSelect]
@[simp] theorem countSelect_mem (d i n : Nat) (s : State) : (countSelect d i n s).mem = s.mem := by simp [countSelect]
@[simp] theorem countSelect_res (d i n : Nat) (s : State) : (countSelect d i n s).res = s.res := by simp [countSelect]
@[simp] theorem countSelect_disc (d i n : Nat) (s : State) : (countSelect d i n s).disc = s.disc := by simp [countSelect]
@[simp] theorem countSelect_mgmt (d i n : Nat) (s : State) : (countSelect d i n s).mgmt = s.mgmt := by simp [countSelect]
@[simp] theorem countSelect_out (d i n : Nat) (s : State) : (countSelect d i n s).out = s.out := by simp [countSelect]
@[simp] theorem countSelect_free (d i n : Nat) (s : State) : (countSelect d i n s).free = s.free := by simp [countSelect]
@[simp] theorem countPort_pending (d i n : Nat) (s : State) : (countPort d i n s).pending = s.pending := by simp [countPort]
@[simp] theorem countPort_power (d i n : Nat) (s : State) : (countPort d i n s).power = s.power := by simp [countPort]
@[simp] theorem countPort_time (d i n : Nat) (s : State) : (countPort d i n s).time = s.time := by simp [countPort]
@[simp] theorem countPort_host (d i n : Nat) (s : State) : (countPort d i n s).host = s.host := by simp [countPort]
@[simp] theorem countPort_post (d i n : Nat) (s : State) : (countPort d i n s).post = s.post := by simp [countPort]
@[simp] theorem countPort_rings (d i n : Nat) (s : State) : (countPort d i n s).rings = s.rings := by simp [countPort]
@[simp] theorem countPort_xlat (d i n : Nat) (s : State) : (countPort d i n s).xlat = s.xlat := by simp [countPort]
@[simp] theorem countPort_mem (d i n : Nat) (s : State) : (countPort d i n s).mem = s.mem := by simp [countPort]
@[simp] theorem countPort_res (d i n : Nat) (s : State) : (countPort d i n s).res = s.res := by simp [countPort]
@[simp] theorem countPort_disc (d i n : Nat) (s : State) : (countPort d i n s).disc = s.disc := by simp [countPort]
@[simp] theorem countPort_mgmt (d i n : Nat) (s : State) : (countPort d i n s).mgmt = s.mgmt := by simp [countPort]
@[simp] theorem countPort_out (d i n : Nat) (s : State) : (countPort d i n s).out = s.out := by simp [countPort]
@[simp] theorem countPort_free (d i n : Nat) (s : State) : (countPort d i n s).free = s.free := by simp [countPort]

/-! ### Running over a list keeps what each update keeps -/

theorem updates_keeps {α β : Type} (p : State → β) (f : α → State → State) (h : ∀ a s, p (f a s) = p s) (l : List α) (s : State) :
    p (updates l f s) = p s := by
  unfold updates
  induction l generalizing s with
  | nil => rfl
  | cons a t ih => simp only [List.foldl_cons]; rw [ih, h]

theorem updates_inv {α : Type} (P : State → Prop) (f : α → State → State) (h : ∀ a s, P s → P (f a s)) (l : List α) (s : State)
    (hs : P s) : P (updates l f s) := by
  unfold updates
  induction l generalizing s with
  | nil => exact hs
  | cons a t ih => exact ih _ (h a s hs)

/-- What each update of a list establishes for its element, and the others keep, holds of every element after them all. -/
theorem updates_mem {α : Type} (P : α → State → Prop) (f : α → State → State) (h1 : ∀ a s, P a (f a s))
    (h2 : ∀ a b s, P a s → P a (f b s)) (l : List α) (s : State) : ∀ a ∈ l, P a (updates l f s) := by
  have keep : ∀ (l : List α) (s : State) a, P a s → P a (updates l f s) := fun l s a => updates_inv (P a) f (fun b s => h2 a b s) l s
  induction l generalizing s with
  | nil => simp
  | cons b t ih =>
    intro a ha
    rcases List.mem_cons.1 ha with rfl | ha
    · exact keep t (f a s) a (h1 a s)
    · exact ih (f b s) a ha

/-- Updates that change nothing. -/
theorem updates_id {α : Type} (f : α → State → State) (l : List α) (s : State) (h : ∀ a ∈ l, f a s = s) : updates l f s = s := by
  unfold updates
  induction l with
  | nil => rfl
  | cons a t ih =>
    simp only [List.foldl_cons]
    rw [h a (by simp)]
    exact ih fun b hb => h b (List.mem_cons_of_mem _ hb)

/-! ### Results of commands -/

@[simp] theorem commandRecord_pending (lb e : Nat) (s : State) : (commandRecord lb e s).pending = s.pending := by simp [commandRecord]
@[simp] theorem commandRecord_power (lb e : Nat) (s : State) : (commandRecord lb e s).power = s.power := by simp [commandRecord]
@[simp] theorem commandRecord_time (lb e : Nat) (s : State) : (commandRecord lb e s).time = s.time := by simp [commandRecord]
@[simp] theorem commandRecord_rings (lb e : Nat) (s : State) : (commandRecord lb e s).rings = s.rings := by simp [commandRecord]
@[simp] theorem commandRecord_xlat (lb e : Nat) (s : State) : (commandRecord lb e s).xlat = s.xlat := by simp [commandRecord]
@[simp] theorem commandRecord_fabric (lb e : Nat) (s : State) : (commandRecord lb e s).fabric = s.fabric := by simp [commandRecord]
@[simp] theorem commandRecord_mem (lb e : Nat) (s : State) : (commandRecord lb e s).mem = s.mem := by simp [commandRecord]
@[simp] theorem commandRecord_res (lb e : Nat) (s : State) : (commandRecord lb e s).res = s.res := by simp [commandRecord]
@[simp] theorem commandRecord_disc (lb e : Nat) (s : State) : (commandRecord lb e s).disc = s.disc := by simp [commandRecord]
@[simp] theorem commandRecord_free (lb e : Nat) (s : State) : (commandRecord lb e s).free = s.free := by simp [commandRecord]
@[simp] theorem commandRecord_lbs (lb e : Nat) (s : State) : (commandRecord lb e s).post.lbs = s.post.lbs := by
  simp only [commandRecord]; split <;> simp

@[simp] theorem postResult_pending (lb e : Nat) (r : List Byte) (s : State) : (postResult lb e r s).pending = s.pending := by simp [postResult]
@[simp] theorem postResult_power (lb e : Nat) (r : List Byte) (s : State) : (postResult lb e r s).power = s.power := by simp [postResult]
@[simp] theorem postResult_time (lb e : Nat) (r : List Byte) (s : State) : (postResult lb e r s).time = s.time := by simp [postResult]
@[simp] theorem postResult_rings (lb e : Nat) (r : List Byte) (s : State) : (postResult lb e r s).rings = s.rings := by simp [postResult]
@[simp] theorem postResult_xlat (lb e : Nat) (r : List Byte) (s : State) : (postResult lb e r s).xlat = s.xlat := by simp [postResult]
@[simp] theorem postResult_fabric (lb e : Nat) (r : List Byte) (s : State) : (postResult lb e r s).fabric = s.fabric := by simp [postResult]
@[simp] theorem postResult_mem (lb e : Nat) (r : List Byte) (s : State) : (postResult lb e r s).mem = s.mem := by simp [postResult]
@[simp] theorem postResult_res (lb e : Nat) (r : List Byte) (s : State) : (postResult lb e r s).res = s.res := by simp [postResult]
@[simp] theorem postResult_disc (lb e : Nat) (r : List Byte) (s : State) : (postResult lb e r s).disc = s.disc := by simp [postResult]
@[simp] theorem postResult_free (lb e : Nat) (r : List Byte) (s : State) : (postResult lb e r s).free = s.free := by simp [postResult]
@[simp] theorem postFrameError_pending (lb e : Nat) (s : State) : (postFrameError lb e s).pending = s.pending := by simp [postFrameError]
@[simp] theorem postFrameError_power (lb e : Nat) (s : State) : (postFrameError lb e s).power = s.power := by simp [postFrameError]
@[simp] theorem postFrameError_time (lb e : Nat) (s : State) : (postFrameError lb e s).time = s.time := by simp [postFrameError]
@[simp] theorem postFrameError_rings (lb e : Nat) (s : State) : (postFrameError lb e s).rings = s.rings := by simp [postFrameError]
@[simp] theorem postFrameError_xlat (lb e : Nat) (s : State) : (postFrameError lb e s).xlat = s.xlat := by simp [postFrameError]
@[simp] theorem postFrameError_fabric (lb e : Nat) (s : State) : (postFrameError lb e s).fabric = s.fabric := by simp [postFrameError]
@[simp] theorem postFrameError_mem (lb e : Nat) (s : State) : (postFrameError lb e s).mem = s.mem := by simp [postFrameError]
@[simp] theorem postFrameError_res (lb e : Nat) (s : State) : (postFrameError lb e s).res = s.res := by simp [postFrameError]
@[simp] theorem postFrameError_disc (lb e : Nat) (s : State) : (postFrameError lb e s).disc = s.disc := by simp [postFrameError]
@[simp] theorem postFrameError_mgmt (lb e : Nat) (s : State) : (postFrameError lb e s).mgmt = s.mgmt := by simp [postFrameError]
@[simp] theorem postFrameError_free (lb e : Nat) (s : State) : (postFrameError lb e s).free = s.free := by simp [postFrameError]
@[simp] theorem postWaiting_pending (lb op e : Nat) (r : List Byte) (s : State) : (postWaiting lb op e r s).pending = s.pending := by simp [postWaiting]
@[simp] theorem postWaiting_power (lb op e : Nat) (r : List Byte) (s : State) : (postWaiting lb op e r s).power = s.power := by simp [postWaiting]
@[simp] theorem postWaiting_time (lb op e : Nat) (r : List Byte) (s : State) : (postWaiting lb op e r s).time = s.time := by simp [postWaiting]
@[simp] theorem postWaiting_rings (lb op e : Nat) (r : List Byte) (s : State) : (postWaiting lb op e r s).rings = s.rings := by simp [postWaiting]
@[simp] theorem postWaiting_xlat (lb op e : Nat) (r : List Byte) (s : State) : (postWaiting lb op e r s).xlat = s.xlat := by simp [postWaiting]
@[simp] theorem postWaiting_fabric (lb op e : Nat) (r : List Byte) (s : State) : (postWaiting lb op e r s).fabric = s.fabric := by simp [postWaiting]
@[simp] theorem postWaiting_mem (lb op e : Nat) (r : List Byte) (s : State) : (postWaiting lb op e r s).mem = s.mem := by simp [postWaiting]
@[simp] theorem postWaiting_res (lb op e : Nat) (r : List Byte) (s : State) : (postWaiting lb op e r s).res = s.res := by simp [postWaiting]
@[simp] theorem postWaiting_disc (lb op e : Nat) (r : List Byte) (s : State) : (postWaiting lb op e r s).disc = s.disc := by simp [postWaiting]
@[simp] theorem postWaiting_free (lb op e : Nat) (r : List Byte) (s : State) : (postWaiting lb op e r s).free = s.free := by simp [postWaiting]
@[simp] theorem postWaiting?_pending (lb : Option Nat) (op e : Nat) (r : List Byte) (s : State) : (postWaiting? lb op e r s).pending = s.pending := by 
  unfold postWaiting?; split <;> simp
@[simp] theorem postWaiting?_power (lb : Option Nat) (op e : Nat) (r : List Byte) (s : State) : (postWaiting? lb op e r s).power = s.power := by 
  unfold postWaiting?; split <;> simp
@[simp] theorem postWaiting?_time (lb : Option Nat) (op e : Nat) (r : List Byte) (s : State) : (postWaiting? lb op e r s).time = s.time := by 
  unfold postWaiting?; split <;> simp
@[simp] theorem postWaiting?_rings (lb : Option Nat) (op e : Nat) (r : List Byte) (s : State) : (postWaiting? lb op e r s).rings = s.rings := by 
  unfold postWaiting?; split <;> simp
@[simp] theorem postWaiting?_xlat (lb : Option Nat) (op e : Nat) (r : List Byte) (s : State) : (postWaiting? lb op e r s).xlat = s.xlat := by 
  unfold postWaiting?; split <;> simp
@[simp] theorem postWaiting?_fabric (lb : Option Nat) (op e : Nat) (r : List Byte) (s : State) : (postWaiting? lb op e r s).fabric = s.fabric := by 
  unfold postWaiting?; split <;> simp
@[simp] theorem postWaiting?_mem (lb : Option Nat) (op e : Nat) (r : List Byte) (s : State) : (postWaiting? lb op e r s).mem = s.mem := by 
  unfold postWaiting?; split <;> simp
@[simp] theorem postWaiting?_res (lb : Option Nat) (op e : Nat) (r : List Byte) (s : State) : (postWaiting? lb op e r s).res = s.res := by 
  unfold postWaiting?; split <;> simp
@[simp] theorem postWaiting?_disc (lb : Option Nat) (op e : Nat) (r : List Byte) (s : State) : (postWaiting? lb op e r s).disc = s.disc := by 
  unfold postWaiting?; split <;> simp
@[simp] theorem postWaiting?_free (lb : Option Nat) (op e : Nat) (r : List Byte) (s : State) : (postWaiting? lb op e r s).free = s.free := by 
  unfold postWaiting?; split <;> simp

@[simp] theorem ringOf_postResult (lb e : Nat) (r : List Byte) (s : State) (k : Nat) : ringOf (postResult lb e r s) k = ringOf s k := by
  simp [ringOf]
@[simp] theorem dieOf_postResult (lb e : Nat) (r : List Byte) (s : State) (k : Nat) : dieOf (postResult lb e r s) k = dieOf s k := by
  simp [dieOf]
@[simp] theorem portOf_postResult (lb e : Nat) (r : List Byte) (s : State) (k : Nat) : portOf (postResult lb e r s) k = portOf s k := by
  simp [portOf]
@[simp] theorem unitOf_postResult (lb e : Nat) (r : List Byte) (s : State) (k : Nat) : unitOf (postResult lb e r s) k = unitOf s k := by
  simp [unitOf]
@[simp] theorem phOf_postResult (lb e : Nat) (r : List Byte) (s : State) (k : Nat) : phOf (postResult lb e r s) k = phOf s k := by
  simp [phOf]
@[simp] theorem frondPowerOf_postResult (lb e : Nat) (r : List Byte) (s : State) (k : Nat) :
    frondPowerOf (postResult lb e r s) k = frondPowerOf s k := by
  simp [frondPowerOf]

@[simp] theorem lbOf_msix (k v : Nat) (s : State) (l : Nat) : lbOf (msix k v s) l = lbOf s l := by simp [lbOf]
@[simp] theorem lbOf_commandRecord (lb e : Nat) (s : State) (l : Nat) : lbOf (commandRecord lb e s) l = lbOf s l := by
  simp [lbOf]

/-- What a result leaves in its letterbox (R113), when no FLR has thrown it away. -/
theorem postResult_lb (lb e : Nat) (r : List Byte) (s : State) (hd : (lbOf s lb).discard = false) :
    lbOf (postResult lb e r s) lb = { idleLb (lbOf s lb) with
      res := putTab [] 0 (resultFrame (cmdOpcode (lbOf s lb)) e (cmdTag (lbOf s lb)) (lbOf s lb).failover
        ((s.time.rackTime - (lbOf s lb).startedAt) * 4 / 625)
        (if e = eAborted then leBytes 2 (lbOf s lb).safePoints else r))
      state := .done, ready := true } := by
  simp only [postResult, hd, Bool.false_eq_true, if_false, lbOf_msix, lbOf_onLb, lbOf_commandRecord]

/-- A result changes of a function only what its message changes. -/
theorem fnOf_postResult (lb e : Nat) (r : List Byte) (s : State) (j : Nat) : ∃ vs i w n,
    fnOf (postResult lb e r s) j = { fnOf s j with vectors := vs, intStatus := i, withheld := w, sent := n } := by
  have hc : ∀ f, fnOf (onLb lb f (commandRecord lb e s)) j = fnOf s j := by
    intro f; simp only [fnOf, commandRecord, onLb_host]; split <;> simp
  unfold postResult
  dsimp only
  split
  · exact ⟨(fnOf s j).vectors, (fnOf s j).intStatus, (fnOf s j).withheld, (fnOf s j).sent, hc _⟩
  · obtain ⟨vs, i, w, n, h⟩ := fnOf_msix lb 0 _ j
    exact ⟨vs, i, w, n, h.trans (by rw [hc])⟩


end Sys2Proof.Laws
end

