-- ==== Sys2Proof/Laws/Commands.lean ====
section
/-! SUPPORT. What a letterbox command that has been started does with its answer. -/

namespace Sys2Proof.Laws

open Sys2Proof.Machine Sys2Proof.Safety

theorem runningFresh_of_started {s : State} {lb op : Nat} (h : Started s lb op) : runningFresh s lb op = true := by
  obtain ⟨h0, h1, h2, h3, _⟩ := h
  simp [runningFresh, h0, h1, h2, h3]

/-- A started command acts through its meaning. -/
theorem runCmd_started {s : State} {lb op : Nat} {sel : List Byte → Bool} {f : Cmd} (h : Started s lb op)
    (hs : sel (cmdArgs (lbOf s lb)) = true) :
    runCmd op sel f lb s = .next (finish lb (f (some lb) (cmdArgs (lbOf s lb)) s)) := by
  simp [runCmd, Nat.not_le.2 h.1, runningFresh_of_started h, hs]

/-- Bytes 2 and 3 of a result frame spell its error code (R114). -/
theorem resultCode_frame (op e tag us : Nat) (fo : Bool) (r : List Byte) (h : e < 65536) :
    leNat (tabBytes (putTab [] 0 (resultFrame op e tag fo us r)) 2 2) = e := by
  rw [tabBytes_putTab]
  simp only [resultFrame, leBytes, List.cons_append, List.nil_append, List.range, List.range.loop, List.map, leNat,
    List.getD_cons_succ, List.getD_cons_zero, Nat.reduceAdd, BitVec.toNat_ofNat]
  omega

/-- The data of a result frame stand from its byte 16 on (R114). -/
theorem resultData_frame (op e tag us : Nat) (fo : Bool) (r : List Byte) (h : r.length ≤ 2032) :
    tabBytes (putTab [] 0 (resultFrame op e tag fo us r)) 16 r.length = r := by
  rw [tabBytes_putTab]
  apply List.ext_getElem (by simp)
  intro i h1 h2
  simp only [List.getElem_map, List.getElem_range, resultFrame, leBytes, List.cons_append, List.nil_append,
    List.take_of_length_le h]
  rw [show 16 + i = i + 16 by omega]
  simp [h2]

/-- A posted result is one of the given code, and leaves every part but the postmaster, the host side, the management plane and
the outputs alone. -/
theorem posted_postResult {s : State} {lb e : Nat} (r : List Byte) (hd : (lbOf s lb).discard = false)
    (he : e < 65536) : Posted (postResult lb e r s) lb e := by
  have h := postResult_lb lb e r s hd
  refine ⟨by rw [h], by rw [h], ?_⟩
  rw [resultCode, h]
  dsimp only
  exact resultCode_frame _ _ _ _ _ _ he

theorem resultData_postResult {s : State} {lb e : Nat} (r : List Byte) (hd : (lbOf s lb).discard = false)
    (he : e ≠ eAborted) (hr : r.length ≤ 2032) : resultData (postResult lb e r s) lb r.length = r := by
  rw [resultData, postResult_lb lb e r s hd]
  dsimp only
  rw [if_neg he]
  exact resultData_frame _ _ _ _ _ _ hr

/-- A started command whose meaning is done answers with its code and data. -/
theorem answers_done {i : Instr} {s s' : State} {lb op e : Nat} {sel : List Byte → Bool} {f : Cmd} {r : List Byte}
    {Q : State → Prop} (hx : exec i s = runCmd op sel f lb s) (h : Started s lb op)
    (hs : sel (cmdArgs (lbOf s lb)) = true) (hf : f (some lb) (cmdArgs (lbOf s lb)) s = .done e r s')
    (hl : s'.post.lbs = s.post.lbs) (he : e < 65536) (hQ : Q (postResult lb e r s')) : Answers i lb e s Q := by
  have hlb : lbOf s' lb = lbOf s lb := by simp [lbOf, hl]
  refine ⟨postResult lb e r s', ?_, posted_postResult r (hlb ▸ h.2.2.2.2.1) he, hQ⟩
  rw [hx, runCmd_started h hs, hf]
  simp [finish, hlb, h.2.2.2.2.2]

/-- The same with the answer found on the way. -/
theorem answers_ex {i : Instr} {s : State} {lb op e : Nat} {sel : List Byte → Bool} {f : Cmd} {Q : State → Prop}
    (hx : exec i s = runCmd op sel f lb s) (h : Started s lb op) (hs : sel (cmdArgs (lbOf s lb)) = true) (he : e < 65536)
    (hf : ∃ r s', f (some lb) (cmdArgs (lbOf s lb)) s = .done e r s' ∧ s'.post.lbs = s.post.lbs ∧ Q (postResult lb e r s')) :
    Answers i lb e s Q := by
  obtain ⟨r, s', h1, h2, h3⟩ := hf
  exact answers_done hx h hs h1 h2 he h3

end Sys2Proof.Laws
end

