-- ==== Sys2Proof/Laws/Frames.lean ====
section
/-! SUPPORT. The parts of the state that the operations of each family leave alone. -/

namespace Sys2Proof.Laws

open Sys2Proof.Machine

/-! ### Firmware slots (R125, R127) -/

@[simp] theorem onSlot_pending (d i : Nat) (f : FwSlot → FwSlot) (s : State) : (onSlot d i f s).pending = s.pending := by simp [onSlot]
@[simp] theorem onSlot_power (d i : Nat) (f : FwSlot → FwSlot) (s : State) : (onSlot d i f s).power = s.power := by simp [onSlot]
@[simp] theorem onSlot_time (d i : Nat) (f : FwSlot → FwSlot) (s : State) : (onSlot d i f s).time = s.time := by simp [onSlot]
@[simp] theorem onSlot_host (d i : Nat) (f : FwSlot → FwSlot) (s : State) : (onSlot d i f s).host = s.host := by simp [onSlot]
@[simp] theorem onSlot_rings (d i : Nat) (f : FwSlot → FwSlot) (s : State) : (onSlot d i f s).rings = s.rings := by simp [onSlot]
@[simp] theorem onSlot_xlat (d i : Nat) (f : FwSlot → FwSlot) (s : State) : (onSlot d i f s).xlat = s.xlat := by simp [onSlot]
@[simp] theorem onSlot_fabric (d i : Nat) (f : FwSlot → FwSlot) (s : State) : (onSlot d i f s).fabric = s.fabric := by simp [onSlot]
@[simp] theorem onSlot_mem (d i : Nat) (f : FwSlot → FwSlot) (s : State) : (onSlot d i f s).mem = s.mem := by simp [onSlot]
@[simp] theorem onSlot_res (d i : Nat) (f : FwSlot → FwSlot) (s : State) : (onSlot d i f s).res = s.res := by simp [onSlot]
@[simp] theorem onSlot_disc (d i : Nat) (f : FwSlot → FwSlot) (s : State) : (onSlot d i f s).disc = s.disc := by simp [onSlot]
@[simp] theorem onSlot_mgmt (d i : Nat) (f : FwSlot → FwSlot) (s : State) : (onSlot d i f s).mgmt = s.mgmt := by simp [onSlot]
@[simp] theorem onSlot_out (d i : Nat) (f : FwSlot → FwSlot) (s : State) : (onSlot d i f s).out = s.out := by simp [onSlot]
@[simp] theorem onSlot_free (d i : Nat) (f : FwSlot → FwSlot) (s : State) : (onSlot d i f s).free = s.free := by simp [onSlot]
@[simp] theorem onInactive_pending (f : FwSlot → FwSlot) (s : State) : (onInactive f s).pending = s.pending := by 
  unfold onInactive; exact updates_keeps (fun s => s.pending) _ (by intro a s; simp) _ _
@[simp] theorem onInactive_power (f : FwSlot → FwSlot) (s : State) : (onInactive f s).power = s.power := by 
  unfold onInactive; exact updates_keeps (fun s => s.power) _ (by intro a s; simp) _ _
@[simp] theorem onInactive_time (f : FwSlot → FwSlot) (s : State) : (onInactive f s).time = s.time := by 
  unfold onInactive; exact updates_keeps (fun s => s.time) _ (by intro a s; simp) _ _
@[simp] theorem onInactive_host (f : FwSlot → FwSlot) (s : State) : (onInactive f s).host = s.host := by 
  unfold onInactive; exact updates_keeps (fun s => s.host) _ (by intro a s; simp) _ _
@[simp] theorem onInactive_rings (f : FwSlot → FwSlot) (s : State) : (onInactive f s).rings = s.rings := by 
  unfold onInactive; exact updates_keeps (fun s => s.rings) _ (by intro a s; simp) _ _
@[simp] theorem onInactive_xlat (f : FwSlot → FwSlot) (s : State) : (onInactive f s).xlat = s.xlat := by 
  unfold onInactive; exact updates_keeps (fun s => s.xlat) _ (by intro a s; simp) _ _
@[simp] theorem onInactive_fabric (f : FwSlot → FwSlot) (s : State) : (onInactive f s).fabric = s.fabric := by 
  unfold onInactive; exact updates_keeps (fun s => s.fabric) _ (by intro a s; simp) _ _
@[simp] theorem onInactive_mem (f : FwSlot → FwSlot) (s : State) : (onInactive f s).mem = s.mem := by 
  unfold onInactive; exact updates_keeps (fun s => s.mem) _ (by intro a s; simp) _ _
@[simp] theorem onInactive_res (f : FwSlot → FwSlot) (s : State) : (onInactive f s).res = s.res := by 
  unfold onInactive; exact updates_keeps (fun s => s.res) _ (by intro a s; simp) _ _
@[simp] theorem onInactive_disc (f : FwSlot → FwSlot) (s : State) : (onInactive f s).disc = s.disc := by 
  unfold onInactive; exact updates_keeps (fun s => s.disc) _ (by intro a s; simp) _ _
@[simp] theorem onInactive_mgmt (f : FwSlot → FwSlot) (s : State) : (onInactive f s).mgmt = s.mgmt := by 
  unfold onInactive; exact updates_keeps (fun s => s.mgmt) _ (by intro a s; simp) _ _
@[simp] theorem onInactive_out (f : FwSlot → FwSlot) (s : State) : (onInactive f s).out = s.out := by 
  unfold onInactive; exact updates_keeps (fun s => s.out) _ (by intro a s; simp) _ _
@[simp] theorem onInactive_free (f : FwSlot → FwSlot) (s : State) : (onInactive f s).free = s.free := by 
  unfold onInactive; exact updates_keeps (fun s => s.free) _ (by intro a s; simp) _ _
@[simp] theorem markVerified_pending  (s : State) : (markVerified s).pending = s.pending := by 
  unfold markVerified; exact updates_keeps (fun s => s.pending) _ (by intro a s; simp) _ _
@[simp] theorem markVerified_power  (s : State) : (markVerified s).power = s.power := by 
  unfold markVerified; exact updates_keeps (fun s => s.power) _ (by intro a s; simp) _ _
@[simp] theorem markVerified_time  (s : State) : (markVerified s).time = s.time := by 
  unfold markVerified; exact updates_keeps (fun s => s.time) _ (by intro a s; simp) _ _
@[simp] theorem markVerified_host  (s : State) : (markVerified s).host = s.host := by 
  unfold markVerified; exact updates_keeps (fun s => s.host) _ (by intro a s; simp) _ _
@[simp] theorem markVerified_rings  (s : State) : (markVerified s).rings = s.rings := by 
  unfold markVerified; exact updates_keeps (fun s => s.rings) _ (by intro a s; simp) _ _
@[simp] theorem markVerified_xlat  (s : State) : (markVerified s).xlat = s.xlat := by 
  unfold markVerified; exact updates_keeps (fun s => s.xlat) _ (by intro a s; simp) _ _
@[simp] theorem markVerified_fabric  (s : State) : (markVerified s).fabric = s.fabric := by 
  unfold markVerified; exact updates_keeps (fun s => s.fabric) _ (by intro a s; simp) _ _
@[simp] theorem markVerified_mem  (s : State) : (markVerified s).mem = s.mem := by 
  unfold markVerified; exact updates_keeps (fun s => s.mem) _ (by intro a s; simp) _ _
@[simp] theorem markVerified_res  (s : State) : (markVerified s).res = s.res := by 
  unfold markVerified; exact updates_keeps (fun s => s.res) _ (by intro a s; simp) _ _
@[simp] theorem markVerified_disc  (s : State) : (markVerified s).disc = s.disc := by 
  unfold markVerified; exact updates_keeps (fun s => s.disc) _ (by intro a s; simp) _ _
@[simp] theorem markVerified_mgmt  (s : State) : (markVerified s).mgmt = s.mgmt := by 
  unfold markVerified; exact updates_keeps (fun s => s.mgmt) _ (by intro a s; simp) _ _
@[simp] theorem markVerified_out  (s : State) : (markVerified s).out = s.out := by 
  unfold markVerified; exact updates_keeps (fun s => s.out) _ (by intro a s; simp) _ _
@[simp] theorem markVerified_free  (s : State) : (markVerified s).free = s.free := by 
  unfold markVerified; exact updates_keeps (fun s => s.free) _ (by intro a s; simp) _ _
@[simp] theorem mramFailed_pending (d : Nat) (s : State) : (mramFailed d s).pending = s.pending := by simp [mramFailed]
@[simp] theorem mramFailed_power (d : Nat) (s : State) : (mramFailed d s).power = s.power := by simp [mramFailed]
@[simp] theorem mramFailed_time (d : Nat) (s : State) : (mramFailed d s).time = s.time := by simp [mramFailed]
@[simp] theorem mramFailed_rings (d : Nat) (s : State) : (mramFailed d s).rings = s.rings := by simp [mramFailed]
@[simp] theorem mramFailed_xlat (d : Nat) (s : State) : (mramFailed d s).xlat = s.xlat := by simp [mramFailed]
@[simp] theorem mramFailed_mem (d : Nat) (s : State) : (mramFailed d s).mem = s.mem := by simp [mramFailed]
@[simp] theorem mramFailed_res (d : Nat) (s : State) : (mramFailed d s).res = s.res := by simp [mramFailed]
@[simp] theorem mramFailed_disc (d : Nat) (s : State) : (mramFailed d s).disc = s.disc := by simp [mramFailed]
@[simp] theorem mramFailed_free (d : Nat) (s : State) : (mramFailed d s).free = s.free := by simp [mramFailed]

/-! ### Answers on the management bus (R413–R423) -/

@[simp] theorem mctpReply_pending (ty c : Nat) (b : List Fld) (s : State) : (mctpReply ty c b s).pending = s.pending := by simp [mctpReply]
@[simp] theorem mctpReply_power (ty c : Nat) (b : List Fld) (s : State) : (mctpReply ty c b s).power = s.power := by simp [mctpReply]
@[simp] theorem mctpReply_time (ty c : Nat) (b : List Fld) (s : State) : (mctpReply ty c b s).time = s.time := by simp [mctpReply]
@[simp] theorem mctpReply_host (ty c : Nat) (b : List Fld) (s : State) : (mctpReply ty c b s).host = s.host := by simp [mctpReply]
@[simp] theorem mctpReply_post (ty c : Nat) (b : List Fld) (s : State) : (mctpReply ty c b s).post = s.post := by simp [mctpReply]
@[simp] theorem mctpReply_rings (ty c : Nat) (b : List Fld) (s : State) : (mctpReply ty c b s).rings = s.rings := by simp [mctpReply]
@[simp] theorem mctpReply_xlat (ty c : Nat) (b : List Fld) (s : State) : (mctpReply ty c b s).xlat = s.xlat := by simp [mctpReply]
@[simp] theorem mctpReply_fabric (ty c : Nat) (b : List Fld) (s : State) : (mctpReply ty c b s).fabric = s.fabric := by simp [mctpReply]
@[simp] theorem mctpReply_mem (ty c : Nat) (b : List Fld) (s : State) : (mctpReply ty c b s).mem = s.mem := by simp [mctpReply]
@[simp] theorem mctpReply_res (ty c : Nat) (b : List Fld) (s : State) : (mctpReply ty c b s).res = s.res := by simp [mctpReply]
@[simp] theorem mctpReply_disc (ty c : Nat) (b : List Fld) (s : State) : (mctpReply ty c b s).disc = s.disc := by simp [mctpReply]
@[simp] theorem mctpReply_mgmt (ty c : Nat) (b : List Fld) (s : State) : (mctpReply ty c b s).mgmt = s.mgmt := by simp [mctpReply]
@[simp] theorem mctpReply_free (ty c : Nat) (b : List Fld) (s : State) : (mctpReply ty c b s).free = s.free := by simp [mctpReply]
@[simp] theorem pldmReply_pending (c cc : Nat) (b : List Fld) (s : State) : (pldmReply c cc b s).pending = s.pending := by simp [pldmReply]
@[simp] theorem pldmReply_power (c cc : Nat) (b : List Fld) (s : State) : (pldmReply c cc b s).power = s.power := by simp [pldmReply]
@[simp] theorem pldmReply_time (c cc : Nat) (b : List Fld) (s : State) : (pldmReply c cc b s).time = s.time := by simp [pldmReply]
@[simp] theorem pldmReply_host (c cc : Nat) (b : List Fld) (s : State) : (pldmReply c cc b s).host = s.host := by simp [pldmReply]
@[simp] theorem pldmReply_post (c cc : Nat) (b : List Fld) (s : State) : (pldmReply c cc b s).post = s.post := by simp [pldmReply]
@[simp] theorem pldmReply_rings (c cc : Nat) (b : List Fld) (s : State) : (pldmReply c cc b s).rings = s.rings := by simp [pldmReply]
@[simp] theorem pldmReply_xlat (c cc : Nat) (b : List Fld) (s : State) : (pldmReply c cc b s).xlat = s.xlat := by simp [pldmReply]
@[simp] theorem pldmReply_fabric (c cc : Nat) (b : List Fld) (s : State) : (pldmReply c cc b s).fabric = s.fabric := by simp [pldmReply]
@[simp] theorem pldmReply_mem (c cc : Nat) (b : List Fld) (s : State) : (pldmReply c cc b s).mem = s.mem := by simp [pldmReply]
@[simp] theorem pldmReply_res (c cc : Nat) (b : List Fld) (s : State) : (pldmReply c cc b s).res = s.res := by simp [pldmReply]
@[simp] theorem pldmReply_disc (c cc : Nat) (b : List Fld) (s : State) : (pldmReply c cc b s).disc = s.disc := by simp [pldmReply]
@[simp] theorem pldmReply_mgmt (c cc : Nat) (b : List Fld) (s : State) : (pldmReply c cc b s).mgmt = s.mgmt := by simp [pldmReply]
@[simp] theorem pldmReply_free (c cc : Nat) (b : List Fld) (s : State) : (pldmReply c cc b s).free = s.free := by simp [pldmReply]
theorem mctpReply_out (ty c : Nat) (b : List Fld) (s : State) : (mctpReply ty c b s).out = s.out ++ [.mctp ty c (b.flatMap fun f => leBytes f.size f.value)] := by simp [mctpReply]
theorem pldmReply_out (c cc : Nat) (b : List Fld) (s : State) : (pldmReply c cc b s).out = s.out ++ [.mctp 1 c ((u8 cc :: b).flatMap fun f => leBytes f.size f.value)] := by simp [pldmReply, mctpReply]
@[simp] theorem requestPiece_pending  (s : State) : (requestPiece s).pending = s.pending := by simp [requestPiece]
@[simp] theorem requestPiece_power  (s : State) : (requestPiece s).power = s.power := by simp [requestPiece]
@[simp] theorem requestPiece_time  (s : State) : (requestPiece s).time = s.time := by simp [requestPiece]
@[simp] theorem requestPiece_host  (s : State) : (requestPiece s).host = s.host := by simp [requestPiece]
@[simp] theorem requestPiece_post  (s : State) : (requestPiece s).post = s.post := by simp [requestPiece]
@[simp] theorem requestPiece_rings  (s : State) : (requestPiece s).rings = s.rings := by simp [requestPiece]
@[simp] theorem requestPiece_xlat  (s : State) : (requestPiece s).xlat = s.xlat := by simp [requestPiece]
@[simp] theorem requestPiece_fabric  (s : State) : (requestPiece s).fabric = s.fabric := by simp [requestPiece]
@[simp] theorem requestPiece_mem  (s : State) : (requestPiece s).mem = s.mem := by simp [requestPiece]
@[simp] theorem requestPiece_res  (s : State) : (requestPiece s).res = s.res := by simp [requestPiece]
@[simp] theorem requestPiece_disc  (s : State) : (requestPiece s).disc = s.disc := by simp [requestPiece]
@[simp] theorem requestPiece_mgmt  (s : State) : (requestPiece s).mgmt = s.mgmt := by simp [requestPiece]
@[simp] theorem requestPiece_free  (s : State) : (requestPiece s).free = s.free := by simp [requestPiece]
@[simp] theorem setUpdate_pending (n : Nat) (s : State) : (setUpdate n s).pending = s.pending := by simp [setUpdate]
@[simp] theorem setUpdate_power (n : Nat) (s : State) : (setUpdate n s).power = s.power := by simp [setUpdate]
@[simp] theorem setUpdate_time (n : Nat) (s : State) : (setUpdate n s).time = s.time := by simp [setUpdate]
@[simp] theorem setUpdate_host (n : Nat) (s : State) : (setUpdate n s).host = s.host := by simp [setUpdate]
@[simp] theorem setUpdate_post (n : Nat) (s : State) : (setUpdate n s).post = s.post := by simp [setUpdate]
@[simp] theorem setUpdate_rings (n : Nat) (s : State) : (setUpdate n s).rings = s.rings := by simp [setUpdate]
@[simp] theorem setUpdate_xlat (n : Nat) (s : State) : (setUpdate n s).xlat = s.xlat := by simp [setUpdate]
@[simp] theorem setUpdate_fabric (n : Nat) (s : State) : (setUpdate n s).fabric = s.fabric := by simp [setUpdate]
@[simp] theorem setUpdate_mem (n : Nat) (s : State) : (setUpdate n s).mem = s.mem := by simp [setUpdate]
@[simp] theorem setUpdate_res (n : Nat) (s : State) : (setUpdate n s).res = s.res := by simp [setUpdate]
@[simp] theorem setUpdate_disc (n : Nat) (s : State) : (setUpdate n s).disc = s.disc := by simp [setUpdate]
@[simp] theorem setUpdate_out (n : Nat) (s : State) : (setUpdate n s).out = s.out := by simp [setUpdate]
@[simp] theorem setUpdate_free (n : Nat) (s : State) : (setUpdate n s).free = s.free := by simp [setUpdate]
@[simp] theorem dropTransfer_pending  (s : State) : (dropTransfer s).pending = s.pending := by unfold dropTransfer; split <;> simp
@[simp] theorem dropTransfer_power  (s : State) : (dropTransfer s).power = s.power := by unfold dropTransfer; split <;> simp
@[simp] theorem dropTransfer_time  (s : State) : (dropTransfer s).time = s.time := by unfold dropTransfer; split <;> simp
@[simp] theorem dropTransfer_host  (s : State) : (dropTransfer s).host = s.host := by unfold dropTransfer; split <;> simp
@[simp] theorem dropTransfer_rings  (s : State) : (dropTransfer s).rings = s.rings := by unfold dropTransfer; split <;> simp
@[simp] theorem dropTransfer_xlat  (s : State) : (dropTransfer s).xlat = s.xlat := by unfold dropTransfer; split <;> simp
@[simp] theorem dropTransfer_fabric  (s : State) : (dropTransfer s).fabric = s.fabric := by unfold dropTransfer; split <;> simp
@[simp] theorem dropTransfer_mem  (s : State) : (dropTransfer s).mem = s.mem := by unfold dropTransfer; split <;> simp
@[simp] theorem dropTransfer_res  (s : State) : (dropTransfer s).res = s.res := by unfold dropTransfer; split <;> simp
@[simp] theorem dropTransfer_disc  (s : State) : (dropTransfer s).disc = s.disc := by unfold dropTransfer; split <;> simp
@[simp] theorem dropTransfer_out  (s : State) : (dropTransfer s).out = s.out := by unfold dropTransfer; split <;> simp
@[simp] theorem dropTransfer_free  (s : State) : (dropTransfer s).free = s.free := by unfold dropTransfer; split <;> simp
@[simp] theorem spdmReply_pending (t c : Nat) (b : List Byte) (s : State) : (spdmReply t c b s).pending = s.pending := by unfold spdmReply; split <;> rfl
@[simp] theorem spdmReply_power (t c : Nat) (b : List Byte) (s : State) : (spdmReply t c b s).power = s.power := by unfold spdmReply; split <;> rfl
@[simp] theorem spdmReply_time (t c : Nat) (b : List Byte) (s : State) : (spdmReply t c b s).time = s.time := by unfold spdmReply; split <;> rfl
@[simp] theorem spdmReply_host (t c : Nat) (b : List Byte) (s : State) : (spdmReply t c b s).host = s.host := by unfold spdmReply; split <;> rfl
@[simp] theorem spdmReply_post (t c : Nat) (b : List Byte) (s : State) : (spdmReply t c b s).post = s.post := by unfold spdmReply; split <;> rfl
@[simp] theorem spdmReply_rings (t c : Nat) (b : List Byte) (s : State) : (spdmReply t c b s).rings = s.rings := by unfold spdmReply; split <;> rfl
@[simp] theorem spdmReply_xlat (t c : Nat) (b : List Byte) (s : State) : (spdmReply t c b s).xlat = s.xlat := by unfold spdmReply; split <;> rfl
@[simp] theorem spdmReply_fabric (t c : Nat) (b : List Byte) (s : State) : (spdmReply t c b s).fabric = s.fabric := by unfold spdmReply; split <;> rfl
@[simp] theorem spdmReply_mem (t c : Nat) (b : List Byte) (s : State) : (spdmReply t c b s).mem = s.mem := by unfold spdmReply; split <;> rfl
@[simp] theorem spdmReply_res (t c : Nat) (b : List Byte) (s : State) : (spdmReply t c b s).res = s.res := by unfold spdmReply; split <;> rfl
@[simp] theorem spdmReply_disc (t c : Nat) (b : List Byte) (s : State) : (spdmReply t c b s).disc = s.disc := by unfold spdmReply; split <;> rfl
@[simp] theorem spdmReply_mgmt (t c : Nat) (b : List Byte) (s : State) : (spdmReply t c b s).mgmt = s.mgmt := by unfold spdmReply; split <;> rfl
@[simp] theorem spdmReply_free (t c : Nat) (b : List Byte) (s : State) : (spdmReply t c b s).free = s.free := by unfold spdmReply; split <;> rfl

end Sys2Proof.Laws
end

