-- ==== Sys2Proof/Tests/Slice0.lean ====
section
/-! SUPPORT. Well-formedness by example, a few single steps, and for each statement states and operands that meet its hypotheses. -/

namespace Sys2Proof.Tests

open Sys2Proof.Machine Sys2Proof.Safety

set_option Elab.async false

/-- A module in which a letterbox holds a started command of an opcode with argument bytes. -/
def cmdAt (lb op : Nat) (args : List Byte) (s : State) : State :=
  onLb lb (fun _ => { state := .running,
                      cmd := putTab [] 0 (leBytes 2 op ++ leBytes 6 0 ++ leBytes 2 args.length ++ leBytes 6 0 ++ args) }) s

/-- A module whose function 0 of HOST-A can be reached. -/
def hostUp (s : State) : State := onHostPort 0 (fun p => { p with link := 1, configReady := true }) s

/-- A module in P4 whose management processors answer, with an endpoint ID. -/
def managed : State := { power := { boot := .standby, state := some 4, mctpOpen := true }, mgmt := { eid := 9 } }

/-- A module in P0 with both inputs, ENABLE and its fronds powered. -/
def serving : State :=
  { power := { boot := .serving, state := some 0, inA := true, inB := true, enable := true, frondsOn := true,
               frondClocksOn := true, arraysGated := false, ready := true, mctpOpen := true } }

/-- That module with some of its power control changed. -/
def servingWith (f : Power → Power) : State := onPower f serving

/-- A module in P4, ready for phase B. -/
def standbyUp : State := { power := { boot := .standby, state := some 4, inA := true, inB := true, enable := true } }

/-- A module with a transition to a target that waits at a step. -/
def transAt (n target : Nat) (st : Step49) : State :=
  servingWith fun p => { p with
    state := some n, trans := some { req := { target := target, release := false, waitMs := 10, source := .enable }, step := st } }

/-- An image with no tiles' worth of work: no regions, weights or logical fronds. -/
def bareImage (owner : Nat) : Image :=
  { owner := owner, ctx := 9, revision := 1, length := 128, tiles := 1, key := 3, stewards := 0, declared := 0, scratch := 0,
    fronds := [], regions := [], entries := [], weights := [], spectral := [], tables := [], steward := [] }

/-- A pigeonhole of that image in a state. -/
def barePh (st : PhState) (claims : List Nat) (lb : Option Nat) : Ph :=
  { state := st, image := 1, source := { pc := 0, off := 0 }, bound := [], claims := claims, lb := lb }

/-- A module that holds both, and the context and route set of the image. -/
def housed (s : State) : State :=
  { s with
    res := { images := [(1, bareImage 0)], phs := [(4095, barePh .resident [0, 5] none)] }
    xlat := { ctxs := [(9, {})] }
    fabric := { routeSets := [(1, [9])] } }

/-- A module whose port 95 carries a link in Active. -/
def linked (s : State) : State := onPort 95 (fun x => { x with state := .active, mask := 15, rxMask := 15 }) s

/-- The bytes of a discovery message from the neighbour. -/
def discMsg (op : Nat) (fields : List (Nat × Fld)) : List Byte := pktBytes (mkControl op 0 (mgmtPc 5 0) {} fields)

/-- A beacon word of lane 3 of an optical port with its CRC right. -/
def beaconOk : BitVec 64 := beaconWord 90 {} 3

/-- A training word with its CRC right. -/
def trainWord (v : Nat) : BitVec 32 := BitVec.ofNat 32 (v + 2 ^ 24 * crc8 24 v 0)

/-- The first flit of a control packet, as a partner sends it. -/
def firstFlit : List Byte := flitBytes 1 2 true true false 0 0 0 (discMsg 0x10 [])

/-- A state with ring 5 of PF0 of HOST-A as given, its function able to issue requests. -/
def ringed (g : Ring) : State := onFn 0 (fun f => { f with busMaster := true }) (onRing 5 (fun _ => g) (hostUp {}))

/-- A descriptor of a type, every other byte 0 but those given by offset. -/
def descOf (ty : Nat) (bs : List (Nat × List Byte)) : List Byte :=
  bs.foldl (fun l b => l.take b.1 ++ b.2 ++ l.drop (b.1 + b.2.length)) (leBytes 1 ty ++ List.replicate 3 0 ++ leBytes 4 0xFFFFFFFF ++ List.replicate 56 0)

/-- A running ring whose one descriptor, count 7, has started. -/
def startedRing (d : Started) : Ring :=
  { state := .running, physical := true, entries := 64, cqEntries := 64, head := 7, tail := 8, started := [d] }

/-- A leaf of the pages of context 0 from address 0 to the same addresses of host memory. -/
def hostLeaf : Leaf := { ctx := 0, va := 0, size := 2 ^ 21, target := .host 0 false, r := true, w := true, a := false }

/-- The edge-die unit of E0 holds that leaf. -/
def mapped (s : State) : State := onXlat (fun x => { x with units := [(96, { tlb := [hostLeaf] })] }) s

/-- A spectral slot's record: int16 samples, frames of 512 with hop 256, 8 bins, BF16 features. -/
def specRec : List Byte := [8, 0, 0, 0] ++ leBytes 2 512 ++ leBytes 2 256 ++ leBytes 2 0 ++ leBytes 2 8 ++ [3] ++ List.replicate 51 0

/-- A SPECTRAL of no samples from and to the field store of frond 1. -/
def specDesc : List Byte := descOf 5 [(1, [16]), (0x10, leBytes 4 0x3FFB), (0x20, leBytes 4 0x3FFB), (0x28, leBytes 8 4096)]

/-- Ring 5 has started it, slot 0 of frond 1 holds the record, and the locks of frond 1 admit the ring's frank. -/
def specState : State :=
  onDie 1 (fun x => { x with slots := [(0, (specRec, [0, 0]))], locks := [(0, 15), (47, 15)] })
    (onFabric (fun f => { f with routeSets := [(0, [0])] }) (ringed (startedRing { count := 7, bytes := specDesc })))

/-- Steward core 3 runs for pigeonhole 0. -/
def stewardUp : State :=
  onSteward 3 (fun c => { c with ph := some 0, running := true })
    (onRes (fun r => { r with images := [(1, bareImage 0)], phs := [(0, barePh .resident [0] none)] }) {})

/-- Packet 9 has reached the output of its destination die. -/
def arrived (p : Pkt) (o : Origin) (s : State) : State :=
  onFabric (fun f => { f with flights := [(9, { pkt := p, loc := .eject (pcDie p.dest), origin := o })], nextPid := 10 }) s

/-- The lock of tile 0 of frond 1 admits frank 0 to read, write and add. -/
def unlocked (s : State) : State :=
  onDie 1 (fun x => { x with locks := [(48, 15)] }) (onFabric (fun f => { f with routeSets := [(0, [0])] }) s)

/-- A write of a whole unit of bytes to the last 64 bytes of tile 0's scratchpad. -/
def writePkt (reg : Nat) (registered : Bool) : Pkt :=
  { control := false, op := 0, dest := 0x2001, src := 0xC0004, offset := 0xFFFC0, tally := 3, reg := reg, registered := registered
    body := List.replicate 64 7 }

/-- A list of two FP32 entries for group 5, as unit 8 of frond 1 takes it. -/
def listPkt : Pkt :=
  { control := false, op := 0, dest := 0x3FF8, src := 0xC0004, partialList := true
    body := taggedBytes 5 1 1 4 1 [(0x40000000, 7), (0x3F800000, 9)] }

/-- A merge context of group 5 that awaits two lists. -/
def ctx5 : MergeCtx := { group := 5, ring := 5, count := 7, sources := 2, k := 4, format := 1, flags := 1 }

/-- A letterbox whose broadcast of context 9 awaits two modules. -/
def bcastLb : Letterbox :=
  { lbOf (cmdAt 0 0x0205 (leBytes 4 9) {}) 0 with phase := .waiting, waitingFor := [1, 2] }

/-- A SELECT of one FP32 key of tile 0 of frond 1, its entry written beside it. -/
def selD : Started :=
  { count := 7, bytes := descOf 3 [(1, [16]), (0x10, leBytes 4 0x2001), (0x20, leBytes 4 0x2001), (0x28, leBytes 8 64), (0x30, [1, 0, 0, 0, 1, 0, 0, 0, 1, 1])], engine := 0x3FF8 }

/-- Ring 5 has started it on unlocked memory. -/
def selState : State := unlocked (ringed (startedRing selD))

/-- Packet 4, a control packet for tile 0's scratchpad of frond 1, is the only one, and stands at a place; every die is reachable. -/
def oneFlight (l : Loc) (s : State) : State :=
  onFabric (fun x => { x with active := { dies := [(1, 1), (97, 1)] }, flights := [(4, { pkt := mkControl 1 0x2001 0xC0004 {} [], loc := l })], nextPid := 5 }) s

/-- An image of one tile with one entry, at most 24 argument bytes and a limit of 5 ms; its scratchpad region is its only region. -/
def workImage : Image :=
  { bareImage 0 with
    entries := [{ code := 0, first := 0, count := 1, maxArgs := 24, limitMs := 5 }]
    regions := [{ space := 0, rights := 7, frond := 0, granules := 0, va := 0 }], scratch := 64 }

/-- Pigeonhole 4 holds it on tile 0 of frond 1. -/
def workPh : Ph := { barePh .resident [0] none with stamp := true, tileOf := [(0, 320)] }

/-- Its launch by descriptor 7 of ring 5. -/
def work : Launch := { ph := 4, entry := 0, argLen := 0, args := [], ring := 5, count := 7, argsReady := true }

/-- A LAUNCH of pigeonhole 4. -/
def workDesc : Started := { count := 7, bytes := descOf 4 [(0x10, leBytes 2 4)], acted := true }

/-- A state with that pigeonhole and launch 2. -/
def working (x : Launch) (d : Started) : State :=
  onRes (fun r => { r with images := [(1, workImage)], phs := [(4, workPh)], launches := [(2, x)], nextLaunch := 3 })
    (onPower (fun p => { p with arraysGated := false }) (unlocked (ringed (startedRing d))))

/-- An operand list of one FP32 element at virtual address 0 of the context. -/
def oneOperand : List Byte := leBytes 8 1 ++ [2, 1] ++ leBytes 2 0xFFFF ++ leBytes 4 0 ++ leBytes 8 0 ++ leBytes 8 1

/-- A leaf of the image's context from address 0 to tile 0's scratchpad. -/
def tileLeaf : Leaf := { ctx := 9, va := 0, size := 65536, target := .place 0x2001 0, r := true, w := true, a := false }

/-- The image's context has a pin from address 0 to tile 0's scratchpad. -/
def pinned (s : State) : State :=
  onXlat (fun x => { x with pins := [{ ctx := 9, va := 0, size := 65536, count := 1, programmed := none, leaf := some tileLeaf }] }) s

/-- An image with one granule of field store. -/
def fieldImage : Image := { bareImage 0 with regions := [{ space := 1, rights := 7, frond := 0, granules := 1, va := 0 }] }

/-- A pigeonhole of it, on granule 6 of frond 1. -/
def fieldPh : Ph := { barePh .resident [0] none with bound := [{ frond := 1, origin := 0, granules := [6] }] }

/-- The command completes in this state. -/
def ran (i : Instr) (s : State) : Bool := match exec i s with | .next _ => true | _ => false

/-- A store to a scratchpad that starts above byte 0 leaves cell 0. -/
theorem not_stores (s : State) (pc : Postcode) (off n : Nat) (hu : ¬ pcUnit pc = 0xB) (h0 : 0 < off) : ¬ storesRange s pc off n 0 := by
  rintro ⟨i, _, h | ⟨h, _⟩⟩
  · rw [memKey, if_neg hu] at h; simp only [scratchKey] at h; omega
  · simp [restKey, hu] at h

/-- An L2 store, a region store and a control area: a running core of pigeonhole 4, and its waiting launch. -/
def coreState : State := onSteward 3 (fun c => { c with running := true, ph := some 4 }) (working work workDesc)

/-- Its pigeonhole with one granule of field store. -/
def regionPh : Ph := { workPh with bound := [{ frond := 1, origin := 0, granules := [5] }] }

/-! ### Commands that name what does not exist -/

theorem test_ill_formed : ∀ i ∈ ([.inputUndervoltage 2, .hostPortTraining 2, .configRequest 0 64 false .vendorId 0, .msixUnmask 0 1 (.vector 128),
    .badSizeAccess 0 0 1 0 4 false, .lbDoorbell 128 1, .nop 128, .ringDoorbell 2 0 0 0, .descriptorFetch 1088, .moderationTimer 1024,
    .ringError 1023 5, .msixTableWrite 0 0 2048 .data 0, .stewardCoreAccess 64 false 0 [], .phCreateTimeout 4096, .tileCoreAccess 84 0 false 0 [],
    .tileCoreAccess 0 320 false 0 [], .tileFault 0 0 9, .powerMonitorFail (some 84), .beacon 95 4 0, .readyTimer 96, .parkExpiry 0 2 0,
    .edgeDieFailure 16, .wireFailure 84 0 { index := 0 } 0, .engineError 0 0, .cryptoSelfCheck 84 true, .linkKeyPhaseExpiry 159, .sramScrub 84 0 .good,
    .parityError .lock 84 0, .thermalTrip 84 115, .overvoltageTrip 2 60000, .bypass 16 255, .spdmGetVersion 3, .controlInject 84] : List Instr),
    i.wf = false := by decide +kernel

/-! ### Known answers -/

/-- The example of chapter 0: postcode 0x0120_A0C3 is module 18, frond F5, tile 12, unit 3. -/
theorem test_postcode : pcModule 0x0120A0C3 = 18 ∧ pcDie 0x0120A0C3 = 5 ∧ pcTile 0x0120A0C3 = 12 ∧ pcUnit 0x0120A0C3 = 3 := by decide

/-- The example of chapter 1: postcode 0x0005_89A2 is F44, tile 154, unit 2. -/
theorem test_postcode_f44 : pcDie 0x000589A2 = 44 ∧ pcTile 0x000589A2 = 154 ∧ pcUnit 0x000589A2 = 2 := by decide

/-- FIPS 197, appendix C.3: AES-256. -/
theorem test_aes256 : aesEncrypt (roundKeys (List.range 32)) ((List.range 16).map (· * 17))
    = [0x8E, 0xA2, 0xB7, 0xCA, 0x51, 0x67, 0x45, 0xBF, 0xEA, 0xFC, 0x49, 0x90, 0x4B, 0x49, 0x60, 0x89] := by decide +kernel

/-- FIPS 180-4: SHA-384 of the letters abc. -/
theorem test_sha384 : (sha384 [0x61, 0x62, 0x63]).take 8 = [0xCB, 0x00, 0x75, 0x3F, 0x45, 0xA3, 0x5E, 0x8B] := by decide +kernel

/-- Chapter 15: 1.0 + 1.0 = 2.0 in FP32 and bf16, whose 1.0 is 0x3F80. -/
theorem test_floats : fp32Add 0x3F800000 0x3F800000 = 0x40000000 ∧ bf16Add 0x3F80 0x3F80 = 0x4000 := by decide +kernel

/-! ### Single steps -/

/-- Signed minimum of an atomic of 4 bytes: −1 is less than 1 (R145). -/
theorem test_atomic_signed_min : atomicValue 1 4 1 0xFFFFFFFF 0 = 0xFFFFFFFF ∧ atomicValue 3 4 1 0xFFFFFFFF 0 = 1 := by decide

/-- An add wraps at its size (R145). -/
theorem test_atomic_add_wraps : atomicValue 0 4 0xFFFFFFFF 1 0 = 0 := by decide

/-- R138: a tail that would retract the published one is rejected, across the wrap of 2^32 too. -/
theorem test_doorbell_wraps :
    (ringOf (ringDoorbell 5 2 (ringed { state := .running, entries := 64, head := 4294967290, tail := 4294967295 })) 5).tail = 2
    ∧ (ringOf (ringDoorbell 5 4294967291 (ringed { state := .running, entries := 64, head := 4294967290, tail := 4294967295 })) 5).tail
      = 4294967295 := by decide +kernel

/-- R157: the phase of the first pass over the completion array is 1, and of the second 0. -/
theorem test_phase : (cqeBytes { cqEntries := 64 } 63 { count := 63, bytes := descOf 0 [] } 0).getD 7 9 = 1
    ∧ (cqeBytes { cqEntries := 64 } 64 { count := 64, bytes := descOf 0 [] } 0).getD 7 9 = 0 := by decide +kernel

/-- R294: a tally's byte count wraps at 2^48 and its packet count at 2^32. -/
theorem test_tally_wraps :
    tallyOf (tallyAdd 1 3 64 (onDie 1 (fun x => { x with tallies := [(3, { bytes := 2 ^ 48 - 64, packets := 2 ^ 32 - 1 })] }) {})) 1 3
      = { bytes := 0, packets := 0 } := by decide +kernel

/-- R111: a doorbell in Idle accepts, and R112: a second one is counted as an overrun. -/
theorem test_doorbell_twice :
    (lbOf (doorbell 0 1 (doorbell 0 1 (hostUp {}))) 0).overruns = 1 ∧ (lbOf (doorbell 0 1 (doorbell 0 1 (hostUp {}))) 0).state = .accepted := by
  decide +kernel

/-- R229: the generator's lowest coefficients, as the IEEE 802.3 table of the RS(544,514) FEC lists them. -/
theorem test_fec_generator : rsGenerator.take 4 = [523, 834, 128, 158] ∧ rsGenerator.length = 31 := by decide +kernel

/-- R206: the pair 0b10 is the top level. -/
theorem test_pam4_levels : symbolLevels 3 1 = [3, 0, 0, 0, 0] ∧ symbolLevels 0 1 = [3, 0, 0, 0, 0, 0, 0, 0, 0, 0] := by decide

/-- States and operands that meet the hypotheses of `LetterboxRowsComplete`, clause by clause. -/
theorem witness_LetterboxRowsComplete :
    (∃ (s : State) (lb value : Nat), lb < 128 ∧ barOpen s lb = true ∧ bit value 0 = true ∧ (lbOf s lb).state = .idle)
    ∧ (∃ (s : State) (lb value : Nat), lb < 128 ∧ barOpen s lb = true ∧ bit value 0 = true ∧ (lbOf s lb).state = .accepted ∧ (lbOf s lb).discard = false)
    ∧ (∃ (s : State) (lb value : Nat), lb < 128 ∧ barOpen s lb = true ∧ bit value 0 = true ∧ (lbOf s lb).state = .done)
    ∧ (∃ (s : State) (lb offset size : Nat), lb < 128 ∧ barOpen s lb = true ∧ (size = 4 ∨ size = 8) ∧ offset % size = 0 ∧ offset + size ≤ 1792 ∧ (lbOf s lb).state = .idle)
    ∧ (∃ (s : State) (lb : Nat), lb < 128 ∧ mayStartCmd s lb = true ∧ frameCheck s lb = none) :=
  ⟨⟨hostUp {}, 0, 1, by decide +kernel⟩,
   ⟨cmdAt 0 1 [] (hostUp {}) |> onLb 0 (fun l => { l with state := .accepted }), 0, 1, by decide +kernel⟩,
   ⟨onLb 0 (fun l => { l with state := .done, ready := true }) (hostUp {}), 0, 1, by decide +kernel⟩,
   ⟨hostUp {}, 0, 1784, 8, by decide +kernel⟩,
   ⟨cmdAt 0 1 [] {} |> onLb 0 (fun l => { l with state := .accepted }), 0, by decide +kernel⟩⟩

/-- States and operands that meet the hypotheses of `ModuleCommandsComplete`, clause by clause. -/
theorem witness_ModuleCommandsComplete :
    (∃ (s : State) (lb : Nat), Started s lb 0x0001)
    ∧ (∃ (s : State) (lb : Nat), Started s lb 0x0002)
    ∧ (∃ (s : State) (lb : Nat), Started s lb 0x0003)
    ∧ (∃ (s : State) (lb k : Nat), Started s lb 0x0004 ∧ k = lb / 64 * 64 + argOf s lb 4 0 ∧ quotaSum s k Fn.quotaRings + argOf s lb 4 1 ≤ 1024 ∧ quotaSum s k Fn.quotaContexts + argOf s lb 4 2 ≤ 4096 ∧ argOf s lb 4 3 ≤ 4096)
    ∧ (∃ (s : State) (lb n : Nat), Started s lb 0x0005 ∧ lb % 64 = 0 ∧ n = argOf s lb 5 0 ∧ 1 ≤ n ∧ n ≤ 63 ∧ fnEnabled s (lb + n) = true) :=
  ⟨⟨cmdAt 127 1 [] {}, 127, by decide +kernel⟩,
   ⟨cmdAt 0 2 [] {}, 0, by decide +kernel⟩,
   ⟨cmdAt 0 3 [] {}, 0, by decide +kernel⟩,
   ⟨cmdAt 64 4 [5, 0, 0, 4, 0, 16, 0, 16] {}, 64, 69, by decide +kernel⟩,
   ⟨cmdAt 64 5 [63] (onFn 64 (fun f => { f with vfEnabled := true, numVfs := 63 }) {}), 64, 63, by decide +kernel⟩⟩

/-- States and operands that meet the hypotheses of `RingCommandsComplete`, clause by clause. -/
theorem witness_RingCommandsComplete :
    (∃ (s : State) (lb n : Nat) (free : List Nat), Started s lb 0x0101 ∧ n = argOf s lb 0x0101 0 ∧ argOf s lb 0x0101 1 = 0xFF ∧ (free = ((List.range 1024).filter fun r => (ringOf s r).state == .free && dieUp s (96 + r / 64)).take n) ∧ free.length = n ∧ ringsHeldBy s lb + n ≤ ringQuota s lb)
    ∧ (∃ (s : State) (lb r : Nat), Started s lb 0x0102 ∧ r = argOf s lb 0x0102 0 ∧ ownRing s (some lb) r = true ∧ ringLive (ringOf s r).state = false)
    ∧ (∃ (s : State) (lb r k : Nat), Started s lb 0x0103 ∧ r = argOf s lb 0x0103 0 ∧ k = lb / 64 * 64 + argOf s lb 0x0103 1 ∧ r < 1024 ∧ (ringOf s r).state ≠ .free ∧ (ringOf s r).owner / 64 = lb / 64 ∧ fnEnabled s k = true ∧ (argOf s lb 0x0103 3 = 0xFFFF ∨ (argOf s lb 0x0103 3 ≠ 0 ∧ argOf s lb 0x0103 3 < vectorCount k)) ∧ ringLive (ringOf s r).state = false ∧ (k % 64 = 0 ∨ (s.rings.any fun e => e.1 != r && e.2.state != .free && e.2.owner == k && e.2.slot == argOf s lb 0x0103 2) = false) ∧ ((ringOf s r).ctx = 0 ∨ (fnOf s k).pasid = true))
    ∧ (∃ (s : State) (lb r : Nat) (c : Ctx), Started s lb 0x0104 ∧ r = argOf s lb 0x0104 0 ∧ ownRing s (some lb) r = true ∧ ((ringOf s r).state = .allocated ∨ (ringOf s r).state = .stopped) ∧ argOf s lb 0x0104 5 ≠ 0 ∧ argOf s lb 0x0104 6 % 4096 = 0 ∧ argOf s lb 0x0104 6 < 2 ^ 57 ∧ argOf s lb 0x0104 7 % 64 = 0 ∧ argOf s lb 0x0104 7 < 2 ^ 57 ∧ tfind s.xlat.ctxs (argOf s lb 0x0104 3) = some c ∧ c.owner = (ringOf s r).owner ∧ (argOf s lb 0x0104 3 = 0 ∨ (fnOf s c.owner).pasid = true))
    ∧ (∃ (s : State) (lb r : Nat), Started s lb 0x0105 ∧ r = argOf s lb 0x0105 0 ∧ ownRing s (some lb) r = true)
    ∧ (∃ (s : State) (lb r : Nat), Started s lb 0x0106 ∧ r = argOf s lb 0x0106 0 ∧ ownRing s (some lb) r = true ∧ ((ringOf s r).state = .stopped ∨ (ringOf s r).state = .error) ∧ (tfind s.xlat.ctxs (ringOf s r).ctx).isSome = true)
    ∧ (∃ (s : State) (lb r : Nat), Started s lb 0x0107 ∧ r = argOf s lb 0x0107 0 ∧ ownRing s (some lb) r = true ∧ ringLive (ringOf s r).state = true)
    ∧ (∃ (s : State) (lb r : Nat) (d : List Byte), Started s lb 0x0108 ∧ r = argOf s lb 0x0108 0 ∧ ownRing s (some lb) r = true ∧ d = pack [u8 (ringCode (ringOf s r).state), u32 (ringOf s r).head, u32 (ringOf s r).tail, u32 (ringOf s r).cqWritten, u32 (heldCount (ringOf s r))])
    ∧ (∃ (s : State) (lb r k : Nat), Started s lb 0x0109 ∧ r = argOf s lb 0x0109 0 ∧ k = destKey (BitVec.ofNat 32 (argOf s lb 0x0109 1)) ∧ ownRing s (some lb) r = true ∧ (runOf (ringOf s r) k).lost = true ∧ (ringOf s r).started = [])
    ∧ (∃ (s : State) (lb r : Nat), Started s lb 0x010A ∧ r = argOf s lb 0x010A 0 ∧ ownRing s (some lb) r = true) :=
  ⟨⟨cmdAt 0 0x0101 [2, 0xFF] {}, 0, 2, [0, 1], by decide +kernel⟩,
   ⟨cmdAt 0 0x0102 [5, 0] (onRing 5 (fun g => { g with state := .stopped }) {}), 0, 5, by decide +kernel⟩,
   ⟨cmdAt 0 0x0103 [255, 3, 63, 0, 255, 7] (onFn 0 (fun f => { f with vfEnabled := true, numVfs := 63 }) (onRing 1023 (fun g => { g with state := .allocated }) {})) |> cmdAt 0 0x0103 [255, 3, 63, 0, 127, 0], 0, 1023, 63, by decide +kernel⟩,
   ⟨cmdAt 0 0x0104 ([0, 0, 1, 0, 0, 0, 0, 0, 64, 0, 0, 0, 64, 0, 0, 0] ++ leBytes 8 (2 ^ 57 - 4096) ++ leBytes 8 (2 ^ 57 - 64)) (onXlat (fun x => { x with ctxs := [(0, {})] }) (onRing 0 (fun g => { g with state := .allocated }) {})), 0, 0, {}, by decide +kernel⟩,
   ⟨cmdAt 0 0x0105 [5, 0, 1] (onRing 5 (fun g => { g with state := .stopped }) {}), 0, 5, by decide +kernel⟩,
   ⟨cmdAt 0 0x0106 [5, 0] (onXlat (fun x => { x with ctxs := [(0, {})] }) (onRing 5 (fun g => { g with state := .error }) {})), 0, 5, by decide +kernel⟩,
   ⟨cmdAt 0 0x0107 [5, 0] (onRing 5 (fun g => { g with state := .cqFull }) {}), 0, 5, by decide +kernel⟩,
   ⟨cmdAt 0 0x0108 [5, 0] (onRing 5 (fun g => { g with state := .cqFull }) {}), 0, 5, 5 :: List.replicate 19 0, by decide +kernel⟩,
   ⟨cmdAt 0 0x0109 [5, 0, 0, 0, 0, 0, 2, 0] (onRing 5 (fun g => { g with state := .running, runs := [{ dest := 16, lost := true, run := 31 }] }) {}), 0, 5, 16, by decide +kernel⟩,
   ⟨cmdAt 0 0x010A [5, 0, 0, 1, 255, 255] (onRing 5 (fun g => { g with state := .running }) {}), 0, 5, by decide +kernel⟩⟩

/-- States and operands that meet the hypotheses of `TranslationCommandsComplete`, clause by clause. -/
theorem witness_TranslationCommandsComplete :
    (∃ (s : State) (lb c : Nat), Started s lb 0x0201 ∧ c = argOf s lb 0x0201 0 ∧ argOf s lb 0x0201 1 % 4096 = 0 ∧ argOf s lb 0x0201 1 < 2 ^ 58 ∧ tfind s.xlat.ctxs c = none ∧ s.xlat.ctxs.length < 4096 ∧ contextsOf s lb < contextQuota s lb)
    ∧ (∃ (s : State) (lb c : Nat), Started s lb 0x0202 ∧ c = argOf s lb 0x0202 0 ∧ ownCtx s (some lb) c = true ∧ ringsUseCtx s c = false)
    ∧ (∃ (s : State) (lb c : Nat), Started s lb 0x0203 ∧ c = argOf s lb 0x0203 0 ∧ ownCtx s (some lb) c = true ∧ argOf s lb 0x0203 1 % 4096 = 0 ∧ argOf s lb 0x0203 1 < 2 ^ 58 ∧ ((s.xlat.units.all fun e => e.2.walks.isEmpty) = true) ∧ s.xlat.waits = [] ∧ s.xlat.pins = [] ∧ readsUnder s c true = [] ∧ issuersUnder s c 0 0 = [])
    ∧ (∃ (s : State) (lb c : Nat), Started s lb 0x0204 ∧ c = argOf s lb 0x0204 0 ∧ ownCtx s (some lb) c = true ∧ ((s.xlat.units.all fun e => e.2.walks.isEmpty) = true) ∧ s.xlat.waits = [] ∧ s.xlat.pins = [] ∧ readsUnder s c true = [] ∧ issuersUnder s c (argOf s lb 0x0204 1) (argOf s lb 0x0204 2) = [])
    ∧ (∃ (s : State) (lb c : Nat) (ts : List Nat), Started s lb 0x0205 ∧ c = argOf s lb 0x0205 0 ∧ ownCtx s (some lb) c = true ∧ ((s.xlat.units.all fun e => e.2.walks.isEmpty) = true) ∧ s.xlat.waits = [] ∧ s.xlat.pins = [] ∧ readsUnder s c true = [] ∧ issuersUnder s c (argOf s lb 0x0205 3) (argOf s lb 0x0205 4) = [] ∧ argOf s lb 0x0205 1 = 2 ∧ (ts = broadcastTargets s 2 ((List.range (argOf s lb 0x0205 2)).map fun i => argOf s lb 0x0205 (5 + i))) ∧ ts ≠ [])
    ∧ (∃ (s : State) (lb c : Nat), Started s lb 0x0206 ∧ c = argOf s lb 0x0206 0 ∧ ownCtx s (some lb) c = true ∧ ((s.xlat.units.all fun e => e.2.walks.isEmpty) = true) ∧ s.xlat.waits = [] ∧ s.xlat.pins = [] ∧ readsUnder s c true = [])
    ∧ (∃ (s : State) (lb c va : Nat), Started s lb 0x0207 ∧ c = argOf s lb 0x0207 0 ∧ va = argOf s lb 0x0207 1 ∧ ownCtx s (some lb) c = true ∧ va + argOf s lb 0x0207 2 ≤ 2 ^ 57 ∧ 0 < argOf s lb 0x0207 2 ∧ (unitOf s (postUnit s)).walks = [])
    ∧ (∃ (s : State) (lb c : Nat) (ps : List Pin), Started s lb 0x0208 ∧ c = argOf s lb 0x0208 0 ∧ ownCtx s (some lb) c = true ∧ (ps = s.xlat.pins.filter fun p => p.ctx == c && p.programmed.isNone && decide (0 < argOf s lb 0x0208 2 ∧ argOf s lb 0x0208 1 < p.va + p.size ∧ p.va < argOf s lb 0x0208 1 + argOf s lb 0x0208 2)))
    ∧ (∃ (s : State) (lb k : Nat), Started s lb 0x0209 ∧ k = argOf s lb 0x0209 0 ∧ slotBound s k = false)
    ∧ (∃ (s : State) (lb k : Nat), Started s lb 0x020A ∧ k = argOf s lb 0x020A 0 ∧ 1 ≤ k ∧ k < 224 ∧ slotBound s k = false)
    ∧ (∃ (s : State) (lb r c : Nat), Started s lb 0x020B ∧ r = argOf s lb 0x020B 0 ∧ c = argOf s lb 0x020B 2 ∧ ownRing s (some lb) r = true ∧ ownCtx s (some lb) c = true ∧ (ringOf s r).state = .stopped ∧ (ringOf s r).ran = false) :=
  ⟨⟨cmdAt 0 0x0201 ([7, 0, 0, 0, 0, 0, 0, 0] ++ leBytes 8 (2 ^ 58 - 4096)) {}, 0, 7, by decide +kernel⟩,
   ⟨cmdAt 0 0x0202 [7, 0, 0, 0] (onXlat (fun x => { x with ctxs := [(7, {})], units := [(3, { tlb := [{ ctx := 7, va := 65536, size := 65536, target := .host 0 false, r := true, w := true, a := false }], mirror := [{ ctx := 7, addr := 0, level := 0, va := 0, entries := [] }] })] }) {}), 0, 7, by decide +kernel⟩,
   ⟨cmdAt 0 0x0203 [7, 0, 0, 0, 0, 0, 0, 0, 0, 16, 0, 0, 0, 0, 0, 0] (onXlat (fun x => { x with ctxs := [(7, {})], units := [(3, { tlb := [{ ctx := 7, va := 65536, size := 65536, target := .host 0 false, r := true, w := true, a := false }], mirror := [{ ctx := 7, addr := 0, level := 0, va := 0, entries := [] }] })] }) {}), 0, 7, by decide +kernel⟩,
   ⟨cmdAt 0 0x0204 ([7, 0, 0, 0, 0, 0, 0, 0] ++ leBytes 8 131071 ++ leBytes 8 1) (onXlat (fun x => { x with ctxs := [(7, {})], units := [(3, { tlb := [{ ctx := 7, va := 65536, size := 65536, target := .host 0 false, r := true, w := true, a := false }], mirror := [{ ctx := 7, addr := 0, level := 0, va := 0, entries := [] }] })] }) {}), 0, 7, by decide +kernel⟩,
   ⟨cmdAt 0 0x0205 ([7, 0, 0, 0, 2, 0, 1, 0] ++ leBytes 8 131071 ++ leBytes 8 1 ++ [9, 0]) (onXlat (fun x => { x with ctxs := [(7, {})], units := [(3, { tlb := [{ ctx := 7, va := 65536, size := 65536, target := .host 0 false, r := true, w := true, a := false }], mirror := [{ ctx := 7, addr := 0, level := 0, va := 0, entries := [] }] })] }) {}), 0, 7, [9], by decide +kernel⟩,
   ⟨cmdAt 0 0x0206 [7, 0, 0, 0] (onXlat (fun x => { x with ctxs := [(7, {})], units := [(3, { tlb := [{ ctx := 7, va := 65536, size := 65536, target := .host 0 false, r := true, w := true, a := false }], mirror := [{ ctx := 7, addr := 0, level := 0, va := 0, entries := [] }] })] }) {}), 0, 7, by decide +kernel⟩,
   ⟨cmdAt 0 0x0207 ([7, 0, 0, 0, 0, 0, 0, 0] ++ leBytes 8 (2 ^ 57 - 65536) ++ leBytes 8 65536) (onXlat (fun x => { x with ctxs := [(7, {})], units := [(3, { tlb := [{ ctx := 7, va := 65536, size := 65536, target := .host 0 false, r := true, w := true, a := false }], mirror := [{ ctx := 7, addr := 0, level := 0, va := 0, entries := [] }] })] }) {}), 0, 7, 2 ^ 57 - 65536, by decide +kernel⟩,
   ⟨cmdAt 0 0x0208 ([7, 0, 0, 0, 0, 0, 0, 0] ++ leBytes 8 131071 ++ leBytes 8 1) (onXlat (fun x => { x with ctxs := [(7, {})], pins := [{ ctx := 7, va := 65536, size := 65536, count := 1, programmed := none, leaf := none }] }) {}), 0, 7, [{ ctx := 7, va := 65536, size := 65536, count := 1, programmed := none, leaf := none }], by decide +kernel⟩,
   ⟨cmdAt 0 0x0209 ([1, 0, 0] ++ List.replicate 64 7) {}, 0, 1, by decide +kernel⟩,
   ⟨cmdAt 0 0x020A [223] (onFabric (fun x => { x with keys := [(223, { key := [] })] }) {}), 0, 223, by decide +kernel⟩,
   ⟨cmdAt 0 0x020B [5, 0, 1, 0, 7, 0, 0, 0, 255, 255, 255, 255] (onXlat (fun x => { x with ctxs := [(7, {})] }) (onRing 5 (fun g => { g with state := .stopped }) {})), 0, 5, 7, by decide +kernel⟩⟩

/-- States and operands that meet the hypotheses of `TestPortRowsComplete`, clause by clause. -/
theorem witness_TestPortRowsComplete :
    (∃ (s : State) (tap : Nat), testPowered s = true ∧ tap < 16)
    ∧ (∃ (s : State) (tap : Nat), tap < 16 ∧ testPowered s = true)
    ∧ (∃ (s : State) (tap : Nat), tap < 16 ∧ testPowered s = true)
    ∧ (∃ (s : State) (tap : Nat), tap < 16 ∧ boundaryActs s 3 = true)
    ∧ (∃ (s : State) (tap : Nat), tap < 16 ∧ boundaryActs s 4 = true)
    ∧ (∃ (s : State) (tap : Nat), tap < 16 ∧ boundaryActs s 5 = true)
    ∧ (∃ (s : State) (tap : Nat), tap < 16 ∧ boundaryActs s 6 = true)
    ∧ (∃ (s : State) (tap : Nat), tap < 16 ∧ boundaryActs s 7 = true)
    ∧ (∃ (s : State) (tap code : Nat), tap < 16 ∧ testPowered s = true ∧ code < 256 ∧ (code = 0 ∨ 8 ≤ code)) :=
  ⟨⟨managed, 15, by decide +kernel⟩,
   ⟨managed, 15, by decide +kernel⟩,
   ⟨managed, 15, by decide +kernel⟩,
   ⟨managed, 15, by decide +kernel⟩,
   ⟨managed, 15, by decide +kernel⟩,
   ⟨managed, 15, by decide +kernel⟩,
   ⟨managed, 15, by decide +kernel⟩,
   ⟨managed, 15, by decide +kernel⟩,
   ⟨managed, 15, 0xFF, by decide +kernel⟩⟩

/-- States and operands that meet the hypotheses of `BusRowsComplete`, clause by clause. -/
theorem witness_BusRowsComplete :
    (∃ (s : State) (address : Nat), mgmtUp s = true ∧ address < 128)
    ∧ (∃ (s : State) (address : Nat), mgmtUp s = true ∧ address < 128 ∧ s.mgmt.i3c = false)
    ∧ (∃ (s : State), mgmtUp s = true)
    ∧ (∃ (s : State), mgmtUp s = true)
    ∧ (∃ (s : State) (operation eid : Nat), mgmtUp s = true ∧ operation ≤ 1 ∧ 8 ≤ eid ∧ eid ≤ 254)
    ∧ (∃ (s : State) (dest : Nat), controlAnswers s dest = true)
    ∧ (∃ (s : State) (dest : Nat), controlAnswers s dest = true)
    ∧ (∃ (s : State) (dest ty : Nat), controlAnswers s dest = true ∧ (ty = 0xFF ∨ ty ∈ mctpTypes))
    ∧ (∃ (s : State) (dest : Nat), controlAnswers s dest = true)
    ∧ (∃ (s : State) (dest : Nat), controlAnswers s dest = true)
    ∧ (∃ (s : State) (tag : Nat), endpointReady s = true ∧ tag < 2 ^ 32) :=
  ⟨⟨managed, 127, by decide +kernel⟩,
   ⟨managed, 127, by decide +kernel⟩,
   ⟨managed, by decide +kernel⟩,
   ⟨managed, by decide +kernel⟩,
   ⟨managed, 1, 254, by decide +kernel⟩,
   ⟨managed, 9, by decide +kernel⟩,
   ⟨managed, 0, by decide +kernel⟩,
   ⟨managed, 0, 0x7E, by decide +kernel⟩,
   ⟨managed, 0, by decide +kernel⟩,
   ⟨managed, 0, by decide +kernel⟩,
   ⟨managed, 7, by decide +kernel⟩⟩

/-- States and operands that meet the hypotheses of `MonitoringRowsComplete`, clause by clause. -/
theorem witness_MonitoringRowsComplete :
    (∃ (s : State) (handle id : Nat), endpointReady s = true ∧ numericIds[max handle 1 - 1]? = some id)
    ∧ (∃ (s : State), endpointReady s = true)
    ∧ (∃ (s : State) (sensor : Nat), endpointReady s = true ∧ numericSensor sensor = true)
    ∧ (∃ (s : State) (sensor : Nat), endpointReady s = true ∧ stateSensor sensor = true)
    ∧ (∃ (s : State) (effecter v : Nat), endpointReady s = true ∧ ((effecter = 0x500 ∧ v = s.mgmt.effPower) ∨ (effecter = 0x502 ∧ v = s.mgmt.effReset) ∨ (effecter = 0x503 ∧ v = b2n s.power.safeArmed) ∨ (effecter = 0x504 ∧ v = s.mgmt.effLatch)))
    ∧ (∃ (s : State) (tid : Nat), endpointReady s = true ∧ 1 ≤ tid ∧ tid < 0xFF)
    ∧ (∃ (s : State), endpointReady s = true)
    ∧ (∃ (s : State), endpointReady s = true)
    ∧ (∃ (s : State) (value target : Nat), endpointReady s = true ∧ value ≤ 6 ∧ (target = (if value = 5 then 3 else if value = 6 then 4 else value)) ∧ inSafe s = false ∧ requestError s target = none)
    ∧ (∃ (s : State), endpointReady s = true ∧ (s.power.boot = .serving ∨ s.power.boot = .safe))
    ∧ (∃ (s : State) (n : Nat), endpointReady s = true ∧ (s.power.boot = .waves n ∨ s.power.boot = .retried))
    ∧ (∃ (s : State) (value : Nat), endpointReady s = true ∧ value ≤ 1)
    ∧ (∃ (s : State), endpointReady s = true)
    ∧ (∃ (s : State), mgmtUp s = true) :=
  ⟨⟨managed, 0, 1, by decide +kernel⟩,
   ⟨managed, by decide +kernel⟩,
   ⟨managed, 0x387, by decide +kernel⟩,
   ⟨managed, 0x4DF, by decide +kernel⟩,
   ⟨managed, 0x504, 0, by decide +kernel⟩,
   ⟨managed, 0xFE, by decide +kernel⟩,
   ⟨managed, by decide +kernel⟩,
   ⟨managed, by decide +kernel⟩,
   ⟨{ managed with power := { managed.power with boot := .serving, inA := true, inB := true, enable := true } }, 5, 3, by decide +kernel⟩,
   ⟨{ managed with power := { managed.power with boot := .safe } }, by decide +kernel⟩,
   ⟨{ managed with power := { managed.power with boot := .waves 9 } }, 9, by decide +kernel⟩,
   ⟨managed, 1, by decide +kernel⟩,
   ⟨managed, by decide +kernel⟩,
   ⟨managed, by decide +kernel⟩⟩

/-- States and operands that meet the hypotheses of `UpdateRowsComplete`, clause by clause. -/
theorem witness_UpdateRowsComplete :
    (∃ (s : State), endpointReady s = true)
    ∧ (∃ (s : State), endpointReady s = true)
    ∧ (∃ (s : State), endpointReady s = true ∧ s.mgmt.update = 0 ∧ storeBusy s = false)
    ∧ (∃ (s : State), endpointReady s = true ∧ s.mgmt.update = 1)
    ∧ (∃ (s : State) (length : Nat), endpointReady s = true ∧ s.mgmt.update = 2 ∧ length ≤ firmwareMax)
    ∧ (∃ (s : State) (data : List Byte), endpointReady s = true ∧ s.mgmt.update = 3 ∧ s.mgmt.updateData.length < s.mgmt.updateLength ∧ data.length = min 1024 (s.mgmt.updateLength - s.mgmt.updateData.length))
    ∧ (∃ (s : State), endpointReady s = true ∧ s.mgmt.update = 3 ∧ s.mgmt.updateLength ≤ s.mgmt.updateData.length)
    ∧ (∃ (s : State), endpointReady s = true ∧ s.mgmt.update = 4 ∧ s.mgmt.updateResult = 0)
    ∧ (∃ (s : State), endpointReady s = true ∧ s.mgmt.update = 5)
    ∧ (∃ (s : State) (d : List Byte), endpointReady s = true ∧ s.mgmt.update = 2 ∧ verifiedImage s = some d ∧ (s.post.standby = false ∨ handoverReady s none = true))
    ∧ (∃ (s : State), endpointReady s = true)
    ∧ (∃ (s : State), endpointReady s = true ∧ 3 ≤ s.mgmt.update)
    ∧ (∃ (s : State), endpointReady s = true ∧ 3 ≤ s.mgmt.update)
    ∧ (∃ (s : State), mgmtUp s = true ∧ s.mgmt.update = 3) :=
  ⟨⟨managed, by decide +kernel⟩,
   ⟨managed, by decide +kernel⟩,
   ⟨managed, by decide +kernel⟩,
   ⟨{ managed with mgmt := { eid := 9, update := 1 } }, by decide +kernel⟩,
   ⟨{ managed with mgmt := { eid := 9, update := 2 } }, 24 * 2 ^ 20, by decide +kernel⟩,
   ⟨{ managed with mgmt := { eid := 9, update := 3, updateLength := 1 } }, [0], by decide +kernel⟩,
   ⟨{ managed with mgmt := { eid := 9, update := 3 } }, by decide +kernel⟩,
   ⟨{ managed with mgmt := { eid := 9, update := 4 } }, by decide +kernel⟩,
   ⟨{ managed with mgmt := { eid := 9, update := 5 } }, by decide +kernel⟩,
   ⟨{ managed with mgmt := { eid := 9, update := 2 }, post := { State.reset.post with fw := [(1, { state := 2 }), (3, { state := 2 })] } }, [], by decide +kernel⟩,
   ⟨managed, by decide +kernel⟩,
   ⟨{ managed with mgmt := { eid := 9, update := 3 } }, by decide +kernel⟩,
   ⟨{ managed with mgmt := { eid := 9, update := 3 } }, by decide +kernel⟩,
   ⟨{ managed with mgmt := { eid := 9, update := 3 } }, by decide +kernel⟩⟩

/-- States and operands that meet the hypotheses of `AttestationRowsComplete`, clause by clause. -/
theorem witness_AttestationRowsComplete :
    (∃ (s : State) (transport : Nat), transport < 3 ∧ spdmOpen s transport = true)
    ∧ (∃ (s : State) (transport : Nat), transport < 3 ∧ spdmOpen s transport = true ∧ (spdmOf s transport).resync = false ∧ 1 ≤ (spdmOf s transport).negotiated)
    ∧ (∃ (s : State) (transport : Nat), transport < 3 ∧ spdmOpen s transport = true ∧ (spdmOf s transport).resync = false ∧ 2 ≤ (spdmOf s transport).negotiated)
    ∧ (∃ (s : State) (transport : Nat), transport < 3 ∧ spdmOpen s transport = true ∧ (spdmOf s transport).resync = false ∧ 3 ≤ (spdmOf s transport).negotiated)
    ∧ (∃ (s : State) (transport : Nat) (offset length : Nat), transport < 3 ∧ spdmOpen s transport = true ∧ (spdmOf s transport).resync = false ∧ 3 ≤ (spdmOf s transport).negotiated ∧ offset ≤ Config.certificateChain.length)
    ∧ (∃ (s : State) (transport : Nat), transport < 3 ∧ spdmOpen s transport = true ∧ (spdmOf s transport).resync = false ∧ 3 ≤ (spdmOf s transport).negotiated)
    ∧ (∃ (s : State) (transport : Nat) (index : Nat), transport < 3 ∧ spdmOpen s transport = true ∧ (spdmOf s transport).resync = false ∧ 3 ≤ (spdmOf s transport).negotiated ∧ 1 ≤ index ∧ index ≤ 6)
    ∧ (∃ (s : State) (port : Nat), port < 2 ∧ spdmOpen s (port + 1) = true) :=
  ⟨⟨managed, 0, by decide +kernel⟩,
   ⟨{ managed with mgmt := { eid := 9, spdm := [(0, { negotiated := 3 })] } }, 0, by decide +kernel⟩,
   ⟨{ managed with mgmt := { eid := 9, spdm := [(0, { negotiated := 3 })] } }, 0, by decide +kernel⟩,
   ⟨{ managed with mgmt := { eid := 9, spdm := [(0, { negotiated := 3 })] } }, 0, by decide +kernel⟩,
   ⟨{ managed with mgmt := { eid := 9, spdm := [(0, { negotiated := 3 })] } }, 0, 0, 5, by decide +kernel⟩,
   ⟨{ managed with mgmt := { eid := 9, spdm := [(0, { negotiated := 3 })] } }, 0, by decide +kernel⟩,
   ⟨{ managed with mgmt := { eid := 9, spdm := [(0, { negotiated := 3 })] } }, 0, 6, by decide +kernel⟩,
   ⟨(hostUp managed), 0, by decide +kernel⟩⟩

/-- States and operands that meet the hypotheses of `PowerUpRowsComplete`, clause by clause. -/
theorem witness_PowerUpRowsComplete :
    (∃ (s : State) (a b : Bool) (board : BoardStart), s.power.boot = .unpowered ∧ s.power.inA = false ∧ s.power.inB = false ∧ (a || b) = true ∧ board.processorStarts = true)
    ∧ (∃ (s : State) (board : BoardStart), s.power.boot = .unpowered ∧ board.processorStarts = false)
    ∧ (∃ (s : State) (input : Nat), input < 2 ∧ postUp s = false)
    ∧ (∃ (s : State) (board : BoardStart), s.power.inA = false ∧ s.power.inB = false ∧ board = (freshBoard s).1)
    ∧ (∃ (s : State), (s.power.inA || s.power.inB) = true ∧ s.power.boot ≠ .shutdown ∧ s.power.mctpOpen = false)
    ∧ (∃ (s : State), postUp s = true)
    ∧ (∃ (s : State), s.power.enable = false)
    ∧ (∃ (s : State) (n : Nat), s.power.enable = true ∧ s.power.boot = .serving ∧ s.power.state = some n ∧ n ≠ 4)
    ∧ (∃ (s : State) (n : Nat), s.power.enable = true ∧ (s.power.boot = .retried ∨ s.power.boot = .waves n))
    ∧ (∃ (s : State), s.power.boot = .standby ∧ s.power.enable = true ∧ s.power.latchPending = false ∧ s.power.alertSupervisor = false ∧ tapHolds s = false ∧ s.power.inA = true ∧ s.power.inB = true)
    ∧ (∃ (s : State) (n : Nat), s.power.boot = .waves n ∧ n < 9 ∧ testStops s = none)
    ∧ (∃ (s : State), s.power.boot = .waves 9 ∧ (untestedMembers s).isEmpty = false ∧ testStops s = none)
    ∧ (∃ (s : State) (ok : Bool), (s.power.boot = .retried ∨ (s.power.boot = .waves 9 ∧ untestedMembers s = [])) ∧ testStops s = none ∧ s.power.inA = true ∧ s.power.inB = true ∧ (safeReason (selectedMap s).isNone (onMem (fun _ => {}) (writeFindings ok s)) = none))
    ∧ (∃ (s : State) (n : Nat), (s.power.boot = .retried ∨ s.power.boot = .waves n) ∧ testStops s = none) :=
  ⟨⟨{}, false, true, {}, by decide +kernel⟩,
   ⟨{}, { processorStarts := false }, by decide +kernel⟩,
   ⟨{ power := { boot := .shutdown, inA := true } }, 0, by decide +kernel⟩,
   ⟨{ time := { rackTime := 5 } }, (freshBoard { time := { rackTime := 5 } }).1, rfl, rfl, rfl⟩,
   ⟨{ power := { inA := true } }, by decide +kernel⟩,
   ⟨serving, by decide +kernel⟩,
   ⟨{ standbyUp with power := { standbyUp.power with enable := false, latchPending := true } }, by decide +kernel⟩,
   ⟨serving, 0, by decide +kernel⟩,
   ⟨{ power := { boot := .waves 8, enable := true } }, 8, by decide +kernel⟩,
   ⟨standbyUp, by decide +kernel⟩,
   ⟨{ power := { boot := .waves 8, state := some 4 } }, 8, by decide +kernel⟩,
   ⟨{ power := { boot := .waves 9, state := some 4 } }, by decide +kernel⟩,
   ⟨{ power := { boot := .retried, state := some 4, inA := true, inB := true, results := [(96, .pass)] }, post := { State.reset.post with maps := [(0, { header := mapHeader 1 [] })] } }, true, by decide +kernel⟩,
   ⟨{ power := { boot := .waves 0 } }, 0, by decide +kernel⟩⟩

/-- States and operands that meet the hypotheses of `GovernorRowsComplete`, clause by clause. -/
theorem witness_GovernorRowsComplete :
    (∃ (s : State) (q : PowerReq), s.power.pending = some q ∧ s.power.trans = none ∧ s.power.state = some 0 ∧ s.power.boot = .serving ∧ requestError s q.target = none ∧ q.target ≠ 0)
    ∧ (∃ (s : State) (q : PowerReq), s.power.trans = some { req := q, step := .waitLaunches } ∧ s.res.launches = [] ∧ launchStarted s = false ∧ ((s.res.phs.any fun e => e.2.state == .loading) = false) ∧ q.target ≠ 1)
    ∧ (∃ (s : State) (q : PowerReq), s.power.trans = some { req := q, step := .waitRings } ∧ ((s.rings.any fun e => e.2.started.any fun d => d.status.isNone) = false))
    ∧ (∃ (s : State) (q : PowerReq), s.power.trans = some { req := q, step := .waitInflight } ∧ inFlightCount s = 0 ∧ q.target = 2)
    ∧ (∃ (s : State) (q : PowerReq) (st : Step49) (n : Nat), s.power.trans = some { req := q, step := st } ∧ (st = .waitLaunches ∨ st = .waitRings) ∧ s.power.state = some n)
    ∧ (∃ (s : State) (q : PowerReq) (st : Step49) (n : Nat), s.power.trans = some { req := q, step := st } ∧ (st = .waitInflight ∨ st = .exiting) ∧ s.power.state = some n ∧ n ≠ 0)
    ∧ (∃ (s : State) (q : PowerReq), s.power.trans = some { req := q, step := .exiting } ∧ s.power.state = some 1 ∧ q.target = 0)
    ∧ (∃ (s : State) (input f : Nat) (w : Rat), s.power.state = some 0 ∧ ((f, w) ∈ budgetsOf (onPower (fun p => trimPool { p with inputBad := false, inputMw := input }) s)))
    ∧ (∃ (s : State) (powers : List (Option Nat)) (f mw : Nat), s.power.state = some 0 ∧ f ∈ budgetFronds s ∧ powers[f]? = some (some mw))
    ∧ (∃ (input f : Nat), 34000000 < input ∧ f < 84)
    ∧ (∃ (s : State) (input n : Nat), input < 2 ∧ s.power.boot = .serving ∧ s.power.state = some n ∧ n < 3)
    ∧ (∃ (f : Nat), f < 84)
    ∧ (∃ (f : Nat), f < 84)
    ∧ (∃ (f : Nat), f < 84)
    ∧ (∃ (s : State) (lb : Nat), Started s lb 0x0501 ∧ s.power.pending = none ∧ requestError s (argOf s lb 0x0501 0) = none)
    ∧ (∃ (s : State) (lb : Nat), Started s lb 0x0502)
    ∧ (∃ (s : State) (lb f : Nat), Started s lb 0x0503 ∧ f ∈ frondsInService s ∧ (argOf s lb 0x0503 0 = f ∨ argOf s lb 0x0503 0 = 0xFF))
    ∧ (∃ (s : State) (lb f : Nat), Started s lb 0x0504 ∧ f < 84 ∧ (argOf s lb 0x0504 0 = f ∨ argOf s lb 0x0504 0 = 0xFF)) :=
  ⟨⟨servingWith (fun p => { p with pending := some { target := 2, release := false, waitMs := 10, source := .enable } }), { target := 2, release := false, waitMs := 10, source := .enable }, by decide +kernel⟩,
   ⟨transAt 0 2 .waitLaunches, { target := 2, release := false, waitMs := 10, source := .enable }, by decide +kernel⟩,
   ⟨transAt 1 2 .waitRings, { target := 2, release := false, waitMs := 10, source := .enable }, by decide +kernel⟩,
   ⟨transAt 1 2 .waitInflight, { target := 2, release := false, waitMs := 10, source := .enable }, by decide +kernel⟩,
   ⟨transAt 1 2 .waitRings, { target := 2, release := false, waitMs := 10, source := .enable }, .waitRings, 1, by decide +kernel⟩,
   ⟨transAt 2 0 .exiting, { target := 0, release := false, waitMs := 10, source := .enable }, .exiting, 2, by decide +kernel⟩,
   ⟨transAt 1 0 .exiting, { target := 0, release := false, waitMs := 10, source := .enable }, by decide +kernel⟩,
   ⟨servingWith (fun p => { p with pool := 5040 }), 30000000, 0, 60, by decide +kernel⟩,
   ⟨serving, [some 700000], 0, 700000, by decide +kernel⟩,
   ⟨34000001, 83, by decide +kernel⟩,
   ⟨serving, 1, 0, by decide +kernel⟩,
   ⟨83, by decide +kernel⟩,
   ⟨83, by decide +kernel⟩,
   ⟨83, by decide +kernel⟩,
   ⟨cmdAt 0 0x0501 [2, 0, 0, 0] serving, 0, by decide +kernel⟩,
   ⟨cmdAt 0 0x0502 [] serving, 0, by decide +kernel⟩,
   ⟨cmdAt 0 0x0503 [0xFF, 0, 0xB0, 4] serving, 0, 83, by decide +kernel⟩,
   ⟨cmdAt 0 0x0504 [0xFF, 15] serving, 0, 83, by decide +kernel⟩⟩

/-- States and operands that meet the hypotheses of `TimeRowsComplete`, clause by clause. -/
theorem witness_TimeRowsComplete :
    (∃ (s : State) (l : RackLoad), postUp s = true ∧ s.time.loads = [l] ∧ loadDue s l = true ∧ s.time.rackTime ≤ l.seconds * ticksPerSecond ∧ s.time.awaitingPps = false)
    ∧ (∃ (s : State), postUp s = true)
    ∧ (∃ (s : State), postUp s = true ∧ s.time.holdover = false)
    ∧ (∃ (s : State), postUp s = true ∧ s.time.holdover = true ∧ s.time.freeRunning = false)
    ∧ (∃ (s : State), postUp s = true ∧ s.time.holdover = true)
    ∧ (∃ (s : State), s.time.slew ≠ 0)
    ∧ (∃ (s : State), postUp s = true ∧ s.time.onE8 = false)
    ∧ (∃ (s : State) (lb : Nat), Started s lb 0x0505 ∧ argOf s lb 0x0505 0 * ticksPerSecond < 2 ^ 64)
    ∧ (∃ (s : State) (lb : Nat), Started s lb 0x0506)
    ∧ (∃ (s : State) (l : RackLoad) (rest : List RackLoad) (lb : Nat), s.time.loads = l :: rest ∧ l.assigned = false ∧ l.lb = some lb ∧ Waits s lb 0x0505) :=
  ⟨⟨{ serving with time := { rackTime := 156250, loads := [{ seconds := 1, acceptedAt := 0, assigned := true, lb := none }] } }, { seconds := 1, acceptedAt := 0, assigned := true, lb := none }, by decide +kernel⟩,
   ⟨serving, by decide +kernel⟩,
   ⟨serving, by decide +kernel⟩,
   ⟨{ serving with time := { holdover := true } }, by decide +kernel⟩,
   ⟨{ serving with time := { holdover := true } }, by decide +kernel⟩,
   ⟨{ serving with time := { slew := -1, slewPeriods := 1023, rackTime := 7 } }, by decide +kernel⟩,
   ⟨serving, by decide +kernel⟩,
   ⟨cmdAt 0 0x0505 (leBytes 8 7) serving, 0, by decide +kernel⟩,
   ⟨cmdAt 0 0x0506 [] serving, 0, by decide +kernel⟩,
   ⟨onLb 0 (fun l => { l with phase := .waiting }) (cmdAt 0 0x0505 (leBytes 8 7) { serving with time := { loads := [{ seconds := 7, acceptedAt := 0, assigned := false, lb := some 0 }] } }), { seconds := 7, acceptedAt := 0, assigned := false, lb := some 0 }, [], 0, by decide +kernel⟩⟩

/-- States and operands that meet the hypotheses of `RepairCommandsComplete`, clause by clause. -/
theorem witness_RepairCommandsComplete :
    (∃ (s : State) (lb : Nat) (part : List Byte), Started s lb 0x0601 ∧ argOf s lb 0x0601 0 ≤ (reportBytes s).length ∧ part = ((reportBytes s).drop (argOf s lb 0x0601 0)).take 2026)
    ∧ (∃ (s : State) (lb : Nat) (recs : List JRec) (d : List Byte), Started s lb 0x0602 ∧ oldestRecord s.post.journal ≤ argOf s lb 0x0602 1 ∧ argOf s lb 0x0602 1 ≤ s.post.journal.next ∧ (recs = (s.post.journal.recs.filter fun r => decide (argOf s lb 0x0602 1 ≤ r.index)).take (argOf s lb 0x0602 0)) ∧ (d = pack [u8 recs.length, u64 (match recs.getLast? with | some r => r.index + 1 | none => argOf s lb 0x0602 1)] ++ recs.flatMap recordBytes) ∧ argOf s lb 0x0602 0 ≤ 31)
    ∧ (∃ (s : State) (lb : Nat), Started s lb 0x0603)
    ∧ (∃ (s : State) (lb : Nat), Started s lb 0x0604 ∧ argOf s lb 0x0604 0 = 0 ∧ argOf s lb 0x0604 2 + argOf s lb 0x0604 1 ≤ s.post.entries.length ∧ argOf s lb 0x0604 1 ≤ 250)
    ∧ (∃ (s : State) (lb : Nat), Started s lb 0x0604 ∧ argOf s lb 0x0604 0 = 1 ∧ s.post.entries.length < mapLimit)
    ∧ (∃ (s : State) (lb : Nat), Started s lb 0x0604 ∧ argOf s lb 0x0604 0 = 2 ∧ s.post.entries.contains (BitVec.ofNat 64 (argOf s lb 0x0604 3)) = true)
    ∧ (∃ (s : State) (lb f k : Nat), Started s lb 0x0605 ∧ f = argOf s lb 0x0605 0 ∧ k = argOf s lb 0x0605 1 ∧ spareFree s f k = true)
    ∧ (∃ (s : State) (lb f : Nat), Started s lb 0x0606 ∧ f = argOf s lb 0x0606 0 ∧ (dieOf s f).fenced = false)
    ∧ (∃ (s : State) (lb f : Nat) (o : TestOutcome), Started s lb 0x0607 ∧ f = argOf s lb 0x0607 0 ∧ (dieOf s f).fenced = true ∧ ((dieNeighbours f).any (dieUp s)) = true ∧ (∀ m, o ≠ .failed m))
    ∧ (∃ (s : State) (lb f : Nat) (o : TestOutcome), Started s lb 0x0607 ∧ f = argOf s lb 0x0607 0 ∧ (dieOf s f).fenced = true ∧ (((dieNeighbours f).any (dieUp s)) = false ∨ ∃ m, o = .failed m))
    ∧ (∃ (s : State) (lb last : Nat) (c : Nat → Nat), Started s lb 0x0608 ∧ (counterGroup s (argOf s lb 0x0608 0)).map Prod.fst = some last ∧ ((counterGroup s (argOf s lb 0x0608 0)).map (fun g => (List.range (argOf s lb 0x0608 2)).map fun i => g.2 (argOf s lb 0x0608 1 + i)) = some ((List.range (argOf s lb 0x0608 2)).map fun i => c (argOf s lb 0x0608 1 + i))) ∧ argOf s lb 0x0608 1 + argOf s lb 0x0608 2 ≤ last + 1 ∧ argOf s lb 0x0608 2 ≤ 250)
    ∧ (∃ (s : State) (lb : Nat), Started s lb 0x0609 ∧ s.power.boot = .serving) :=
  ⟨⟨cmdAt 0 0x0601 (leBytes 4 0) serving, 0, _, by decide, Nat.zero_le _, rfl⟩,
   ⟨cmdAt 0 0x0602 ([31] ++ leBytes 15 0) serving, 0, _, _, by decide, by decide, by decide, rfl, rfl, by decide⟩,
   ⟨cmdAt 0 0x0603 [65, 66] serving, 0, by decide +kernel⟩,
   ⟨cmdAt 0 0x0604 (leBytes 16 0) serving, 0, by decide +kernel⟩,
   ⟨cmdAt 0 0x0604 (leBytes 8 1 ++ leBytes 8 77) serving, 0, by decide +kernel⟩,
   ⟨onPost (fun p => { p with entries := [77] }) (cmdAt 0 0x0604 (leBytes 8 2 ++ leBytes 8 77) serving), 0, by decide +kernel⟩,
   ⟨cmdAt 0 0x0605 [83, 0, 0x3E, 1] serving, 0, 83, 318, by decide +kernel⟩,
   ⟨cmdAt 0 0x0606 [83] serving, 0, 83, by decide +kernel⟩,
   ⟨cmdAt 0 0x0607 [83] (onDie 83 (fun x => { x with fenced := true }) serving), 0, 83, .pass, by decide +kernel, by decide +kernel, by decide +kernel, by decide +kernel, fun _ h => nomatch h⟩,
   ⟨cmdAt 0 0x0607 [83] (onDie 83 (fun x => { x with fenced := true }) serving), 0, 83, .failed true, by decide +kernel, by decide +kernel, by decide +kernel, .inr ⟨_, rfl⟩⟩,
   ⟨cmdAt 0 0x0608 [0, 9, 0, 0, 4, 0, 0, 0] serving, 0, 3, fun _ => 0, by decide +kernel⟩,
   ⟨cmdAt 0 0x0609 [] serving, 0, by decide +kernel⟩⟩

/-- States and operands that meet the hypotheses of `FirmwareCommandsComplete`, clause by clause. -/
theorem witness_FirmwareCommandsComplete :
    (∃ (s : State) (lb : Nat), Started s lb 0x0701)
    ∧ (∃ (s : State) (lb tag at_ n : Nat) (c : Ctx), Started s lb 0x0702 ∧ storeHeld s = false ∧ inSafe s = false ∧ tfind s.xlat.ctxs (argOf s lb 0x0702 0) = some c ∧ c.owner = lb ∧ (lbOf s lb).buffer = [] ∧ at_ = argOf s lb 0x0702 2 ∧ 0 < argOf s lb 0x0702 1 ∧ n = pieceLen at_ (argOf s lb 0x0702 1) (fnOf s lb).maxRead ∧ stageBusy s lb = false ∧ canRead s lb = true ∧ tfree (hostPortOf s (lb / 64)).reads 0 16384 = some tag)
    ∧ (∃ (s : State) (lb : Nat), Started s lb 0x0703 ∧ storeHeld s = false)
    ∧ (∃ (s : State) (lb : Nat) (b : List Byte), Started s lb 0x0704 ∧ argOf s lb 0x0704 0 = 0 ∧ storeHeld s = false ∧ verifiedImage s = some b)
    ∧ (∃ (s : State) (lb : Nat) (b : List Byte), Started s lb 0x0704 ∧ argOf s lb 0x0704 0 = 0 ∧ storeHeld s = false ∧ verifiedImage s = some b)
    ∧ (∃ (s : State) (lb : Nat) (b : List Byte), Started s lb 0x0704 ∧ argOf s lb 0x0704 0 = 1 ∧ storeHeld s = false ∧ verifiedImage s = some b ∧ inSafe s = false ∧ s.post.standby = true ∧ s.post.onE8 = false ∧ handoverReady s (some lb) = true)
    ∧ (∃ (s : State) (lb e : Nat), Started s lb 0x0705 ∧ e = argOf s lb 0x0705 0 ∧ edgeWorks s e = true)
    ∧ (∃ (s : State) (lb : Nat), Started s lb 0x0706 ∧ s.post.standby = true ∧ handoverReady s (some lb) = true)
    ∧ (∃ (s : State), postUp s = true)
    ∧ (∃ (s : State), postUp s = true ∧ s.post.onE8 = false ∧ s.post.standby = true)
    ∧ (∃ (s : State), s.post.onE8 = true ∧ s.post.e0Fenced = true ∧ s.post.restartTried = false ∧ edgeWorks s 0 = true)
    ∧ (∃ (s : State), s.post.standby = true) :=
  ⟨⟨cmdAt 0 0x0701 [] serving, 0, by decide +kernel⟩,
   ⟨cmdAt 0 0x0702 (leBytes 4 0 ++ leBytes 4 64 ++ leBytes 8 4096) (onXlat (fun x => { x with ctxs := [(0, {})] }) (onFn 0 (fun f => { f with busMaster := true }) (hostUp serving))), 0, 0, 4096, 64, {}, by decide +kernel⟩,
   ⟨cmdAt 0 0x0703 [] serving, 0, by decide +kernel⟩,
   ⟨onPost (fun p => { p with fw := [(1, { state := 2 }), (3, { state := 2 })] }) (cmdAt 0 0x0704 [0] serving), 0, [], by decide +kernel⟩,
   ⟨onPost (fun p => { p with fw := [(1, { state := 2 }), (3, { state := 2 })] }) (cmdAt 0 0x0704 [0] serving), 0, [], by decide +kernel⟩,
   ⟨onPost (fun p => { p with standby := true, fw := [(1, { state := 2 }), (3, { state := 2 })] }) (cmdAt 0 0x0704 [1] serving), 0, [], by decide +kernel⟩,
   ⟨cmdAt 0 0x0705 [15] serving, 0, 15, by decide +kernel⟩,
   ⟨onPost (fun p => { p with standby := true }) (cmdAt 0 0x0706 [] serving), 0, by decide +kernel⟩,
   ⟨serving, by decide +kernel⟩,
   ⟨onPost (fun p => { p with standby := true }) serving, by decide +kernel⟩,
   ⟨onPost (fun p => { p with onE8 := true, e0Fenced := true }) serving, by decide +kernel⟩,
   ⟨onPost (fun p => { p with standby := true }) serving, by decide +kernel⟩⟩

/-- States and operands that meet the hypotheses of `HostFunctionRowsComplete`, clause by clause. -/
theorem witness_HostFunctionRowsComplete :
    (∃ (s : State) (port : Nat), port < 2 ∧ (mayTrain (onHostPort port (fun p => { p with perst := false }) s) port = true) ∧ (hostPortOf s port).link = 0)
    ∧ (∃ (port : Nat), port < 2)
    ∧ (∃ (s : State) (port : Nat), port < 2 ∧ (hostPortOf s port).link = 1)
    ∧ (∃ (s : State) (port fn k : Nat), port < 2 ∧ fn < 64 ∧ k = 64 * port + fn ∧ (hostPortOf s port).link = 1 ∧ (hostPortOf s port).configReady = true ∧ fnVisible s k = true)
    ∧ (∃ (s : State) (port fn k : Nat), port < 2 ∧ fn < 64 ∧ k = 64 * port + fn ∧ (hostPortOf s port).link = 1 ∧ (hostPortOf s port).configReady = true ∧ fnVisible s k = true)
    ∧ (∃ (s : State) (port fn k v : Nat), port < 2 ∧ fn < 64 ∧ k = 64 * port + fn ∧ (hostPortOf s port).link = 1 ∧ (hostPortOf s port).configReady = true ∧ fnVisible s k = true ∧ (fnOf s k).flr = false ∧ ([128, 256, 512] : List Nat).contains v = true)
    ∧ (∃ (s : State) (port fn k : Nat), port < 2 ∧ fn < 64 ∧ k = 64 * port + fn ∧ fnVisible s k = true ∧ (fnOf s k).busMaster = true ∧ (fnOf s k).flr = false)
    ∧ (∃ (s : State) (port fn k : Nat), port < 2 ∧ fn < 64 ∧ k = 64 * port + fn ∧ fnVisible s k = true ∧ (fnOf s k).busMaster = false ∧ (fnOf s k).flr = false)
    ∧ (∃ (s : State) (port fn k : Nat), port < 2 ∧ fn < 64 ∧ k = 64 * port + fn ∧ fnVisible s k = true ∧ (fnOf s k).flr = false)
    ∧ (∃ (s : State) (port fn k : Nat), port < 2 ∧ fn < 64 ∧ k = 64 * port + fn ∧ (fnOf s k).flr = true ∧ isRunning (lbOf s k) = false)
    ∧ (∃ (s : State) (port : Nat), port < 2 ∧ fnVisible s (64 * port) = true ∧ inSafe s = false ∧ (fnOf s (64 * port)).flr = false)
    ∧ (∃ (s : State) (port : Nat), port < 2 ∧ fnVisible s (64 * port) = true)
    ∧ (∃ (s : State) (port fn k : Nat), port < 2 ∧ fn < 64 ∧ k = 64 * port + fn ∧ fnVisible s k = true ∧ (fnOf s k).d3 = false)
    ∧ (∃ (s : State) (port fn k : Nat), port < 2 ∧ fn < 64 ∧ k = 64 * port + fn ∧ fnVisible s k = true ∧ (fnOf s k).d3 = true)
    ∧ (∃ (s : State) (port fn k : Nat), port < 2 ∧ fn < 64 ∧ k = 64 * port + fn ∧ fnVisible s k = true ∧ inSafe s = false ∧ (fnOf s k).flr = false) :=
  ⟨⟨onHostPort 1 (fun p => { p with perst := true }) (servingWith fun p => { p with results := [(104, .pass)] }), 1, by decide +kernel⟩,
   ⟨0, by decide +kernel⟩,
   ⟨hostUp {}, 0, by decide +kernel⟩,
   ⟨hostUp {}, 0, 0, 0, by decide +kernel⟩,
   ⟨hostUp {}, 0, 0, 0, by decide +kernel⟩,
   ⟨hostUp {}, 0, 0, 0, 512, by decide +kernel⟩,
   ⟨onRing 5 (fun g => { g with state := .running }) (onFn 0 (fun f => { f with busMaster := true }) (hostUp {})), 0, 0, 0, by decide +kernel⟩,
   ⟨hostUp {}, 0, 0, 0, by decide +kernel⟩,
   ⟨hostUp {}, 0, 0, 0, by decide +kernel⟩,
   ⟨onRing 5 (fun g => { g with state := .running, owner := 3 }) (onFn 3 (fun f => { f with flr := true, quotaRings := 4 }) (hostUp {})), 0, 3, 3, by decide +kernel⟩,
   ⟨hostUp {}, 0, by decide +kernel⟩,
   ⟨onFn 0 (fun f => { f with vfEnabled := true, numVfs := 3 }) (hostUp {}), 0, by decide +kernel⟩,
   ⟨hostUp {}, 0, 0, 0, by decide +kernel⟩,
   ⟨onFn 0 (fun f => { f with d3 := true }) (hostUp {}), 0, 0, 0, by decide +kernel⟩,
   ⟨onFn 0 (fun f => { f with priStopped := true }) (hostUp {}), 0, 0, 0, by decide +kernel⟩⟩

/-- States and operands that meet the hypotheses of `HostRegisterRowsComplete`, clause by clause. -/
theorem witness_HostRegisterRowsComplete :
    (∃ (s : State) (port fn k : Nat) (v : Nat), port < 2 ∧ fn < 64 ∧ k = 64 * port + fn ∧ barOpen s k = true ∧ inSafe s = false ∧ v < vectorCount k)
    ∧ (∃ (s : State) (port fn k : Nat), port < 2 ∧ fn < 64 ∧ k = 64 * port + fn ∧ fnVisible s k = true ∧ inSafe s = false ∧ (fnOf s k).flr = false)
    ∧ (∃ (s : State) (port fn k : Nat), port < 2 ∧ fn < 64 ∧ k = 64 * port + fn ∧ fnVisible s k = true ∧ inSafe s = false ∧ (fnOf s k).flr = false)
    ∧ (∃ (s : State) (port fn k : Nat), port < 2 ∧ fn < 64 ∧ k = 64 * port + fn ∧ fnVisible s k = true ∧ (fnOf s k).flr = false)
    ∧ (∃ (s : State) (port fn k : Nat) (bar offset size : Nat) (write : Bool), port < 2 ∧ fn < 64 ∧ k = 64 * port + fn ∧ (bar = 0 ∨ bar = 2) ∧ fnVisible s k = true ∧ goodAccess offset size = false ∧ (write = false ∨ barOpen s k = true))
    ∧ (∃ (s : State) (port fn k : Nat) (size : Nat), port < 2 ∧ fn < 64 ∧ k = 64 * port + fn ∧ (size = 4 ∨ size = 8) ∧ barOpen s k = true ∧ inSafe s = false)
    ∧ (∃ (s : State) (port fn k : Nat) (size : Nat), port < 2 ∧ fn < 64 ∧ k = 64 * port + fn ∧ (size = 4 ∨ size = 8) ∧ barOpen s k = true ∧ inSafe s = false)
    ∧ (∃ (s : State) (port fn k : Nat) (size : Nat), port < 2 ∧ fn < 64 ∧ k = 64 * port + fn ∧ (size = 4 ∨ size = 8) ∧ barOpen s k = true ∧ inSafe s = false)
    ∧ (∃ (s : State) (port fn k : Nat) (size : Nat), port < 2 ∧ fn < 64 ∧ k = 64 * port + fn ∧ (size = 4 ∨ size = 8) ∧ barOpen s k = true ∧ inSafe s = false)
    ∧ (∃ (s : State) (port fn k : Nat) (size : Nat), port < 2 ∧ fn < 64 ∧ k = 64 * port + fn ∧ (size = 4 ∨ size = 8) ∧ barOpen s k = true ∧ inSafe s = false)
    ∧ (∃ (s : State) (port fn k : Nat) (page off size : Nat), port < 2 ∧ fn < 64 ∧ k = 64 * port + fn ∧ (size = 4 ∨ size = 8) ∧ barOpen s k = true ∧ inSafe s = false ∧ page < (if fn = 0 then 1024 else 64) ∧ off = (if fn = 0 then 0x400000 else 0x40000) + 0x1000 * page)
    ∧ (∃ (s : State) (port fn k : Nat) (v : Nat), port < 2 ∧ fn < 64 ∧ k = 64 * port + fn ∧ barOpen s k = true ∧ inSafe s = false ∧ v < vectorCount k)
    ∧ (∃ (s : State) (port fn k : Nat), port < 2 ∧ fn < 64 ∧ k = 64 * port + fn ∧ barOpen s k = true ∧ inSafe s = false)
    ∧ (∃ (s : State) (port fn k : Nat), port < 2 ∧ fn < 64 ∧ k = 64 * port + fn ∧ barOpen s k = true ∧ inSafe s = false)
    ∧ (∃ (s : State) (port fn k : Nat) (v : Nat), port < 2 ∧ fn < 64 ∧ k = 64 * port + fn ∧ barOpen s k = true ∧ inSafe s = false ∧ v < vectorCount k)
    ∧ (∃ (s : State) (port tag : Nat) (r : HostRead), port < 2 ∧ (hostPortOf s port).link = 1 ∧ tfind (hostPortOf s port).reads tag = some r)
    ∧ (∃ (s : State) (port tag : Nat) (r : HostRead) (status : CplStatus), port < 2 ∧ (hostPortOf s port).link = 1 ∧ tfind (hostPortOf s port).reads tag = some r ∧ status ≠ .success)
    ∧ (∃ (s : State) (port tag : Nat) (r : HostRead), port < 2 ∧ (hostPortOf s port).link = 1 ∧ tfind (hostPortOf s port).reads tag = some r ∧ (fnOf s r.fn).completionTimeoutUs ≠ 0)
    ∧ (∃ (s : State) (port tag : Nat) (r : HostRead), port < 2 ∧ (hostPortOf s port).link = 1 ∧ tfind (hostPortOf s port).reads tag = some r)
    ∧ (∃ (s : State) (port tag : Nat), port < 2 ∧ (hostPortOf s port).link = 1 ∧ tfind (hostPortOf s port).reads tag = none)
    ∧ (∃ (s : State) (port : Nat), port < 2 ∧ (hostPortOf s port).link = 1)
    ∧ (∃ (s : State) (port kind : Nat), port < 2 ∧ kind < 3 ∧ (hostPortOf s port).link = 1)
    ∧ (∃ (s : State) (port fn k : Nat) (pasid : Nat) (c : Ctx), port < 2 ∧ fn < 64 ∧ k = 64 * port + fn ∧ fnVisible s k = true ∧ inSafe s = false ∧ tfind s.xlat.ctxs pasid = some c ∧ c.owner = k)
    ∧ (∃ (s : State) (port fn k : Nat) (pasid : Nat), port < 2 ∧ fn < 64 ∧ k = 64 * port + fn ∧ fnVisible s k = true ∧ inSafe s = false ∧ tfind s.xlat.ctxs pasid = none)
    ∧ (∃ (s : State) (port fn k : Nat) (index : Nat) (q : PageReq) (d : Started), port < 2 ∧ fn < 64 ∧ k = 64 * port + fn ∧ fnVisible s k = true ∧ ((fnOf s k).pageReqs.find? (fun q => q.index == index) = some q) ∧ startedOf s q.ring q.count = some d ∧ q.orphan = false ∧ d.page = some index)
    ∧ (∃ (s : State) (port fn k : Nat) (index : Nat) (q : PageReq) (d : Started) (code : PageCode), port < 2 ∧ fn < 64 ∧ k = 64 * port + fn ∧ fnVisible s k = true ∧ ((fnOf s k).pageReqs.find? (fun q => q.index == index) = some q) ∧ startedOf s q.ring q.count = some d ∧ q.orphan = false ∧ d.page = some index ∧ d.status = none ∧ code ≠ .success)
    ∧ (∃ (s : State) (port fn k : Nat) (index : Nat) (q : PageReq) (d : Started), port < 2 ∧ fn < 64 ∧ k = 64 * port + fn ∧ ((fnOf s k).pageReqs.find? (fun q => q.index == index) = some q) ∧ startedOf s q.ring q.count = some d ∧ q.orphan = false ∧ d.page = some index ∧ d.status = none) :=
  ⟨⟨hostUp {}, 0, 0, 0, 2047, by decide +kernel⟩,
   ⟨hostUp {}, 0, 0, 0, by decide +kernel⟩,
   ⟨hostUp {}, 0, 0, 0, by decide +kernel⟩,
   ⟨hostUp {}, 0, 0, 0, by decide +kernel⟩,
   ⟨hostUp {}, 0, 0, 0, 2, 6, 4, false, by decide +kernel⟩,
   ⟨hostUp {}, 0, 0, 0, 8, by decide +kernel⟩,
   ⟨hostUp {}, 0, 0, 0, 8, by decide +kernel⟩,
   ⟨hostUp {}, 0, 0, 0, 8, by decide +kernel⟩,
   ⟨hostUp {}, 0, 0, 0, 8, by decide +kernel⟩,
   ⟨hostUp {}, 0, 0, 0, 8, by decide +kernel⟩,
   ⟨hostUp {}, 0, 0, 0, 1023, 0x7FF000, 8, by decide +kernel⟩,
   ⟨hostUp {}, 0, 0, 0, 2047, by decide +kernel⟩,
   ⟨hostUp {}, 0, 0, 0, by decide +kernel⟩,
   ⟨hostUp {}, 0, 0, 0, by decide +kernel⟩,
   ⟨hostUp {}, 0, 0, 0, 2047, by decide +kernel⟩,
   ⟨onHostPort 0 (fun p => { p with reads := [(7, { fn := 0, addr := 4096, len := 64, purpose := .operand 3 })] }) (hostUp {}), 0, 7, { fn := 0, addr := 4096, len := 64, purpose := .operand 3 }, by decide +kernel⟩,
   ⟨onHostPort 0 (fun p => { p with reads := [(7, { fn := 0, addr := 4096, len := 64, purpose := .operand 3 })] }) (hostUp {}), 0, 7, { fn := 0, addr := 4096, len := 64, purpose := .operand 3 }, .completerAbort, by decide +kernel⟩,
   ⟨onHostPort 0 (fun p => { p with reads := [(7, { fn := 0, addr := 4096, len := 64, purpose := .operand 3 })] }) (hostUp {}), 0, 7, { fn := 0, addr := 4096, len := 64, purpose := .operand 3 }, by decide +kernel⟩,
   ⟨onHostPort 0 (fun p => { p with reads := [(7, { fn := 0, addr := 4096, len := 64, purpose := .operand 3 })] }) (hostUp {}), 0, 7, { fn := 0, addr := 4096, len := 64, purpose := .operand 3 }, by decide +kernel⟩,
   ⟨hostUp {}, 0, 5, by decide +kernel⟩,
   ⟨hostUp {}, 0, by decide +kernel⟩,
   ⟨hostUp {}, 0, 2, by decide +kernel⟩,
   ⟨onXlat (fun x => { x with ctxs := [(9, {})] }) (hostUp {}), 0, 0, 0, 9, {}, by decide +kernel⟩,
   ⟨hostUp {}, 0, 0, 0, 9, by decide +kernel⟩,
   ⟨onRing 2 (fun g => { g with started := [{ count := 4, bytes := [], page := some 1 }] }) (onFn 0 (fun f => { f with pageReqs := [{ index := 1, ring := 2, count := 4, va := 0, ctx := 9 }] }) (hostUp {})), 0, 0, 0, 1, { index := 1, ring := 2, count := 4, va := 0, ctx := 9 }, { count := 4, bytes := [], page := some 1 }, by decide +kernel⟩,
   ⟨onRing 2 (fun g => { g with started := [{ count := 4, bytes := [], page := some 1 }] }) (onFn 0 (fun f => { f with pageReqs := [{ index := 1, ring := 2, count := 4, va := 0, ctx := 9 }] }) (hostUp {})), 0, 0, 0, 1, { index := 1, ring := 2, count := 4, va := 0, ctx := 9 }, { count := 4, bytes := [], page := some 1 }, .responseFailure, by decide +kernel⟩,
   ⟨onRing 2 (fun g => { g with started := [{ count := 4, bytes := [], page := some 1 }] }) (onFn 0 (fun f => { f with pageReqs := [{ index := 1, ring := 2, count := 4, va := 0, ctx := 9 }] }) (hostUp {})), 0, 0, 0, 1, { index := 1, ring := 2, count := 4, va := 0, ctx := 9 }, { count := 4, bytes := [], page := some 1 }, by decide +kernel⟩⟩

/-- States and operands that meet the hypotheses of `ImageCommandsComplete`, clause by clause. -/
theorem witness_ImageCommandsComplete :
    (∃ (s : State) (lb : Nat) (c : Ctx), Started s lb 0x0301 ∧ tfind s.xlat.ctxs (argOf s lb 0x0301 1) = some c ∧ c.owner = lb)
    ∧ (∃ (s : State) (lb tag at_ n : Nat) (c : Ctx), Started s lb 0x0301 ∧ argOf s lb 0x0301 0 = 0 ∧ tfind s.xlat.ctxs (argOf s lb 0x0301 1) = some c ∧ c.owner = lb ∧ (lbOf s lb).buffer = [] ∧ at_ = argOf s lb 0x0301 3 ∧ 0 < argOf s lb 0x0301 2 ∧ n = pieceLen at_ (argOf s lb 0x0301 2) (fnOf s lb).maxRead ∧ imageBusy s lb = false ∧ canRead s lb = true ∧ tfree (hostPortOf s (lb / 64)).reads 0 16384 = some tag)
    ∧ (∃ (s : State) (lb h : Nat) (i : Image), Started s lb 0x0302 ∧ h = argOf s lb 0x0302 0 ∧ ownImage s (some lb) h = some i ∧ phUsing s h = 0)
    ∧ (∃ (s : State) (lb h : Nat) (i : Image), Started s lb 0x0303 ∧ h = argOf s lb 0x0303 0 ∧ ownImage s (some lb) h = some i)
    ∧ (∃ (s : State) (lb h set_ : Nat) (i : Image) (pl : Placing) (p : Ph), Started s lb 0x0304 ∧ ownImage s (some lb) (argOf s lb 0x0304 0) = some i ∧ weightSourceOk s (BitVec.ofNat 32 (argOf s lb 0x0304 2)) = true ∧ budgetError i (argOf s lb 0x0304 1 == 1) = none ∧ routeSetOf s i.ctx = some set_ ∧ tfree s.res.phs 0 4096 = some h ∧ placeAll s i.fronds {} = some pl ∧ claimsOf s lb < claimQuota s lb ∧ p = { image := argOf s lb 0x0304 0, overflow := decide (0 < excessOf i), source := { pc := BitVec.ofNat 32 (argOf s lb 0x0304 2), off := argOf s lb 0x0304 4 }, bound := pl.bound, tileOf := pl.tiles, claims := [lb], order := s.res.nextOrder, lb := some lb } ∧ s.xlat.pins.length + (phPins (moduleNumber s) h i p).length ≤ pinStoreSize ∧ (((phFronds p).any fun f => !slotsFit s i f) = false) ∧ i.stewards ≤ (freeCores s (phFronds p)).length)
    ∧ (∃ (s : State) (lb h : Nat) (p : Ph), Started s lb 0x0305 ∧ h = argOf s lb 0x0305 0 ∧ phOf s h = some p ∧ (lb % 64 = 0 ∨ p.claims.contains (lb / 64 * 64) = true) ∧ p.claims.contains lb = false ∧ claimsOf s lb < claimQuota s lb)
    ∧ (∃ (s : State) (lb h : Nat) (p : Ph), Started s lb 0x0306 ∧ h = argOf s lb 0x0306 0 ∧ claimedPh s (some lb) h = some p ∧ (p.claims.filter (· != lb)).isEmpty = false)
    ∧ (∃ (s : State) (lb h : Nat) (p : Ph), Started s lb 0x0306 ∧ h = argOf s lb 0x0306 0 ∧ claimedPh s (some lb) h = some p ∧ (p.claims.filter (· != lb)).isEmpty = true ∧ p.state ≠ .evicting)
    ∧ (∃ (s : State) (lb h : Nat) (p : Ph), Started s lb 0x0307 ∧ h = argOf s lb 0x0307 0 ∧ claimedPh s (some lb) h = some p)
    ∧ (∃ (s : State) (lb h : Nat) (p : Ph), Started s lb 0x0308 ∧ argOf s lb 0x0308 0 = 0xFFFF ∧ h = argOf s lb 0x0308 1 ∧ claimedPh s (some lb) h = some p)
    ∧ (∃ (s : State) (lb h : Nat) (p : Ph) (fs : List Nat), Started s lb 0x0308 ∧ argOf s lb 0x0308 0 = 0xFFFF ∧ h = argOf s lb 0x0308 1 ∧ claimedPh s (some lb) h = some p ∧ fs = (phFronds p).filter (dieUp s) ∧ fs ≠ [])
    ∧ (∃ (s : State) (lb h : Nat) (p : Ph) (i : Image), Started s lb 0x0309 ∧ h = argOf s lb 0x0309 0 ∧ claimedPh s (some lb) h = some p ∧ imageOf s p = some i)
    ∧ (∃ (s : State) (lb : Nat), Started s lb 0x030A ∧ argOf s lb 0x030A 1 ≤ 50) :=
  ⟨⟨cmdAt 0 0x0301 ([0, 0, 0, 0, 9, 0, 0, 0] ++ leBytes 24 0) (housed serving), 0, {}, by decide +kernel⟩,
   ⟨cmdAt 0 0x0301 ([0, 0, 0, 0] ++ leBytes 4 9 ++ leBytes 8 128 ++ leBytes 8 4096) (housed (onFn 0 (fun f => { f with busMaster := true }) (hostUp serving))), 0, 0, 4096, 128, {}, by decide +kernel⟩,
   ⟨cmdAt 0 0x0302 [1, 0, 0, 0] { (housed serving) with res := { images := [(1, bareImage 0)] } }, 0, 1, bareImage 0, by decide +kernel⟩,
   ⟨cmdAt 0 0x0303 [1, 0, 0, 0] (housed serving), 0, 1, bareImage 0, by decide +kernel⟩,
   ⟨cmdAt 0 0x0304 ([1, 0, 0, 0, 0, 0, 0, 0] ++ leBytes 4 (fieldStorePc (moduleNumber {}) 0).toNat ++ leBytes 20 0) (housed serving), 0, 0, 1, bareImage 0, {}, { barePh .loading [0] (some 0) with source := { pc := fieldStorePc (moduleNumber {}) 0, off := 0 } }, by decide +kernel⟩,
   ⟨cmdAt 64 0x0305 [255, 15] (housed serving), 64, 4095, barePh .resident [0, 5] none, by decide +kernel⟩,
   ⟨cmdAt 0 0x0306 [255, 15] (housed serving), 0, 4095, barePh .resident [0, 5] none, by decide +kernel⟩,
   ⟨cmdAt 0 0x0306 [255, 15] { (housed serving) with res := { images := [(1, bareImage 0)], phs := [(4095, barePh .resident [0] none)] } }, 0, 4095, barePh .resident [0] none, by decide +kernel⟩,
   ⟨cmdAt 0 0x0307 [255, 15] (housed serving), 0, 4095, barePh .resident [0, 5] none, by decide +kernel⟩,
   ⟨cmdAt 0 0x0308 [255, 255, 255, 15] (housed serving), 0, 4095, barePh .resident [0, 5] none, by decide +kernel⟩,
   ⟨cmdAt 0 0x0308 [255, 255, 255, 15] { (housed serving) with res := { images := [(1, fieldImage)], phs := [(4095, fieldPh)] } }, 0, 4095, fieldPh, [1], by decide +kernel⟩,
   ⟨cmdAt 0 0x0309 [255, 15] (housed serving), 0, 4095, barePh .resident [0, 5] none, bareImage 0, by decide +kernel⟩,
   ⟨cmdAt 0 0x030A [83, 1, 0, 0] (housed serving), 0, by decide +kernel⟩⟩

/-- States and operands that meet the hypotheses of `ResidencyRowsComplete`, clause by clause. -/
theorem witness_ResidencyRowsComplete :
    (∃ (s : State) (h : Nat) (p : Ph) (i : Image), h < 4096 ∧ phOf s h = some p ∧ p.state = .loading ∧ p.target ≤ p.residency ∧ p.loads = [] ∧ imageOf s p = some i)
    ∧ (∃ (s : State) (h lb : Nat) (p : Ph), h < 4096 ∧ phOf s h = some p ∧ p.state = .loading ∧ p.lb = some lb ∧ Waits s lb 0x0304)
    ∧ (∃ (s : State) (h : Nat) (p : Ph), h < 4096 ∧ phOf s h = some p ∧ p.state = .evicting ∧ p.cancel.isSome = true)
    ∧ (∃ (s : State) (h record lb : Nat) (p : Ph) (l : Loading), h < 4096 ∧ phOf s h = some p ∧ (p.loads.find? (fun l => l.record == record) = some l) ∧ p.state = .loading ∧ l.outstanding ≠ 0 ∧ l.retried = true ∧ p.lb = some lb)
    ∧ (∃ (s : State) (h : Nat) (p : Ph), h < 4096 ∧ phOf s h = some p ∧ p.state = .resident)
    ∧ (∃ (s : State) (unit n tag : Nat) (w : Walk) (c : Ctx), isDie unit = true ∧ tfind (unitOf s unit).walks n = some w ∧ hasWalker s unit n = true ∧ w.waiting = false ∧ w.discard = false ∧ w.ats = false ∧ w.lines = [] ∧ c = tget {} s.xlat.ctxs w.ctx ∧ mirrorFind (unitOf s unit) w.ctx ((w.table + 8 * levelIndex w.va w.level) / 64 * 64) = none ∧ canRead s c.owner = true ∧ tfree (hostPortOf s (c.owner / 64)).reads 0 16384 = some tag)
    ∧ (∃ (s : State) (port fn ctx i : Nat) (h : HotPage), port < 2 ∧ fn < 64 ∧ (s.xlat.hot.findIdx? (fun h => h.owner == 64 * port + fn && h.ctx == ctx) = some i) ∧ s.xlat.hot[i]? = some h ∧ h.windowMs ≠ 0 ∧ h.threshold ≠ 0 ∧ (((hotSums h).all fun e => decide (e.2 < h.threshold)) = true))
    ∧ (∃ (s : State) (lb : Nat), Waits s lb 0x0205 ∧ (lbOf s lb).waitingFor.isEmpty = false) :=
  ⟨⟨{ (housed serving) with res := { images := [(1, bareImage 0)], phs := [(4095, barePh .loading [0] none)] } }, 4095, barePh .loading [0] none, bareImage 0, by decide +kernel⟩,
   ⟨onLb 0 (fun l => { l with phase := .waiting }) (cmdAt 0 0x0304 (leBytes 24 0) { (housed serving) with res := { images := [(1, bareImage 0)], phs := [(4095, barePh .loading [0] (some 0))] } }), 4095, 0, barePh .loading [0] (some 0), by decide +kernel⟩,
   ⟨{ (housed serving) with res := { images := [(1, bareImage 0)], phs := [(4095, { barePh .evicting [0] none with cancel := some 10 })] } }, 4095, { barePh .evicting [0] none with cancel := some 10 }, by decide +kernel⟩,
   ⟨{ (housed serving) with res := { images := [(1, bareImage 0)], phs := [(4095, { barePh .loading [0] (some 0) with loads := [{ record := 2, outstanding := 64, retried := true }] })] } }, 4095, 2, 0, { barePh .loading [0] (some 0) with loads := [{ record := 2, outstanding := 64, retried := true }] }, { record := 2, outstanding := 64, retried := true }, by decide +kernel⟩,
   ⟨{ (housed serving) with res := { images := [(1, bareImage 0)], phs := [(4095, barePh .resident [0] none)] } }, 4095, barePh .resident [0] none, by decide +kernel⟩,
   ⟨onUnit 97 (fun u => { u with walks := [(4, { ctx := 9, va := 0, level := 3, table := 4096 })] }) (housed (onFn 0 (fun f => { f with busMaster := true }) serving)), 97, 4, 0, { ctx := 9, va := 0, level := 3, table := 4096 }, {}, by decide +kernel⟩,
   ⟨onXlat (fun x => { x with hot := [{ owner := 0, ctx := 9, ring := 1, windowMs := 1, threshold := 2, counts := [(0, 1)] }] }) serving, 0, 0, 9, 0, { owner := 0, ctx := 9, ring := 1, windowMs := 1, threshold := 2, counts := [(0, 1)] }, by decide +kernel⟩,
   ⟨onLb 0 (fun l => { l with phase := .waiting, waitingFor := [7] }) (cmdAt 0 0x0205 (leBytes 24 0) serving), 0, by decide +kernel⟩⟩

/-- States and operands that meet the hypotheses of `RouteCommandsComplete`, clause by clause. -/
theorem witness_RouteCommandsComplete :
    (∃ (s : State) (lb : Nat), Started s lb 0x0401 ∧ argOf s lb 0x0401 0 ≠ 4 ∧ argOf s lb 0x0401 2 + argOf s lb 0x0401 1 ≤ kindEntries (argOf s lb 0x0401 0))
    ∧ (∃ (s : State) (lb : Nat), Started s lb 0x0402 ∧ s.fabric.commit = none ∧ stagedOk s = true)
    ∧ (∃ (s : State) (lb : Nat), Started s lb 0x0403 ∧ argOf s lb 0x0403 2 + argOf s lb 0x0403 1 ≤ kindEntries (argOf s lb 0x0403 0) ∧ argOf s lb 0x0403 1 ≤ 200)
    ∧ (∃ (s : State) (lb : Nat) (cs : List Nat), Started s lb 0x0404 ∧ cs = ((argFields 0x0404 (cmdArgs (lbOf s lb))).drop 2).eraseDups ∧ ((cs.all fun c => decide (c < 2 ^ 20)) = true) ∧ setsDisjoint (tset s.fabric.routeSets (argOf s lb 0x0404 0) cs) = true)
    ∧ (∃ (s : State) (lb : Nat), Started s lb 0x0405)
    ∧ (∃ (s : State) (c : Commit), s.fabric.commit = some c ∧ drained s = true)
    ∧ (∃ (s : State) (c : Commit) (lb : Nat), s.fabric.commit = some c ∧ drained s = false ∧ c.lb = some lb ∧ Waits s lb 0x0402) :=
  ⟨⟨cmdAt 0 0x0401 ([1, 0, 1, 0] ++ leBytes 4 127 ++ leBytes 8 31) serving, 0, by decide +kernel⟩,
   ⟨cmdAt 0 0x0402 [255] serving, 0, by decide +kernel⟩,
   ⟨cmdAt 0 0x0403 ([1, 0, 2, 0] ++ leBytes 4 126) serving, 0, by decide +kernel⟩,
   ⟨cmdAt 0 0x0404 ([63, 0, 1, 0] ++ leBytes 4 7) serving, 0, [7], by decide +kernel⟩,
   ⟨cmdAt 0 0x0405 [255, 255] serving, 0, by decide +kernel⟩,
   ⟨onFabric (fun x => { x with commit := some { lb := none, set_ := 63 }, staged := { setPorts := [(126, 8)] } }) serving, { lb := none, set_ := 63 }, by decide +kernel⟩,
   ⟨onLb 0 (fun l => { l with phase := .waiting }) (cmdAt 0 0x0402 [255] (onFabric (fun x => { x with commit := some { lb := some 0, set_ := 255 }, flights := [(0, { pkt := mkControl 0 0 0 {} [], loc := .eject 0, origin := .none, preHold := true })] }) serving)), { lb := some 0, set_ := 255 }, 0, by decide +kernel⟩⟩

/-- States and operands that meet the hypotheses of `PortCommandsComplete`, clause by clause. -/
theorem witness_PortCommandsComplete :
    (∃ (s : State) (lb p : Nat), Started s lb 0x0406 ∧ p = argOf s lb 0x0406 0)
    ∧ (∃ (s : State) (lb p : Nat), Started s lb 0x0407 ∧ p = argOf s lb 0x0407 0 ∧ ((portOf s p).state = .disabled ∨ (portOf s p).state = .diagnostic))
    ∧ (∃ (s : State) (lb p : Nat), Started s lb 0x0407 ∧ p = argOf s lb 0x0407 0 ∧ (portOf s p).state = .backoff)
    ∧ (∃ (s : State) (lb p : Nat), Started s lb 0x0407 ∧ p = argOf s lb 0x0407 0 ∧ (portOf s p).state = .active ∧ argOf s lb 0x0407 1 < maskWidth (portOf s p).mask ∧ rewinding (portOf s p) = false ∧ (portOf s p).narrowing = none)
    ∧ (∃ (s : State) (lb bad spare : Nat), Started s lb 0x0408 ∧ bad = argOf s lb 0x0408 0 ∧ spare = argOf s lb 0x0408 1 ∧ portClass bad = 2 ∧ portClass spare = 2 ∧ bad ≠ spare ∧ spare < 96 ∧ logicalOf s bad < 96)
    ∧ (∃ (s : State) (lb p : Nat), Started s lb 0x0409 ∧ p = argOf s lb 0x0409 0 ∧ adminIs 0 (cmdArgs (lbOf s lb)) = true)
    ∧ (∃ (s : State) (lb p : Nat), Started s lb 0x0409 ∧ p = argOf s lb 0x0409 0 ∧ adminIs 1 (cmdArgs (lbOf s lb)) = true ∧ ((portOf s p).state = .disabled ∨ (portOf s p).state = .diagnostic))
    ∧ (∃ (s : State) (lb p : Nat), Started s lb 0x0409 ∧ p = argOf s lb 0x0409 0 ∧ adminIs 2 (cmdArgs (lbOf s lb)) = true ∧ (portOf s p).state ≠ .disabled ∧ (portOf s p).state ≠ .backoff)
    ∧ (∃ (s : State) (lb p : Nat), Started s lb 0x0409 ∧ p = argOf s lb 0x0409 0 ∧ adminIs 2 (cmdArgs (lbOf s lb)) = true ∧ (portOf s p).state = .backoff) :=
  ⟨⟨cmdAt 0 0x0406 [95] (linked serving), 0, 95, by decide +kernel⟩,
   ⟨cmdAt 0 0x0407 [95, 1] serving, 0, 95, by decide +kernel⟩,
   ⟨cmdAt 0 0x0407 [95, 1] (onPort 95 (fun x => { x with state := .backoff }) serving), 0, 95, by decide +kernel⟩,
   ⟨cmdAt 0 0x0407 [95, 1] (linked serving), 0, 95, by decide +kernel⟩,
   ⟨cmdAt 0 0x0408 [0, 91] serving, 0, 0, 91, by decide +kernel⟩,
   ⟨cmdAt 0 0x0409 [95, 0] (linked serving), 0, 95, by decide +kernel⟩,
   ⟨cmdAt 0 0x0409 [95, 1] serving, 0, 95, by decide +kernel⟩,
   ⟨cmdAt 0 0x0409 [95, 2] (linked serving), 0, 95, by decide +kernel⟩,
   ⟨cmdAt 0 0x0409 [95, 2] (onPort 95 (fun x => { x with state := .backoff }) serving), 0, 95, by decide +kernel⟩⟩

/-- States and operands that meet the hypotheses of `LaneDiagnosticRowsComplete`, clause by clause. -/
theorem witness_LaneDiagnosticRowsComplete :
    (∃ (s : State) (lb p l v : Nat), Started s lb 0x040A ∧ diagIs 0x00 (cmdArgs (lbOf s lb)) = true ∧ p = argOf s lb 0x040A 0 ∧ l = argOf s lb 0x040A 1 ∧ v = argOf s lb 0x040A 3 ∧ v = 0)
    ∧ (∃ (s : State) (lb p l v : Nat), Started s lb 0x040A ∧ diagIs 0x01 (cmdArgs (lbOf s lb)) = true ∧ p = argOf s lb 0x040A 0 ∧ l = argOf s lb 0x040A 1 ∧ v = argOf s lb 0x040A 3 ∧ (portOf s p).state = .disabled ∧ classRate (portClass p) v = true)
    ∧ (∃ (s : State) (lb p l v : Nat), Started s lb 0x040A ∧ diagIs 0x02 (cmdArgs (lbOf s lb)) = true ∧ p = argOf s lb 0x040A 0 ∧ l = argOf s lb 0x040A 1 ∧ v = argOf s lb 0x040A 3 ∧ (portOf s p).state = .diagnostic ∧ v < 2 ^ 16 ∧ v % 256 ≤ 4 ∧ tapsOk (portClass p) ((laneOf (portOf s p) l).taps.set (v % 256) (signed8 (v / 256))) = true)
    ∧ (∃ (s : State) (lb p l v : Nat), Started s lb 0x040A ∧ diagIs 0x03 (cmdArgs (lbOf s lb)) = true ∧ p = argOf s lb 0x040A 0 ∧ l = argOf s lb 0x040A 1 ∧ v = argOf s lb 0x040A 3 ∧ (portOf s p).state = .diagnostic ∧ v < 32 ∧ v % 16 ≤ 8 ∧ patternFits s p v = true)
    ∧ (∃ (s : State) (lb p l v : Nat), Started s lb 0x040A ∧ diagIs 0x04 (cmdArgs (lbOf s lb)) = true ∧ p = argOf s lb 0x040A 0 ∧ l = argOf s lb 0x040A 1 ∧ v = argOf s lb 0x040A 3 ∧ (portOf s p).state = .diagnostic ∧ v < 32 ∧ v % 16 ≤ 8 ∧ patternFits s p v = true)
    ∧ (∃ (s : State) (lb p l v : Nat), Started s lb 0x040A ∧ diagIs 0x05 (cmdArgs (lbOf s lb)) = true ∧ p = argOf s lb 0x040A 0 ∧ l = argOf s lb 0x040A 1 ∧ v = argOf s lb 0x040A 3 ∧ (portOf s p).state = .diagnostic ∧ v ≤ 1)
    ∧ (∃ (s : State) (lb p l v : Nat), Started s lb 0x040A ∧ diagIs 0x05 (cmdArgs (lbOf s lb)) = true ∧ p = argOf s lb 0x040A 0 ∧ l = argOf s lb 0x040A 1 ∧ v = argOf s lb 0x040A 3 ∧ (portOf s p).state = .diagnostic ∧ v = 0 ∧ (laneOf (portOf s p) l).check = 8 ∧ (laneOf (portOf s p) l).checkInvert = false ∧ (laneOf (portOf s p) l).loopback = 0 ∧ (laneOf (portOf s p) l).slip = 0)
    ∧ (∃ (s : State) (lb p l v : Nat), Started s lb 0x040A ∧ diagIs 0x06 (cmdArgs (lbOf s lb)) = true ∧ p = argOf s lb 0x040A 0 ∧ l = argOf s lb 0x040A 1 ∧ v = argOf s lb 0x040A 3 ∧ (portOf s p).state = .diagnostic)
    ∧ (∃ (s : State) (lb p l v : Nat), Started s lb 0x040A ∧ diagIs 0x07 (cmdArgs (lbOf s lb)) = true ∧ p = argOf s lb 0x040A 0 ∧ l = argOf s lb 0x040A 1 ∧ v = argOf s lb 0x040A 3 ∧ (portOf s p).state = .diagnostic)
    ∧ (∃ (s : State) (lb p l v w : Nat), Started s lb 0x040A ∧ diagIs 0x08 (cmdArgs (lbOf s lb)) = true ∧ p = argOf s lb 0x040A 0 ∧ l = argOf s lb 0x040A 1 ∧ v = argOf s lb 0x040A 3 ∧ (portOf s p).state = .diagnostic ∧ v = 0 ∧ (laneOf (portOf s p) l).last = some w ∧ (laneOf (portOf s p) l).slip = 0)
    ∧ (∃ (s : State) (lb p l v : Nat), Started s lb 0x040A ∧ diagIs 0x08 (cmdArgs (lbOf s lb)) = true ∧ p = argOf s lb 0x040A 0 ∧ l = argOf s lb 0x040A 1 ∧ v = argOf s lb 0x040A 3 ∧ (portOf s p).state = .diagnostic ∧ v = 0 ∧ (laneOf (portOf s p) l).loopback = 0 ∧ (laneOf (portOf s p) l).slip = 0)
    ∧ (∃ (s : State) (lb p l v : Nat), Started s lb 0x040A ∧ diagIs 0x09 (cmdArgs (lbOf s lb)) = true ∧ p = argOf s lb 0x040A 0 ∧ l = argOf s lb 0x040A 1 ∧ v = argOf s lb 0x040A 3 ∧ (portOf s p).state = .diagnostic ∧ 1 ≤ v ∧ v ≤ 63)
    ∧ (∃ (s : State) (lb p l v : Nat), Started s lb 0x040A ∧ diagIs 0x0A (cmdArgs (lbOf s lb)) = true ∧ p = argOf s lb 0x040A 0 ∧ l = argOf s lb 0x040A 1 ∧ v = argOf s lb 0x040A 3 ∧ (portOf s p).state = .diagnostic ∧ v ≤ 2)
    ∧ (∃ (s : State) (lb p l v : Nat), Started s lb 0x040A ∧ diagIs 0x0B (cmdArgs (lbOf s lb)) = true ∧ p = argOf s lb 0x040A 0 ∧ l = argOf s lb 0x040A 1 ∧ v = argOf s lb 0x040A 3 ∧ eyeStates (portOf s p).state = true ∧ v = 0)
    ∧ (∃ (s : State) (lb p l v : Nat), Started s lb 0x040A ∧ diagIs 0x0C (cmdArgs (lbOf s lb)) = true ∧ p = argOf s lb 0x040A 0 ∧ l = argOf s lb 0x040A 1 ∧ v = argOf s lb 0x040A 3 ∧ eyeStates (portOf s p).state = true ∧ eyeParam (portOf s p) v = true)
    ∧ (∃ (s : State) (lb p l v : Nat), Started s lb 0x040A ∧ diagIs 0x0D (cmdArgs (lbOf s lb)) = true ∧ p = argOf s lb 0x040A 0 ∧ l = argOf s lb 0x040A 1 ∧ v = argOf s lb 0x040A 3 ∧ 1 ≤ v ∧ v ≤ 3 ∧ classRate (portClass p) v = true) :=
  ⟨⟨cmdAt 0 0x040A ([95, 3, 0x00, 0] ++ leBytes 4 (0)) (onPort 95 (fun x => { x with state := .diagnostic }) serving), 0, 95, 3, 0, by decide +kernel⟩,
   ⟨cmdAt 0 0x040A ([95, 3, 0x01, 0] ++ leBytes 4 (3)) (onPort 95 (fun x => { x with state := .disabled }) serving), 0, 95, 3, 3, by decide +kernel⟩,
   ⟨cmdAt 0 0x040A ([95, 3, 0x02, 0] ++ leBytes 4 (100 * 256 + 3)) (onPort 95 (fun x => { x with state := .diagnostic }) serving), 0, 95, 3, 100 * 256 + 3, by decide +kernel⟩,
   ⟨cmdAt 0 0x040A ([95, 3, 0x03, 0] ++ leBytes 4 (24)) (onPort 95 (fun x => { x with state := .diagnostic }) serving), 0, 95, 3, 24, by decide +kernel⟩,
   ⟨cmdAt 0 0x040A ([95, 3, 0x04, 0] ++ leBytes 4 (24)) (onPort 95 (fun x => { x with state := .diagnostic }) serving), 0, 95, 3, 24, by decide +kernel⟩,
   ⟨cmdAt 0 0x040A ([95, 3, 0x05, 0] ++ leBytes 4 (1)) (onPort 95 (fun x => { x with state := .diagnostic, lanes := [(3, { check := 1 })] }) serving), 0, 95, 3, 1, by decide +kernel⟩,
   ⟨cmdAt 0 0x040A ([95, 3, 5, 0] ++ leBytes 4 0) (onPort 95 (fun x => { x with state := .diagnostic, lanes := [(3, { check := 8 })] }) serving), 0, 95, 3, 0, by decide +kernel⟩,
   ⟨cmdAt 0 0x040A ([95, 3, 0x06, 0] ++ leBytes 4 (4294967295)) (onPort 95 (fun x => { x with state := .diagnostic }) serving), 0, 95, 3, 4294967295, by decide +kernel⟩,
   ⟨cmdAt 0 0x040A ([95, 3, 0x07, 0] ++ leBytes 4 (4294967295)) (onPort 95 (fun x => { x with state := .diagnostic }) serving), 0, 95, 3, 4294967295, by decide +kernel⟩,
   ⟨cmdAt 0 0x040A ([95, 3, 8, 0] ++ leBytes 4 0) (onPort 95 (fun x => { x with state := .diagnostic, lanes := [(3, { last := some 7 })] }) serving), 0, 95, 3, 0, 7, by decide +kernel⟩,
   ⟨cmdAt 0 0x040A ([95, 3, 0x08, 0] ++ leBytes 4 (0)) (onPort 95 (fun x => { x with state := .diagnostic }) serving), 0, 95, 3, 0, by decide +kernel⟩,
   ⟨cmdAt 0 0x040A ([95, 3, 0x09, 0] ++ leBytes 4 (63)) (onPort 95 (fun x => { x with state := .diagnostic }) serving), 0, 95, 3, 63, by decide +kernel⟩,
   ⟨cmdAt 0 0x040A ([95, 3, 0x0A, 0] ++ leBytes 4 (2)) (onPort 95 (fun x => { x with state := .diagnostic }) serving), 0, 95, 3, 2, by decide +kernel⟩,
   ⟨cmdAt 0 0x040A ([95, 3, 0x0B, 0] ++ leBytes 4 (0)) (onPort 95 (fun x => { x with state := .diagnostic }) serving), 0, 95, 3, 0, by decide +kernel⟩,
   ⟨cmdAt 0 0x040A ([95, 3, 0x0C, 0] ++ leBytes 4 (257)) (onPort 95 (fun x => { x with state := .diagnostic }) serving), 0, 95, 3, 257, by decide +kernel⟩,
   ⟨cmdAt 0 0x040A ([95, 3, 0x0D, 0] ++ leBytes 4 (2)) (onPort 95 (fun x => { x with state := .diagnostic }) serving), 0, 95, 3, 2, by decide +kernel⟩⟩

/-- States and operands that meet the hypotheses of `DiscoveryRowsComplete`, clause by clause. -/
theorem witness_DiscoveryRowsComplete :
    (∃ (s : State) (lb : Nat), Started s lb 0x040B)
    ∧ (∃ (s : State), s.disc.step = .electing ∧ activePorts s = [] ∧ isRoot s = true ∧ children s = [])
    ∧ (∃ (s : State), s.disc.step = .computing ∧ s.disc.reports = [] ∧ isRoot s = true ∧ refuses s { identity := ownIdentity, number := 0, rack := 0, position := 0, mode := s.disc.mode, dimX := 1 - s.disc.mode, dimY := 1 - s.disc.mode, dimZ := 1 - s.disc.mode } = false ∧ children s = [])
    ∧ (∃ (s : State) (p : Nat) (b : List Byte) (q : Pkt), p < 96 ∧ (portOf s p).state = .active ∧ b.length = 64 ∧ hdrKind b = 1 ∧ field b 3 1 = 0x10 ∧ stageB (moduleNumber s) (some 2) b = none ∧ q = readPkt b)
    ∧ (∃ (s : State) (p : Nat) (b : List Byte) (q : Pkt), p < 96 ∧ (portOf s p).state = .active ∧ b.length = 64 ∧ hdrKind b = 1 ∧ field b 3 1 = 0x11 ∧ stageB (moduleNumber s) (some 2) b = none ∧ q = readPkt b ∧ ctlArg q 0x28 2 = s.disc.root.epoch ∧ ctlArg q 0x2A 1 ≠ 0xFF ∧ isRoot s = true)
    ∧ (∃ (s : State) (p : Nat) (b : List Byte) (q : Pkt), p < 96 ∧ (portOf s p).state = .active ∧ b.length = 64 ∧ hdrKind b = 1 ∧ field b 3 1 = 0x12 ∧ stageB (moduleNumber s) (some 2) b = none ∧ q = readPkt b ∧ ctlArg q 0x20 2 = s.disc.root.epoch ∧ isRoot s = false)
    ∧ (∃ (s : State) (p : Nat) (b : List Byte) (q : Pkt), p < 96 ∧ (portOf s p).state = .active ∧ b.length = 64 ∧ hdrKind b = 1 ∧ field b 3 1 = 0x13 ∧ stageB (moduleNumber s) (some 2) b = none ∧ q = readPkt b ∧ ctlArg q 0x20 2 = s.disc.root.epoch ∧ isRoot s = true ∧ s.disc.step = .assigning ∧ ctlArg q 0x24 1 = 0)
    ∧ (∃ (s : State) (p : Nat) (b : List Byte) (q : Pkt), p < 96 ∧ (portOf s p).state = .active ∧ b.length = 64 ∧ hdrKind b = 1 ∧ field b 3 1 = 0x14 ∧ stageB (moduleNumber s) (some 2) b = none ∧ q = readPkt b ∧ ctlArg q 0x18 2 = s.disc.root.epoch ∧ isRoot s = false)
    ∧ (∃ (s : State) (p : Nat) (b : List Byte) (q : Pkt), p < 96 ∧ (portOf s p).state = .active ∧ b.length = 64 ∧ hdrKind b = 1 ∧ field b 3 1 = 0x15 ∧ stageB (moduleNumber s) (some 2) b = none ∧ q = readPkt b ∧ ctlArg q 0x18 2 = s.disc.root.epoch ∧ s.disc.step ≠ .idle)
    ∧ (∃ (s : State) (a : Assign), s.disc.step = .committing ∧ s.disc.commitAt ≤ s.time.rackTime ∧ s.fabric.commit = none ∧ s.disc.mine = some a)
    ∧ (∃ (s : State), s.disc.step ≠ .idle ∧ isRoot s = true) :=
  ⟨⟨cmdAt 0 0x040B [1] (onDisc (fun d => { d with highest := 65535 }) serving), 0, by decide +kernel⟩,
   ⟨onDisc (fun d => { d with step := .electing }) serving, by decide +kernel⟩,
   ⟨onDisc (fun d => { d with step := .computing }) serving, by decide +kernel⟩,
   ⟨onDisc (fun d => { d with mode := 1 }) (linked serving), 95, discMsg 0x10 [(0x18, u64 77), (0x20, u64 78), (0x28, u16 3)], readPkt (discMsg 0x10 [(0x18, u64 77), (0x20, u64 78), (0x28, u16 3)]), by decide +kernel⟩,
   ⟨onDisc (fun d => { d with mode := 1 }) (linked serving), 95, discMsg 0x11 [(0x18, u64 77), (0x20, u64 78)], readPkt (discMsg 0x11 [(0x18, u64 77), (0x20, u64 78)]), by decide +kernel⟩,
   ⟨onDisc (fun d => { d with parent := 95 }) (linked serving), 95, discMsg 0x12 [(0x18, u64 77), (0x22, u16 5)], readPkt (discMsg 0x12 [(0x18, u64 77), (0x22, u16 5)]), by decide +kernel⟩,
   ⟨onDisc (fun d => { d with step := .assigning }) (linked serving), 95, discMsg 0x13 [(0x18, u64 77)], readPkt (discMsg 0x13 [(0x18, u64 77)]), by decide +kernel⟩,
   ⟨onDisc (fun d => { d with parent := 95 }) (linked serving), 95, discMsg 0x14 [(0x20, u64 777)], readPkt (discMsg 0x14 [(0x20, u64 777)]), by decide +kernel⟩,
   ⟨onDisc (fun d => { d with step := .reporting }) (linked serving), 95, discMsg 0x15 [(0x1A, u8 5)], readPkt (discMsg 0x15 [(0x1A, u8 5)]), by decide +kernel⟩,
   ⟨onDisc (fun d => { d with step := .committing, mine := some { identity := 1, number := 4095, rack := 0, position := 0, mode := 1 } }) serving, { identity := 1, number := 4095, rack := 0, position := 0, mode := 1 }, by decide +kernel⟩,
   ⟨onDisc (fun d => { d with step := .reporting }) serving, by decide +kernel⟩⟩

/-- States and operands that meet the hypotheses of `LaneRowsComplete`, clause by clause. -/
theorem witness_LaneRowsComplete :
    (∃ (s : State) (p l : Nat) (w v : BitVec 64) (inv : Bool), p < 96 ∧ l < 4 ∧ (portOf s p).state = .detect ∧ (portOf s p).idle = false ∧ readBeacon w = some (v, inv))
    ∧ (∃ (s : State) (p : Nat), p < 96 ∧ (portOf s p).state = .detect ∧ (portOf s p).idle = false ∧ (portOf s p).ready = false ∧ ((List.range 4).any (detected (portOf s p))) = true)
    ∧ (∃ (s : State) (p l : Nat) (control status : BitVec 32), p < 96 ∧ l < 4 ∧ (portOf s p).state = .pattern ∧ bit (portOf s p).mask l = true ∧ trainOk control = true ∧ trainOk status = true)
    ∧ (∃ (s : State) (p l : Nat) (w : BitVec 64), p < 96 ∧ l < 4 ∧ (portOf s p).state = .lock ∧ bit (portOf s p).mask l = true ∧ markerOk w = true)
    ∧ (∃ (s : State) (p skew locked : Nat), p < 96 ∧ (portOf s p).state = .lock ∧ (portOf s p).fecBad = false ∧ skew ≤ 64 ∧ locked < 16 ∧ (portOf s p).mask &&& locked = (portOf s p).mask ∧ (((maskLanes (portOf s p).mask).all fun l => (laneOf (portOf s p) l).symbolLock) = true))
    ∧ (∃ (s : State) (p : Nat) (r : Nat), p < 96 ∧ timeoutReason s p = some r)
    ∧ (∃ (s : State) (p : Nat), p < 96 ∧ (portOf s p).idle = true ∧ (portOf s p).inBackoff = false ∧ (portOf s p).failures < 8)
    ∧ (∃ (s : State) (p : Nat), p < 96 ∧ (portOf s p).idle = true ∧ 8 ≤ (portOf s p).failures)
    ∧ (∃ (s : State) (p : Nat), p < 96 ∧ (portOf s p).state = .backoff)
    ∧ (∃ (p l : Nat), p < 96 ∧ l < 4)
    ∧ (∃ (p l : Nat), p < 96 ∧ l < 4)
    ∧ (∃ (p l : Nat), p < 96 ∧ l < 4)
    ∧ (∃ (s : State) (p bitLocked : Nat), p < 96 ∧ (portOf s p).returning = true ∧ (((maskLanes (portOf s p).mask).all fun l => bit bitLocked l && (laneOf (portOf s p) l).symbolLock) = true))
    ∧ (∃ (s : State) (p bitLocked : Nat), p < 96 ∧ (portOf s p).returning = true ∧ (((maskLanes (portOf s p).mask).all fun l => bit bitLocked l && (laneOf (portOf s p) l).symbolLock) = false))
    ∧ (∃ (p l : Nat), p < 96 ∧ l < 4 ∧ portClass p = 2) :=
  ⟨⟨onPort 95 (fun x => { x with state := .detect }) serving, 95, 3, beaconOk, beaconOk, false, by decide +kernel⟩,
   ⟨onPort 95 (fun x => { x with state := .detect, lanes := [(0, { beacons := 16 })] }) serving, 95, by decide +kernel⟩,
   ⟨onPort 95 (fun x => { x with state := .pattern, mask := 8 }) serving, 95, 3, trainWord 0x050001, trainWord 0, by decide +kernel⟩,
   ⟨onPort 95 (fun x => { x with state := .lock, mask := 8, lanes := [(3, { markers := 3 })] }) serving, 95, 3, markerWord { mask := 8 } 3 0, by decide +kernel⟩,
   ⟨onPort 95 (fun x => { x with state := .lock, mask := 1, lanes := [(0, { symbolLock := true })] }) serving, 95, 64, 15, by decide +kernel⟩,
   ⟨onPort 95 (fun x => { x with state := .pattern }) serving, 95, 4, by decide +kernel⟩,
   ⟨onPort 95 (fun x => { x with state := .detect, idle := true, failures := 7 }) serving, 95, by decide +kernel⟩,
   ⟨onPort 95 (fun x => { x with state := .detect, idle := true, failures := 8 }) serving, 95, by decide +kernel⟩,
   ⟨onPort 95 (fun x => { x with state := .backoff }) serving, 95, by decide +kernel⟩,
   ⟨95, 3, by decide +kernel⟩,
   ⟨95, 3, by decide +kernel⟩,
   ⟨95, 3, by decide +kernel⟩,
   ⟨onPort 95 (fun x => { x with state := .active, returning := true, mask := 3, lanes := [(0, { symbolLock := true }), (1, { symbolLock := true })] }) serving, 95, 3, by decide +kernel⟩,
   ⟨onPort 95 (fun x => { x with state := .active, returning := true, mask := 3 }) serving, 95, 3, by decide +kernel⟩,
   ⟨91, 3, by decide +kernel⟩⟩

/-- States and operands that meet the hypotheses of `LinkRowsComplete`, clause by clause. -/
theorem witness_LinkRowsComplete :
    (∃ (s : State) (p : Nat) (f : TxFlit) (rest : List TxFlit), p < 96 ∧ ((portOf s p).state = .active ∨ (portOf s p).state = .keepalive) ∧ (portOf s p).resend = f :: rest)
    ∧ (∃ (s : State) (p : Nat) (flit : List Byte), p < 96 ∧ (portOf s p).state = .active ∧ flitBad flit false = false ∧ field flit 0 1 % 4 = 1 ∧ (portOf (takeHeader p flit s) p).state = .active ∧ field flit 2 2 = (portOf s p).expected)
    ∧ (∃ (s : State) (p : Nat), p < 96 ∧ isUp (portOf s p) = true ∧ (portOf s p).acked ≠ (portOf s p).next ∧ (portOf s p).rewinds < 3)
    ∧ (∃ (s : State) (p : Nat), p < 96 ∧ (portOf s p).state = .exchange)
    ∧ (∃ (s : State) (p : Nat) (b : List Byte), p < 96 ∧ (portOf s p).state = .exchange ∧ field b 0 1 = 1 ∧ capReason b = none ∧ (portOf s p).samples < 7)
    ∧ (∃ (s : State) (p : Nat), p < 96 ∧ (portOf s p).state = .exchange)
    ∧ (∃ (s : State) (p m new : Nat), p < 96 ∧ isUp (portOf s p) = true ∧ (portOf s p).narrowGot ≠ some m ∧ new = formSet (ownMask (portOf s p) m &&& (portOf s p).mask) 4 ∧ new ≠ 0)
    ∧ (∃ (s : State) (p m new : Nat), p < 96 ∧ (portOf s p).narrowing.isSome = true ∧ (portOf s p).widthLb = none ∧ new = formSet (ownMask (portOf s p) m &&& (portOf s p).mask) 4 ∧ new ≠ 0)
    ∧ (∃ (s : State) (p : Nat), p < 96 ∧ (portOf s p).narrowing.isSome = true)
    ∧ (∃ (s : State) (p l : Nat) (left : Nat), p < 96 ∧ l < 4 ∧ (portOf s p).state = .active ∧ bit (portOf s p).mask l = true ∧ left = formSet (lanesMask ((maskLanes (portOf s p).mask).filter (· != l))) 4 ∧ left ≠ 0)
    ∧ (∃ (s : State) (p : Nat) (c : CapInfo), p < 96 ∧ (portOf s p).state = .active ∧ (portOf s p).exitSent = false ∧ (portOf s p).cap = some c ∧ bit c.features 2 = true ∧ (portOf s p).kaSent = true)
    ∧ (∃ (s : State) (p : Nat), p < 96 ∧ (portOf s p).state = .active ∧ (portOf s p).kaSent = true)
    ∧ (∃ (s : State) (p : Nat), p < 96 ∧ (portOf s p).state = .active ∧ (portOf s p).kaSent = true)
    ∧ (∃ (s : State) (p : Nat), p < 96 ∧ (portOf s p).state = .keepalive ∧ (portOf s p).exitSent = false)
    ∧ (∃ (s : State) (p : Nat), p < 96 ∧ isUp (portOf s p) = true ∧ (portOf s p).credits = 0 ∧ ((s.fabric.flights.any fun e => e.2.loc == .egress p && outerEscape e.2.pkt) = true)) :=
  ⟨⟨onPort 95 (fun x => { x with state := .active, mask := 15, owedCredits := 300, resend := [{ seq := 5, stream := 0, sop := true, eop := true, body := [], packet := 1 }] }) serving, 95, { seq := 5, stream := 0, sop := true, eop := true, body := [], packet := 1 }, [], by decide +kernel⟩,
   ⟨onPort 95 (fun x => { x with state := .active, mask := 15, nak := true }) serving, 95, firstFlit, by decide +kernel⟩,
   ⟨onPort 95 (fun x => { x with state := .active, next := 1, rewinds := 2 }) serving, 95, by decide +kernel⟩,
   ⟨onPort 95 (fun x => { x with state := .exchange, token := 65535 }) serving, 95, by decide +kernel⟩,
   ⟨onPort 95 (fun x => { x with state := .exchange, samples := 6 }) serving, 95, [1, 1] ++ leBytes 18 0 ++ leBytes 2 2048 ++ leBytes 2 4096 ++ leBytes 12 0, by decide +kernel⟩,
   ⟨onPort 95 (fun x => { x with state := .exchange, startSent := true }) serving, 95, by decide +kernel⟩,
   ⟨onPort 95 (fun x => { x with state := .active, mask := 15, lanes := [(0, { partnerLane := 0 }), (1, { partnerLane := 1 }), (2, { partnerLane := 2 }), (3, { partnerLane := 3 })] }) serving, 95, 3, 3, by decide +kernel⟩,
   ⟨onPort 95 (fun x => { x with state := .active, mask := 3, narrowing := some { oldMask := 15, newMask := 3 }, lanes := [(0, { partnerLane := 0 }), (1, { partnerLane := 1 }), (2, { partnerLane := 2 }), (3, { partnerLane := 3 })] }) serving, 95, 3, 3, by decide +kernel⟩,
   ⟨onPort 95 (fun x => { x with state := .active, mask := 3, narrowing := some { oldMask := 15, newMask := 3 } }) serving, 95, by decide +kernel⟩,
   ⟨onPort 95 (fun x => { x with state := .active, mask := 15 }) serving, 95, 3, 3, by decide +kernel⟩,
   ⟨onPort 95 (fun x => { x with state := .active, kaSent := true, cap := some { readCap [] with features := 4 } }) serving, 95, { readCap [] with features := 4 }, by decide +kernel⟩,
   ⟨onPort 95 (fun x => { x with state := .active, kaSent := true }) serving, 95, by decide +kernel⟩,
   ⟨onPort 95 (fun x => { x with state := .active, kaSent := true }) serving, 95, by decide +kernel⟩,
   ⟨onPort 95 (fun x => { x with state := .keepalive }) serving, 95, by decide +kernel⟩,
   ⟨onPort 95 (fun x => { x with state := .active }) (onFabric (fun x => { x with flights := [(0, { pkt := { mkControl 0 0 0 {} [] with escape := true }, loc := .egress 95, origin := .none })] }) serving), 95, by decide +kernel⟩⟩

/-- States and operands that meet the hypotheses of `RingEngineRowsComplete`, clause by clause. -/
theorem witness_RingEngineRowsComplete :
    (∃ (s : State) (port fn page value r : Nat), port < 2 ∧ fn < 64 ∧ barOpen s (64 * port + fn) = true ∧ pageRing s (64 * port + fn) page = some r ∧ (ringOf s r).state ≠ .allocated ∧ sub32 value (ringOf s r).head ≤ (ringOf s r).entries ∧ sub32 (ringOf s r).tail (ringOf s r).head ≤ sub32 value (ringOf s r).head ∧ (ringOf s r).state ≠ .free)
    ∧ (∃ (s : State) (port fn page value r : Nat), port < 2 ∧ fn < 64 ∧ barOpen s (64 * port + fn) = true ∧ pageRing s (64 * port + fn) page = some r ∧ (ringOf s r).state ≠ .free ∧ (ringOf s r).state ≠ .allocated ∧ (ringOf s r).entries < sub32 value (ringOf s r).head)
    ∧ (∃ (s : State) (port fn page value r : Nat), port < 2 ∧ fn < 64 ∧ barOpen s (64 * port + fn) = true ∧ pageRing s (64 * port + fn) page = some r ∧ sub32 value (ringOf s r).cqConsumed ≤ sub32 (ringOf s r).cqWritten (ringOf s r).cqConsumed)
    ∧ (∃ (s : State) (ring a left m tag : Nat) (tr : Bool), ring < 1088 ∧ (ringOf s ring).state = .running ∧ (ringOf s ring).fetching = false ∧ (ringOf s ring).owed = 0 ∧ fetchRoom (ringOf s ring) ≠ 0 ∧ ringResolve s ring ((ringOf s ring).base + 64 * (nextFetch (ringOf s ring) % max 1 (ringOf s ring).entries)) false = some (some (.host a tr, left)) ∧ m = min (fetchRoom (ringOf s ring)) (pieceLen a (min (64 * fetchRoom (ringOf s ring)) left) (fnOf s (ringOf s ring).owner).maxRead / 64) ∧ m ≠ 0 ∧ canRead s (ringOf s ring).owner = true ∧ tfree (hostPortOf s ((ringOf s ring).owner / 64)).reads 0 16384 = some tag)
    ∧ (∃ (s : State) (ring : Nat) (f : Fetched) (rest : List Fetched) (l : List Leaf), ring < 1088 ∧ (ringOf s ring).fetched = f :: rest ∧ mayStartDesc s ring f = true ∧ turnOf s ring = true ∧ descCheck s ring f.bytes = none ∧ (descType f.bytes ≠ 1 ∨ fanoutBad s f.bytes = false) ∧ l = (if f.stale ∧ descType f.bytes ≠ 1 ∧ descType f.bytes ≠ 4 then pinnedLeaves s ring f.bytes else f.leaves))
    ∧ (∃ (s : State) (ring e : Nat) (f : Fetched) (rest : List Fetched) (l : List Leaf), ring < 1088 ∧ (ringOf s ring).fetched = f :: rest ∧ mayStartDesc s ring f = true ∧ turnOf s ring = true ∧ descCheck s ring f.bytes = some e ∧ l = (if f.stale ∧ descType f.bytes ≠ 1 ∧ descType f.bytes ≠ 4 then pinnedLeaves s ring f.bytes else f.leaves))
    ∧ (∃ (s : State) (ring : Nat) (d : Started) (rest : List Started), ring < 1088 ∧ (ringLive (ringOf s ring).state = true ∨ (ringOf s ring).state = .stopped) ∧ (ringOf s ring).started = d :: rest ∧ d.status = some stOk ∧ flagQuiet d.bytes = true)
    ∧ (∃ (s : State) (ring st a left : Nat) (tr : Bool) (d : Started) (rest : List Started), ring < 1024 ∧ (ringLive (ringOf s ring).state = true ∨ (ringOf s ring).state = .stopped) ∧ (ringOf s ring).started = d :: rest ∧ d.status = some st ∧ (flagQuiet d.bytes = false ∨ st ≠ stOk) ∧ mayIssue (fnOf s (ringOf s ring).owner) = true ∧ sub32 (ringOf s ring).cqWritten (ringOf s ring).cqConsumed < (ringOf s ring).cqEntries ∧ ringResolve s ring ((ringOf s ring).cqBase + 32 * ((ringOf s ring).cqWritten % max 1 (ringOf s ring).cqEntries)) true = some (some (.host a tr, left)))
    ∧ (∃ (s : State) (ring reason : Nat), ring < 1024 ∧ 1 ≤ reason ∧ reason ≤ 4 ∧ (ringLive (ringOf s ring).state = true ∨ ((ringOf s ring).state = .stopped ∧ reason = 3 ∧ (ringOf s ring).started ≠ [])))
    ∧ (∃ (s : State) (ring : Nat), ring < 1024 ∧ (ringOf s ring).timerOn = true ∧ 0 < (ringOf s ring).modTime ∧ 0 < (ringOf s ring).unsignalled) :=
  ⟨⟨ringed { state := .running, entries := 64, tail := 4294967290, head := 4294967290 }, 0, 0, 5, 58, 5, by decide +kernel⟩,
   ⟨ringed { state := .running, entries := 64, tail := 4294967290, head := 4294967290 }, 0, 0, 5, 59, 5, by decide +kernel⟩,
   ⟨ringed { state := .cqFull, cqEntries := 64, cqWritten := 64 }, 0, 0, 5, 64, 5, by decide +kernel⟩,
   ⟨mapped (ringed { state := .running, entries := 64, head := 60, tail := 80 }), 5, 3840, 2093312, 4, 0, false, by decide +kernel⟩,
   ⟨ringed { state := .running, entries := 64, head := 7, tail := 8, fetched := [{ count := 7, bytes := descOf 0 [] }] }, 5, { count := 7, bytes := descOf 0 [] }, [], [], by decide +kernel⟩,
   ⟨ringed { state := .running, entries := 64, head := 7, tail := 8, fetched := [{ count := 7, bytes := descOf 8 [] }] }, 5, 1, { count := 7, bytes := descOf 8 [] }, [], [], by decide +kernel⟩,
   ⟨ringed (startedRing { count := 7, bytes := descOf 0 [(1, [4])], status := some 0 }), 5, { count := 7, bytes := descOf 0 [(1, [4])], status := some 0 }, [], by decide +kernel⟩,
   ⟨mapped (ringed { startedRing { count := 7, bytes := descOf 0 [], status := some 1 } with cqWritten := 4294967295, cqConsumed := 4294967295 }), 5, 1, 2016, 2095136, false, { count := 7, bytes := descOf 0 [], status := some 1 }, [], by decide +kernel⟩,
   ⟨ringed { state := .held, entries := 64 }, 5, 4, by decide +kernel⟩,
   ⟨ringed { state := .running, entries := 64, timerOn := true, modTime := 1, unsignalled := 1, vector := 3 }, 5, by decide +kernel⟩⟩

/-- States and operands that meet the hypotheses of `DescriptorRowsComplete`, clause by clause. -/
theorem witness_DescriptorRowsComplete :
    (∃ (s : State) (ring count : Nat) (d : Started), ring < 1088 ∧ startedOf s ring count = some d ∧ d.status = none ∧ descType d.bytes = 0)
    ∧ (∃ (s : State) (ring count : Nat) (d : Started) (a b : Addr), ring < 1088 ∧ startedOf s ring count = some d ∧ d.status = none ∧ descType d.bytes = 1 ∧ d.page = none ∧ d.engine ≠ noPostcode ∧ d.walk = false ∧ d.relay = none ∧ copyMode d.bytes = 0 ∧ d.issued < copyLength d.bytes ∧ (takeChannel ring count s).isSome = true ∧ flagPhys d.bytes = true ∧ a = addrAt d.bytes 0x10 ∧ b = addrAt d.bytes 0x20 ∧ 0 < unitRoom (.place a.pc (a.off + d.issued)) ∧ 0 < unitRoom (.place b.pc (b.off + d.issued)))
    ∧ (∃ (s s1 : State) (ring count : Nat) (d d1 : Started) (a b : Addr), ring < 1088 ∧ startedOf s ring count = some d ∧ d.status = none ∧ descType d.bytes = 1 ∧ d.page = none ∧ d.walk = false ∧ d.engine ≠ noPostcode ∧ d.relay = none ∧ copyMode d.bytes = 0 ∧ d.issued < copyLength d.bytes ∧ takeChannel ring count s = some s1 ∧ startedOf s1 ring count = some d1 ∧ a = addrAt d.bytes 0x10 ∧ b = addrAt d.bytes 0x20 ∧ resolve s1 ring d1 a d.issued false = .walk ∧ resolve s1 ring d1 b d.issued true = .walk ∧ (startWalk (if (ringOf s1 ring).mode = 1 then ringDie ring else copyUnit (ringOf s1 ring) ring d1.engine) (ringOf s1 ring).ctx (a.off + d.issued) ((ringOf s1 ring).mode == 1) false (.copy ring count (a.off + d.issued) false false) s1).isSome = true)
    ∧ (∃ (s : State) (ring count : Nat) (d : Started) (pc : Postcode) (off : Nat), ring < 1088 ∧ startedOf s ring count = some d ∧ d.status = none ∧ descType d.bytes = 2 ∧ d.acted = false ∧ (atomicTarget s ring d).toOption = some (pc, off))
    ∧ (∃ (s : State) (ring count : Nat) (d : Started) (look : Nat → Option Leaf) (f n frames outLen : Nat) (rec src : List Byte) (st : List Nat) (s' : State) (ps : List (Target × Nat)), ring < 1088 ∧ startedOf s ring count = some d ∧ d.status = none ∧ descType d.bytes = 5 ∧ d.acted = false ∧ look = pinLook s ring d ∧ (f = if descEngine d.bytes = noPostcode then sourceFrond s look (addrAt d.bytes 0x10) (pcDie d.engine) else pcDie d.engine) ∧ tfind (dieOf s f).slots (specSlot d.bytes) = some (rec, st) ∧ (dieOf s f).badSlots.contains (specSlot d.bytes) = false ∧ n = sampleBytes (field rec 0 1) ∧ frames = frameCount (specSamples d.bytes) (field rec 4 2) (field rec 6 2) ∧ outLen = frames * field rec 0x0A 2 * specOutBytes (field rec 0x0C 1) ∧ s' = (readSource f (frankOf s ring) look (addrAt d.bytes 0x10) (specSamples d.bytes * n) s).2 ∧ (readSource f (frankOf s ring) look (addrAt d.bytes 0x10) (specSamples d.bytes * n) s).1.toOption = some src ∧ (pinSpan look (addrAt d.bytes 0x20) outLen true).toOption = some ps ∧ ((ps.all fun p => match p.1 with | .place pc off => localMem (moduleNumber s') pc && pcDie pc == f && decide (off + p.2 ≤ unitSize pc) | .host _ _ => false) = true))
    ∧ (∃ (s : State) (ring count : Nat) (d : Started), ring < 1088 ∧ startedOf s ring count = some d ∧ d.status = none ∧ descType d.bytes = 6 ∧ (tallyOf s (pcDie (pcField d.bytes 0x10)) (descTally d.bytes)).bad = false ∧ field d.bytes 0x18 8 ≤ (tallyOf s (pcDie (pcField d.bytes 0x10)) (descTally d.bytes)).bytes ∧ field d.bytes 0x14 4 ≤ (tallyOf s (pcDie (pcField d.bytes 0x10)) (descTally d.bytes)).packets)
    ∧ (∃ (s : State) (ring count : Nat) (d : Started), ring < 1088 ∧ startedOf s ring count = some d ∧ d.status = none ∧ descType d.bytes = 6 ∧ (tallyOf s (pcDie (pcField d.bytes 0x10)) (descTally d.bytes)).bad = false ∧ (tallyOf s (pcDie (pcField d.bytes 0x10)) (descTally d.bytes)).bytes < field d.bytes 0x18 8)
    ∧ (∃ (s : State) (ring count : Nat) (d : Started), ring < 1088 ∧ startedOf s ring count = some d ∧ d.status = none ∧ descType d.bytes = 6 ∧ d.acted = true)
    ∧ (∃ (s : State) (ring count : Nat) (d : Started) (q : List Pkt), ring < 1088 ∧ startedOf s ring count = some d ∧ d.status = none ∧ descType d.bytes = 7 ∧ d.acted = false ∧ q = tget [] s.fabric.control (pointOf d.engine))
    ∧ (∃ (s : State) (ring count : Nat) (d : Started) (pc : Postcode), ring < 1088 ∧ startedOf s ring count = some d ∧ d.status = none ∧ descType d.bytes = 7 ∧ d.acted = true ∧ pc = tallySetDest s (pcField d.bytes 0x10))
    ∧ (∃ (s : State) (ring count : Nat) (d : Started) (pc : Postcode), ring < 1088 ∧ startedOf s ring count = some d ∧ d.status = none ∧ awaitedDest s ring d = some pc)
    ∧ (∃ (s : State) (ring count : Nat) (d : Started) (pc : Postcode), ring < 1088 ∧ startedOf s ring count = some d ∧ d.status = none ∧ (waitsOn s ring d).find? (unreachable s) = some pc)
    ∧ (∃ (s : State) (ring count : Nat) (d : Started) (id : Nat) (x : Relay), ring < 1088 ∧ startedOf s ring count = some d ∧ d.status = none ∧ descType d.bytes = 1 ∧ d.relay = some id ∧ tfind s.fabric.relays id = some x)
    ∧ (∃ (s : State) (core array : Nat) (b : List Byte) (g : Ring), core < 64 ∧ stewardRing s core = some g ∧ (stewardOf s core).running = true ∧ (stewardOf s core).halted = false ∧ (stewardOf s core).parked = false ∧ b.length = 64 ∧ g.started.length + g.fetched.length < 64 ∧ array + 32 * 64 ≤ 2 ^ 21) :=
  ⟨⟨ringed (startedRing { count := 7, bytes := descOf 0 [] }), 5, 7, { count := 7, bytes := descOf 0 [] }, by decide +kernel⟩,
   ⟨ringed (startedRing { count := 7, bytes := descOf 1 [(1, [16]), (0x10, leBytes 4 0x40001), (0x20, leBytes 4 0x80001), (0x30, leBytes 8 1048576)] }), 5, 7, { count := 7, bytes := descOf 1 [(1, [16]), (0x10, leBytes 4 0x40001), (0x20, leBytes 4 0x80001), (0x30, leBytes 8 1048576)] }, { phys := true, pc := 0x40001, off := 0 }, { phys := true, pc := 0x80001, off := 0 }, by decide +kernel⟩,
   ⟨(ringed { startedRing { count := 7, bytes := descOf 1 [(0x20, leBytes 8 4194304), (0x30, leBytes 8 1048576)], engine := 0x3FF4, acted := true } with mode := 1, ctx := 9 }), (ringed { startedRing { count := 7, bytes := descOf 1 [(0x20, leBytes 8 4194304), (0x30, leBytes 8 1048576)], engine := 0x3FF4, acted := true } with mode := 1, ctx := 9 }), 5, 7, { count := 7, bytes := descOf 1 [(0x20, leBytes 8 4194304), (0x30, leBytes 8 1048576)], engine := 0x3FF4, acted := true }, { count := 7, bytes := descOf 1 [(0x20, leBytes 8 4194304), (0x30, leBytes 8 1048576)], engine := 0x3FF4, acted := true }, addrAt (descOf 1 [(0x20, leBytes 8 4194304), (0x30, leBytes 8 1048576)]) 0x10, addrAt (descOf 1 [(0x20, leBytes 8 4194304), (0x30, leBytes 8 1048576)]) 0x20, by decide +kernel⟩,
   ⟨ringed (startedRing { count := 7, bytes := descOf 2 [(1, [16]), (0x10, leBytes 4 0x40001), (0x18, leBytes 8 8), (0x20, [0, 8])] }), 5, 7, { count := 7, bytes := descOf 2 [(1, [16]), (0x10, leBytes 4 0x40001), (0x18, leBytes 8 8), (0x20, [0, 8])] }, 0x40001, 8, by decide +kernel⟩,
   ⟨specState, 5, 7, { count := 7, bytes := specDesc }, pinLook specState 5 { count := 7, bytes := specDesc }, 1, 2, 0, 0, specRec, [], [0, 0], specState, [(.place 0x3FFB 4096, 0)], by decide, by decide, by decide, by decide, by decide, rfl, by decide +kernel⟩,
   ⟨onDie 32 (fun x => { x with tallies := [(3, { bytes := 64, packets := 1 })] }) (ringed (startedRing { count := 7, bytes := descOf 6 [(2, leBytes 2 3), (0x10, leBytes 4 0x41FFF), (0x14, leBytes 4 1), (0x18, leBytes 8 64)] })), 5, 7, { count := 7, bytes := descOf 6 [(2, leBytes 2 3), (0x10, leBytes 4 0x41FFF), (0x14, leBytes 4 1), (0x18, leBytes 8 64)] }, by decide +kernel⟩,
   ⟨ringed (startedRing { count := 7, bytes := descOf 6 [(2, leBytes 2 3), (0x10, leBytes 4 0x41FFF), (0x14, leBytes 4 1), (0x18, leBytes 8 64)] }), 5, 7, { count := 7, bytes := descOf 6 [(2, leBytes 2 3), (0x10, leBytes 4 0x41FFF), (0x14, leBytes 4 1), (0x18, leBytes 8 64)] }, by decide +kernel⟩,
   ⟨ringed (startedRing { count := 7, bytes := descOf 6 [(0x10, leBytes 4 0x41FFF)], acted := true }), 5, 7, { count := 7, bytes := descOf 6 [(0x10, leBytes 4 0x41FFF)], acted := true }, by decide +kernel⟩,
   ⟨ringed (startedRing { count := 7, bytes := descOf 7 [(0x10, leBytes 4 0x41FFF)], engine := 0xC0004 }), 5, 7, { count := 7, bytes := descOf 7 [(0x10, leBytes 4 0x41FFF)], engine := 0xC0004 }, [], by decide +kernel⟩,
   ⟨ringed (startedRing { count := 7, bytes := descOf 7 [(0x10, leBytes 4 0x41FFF)], acted := true }), 5, 7, { count := 7, bytes := descOf 7 [(0x10, leBytes 4 0x41FFF)], acted := true }, 0x41FFF, by decide +kernel⟩,
   ⟨ringed (startedRing { count := 7, bytes := descOf 1 [], acted := true, receipts := [0x40001] }), 5, 7, { count := 7, bytes := descOf 1 [], acted := true, receipts := [0x40001] }, 0x40001, by decide +kernel⟩,
   ⟨ringed (startedRing { count := 7, bytes := descOf 1 [], acted := true, receipts := [0x40001] }), 5, 7, { count := 7, bytes := descOf 1 [], acted := true, receipts := [0x40001] }, 0x40001, by decide +kernel⟩,
   ⟨onFabric (fun f => { f with relays := [(1, { ring := 5, count := 7, place := { pc := 0x40001, off := 0 }, left := 1, mode := 1, direction := 0, total := 64 })] }) (ringed (startedRing { count := 7, bytes := descOf 1 [], acted := true, relay := some 1 })), 5, 7, { count := 7, bytes := descOf 1 [], acted := true, relay := some 1 }, 1, { ring := 5, count := 7, place := { pc := 0x40001, off := 0 }, left := 1, mode := 1, direction := 0, total := 64 }, by decide +kernel⟩,
   ⟨stewardUp, 3, 2095104, descOf 0 [], { state := .running, ctx := 9, key := 3 }, by decide +kernel⟩⟩

/-- States and operands that meet the hypotheses of `PacketRowsComplete`, clause by clause. -/
theorem witness_PacketRowsComplete :
    (∃ (s : State) (pid e : Nat) (x : Flight) (p : Pkt), flightOf s pid = some x ∧ x.loc = .eject e ∧ (accept s x.pkt).toOption = some p ∧ isData 0 p = true ∧ toSelect p = false ∧ discardIndex s p.dest = none ∧ lockCheck s p.dest (touched p).1 (touched p).2 p.frank (rightOf p) = none ∧ mustHold s (pcDie p.dest) p = false ∧ (dieOf s (pcDie p.dest)).holds = [])
    ∧ (∃ (s : State) (pid e : Nat) (x : Flight) (p : Pkt), flightOf s pid = some x ∧ x.loc = .eject e ∧ (accept s x.pkt).toOption = some p ∧ isData 0 p = true ∧ toSelect p = false ∧ discardIndex s p.dest = none ∧ lockCheck s p.dest (touched p).1 (touched p).2 p.frank (rightOf p) = none ∧ mustHold s (pcDie p.dest) p = true ∧ (dieOf s (pcDie p.dest)).holds = [])
    ∧ (∃ (s : State) (pid e : Nat) (x : Flight) (p : Pkt) (l : Nat), flightOf s pid = some x ∧ x.loc = .eject e ∧ (accept s x.pkt).toOption = some p ∧ isData 0 p = true ∧ toSelect p = false ∧ discardIndex s p.dest = none ∧ lockCheck s p.dest (touched p).1 (touched p).2 p.frank (rightOf p) = some l ∧ (dieOf s (pcDie p.dest)).holds = [])
    ∧ (∃ (s : State) (pid e : Nat) (x : Flight), flightOf s pid = some x ∧ x.loc = .eject e ∧ (accept s x.pkt).toOption = none)
    ∧ (∃ (s : State) (pid e : Nat) (x : Flight) (p : Pkt), flightOf s pid = some x ∧ x.loc = .eject e ∧ (accept s x.pkt).toOption = some p ∧ isData 3 p = true ∧ discardIndex s p.dest = none ∧ lockCheck s p.dest (touched p).1 (touched p).2 p.frank (rightOf p) = none ∧ mustHold s (pcDie p.dest) p = false ∧ (dieOf s (pcDie p.dest)).holds = [] ∧ (atomicPerform p s).1 = 0)
    ∧ (∃ (s : State) (pid e : Nat) (x : Flight) (p : Pkt), flightOf s pid = some x ∧ x.loc = .eject e ∧ (accept s x.pkt).toOption = some p ∧ isData 1 p = true ∧ discardIndex s p.dest = none ∧ lockCheck s p.dest (touched p).1 (touched p).2 p.frank (rightOf p) = none ∧ (dieOf s (pcDie p.dest)).holds = [])
    ∧ (∃ (s : State) (pid e : Nat) (x : Flight) (p : Pkt), flightOf s pid = some x ∧ x.loc = .eject e ∧ (accept s x.pkt).toOption = some p ∧ isData 1 p = true ∧ discardIndex s p.dest = none ∧ lockCheck s p.dest (touched p).1 (touched p).2 p.frank (rightOf p) = none ∧ (dieOf s (pcDie p.dest)).holds = [] ∧ pcModule p.src = moduleNumber s)
    ∧ (∃ (s : State) (pid e : Nat) (x : Flight) (p : Pkt) (r first n : Nat), flightOf s pid = some x ∧ x.loc = .eject e ∧ (accept s x.pkt).toOption = some p ∧ isData 2 p = true ∧ discardIndex s p.dest = none ∧ tfind s.fabric.tags p.offset = some (.fetch r first n) ∧ r < 1088 ∧ (ringOf s r).fetching = true ∧ ringLive (ringOf s r).state = true ∧ nextFetch (ringOf s r) = first ∧ p.poison = none)
    ∧ (∃ (s : State) (pid e : Nat) (x : Flight) (p : Pkt) (r c : Nat) (dest : Postcode) (d : Started), flightOf s pid = some x ∧ x.loc = .eject e ∧ (accept s x.pkt).toOption = some p ∧ isData 4 p = true ∧ discardIndex s p.dest = none ∧ tfind s.fabric.tags p.offset = some (.atomic r c dest) ∧ startedOf s r c = some d ∧ d.status = none ∧ d.readsOut ≠ 0 ∧ field p.body 8 1 = 0)
    ∧ (∃ (s : State) (pid e : Nat) (x : Flight) (p : Pkt) (c : MergeCtx), flightOf s pid = some x ∧ x.loc = .eject e ∧ (accept s x.pkt).toOption = some p ∧ isData 0 p = true ∧ toSelect p = true ∧ discardIndex s p.dest = none ∧ ((mergesOf s (pcDie p.dest) (pcUnit p.dest)).find? (fun c => c.group == tagGroup p.body) = some c) ∧ mergeFrankOk s c p.frank = true ∧ tagFormat p.body = c.format ∧ tagFlags p.body = c.flags ∧ c.got + tagSources p.body < c.sources ∧ mustHold s (pcDie p.dest) p = false ∧ (dieOf s (pcDie p.dest)).holds = [])
    ∧ (∃ (s : State) (pid e : Nat) (x : Flight) (p : Pkt), flightOf s pid = some x ∧ x.loc = .eject e ∧ (accept s x.pkt).toOption = some p ∧ isData 0 p = true ∧ toSelect p = true ∧ discardIndex s p.dest = none ∧ ((mergesOf s (pcDie p.dest) (pcUnit p.dest)).find? (fun c => c.group == tagGroup p.body) = none) ∧ (parkOf s (pcDie p.dest) (pcUnit p.dest)).length < 32 ∧ (dieOf s (pcDie p.dest)).holds = [])
    ∧ (∃ (s : State) (die index : Nat) (f : Flight), isDie die = true ∧ (dieOf s die).holds[index]? = some f) :=
  ⟨⟨arrived (writePkt 0x400 true) .none (unlocked {}), 9, pcDie (writePkt 0x400 true).dest, { pkt := writePkt 0x400 true, loc := .eject (pcDie (writePkt 0x400 true).dest), origin := .none }, writePkt 0x400 true, by decide +kernel⟩,
   ⟨arrived (writePkt 0x10400 true) .none (unlocked {}), 9, pcDie (writePkt 0x10400 true).dest, { pkt := writePkt 0x10400 true, loc := .eject (pcDie (writePkt 0x10400 true).dest), origin := .none }, writePkt 0x10400 true, by decide +kernel⟩,
   ⟨arrived (writePkt 0 false) .none {}, 9, pcDie (writePkt 0 false).dest, { pkt := writePkt 0 false, loc := .eject (pcDie (writePkt 0 false).dest), origin := .none }, writePkt 0 false, 48, by decide +kernel⟩,
   ⟨arrived { writePkt 0 false with offset := 0x100000 } .none {}, 9, 1, { pkt := { writePkt 0 false with offset := 0x100000 }, loc := .eject 1 }, by decide +kernel⟩,
   ⟨arrived (({ writePkt 0 false with op := 3, body := [0, 4, 1] ++ List.replicate 5 0 ++ leBytes 8 5 ++ List.replicate 48 0 } : Pkt)) .none (unlocked {}), 9, pcDie (({ writePkt 0 false with op := 3, body := [0, 4, 1] ++ List.replicate 5 0 ++ leBytes 8 5 ++ List.replicate 48 0 } : Pkt)).dest, { pkt := ({ writePkt 0 false with op := 3, body := [0, 4, 1] ++ List.replicate 5 0 ++ leBytes 8 5 ++ List.replicate 48 0 } : Pkt), loc := .eject (pcDie (({ writePkt 0 false with op := 3, body := [0, 4, 1] ++ List.replicate 5 0 ++ leBytes 8 5 ++ List.replicate 48 0 } : Pkt)).dest), origin := .none }, ({ writePkt 0 false with op := 3, body := [0, 4, 1] ++ List.replicate 5 0 ++ leBytes 8 5 ++ List.replicate 48 0 } : Pkt), by decide +kernel⟩,
   ⟨arrived (({ writePkt 0 false with op := 1, tally := 0xFFFF, body := leBytes 2 64 ++ List.replicate 62 0 } : Pkt)) .none (unlocked {}), 9, pcDie (({ writePkt 0 false with op := 1, tally := 0xFFFF, body := leBytes 2 64 ++ List.replicate 62 0 } : Pkt)).dest, { pkt := ({ writePkt 0 false with op := 1, tally := 0xFFFF, body := leBytes 2 64 ++ List.replicate 62 0 } : Pkt), loc := .eject (pcDie (({ writePkt 0 false with op := 1, tally := 0xFFFF, body := leBytes 2 64 ++ List.replicate 62 0 } : Pkt)).dest), origin := .none }, ({ writePkt 0 false with op := 1, tally := 0xFFFF, body := leBytes 2 64 ++ List.replicate 62 0 } : Pkt), by decide +kernel⟩,
   ⟨arrived (({ writePkt 0 false with op := 1, tally := 0xFFFF, body := leBytes 2 63 ++ List.replicate 62 0 } : Pkt)) .none (unlocked {}), 9, pcDie (({ writePkt 0 false with op := 1, tally := 0xFFFF, body := leBytes 2 63 ++ List.replicate 62 0 } : Pkt)).dest, { pkt := ({ writePkt 0 false with op := 1, tally := 0xFFFF, body := leBytes 2 63 ++ List.replicate 62 0 } : Pkt), loc := .eject (pcDie (({ writePkt 0 false with op := 1, tally := 0xFFFF, body := leBytes 2 63 ++ List.replicate 62 0 } : Pkt)).dest), origin := .none }, ({ writePkt 0 false with op := 1, tally := 0xFFFF, body := leBytes 2 63 ++ List.replicate 62 0 } : Pkt), by decide +kernel⟩,
   ⟨arrived (({ control := false, op := 2, dest := 0xC0004, src := 0x2001, offset := 77, body := List.replicate 64 0 } : Pkt)) .none (onFabric (fun f => { f with tags := [(77, .fetch 5 7 1)] }) (ringed { state := .running, entries := 64, head := 7, tail := 8, fetching := true })), 9, pcDie (({ control := false, op := 2, dest := 0xC0004, src := 0x2001, offset := 77, body := List.replicate 64 0 } : Pkt)).dest, { pkt := ({ control := false, op := 2, dest := 0xC0004, src := 0x2001, offset := 77, body := List.replicate 64 0 } : Pkt), loc := .eject (pcDie (({ control := false, op := 2, dest := 0xC0004, src := 0x2001, offset := 77, body := List.replicate 64 0 } : Pkt)).dest), origin := .none }, ({ control := false, op := 2, dest := 0xC0004, src := 0x2001, offset := 77, body := List.replicate 64 0 } : Pkt), 5, 7, 1, by decide +kernel⟩,
   ⟨arrived (({ control := false, op := 4, dest := 0xC0004, src := 0x2001, offset := 77, body := leBytes 8 99 ++ List.replicate 56 0 } : Pkt)) .none (onFabric (fun f => { f with tags := [(77, .atomic 5 7 0x2001)] }) (ringed (startedRing { count := 7, bytes := descOf 2 [(0x22, [1])], acted := true, readsOut := 1 }))), 9, pcDie (({ control := false, op := 4, dest := 0xC0004, src := 0x2001, offset := 77, body := leBytes 8 99 ++ List.replicate 56 0 } : Pkt)).dest, { pkt := ({ control := false, op := 4, dest := 0xC0004, src := 0x2001, offset := 77, body := leBytes 8 99 ++ List.replicate 56 0 } : Pkt), loc := .eject (pcDie (({ control := false, op := 4, dest := 0xC0004, src := 0x2001, offset := 77, body := leBytes 8 99 ++ List.replicate 56 0 } : Pkt)).dest), origin := .none }, ({ control := false, op := 4, dest := 0xC0004, src := 0x2001, offset := 77, body := leBytes 8 99 ++ List.replicate 56 0 } : Pkt), 5, 7, 0x2001, { count := 7, bytes := descOf 2 [(0x22, [1])], acted := true, readsOut := 1 }, by decide +kernel⟩,
   ⟨arrived (listPkt) .none (onDie 1 (fun x => { x with merges := [(8, [ctx5])] }) (onRing 5 (fun g => { g with state := .running }) (unlocked {}))), 9, pcDie (listPkt).dest, { pkt := listPkt, loc := .eject (pcDie (listPkt).dest), origin := .none }, listPkt, ctx5, by decide +kernel⟩,
   ⟨arrived (listPkt) .none (unlocked {}), 9, pcDie (listPkt).dest, { pkt := listPkt, loc := .eject (pcDie (listPkt).dest), origin := .none }, listPkt, by decide +kernel⟩,
   ⟨onDie 1 (fun x => { x with holds := [{ pkt := writePkt 0x10400 true, loc := .eject 1 }] }) {}, 1, 0, { pkt := writePkt 0x10400 true, loc := .eject 1 }, by decide +kernel⟩⟩

/-- States and operands that meet the hypotheses of `ControlPacketRowsComplete`, clause by clause. -/
theorem witness_ControlPacketRowsComplete :
    (∃ (s : State) (pid e : Nat) (x : Flight) (p : Pkt) (r : Nat), flightOf s pid = some x ∧ x.loc = .eject e ∧ (accept s x.pkt).toOption = some p ∧ isControl 0x01 p = true ∧ discardIndex s p.dest = none ∧ regValid (ctlArg p 0x18 4) = true ∧ r = regRing (ctlArg p 0x18 4) ∧ (ringOf s r).state ≠ .free ∧ (runOf (ringOf s r) (destKey p.src)).awaiting = true ∧ (((ringOf s r).started.all fun d => d.held.isEmpty && d.lastOf.isEmpty && (descType d.bytes != 1 || d.status.isSome)) = true))
    ∧ (∃ (s : State) (pid e : Nat) (x : Flight) (p : Pkt) (r c pos : Nat) (d : Started), flightOf s pid = some x ∧ x.loc = .eject e ∧ (accept s x.pkt).toOption = some p ∧ isControl 0x02 p = true ∧ discardIndex s p.dest = none ∧ ctlArg p 0x1C 1 = 0 ∧ refusedWrite s p = some (r, c, pos) ∧ startedOf s r c = some d ∧ d.status = none)
    ∧ (∃ (s : State) (pid e : Nat) (x : Flight) (p : Pkt), flightOf s pid = some x ∧ x.loc = .eject e ∧ (accept s x.pkt).toOption = some p ∧ isControl 0x03 p = true ∧ discardIndex s p.dest = none ∧ tallySetAllowed s (pcDie p.dest) p.frank = true)
    ∧ (∃ (s : State) (pid e : Nat) (x : Flight) (p : Pkt) (r c : Nat) (d : Started), flightOf s pid = some x ∧ x.loc = .eject e ∧ (accept s x.pkt).toOption = some p ∧ isControl 0x04 p = true ∧ discardIndex s p.dest = none ∧ (tallySetter s p (fun d => descTally d.bytes == ctlArg p 0x18 2) = some (r, c)) ∧ startedOf s r c = some d ∧ d.status = none)
    ∧ (∃ (s : State) (pid e : Nat) (x : Flight) (p : Pkt), flightOf s pid = some x ∧ x.loc = .eject e ∧ (accept s x.pkt).toOption = some p ∧ isControl 0x05 p = true ∧ discardIndex s p.dest = none ∧ pcDie p.dest < 84)
    ∧ (∃ (s : State) (pid e : Nat) (x : Flight) (p : Pkt) (who n : Nat) (left : List Nat), flightOf s pid = some x ∧ x.loc = .eject e ∧ (accept s x.pkt).toOption = some p ∧ isControl 0x06 p = true ∧ discardIndex s p.dest = none ∧ atPostmaster s p = true ∧ pcModule p.src = moduleNumber s ∧ (s.res.stops.find? (fun e => e.2.1 == ctlArg p 0x18 2 && e.2.2.1.contains (pcDie p.src)) = some (who, ctlArg p 0x18 2, left, n)) ∧ left.filter (· != pcDie p.src) ≠ [])
    ∧ (∃ (s : State) (pid e : Nat) (x : Flight) (p : Pkt), flightOf s pid = some x ∧ x.loc = .eject e ∧ (accept s x.pkt).toOption = some p ∧ isControl 0x07 p = true ∧ discardIndex s p.dest = none ∧ atPostmaster s p = true ∧ tfind s.xlat.ctxs (ctlArg p 0x18 4) = none)
    ∧ (∃ (s : State) (pid e : Nat) (x : Flight) (p : Pkt) (c : Ctx), flightOf s pid = some x ∧ x.loc = .eject e ∧ (accept s x.pkt).toOption = some p ∧ isControl 0x07 p = true ∧ discardIndex s p.dest = none ∧ atPostmaster s p = true ∧ tfind s.xlat.ctxs (ctlArg p 0x18 4) = some c)
    ∧ (∃ (s : State) (pid e : Nat) (x : Flight) (p : Pkt) (lb : Nat) (l : Letterbox), flightOf s pid = some x ∧ x.loc = .eject e ∧ (accept s x.pkt).toOption = some p ∧ isControl 0x08 p = true ∧ discardIndex s p.dest = none ∧ atPostmaster s p = true ∧ (s.post.lbs.find? (fun e => waitingOn s e.1 0x0205 && arg 0x0205 (cmdArgs e.2) 0 == ctlArg p 0x18 4 && e.2.waitingFor.contains (pcModule p.src)) = some (lb, l)) ∧ l.waitingFor.filter (· != pcModule p.src) ≠ [])
    ∧ (∃ (s : State) (pid e : Nat) (x : Flight) (p : Pkt) (m : RelayMsg), flightOf s pid = some x ∧ x.loc = .eject e ∧ (accept s x.pkt).toOption = some p ∧ isControl 0x20 p = true ∧ discardIndex s p.dest = none ∧ m = readRelay p ∧ m.left = 0 ∧ m.total ≤ relayedBytes s m.issuer m.id + m.len)
    ∧ (∃ (s : State) (pid e : Nat) (x : Flight) (p : Pkt) (id : Nat) (y : Relay) (d : Started), flightOf s pid = some x ∧ x.loc = .eject e ∧ (accept s x.pkt).toOption = some p ∧ isControl 0x21 p = true ∧ discardIndex s p.dest = none ∧ id = ctlArg p 0x18 2 ∧ tfind s.fabric.relays id = some y ∧ startedOf s y.ring y.count = some d ∧ d.status = none ∧ d.engine = p.dest ∧ ctlArg p 0x1A 1 = 0)
    ∧ (∃ (s : State) (pid e : Nat) (x : Flight) (p : Pkt) (c : Nat), flightOf s pid = some x ∧ x.loc = .eject e ∧ (accept s x.pkt).toOption = some p ∧ isControl 0x30 p = true ∧ discardIndex s p.dest = none ∧ c = 4 * (pcDie p.dest - 96) + pcTile p.dest)
    ∧ (∃ (s : State) (ring count f : Nat) (d : Started) (look : Nat → Option Leaf) (engine : Postcode) (l best : List SelEntry) (out : List Byte) (s' : State) (ps : List (Target × Nat)), ring < 1088 ∧ startedOf s ring count = some d ∧ d.status = none ∧ descType d.bytes = 3 ∧ d.acted = false ∧ d.walk = false ∧ selContext (moduleNumber s) d.bytes = false ∧ bit (selFlags d.bytes) 2 = false ∧ look = pinLook s ring d ∧ f = (if descEngine d.bytes = noPostcode then sourceFrond s look (addrAt d.bytes 0x10) (pcDie d.engine) else pcDie d.engine) ∧ engine = hubUnit (moduleNumber s) f (pcUnit d.engine) ∧ (readRow f (frankOf s ring) look d.bytes s).1.toOption = some l ∧ s' = (readRow f (frankOf s ring) look d.bytes s).2 ∧ best = bestOf (selFormat d.bytes) (selFlags d.bytes) (selK d.bytes) l ∧ out = (if bit (selFlags d.bytes) 3 then taggedBytes (selGroup d.bytes) (selFormat d.bytes) (selFlags d.bytes) (selK d.bytes) 1 best else untaggedBytes (selFormat d.bytes) (selK d.bytes) best) ∧ selDest s' ring d engine (addrAt d.bytes 0x20) out.length = .at_ ps ∧ ((ps.all fun q => match q.1 with | .place pc off => isSelectUnit pc || memPlaceOk s' pc off q.2 | .host _ _ => mayIssue (fnOf s' (ringOf s' ring).owner)) = true) ∧ (dieOf s (pcDie d.engine)).holds = [])
    ∧ (∃ (s : State) (ring count : Nat) (d : Started) (e : Postcode), ring < 1088 ∧ startedOf s ring count = some d ∧ d.status = none ∧ descType d.bytes = 3 ∧ d.acted = false ∧ d.walk = false ∧ selContext (moduleNumber s) d.bytes = true ∧ e = pcField d.bytes 0x10 ∧ contextBusy s e (field d.bytes 0x18 2) = false ∧ parkOf s (pcDie e) (pcUnit e) = [] ∧ (dieOf s (pcDie d.engine)).holds = []) :=
  ⟨⟨arrived (mkControl 0x01 0xC0004 0x2001 {} [(0x18, u32 (mkReg 7 0 0))]) .none (onRing 7 (fun g => { g with state := .running, runs := [{ dest := 1, awaiting := true }] }) {}), 9, pcDie (mkControl 0x01 0xC0004 0x2001 {} [(0x18, u32 (mkReg 7 0 0))]).dest, { pkt := mkControl 0x01 0xC0004 0x2001 {} [(0x18, u32 (mkReg 7 0 0))], loc := .eject (pcDie (mkControl 0x01 0xC0004 0x2001 {} [(0x18, u32 (mkReg 7 0 0))]).dest), origin := .none }, mkControl 0x01 0xC0004 0x2001 {} [(0x18, u32 (mkReg 7 0 0))], 7, by decide +kernel⟩,
   ⟨arrived (mkControl 0x02 0x3FF4 0x2001 {} [(0x18, u32 (mkReg 5 0 0)), (0x1E, u16 48), (0x20, ⟨6, 128⟩)]) .none (ringed (startedRing { count := 7, bytes := descOf 1 [], engine := 0x3FF4, acted := true, sentAt := [{ pc := 0x2001, off := 64, pos := 0, run := some 0 }, { pc := 0x2001, off := 128, pos := 64, run := some 0 }] })), 9, pcDie (mkControl 0x02 0x3FF4 0x2001 {} [(0x18, u32 (mkReg 5 0 0)), (0x1E, u16 48), (0x20, ⟨6, 128⟩)]).dest, { pkt := mkControl 0x02 0x3FF4 0x2001 {} [(0x18, u32 (mkReg 5 0 0)), (0x1E, u16 48), (0x20, ⟨6, 128⟩)], loc := .eject (pcDie (mkControl 0x02 0x3FF4 0x2001 {} [(0x18, u32 (mkReg 5 0 0)), (0x1E, u16 48), (0x20, ⟨6, 128⟩)]).dest), origin := .none }, mkControl 0x02 0x3FF4 0x2001 {} [(0x18, u32 (mkReg 5 0 0)), (0x1E, u16 48), (0x20, ⟨6, 128⟩)], 5, 7, 64, { count := 7, bytes := descOf 1 [], engine := 0x3FF4, acted := true, sentAt := [{ pc := 0x2001, off := 64, pos := 0, run := some 0 }, { pc := 0x2001, off := 128, pos := 64, run := some 0 }] }, by decide +kernel⟩,
   ⟨arrived (mkControl 0x03 0x3FFF 0xC0004 {} [(0x18, u16 3), (0x20, u64 64), (0x28, u32 1)]) .none (unlocked {}), 9, pcDie (mkControl 0x03 0x3FFF 0xC0004 {} [(0x18, u16 3), (0x20, u64 64), (0x28, u32 1)]).dest, { pkt := mkControl 0x03 0x3FFF 0xC0004 {} [(0x18, u16 3), (0x20, u64 64), (0x28, u32 1)], loc := .eject (pcDie (mkControl 0x03 0x3FFF 0xC0004 {} [(0x18, u16 3), (0x20, u64 64), (0x28, u32 1)]).dest), origin := .none }, mkControl 0x03 0x3FFF 0xC0004 {} [(0x18, u16 3), (0x20, u64 64), (0x28, u32 1)], by decide +kernel⟩,
   ⟨arrived (mkControl 0x04 0xC0004 0x3FFF {} [(0x18, u16 3)]) .none (ringed (startedRing { count := 7, bytes := descOf 7 [(2, leBytes 2 3), (0x10, leBytes 4 0x3FFF)], acted := true, engine := 0xC0004, readsOut := 1 })), 9, pcDie (mkControl 0x04 0xC0004 0x3FFF {} [(0x18, u16 3)]).dest, { pkt := mkControl 0x04 0xC0004 0x3FFF {} [(0x18, u16 3)], loc := .eject (pcDie (mkControl 0x04 0xC0004 0x3FFF {} [(0x18, u16 3)]).dest), origin := .none }, mkControl 0x04 0xC0004 0x3FFF {} [(0x18, u16 3)], 5, 7, { count := 7, bytes := descOf 7 [(2, leBytes 2 3), (0x10, leBytes 4 0x3FFF)], acted := true, engine := 0xC0004, readsOut := 1 }, by decide +kernel⟩,
   ⟨arrived (mkControl 0x05 0x3FFF 0xC0005 {} [(0x18, u16 4095)]) .none (unlocked {}), 9, pcDie (mkControl 0x05 0x3FFF 0xC0005 {} [(0x18, u16 4095)]).dest, { pkt := mkControl 0x05 0x3FFF 0xC0005 {} [(0x18, u16 4095)], loc := .eject (pcDie (mkControl 0x05 0x3FFF 0xC0005 {} [(0x18, u16 4095)]).dest), origin := .none }, mkControl 0x05 0x3FFF 0xC0005 {} [(0x18, u16 4095)], by decide +kernel⟩,
   ⟨arrived (mkControl 0x06 0xC0005 0x3FFF {} [(0x18, u16 4095), (0x1C, u32 2)]) .none (onRes (fun r => { r with stops := [(0, 4095, [1, 2], 1)] }) {}), 9, pcDie (mkControl 0x06 0xC0005 0x3FFF {} [(0x18, u16 4095), (0x1C, u32 2)]).dest, { pkt := mkControl 0x06 0xC0005 0x3FFF {} [(0x18, u16 4095), (0x1C, u32 2)], loc := .eject (pcDie (mkControl 0x06 0xC0005 0x3FFF {} [(0x18, u16 4095), (0x1C, u32 2)]).dest), origin := .none }, mkControl 0x06 0xC0005 0x3FFF {} [(0x18, u16 4095), (0x1C, u32 2)], 0, 1, [1, 2], by decide +kernel⟩,
   ⟨arrived (mkControl 0x07 0xC0005 0x1C0005 {} [(0x18, u32 9), (0x28, u64 4096)]) .none (unlocked {}), 9, pcDie (mkControl 0x07 0xC0005 0x1C0005 {} [(0x18, u32 9), (0x28, u64 4096)]).dest, { pkt := mkControl 0x07 0xC0005 0x1C0005 {} [(0x18, u32 9), (0x28, u64 4096)], loc := .eject (pcDie (mkControl 0x07 0xC0005 0x1C0005 {} [(0x18, u32 9), (0x28, u64 4096)]).dest), origin := .none }, mkControl 0x07 0xC0005 0x1C0005 {} [(0x18, u32 9), (0x28, u64 4096)], by decide +kernel⟩,
   ⟨arrived (mkControl 0x07 0xC0005 0x1C0005 {} [(0x18, u32 9), (0x28, u64 4096)]) .none (onXlat (fun x => { x with ctxs := [(9, {})] }) {}), 9, pcDie (mkControl 0x07 0xC0005 0x1C0005 {} [(0x18, u32 9), (0x28, u64 4096)]).dest, { pkt := mkControl 0x07 0xC0005 0x1C0005 {} [(0x18, u32 9), (0x28, u64 4096)], loc := .eject (pcDie (mkControl 0x07 0xC0005 0x1C0005 {} [(0x18, u32 9), (0x28, u64 4096)]).dest), origin := .none }, mkControl 0x07 0xC0005 0x1C0005 {} [(0x18, u32 9), (0x28, u64 4096)], {}, by decide +kernel⟩,
   ⟨arrived (mkControl 0x08 0xC0005 0x1C0005 {} [(0x18, u32 9)]) .none (onPost (fun q => { q with lbs := [(0, bcastLb)] }) {}), 9, pcDie (mkControl 0x08 0xC0005 0x1C0005 {} [(0x18, u32 9)]).dest, { pkt := mkControl 0x08 0xC0005 0x1C0005 {} [(0x18, u32 9)], loc := .eject (pcDie (mkControl 0x08 0xC0005 0x1C0005 {} [(0x18, u32 9)]).dest), origin := .none }, mkControl 0x08 0xC0005 0x1C0005 {} [(0x18, u32 9)], 0, bcastLb, by decide +kernel⟩,
   ⟨arrived (mkControl 0x20 0x3FF4 0x5FF4 {} [(0x18, u32 0x5FF4), (0x2C, u32 64), (0x36, u16 1), (0x38, u64 64)]) .none (unlocked {}), 9, pcDie (mkControl 0x20 0x3FF4 0x5FF4 {} [(0x18, u32 0x5FF4), (0x2C, u32 64), (0x36, u16 1), (0x38, u64 64)]).dest, { pkt := mkControl 0x20 0x3FF4 0x5FF4 {} [(0x18, u32 0x5FF4), (0x2C, u32 64), (0x36, u16 1), (0x38, u64 64)], loc := .eject (pcDie (mkControl 0x20 0x3FF4 0x5FF4 {} [(0x18, u32 0x5FF4), (0x2C, u32 64), (0x36, u16 1), (0x38, u64 64)]).dest), origin := .none }, mkControl 0x20 0x3FF4 0x5FF4 {} [(0x18, u32 0x5FF4), (0x2C, u32 64), (0x36, u16 1), (0x38, u64 64)], readRelay (mkControl 0x20 0x3FF4 0x5FF4 {} [(0x18, u32 0x5FF4), (0x2C, u32 64), (0x36, u16 1), (0x38, u64 64)]), by decide +kernel⟩,
   ⟨arrived (mkControl 0x21 0x3FF4 0x5FF4 {} [(0x18, u16 1)]) .none (onFabric (fun f => { f with relays := [(1, { ring := 5, count := 7, place := { pc := 0x2001, off := 0 }, left := 1, mode := 1, direction := 0, total := 64 })] }) (ringed (startedRing { count := 7, bytes := descOf 1 [], engine := 0x3FF4, acted := true, relay := some 1 }))), 9, pcDie (mkControl 0x21 0x3FF4 0x5FF4 {} [(0x18, u16 1)]).dest, { pkt := mkControl 0x21 0x3FF4 0x5FF4 {} [(0x18, u16 1)], loc := .eject (pcDie (mkControl 0x21 0x3FF4 0x5FF4 {} [(0x18, u16 1)]).dest), origin := .none }, mkControl 0x21 0x3FF4 0x5FF4 {} [(0x18, u16 1)], 1, { ring := 5, count := 7, place := { pc := 0x2001, off := 0 }, left := 1, mode := 1, direction := 0, total := 64 }, { count := 7, bytes := descOf 1 [], engine := 0x3FF4, acted := true, relay := some 1 }, by decide +kernel⟩,
   ⟨arrived (mkControl 0x30 0xDE032 0xC0004 {} [(0x18, u16 5), (0x20, u64 99)]) .none (unlocked {}), 9, pcDie (mkControl 0x30 0xDE032 0xC0004 {} [(0x18, u16 5), (0x20, u64 99)]).dest, { pkt := mkControl 0x30 0xDE032 0xC0004 {} [(0x18, u16 5), (0x20, u64 99)], loc := .eject (pcDie (mkControl 0x30 0xDE032 0xC0004 {} [(0x18, u16 5), (0x20, u64 99)]).dest), origin := .none }, mkControl 0x30 0xDE032 0xC0004 {} [(0x18, u16 5), (0x20, u64 99)], 63, by decide +kernel⟩,
   ⟨selState, 5, 7, 1, selD, pinLook selState 5 selD, 0x3FF8, [(0, 0)], [(0, 0)], untaggedBytes 1 1 [(0, 0)], selState, [(.place 0x2001 64, 8)], by decide +kernel, by decide +kernel, by decide +kernel, by decide +kernel, by decide +kernel, by decide +kernel, by decide +kernel, by decide +kernel, rfl, by decide +kernel⟩,
   ⟨ringed (startedRing { count := 7, bytes := descOf 3 [(1, [16]), (0x10, leBytes 4 0x3FF8), (0x18, [5, 0]), (0x30, [2, 0, 0, 0, 4, 0, 0, 0, 1, 5])], engine := 0x3FF8 }), 5, 7, { count := 7, bytes := descOf 3 [(1, [16]), (0x10, leBytes 4 0x3FF8), (0x18, [5, 0]), (0x30, [2, 0, 0, 0, 4, 0, 0, 0, 1, 5])], engine := 0x3FF8 }, 0x3FF8, by decide +kernel⟩⟩

/-- States and operands that meet the hypotheses of `RoutingRowsComplete`, clause by clause. -/
theorem witness_RoutingRowsComplete :
    (∃ (s : State) (point n : Nat), validPoint point = true ∧ slotOf s = 0 ∧ (dieOf s (pointDie point)).drain = false ∧ injectionStopped s = false ∧ (n = min (8 - if (tget (0, 0) s.fabric.injected point).1 = frameOf s then (tget (0, 0) s.fabric.injected point).2 else 0) (tget [] s.fabric.control point).length))
    ∧ (∃ (s : State) (die router pid : Nat) (f : Flight) (o : Output) (l : Loc) (i : Nat), validRouter die router = true ∧ f.loc = .mesh die router i ∧ s.fabric.flights = [(pid, f)] ∧ f.pkt.tunnel = none ∧ (targetOf s die f.pkt).2.1 = f.pkt ∧ (targetOf s die f.pkt).2.2 = false ∧ outerEscape f.pkt = false ∧ outerDefl f.pkt < s.fabric.deflectLimit ∧ s.fabric.badEntries.contains die = false ∧ firstFree s die router f [] (productive die router (targetOf s die f.pkt).1) = some (o, l))
    ∧ (∃ (s : State) (die router pid : Nat) (f : Flight) (o : Output) (l : Loc) (i : Nat), validRouter die router = true ∧ f.loc = .mesh die router i ∧ s.fabric.flights = [(pid, f)] ∧ f.pkt.tunnel = none ∧ (targetOf s die f.pkt).2.1 = f.pkt ∧ (targetOf s die f.pkt).2.2 = false ∧ outerEscape f.pkt = false ∧ outerDefl f.pkt < s.fabric.deflectLimit ∧ s.fabric.badEntries.contains die = false ∧ firstFree s die router f [] (productive die router (targetOf s die f.pkt).1) = none ∧ firstFree s die router f [] (otherOutputs s die f.pkt (.transit i)) = some (o, l))
    ∧ (∃ (s : State) (die router pid : Nat) (f : Flight) (o : Output) (l : Loc), validRouter die router = true ∧ f.loc = .inject die 0 ∧ mayStart s die router f = true ∧ (dieOf s die).drain = false ∧ s.fabric.flights = [(pid, f)] ∧ pid < s.fabric.nextPid ∧ f.pkt.tunnel = none ∧ (targetOf s die f.pkt).2.1 = f.pkt ∧ (targetOf s die f.pkt).2.2 = false ∧ outerEscape f.pkt = false ∧ outerDefl f.pkt < s.fabric.deflectLimit ∧ s.fabric.badEntries.contains die = false ∧ firstFree s die router f [] (productive die router (targetOf s die f.pkt).1) = some (o, l))
    ∧ (∃ (s : State) (die router pid : Nat) (f : Flight) (o : Output) (l : Loc) (input : Nat) (four : Bool), f.loc = .seamRx die input ∧ (router = if die < 84 then input / 4 else 0) ∧ (dieOf s die).drain = false ∧ (die < 84 ∨ isEdge die = true) ∧ s.fabric.flights = [(pid, f)] ∧ f.pkt.tunnel = none ∧ (targetOf s die f.pkt).2.1 = f.pkt ∧ (targetOf s die f.pkt).2.2 = false ∧ outerEscape f.pkt = false ∧ outerDefl f.pkt < s.fabric.deflectLimit ∧ s.fabric.badEntries.contains die = false ∧ firstFree s die router f [] (productive die router (targetOf s die f.pkt).1) = none ∧ (firstFree s die router f [] (otherOutputs s die f.pkt (if four = true ∧ 96 ≤ die then .offModule else .onModule)) = some (o, l)))
    ∧ (∃ (s : State) (die output pid g l : Nat) (f : Flight), validOutput die output = true ∧ s.fabric.flights = [(pid, f)] ∧ f.loc = .seamTx die output ∧ ((if die < 84 then frondFar die (output / 4) (output % 4) else switchFar (die - 96) output) = some (g, l)) ∧ linkUp s die output = true ∧ linkUp s g l = true)
    ∧ (∃ (s : State) (pid d : Nat) (f : Flight), flightOf s pid = some f ∧ escapeDie f = some d)
    ∧ (∃ (s : State) (die : Nat), isDie die = true ∧ (dieOf s die).drain = true)
    ∧ (∃ (s : State) (die engine group : Nat) (c : MergeCtx) (d : Started), die < 84 ∧ engine < 2 ∧ ((mergesOf s die (8 + engine)).find? (fun c => c.group == group) = some c) ∧ startedOf s c.ring c.count = some d ∧ d.status = none)
    ∧ (∃ (s : State) (die engine index : Nat), die < 84 ∧ engine < 2 ∧ index < (parkOf s die (8 + engine)).length) :=
  ⟨⟨sendControl (mkControl 1 0x2001 0xC0004 {} []) {}, 96, 1, by decide +kernel⟩,
   ⟨oneFlight (.mesh 1 0 3) {}, 1, 0, 4, { pkt := mkControl 1 0x2001 0xC0004 {} [], loc := .mesh 1 0 3 }, .eject, .eject 1, 3, by decide +kernel⟩,
   ⟨onDie 1 (fun x => { x with linksOut := [7, 4] }) (oneFlight (.mesh 1 1 1) {}), 1, 1, 4, { pkt := mkControl 1 0x2001 0xC0004 {} [], loc := .mesh 1 1 1 }, .dir 2, .mesh 1 21 0, 1, by decide +kernel⟩,
   ⟨oneFlight (.inject 1 0) {}, 1, 149, 4, { pkt := mkControl 1 0x2001 0xC0004 {} [], loc := .inject 1 0 }, .dir 0, .mesh 1 129 2, by decide +kernel⟩,
   ⟨onDie 1 (fun x => { x with linksOut := [7, 4] }) (oneFlight (.seamRx 1 5) {}), 1, 1, 4, { pkt := mkControl 1 0x2001 0xC0004 {} [], loc := .seamRx 1 5 }, .dir 1, .mesh 1 2 3, 5, false, by decide +kernel⟩,
   ⟨oneFlight (.seamTx 97 40) {}, 97, 40, 4, 98, 32, { pkt := mkControl 1 0x2001 0xC0004 {} [], loc := .seamTx 97 40 }, by decide +kernel⟩,
   ⟨oneFlight (.escIngress 95) {}, 4, 111, { pkt := mkControl 1 0x2001 0xC0004 {} [], loc := .escIngress 95 }, by decide +kernel⟩,
   ⟨onDie 97 (fun x => { x with drain := true }) {}, 97, by decide +kernel⟩,
   ⟨onDie 1 (fun x => { x with merges := [(9, [ctx5])] }) (ringed (startedRing selD)), 1, 1, 5, ctx5, selD, by decide +kernel⟩,
   ⟨onDie 1 (fun x => { x with parks := [(8, [{ pkt := listPkt, loc := .eject 1 }])] }) {}, 1, 0, 0, by decide +kernel⟩⟩

/-- States and operands that meet the hypotheses of `LaunchRowsComplete`, clause by clause. -/
theorem witness_LaunchRowsComplete :
    (∃ (s : State) (ring count : Nat) (d : Started) (p : Ph) (i : Image) (e : Entry), ring < 1088 ∧ startedOf s ring count = some d ∧ d.status = none ∧ descType d.bytes = 4 ∧ d.acted = false ∧ phOf s (launchPh d.bytes) = some p ∧ p.stamp = true ∧ p.claims.contains (ringOf s ring).owner = true ∧ imageOf s p = some i ∧ i.entries[launchEntry d.bytes]? = some e ∧ launchArgs d.bytes ≤ e.maxArgs ∧ launchArgs d.bytes ≤ 24)
    ∧ (∃ (s : State) (ring count : Nat) (d : Started) (p : Ph), ring < 1088 ∧ startedOf s ring count = some d ∧ d.status = none ∧ descType d.bytes = 4 ∧ d.acted = false ∧ phOf s (launchPh d.bytes) = some p ∧ p.stamp = false)
    ∧ (∃ (s : State) (pigeonhole launch : Nat) (x : Launch) (p : Ph) (i : Image), pigeonhole < 4096 ∧ launchOf s launch = some x ∧ mayGrant s pigeonhole launch x = true ∧ phOf s pigeonhole = some p ∧ imageOf s p = some i)
    ∧ (∃ (s : State) (launch : Nat) (x : Launch) (d : Started), launchOf s launch = some x ∧ x.running = true ∧ startedOf s x.ring x.count = some d ∧ d.status = none ∧ x.localOut = 0 ∧ x.streamOut = 0 ∧ x.readsOut = 0 ∧ awaitsInjection s (.launch launch) = false)
    ∧ (∃ (s : State) (launch : Nat) (x : Launch), launchOf s launch = some x ∧ x.running = true ∧ (x.localOut ≠ 0 ∨ x.streamOut ≠ 0 ∨ x.readsOut ≠ 0 ∨ awaitsInjection s (.launch launch) = true))
    ∧ (∃ (s : State) (launch tile code : Nat) (x : Launch) (d : Started), launchOf s launch = some x ∧ x.running = true ∧ startedOf s x.ring x.count = some d ∧ d.status = none ∧ 1 ≤ code ∧ code ≤ 8 ∧ inLaunch s x tile = true)
    ∧ (∃ (s : State) (launch tile : Nat) (x : Launch) (d : Started) (e : Entry), launchOf s launch = some x ∧ x.running = true ∧ startedOf s x.ring x.count = some d ∧ d.status = none ∧ entryOf s x = some e ∧ e.limitMs ≠ 0 ∧ inLaunch s x tile = true)
    ∧ (∃ (s : State) (launch : Nat) (x : Launch) (d : Started) (p : Ph), launchOf s launch = some x ∧ x.running = true ∧ startedOf s x.ring x.count = some d ∧ d.status = none ∧ x.reading ≠ [] ∧ phOf s x.ph = some p)
    ∧ (∃ (s : State) (frond tile l lt offset : Nat) (bytes : List Byte), frond < 84 ∧ tile < 320 ∧ launchAt s frond tile = some (l, lt) ∧ offset + bytes.length ≤ 0xFE000)
    ∧ (∃ (s : State) (frond tile l lt offset : Nat) (bytes : List Byte), frond < 84 ∧ tile < 320 ∧ launchAt s frond tile = some (l, lt) ∧ offset + bytes.length ≤ 0x100000 ∧ (readMem (scratchPc (moduleNumber s) frond tile) offset bytes.length s).2.1.any id = false)
    ∧ (∃ (s : State) (launch tile operand n off : Nat) (pc : Postcode) (bytes : List Byte) (x : Launch) (p : Ph) (i : Image), launchOf s launch = some x ∧ phOf s x.ph = some p ∧ imageOf s p = some i ∧ x.running = true ∧ x.ended = false ∧ x.streams = [] ∧ x.streamOut = 0 ∧ inLaunch s x tile = true ∧ operand < field x.args 4 1 ∧ bytes.length ≤ field ((x.args.drop (8 + 24 * operand)).take 24) 0x10 8 * formatBytes (field ((x.args.drop (8 + 24 * operand)).take 24) 1 1) ∧ 0 < bytes.length ∧ bytes.length ≤ 4032 ∧ n = bytes.length ∧ (operandPieces s i p tile ((x.args.drop (8 + 24 * operand)).take 24) true bytes.length).toOption = some [(.place pc off, n)] ∧ pcModule pc = moduleNumber s)
    ∧ (∃ (s : State) (launch tile operand n off : Nat) (pc : Postcode) (x : Launch) (p : Ph) (i : Image), launchOf s launch = some x ∧ phOf s x.ph = some p ∧ imageOf s p = some i ∧ x.running = true ∧ x.ended = false ∧ x.streams = [] ∧ x.streamOut = 0 ∧ inLaunch s x tile = true ∧ operand < field x.args 4 1 ∧ field ((x.args.drop (8 + 24 * operand)).take 24) 2 2 = 0xFFFF ∧ 0 < n ∧ n ≤ 4096 ∧ (operandPieces s i p tile ((x.args.drop (8 + 24 * operand)).take 24) false (field ((x.args.drop (8 + 24 * operand)).take 24) 0x10 8 * formatBytes (field ((x.args.drop (8 + 24 * operand)).take 24) 1 1))).toOption = some [(.place pc off, n)])
    ∧ (∃ (s : State) (core address : Nat) (bytes : List Byte), core < 64 ∧ (stewardOf s core).running = true ∧ (stewardOf s core).halted = false ∧ (stewardOf s core).parked = false ∧ address + bytes.length ≤ 2 ^ 21)
    ∧ (∃ (s : State) (core address h off : Nat) (bytes : List Byte) (p : Ph) (i : Image) (pc : Postcode), core < 64 ∧ (stewardOf s core).running = true ∧ (stewardOf s core).halted = false ∧ (stewardOf s core).parked = false ∧ 2 ^ 32 ≤ address ∧ (stewardOf s core).ph = some h ∧ phOf s h = some p ∧ imageOf s p = some i ∧ stewardPlaceFrom (moduleNumber s) i p 0 i.regions (address - 2 ^ 32) = some (pc, off) ∧ lockCheck s pc off bytes.length (imageFrank i) rightWrite = none)
    ∧ (∃ (s : State) (core : Nat), core < 64 ∧ (stewardOf s core).running = true ∧ (stewardOf s core).halted = false ∧ (stewardOf s core).parked = false) :=
  ⟨⟨working work { workDesc with acted := false }, 5, 7, { workDesc with acted := false }, workPh, workImage, { code := 0, first := 0, count := 1, maxArgs := 24, limitMs := 5 }, by decide +kernel⟩,
   ⟨onPh 4 (fun p => { p with stamp := false }) (working work { workDesc with acted := false }), 5, 7, { workDesc with acted := false }, { workPh with stamp := false }, by decide +kernel⟩,
   ⟨working work workDesc, 4, 2, work, workPh, workImage, by decide +kernel⟩,
   ⟨working { work with running := true } workDesc, 2, { work with running := true }, workDesc, by decide +kernel⟩,
   ⟨working { work with running := true, localOut := 1 } workDesc, 2, { work with running := true, localOut := 1 }, by decide +kernel⟩,
   ⟨onRes (fun r => { r with images := [(1, { workImage with regions := [] })] }) (working { work with running := true } workDesc), 2, 0, 8, { work with running := true }, workDesc, by decide +kernel⟩,
   ⟨onRes (fun r => { r with images := [(1, { workImage with regions := [] })] }) (working { work with running := true } workDesc), 2, 0, { work with running := true }, workDesc, { code := 0, first := 0, count := 1, maxArgs := 24, limitMs := 5 }, by decide +kernel⟩,
   ⟨working { work with running := true, reading := [0] } workDesc, 2, { work with running := true, reading := [0] }, workDesc, workPh, by decide +kernel⟩,
   ⟨working { work with running := true } workDesc, 1, 0, 2, 0, 1040376, [1, 2, 3, 4, 5, 6, 7, 8], by decide +kernel⟩,
   ⟨working { work with running := true } workDesc, 1, 0, 2, 0, 1048568, [1, 2, 3, 4, 5, 6, 7, 8], by decide +kernel⟩,
   ⟨pinned (working { work with running := true, args := leBytes 4 0 ++ [1, 0, 0, 0] ++ oneOperand.drop 8 } workDesc), 2, 0, 0, 4, 0, 0x2001, [1, 2, 3, 4], { work with running := true, args := leBytes 4 0 ++ [1, 0, 0, 0] ++ oneOperand.drop 8 }, workPh, workImage, by decide +kernel⟩,
   ⟨pinned (working { work with running := true, args := leBytes 4 0 ++ [1, 0, 0, 0] ++ oneOperand.drop 8 } workDesc), 2, 0, 0, 4, 0, 0x2001, { work with running := true, args := leBytes 4 0 ++ [1, 0, 0, 0] ++ oneOperand.drop 8 }, workPh, workImage, by decide +kernel⟩,
   ⟨stewardUp, 3, 2097148, [1, 2, 3, 4], by decide +kernel⟩,
   ⟨onDie 1 (fun x => { x with locks := [(6, 15 + 3 * 2 ^ 16)] }) (onFabric (fun f => { f with routeSets := [(0, [9])] }) (onSteward 3 (fun c => { c with ph := some 0, running := true }) (onRes (fun r => { r with images := [(1, fieldImage)], phs := [(0, fieldPh)] }) {}))), 3, 4294967296, 0, 12582912, [1, 2], fieldPh, fieldImage, 0x3FFB, by decide +kernel⟩,
   ⟨stewardUp, 3, by decide +kernel⟩⟩

/-- States and operands that meet the hypotheses of `FaultRowsComplete`, clause by clause. -/
theorem witness_FaultRowsComplete :
    (∃ (die : Nat), isDie die = true)
    ∧ (∃ (die : Nat), die < 84)
    ∧ (∃ (die : Nat), isEdge die = true)
    ∧ (∃ (s : State) (frond : Nat), frond < 84 ∧ dieUp s frond = true)
    ∧ (∃ (s : State) (frond unit : Nat), frond < 84 ∧ selfChecking unit = true ∧ dieUp s frond = true)
    ∧ (∃ (s : State) (die : Nat), isDie die = true ∧ (1000 < (dieOf s die).recentCorrections ∨ (dieOf s die).corrections.any (fun e => decide (3 ≤ e.2)) = true))
    ∧ (∃ (s : State) (edge : Nat), edge < 16 ∧ (dieOf s (96 + edge)).failed = false)
    ∧ (∃ (s : State) (die link group wire : Nat) (inbound : Bool) (n : Nat × Nat × Bool), isDie die = true ∧ link < linkCount die ∧ group < 8 ∧ wire < groupWires die link ∧ n = linkName die link inbound ∧ (dieOf s n.1).linksOut.contains n.2.1 = false ∧ groupUsed s n.1 n.2.1 group n.2.2 = false)
    ∧ (∃ (s : State) (die link group wire : Nat) (inbound : Bool) (n : Nat × Nat × Bool), isDie die = true ∧ link < linkCount die ∧ group < 8 ∧ wire < groupWires die link ∧ n = linkName die link inbound ∧ (dieOf s n.1).linksOut.contains n.2.1 = false ∧ (dieOf s n.1).badWires.contains { link := n.2.1, group := group, wire := wire, inbound := n.2.2 } = false ∧ groupUsed s n.1 n.2.1 group n.2.2 = true)
    ∧ (∃ (s : State) (frond tile : Nat), frond < 84 ∧ tile < 320 ∧ (dieOf s frond).retired.contains tile = false ∧ (3 ≤ tget 0 (dieOf s frond).tileFaults tile ∨ foundTwice s frond tile = true))
    ∧ (∃ (s : State), postUp s = true ∧ s.post.journal.unwritten ≠ 0)
    ∧ (∃ (s : State) (slot : Nat) (k : KeySlot), 160 ≤ slot ∧ slot < 224 ∧ tfind s.fabric.keys slot = some k)
    ∧ (∃ (die index : Nat), isDie die = true ∧ index < parityRange .lock die)
    ∧ (∃ (die index : Nat), isDie die = true ∧ index < parityRange .keySlot die ∧ index < 160)
    ∧ (∃ (die index : Nat), isDie die = true ∧ index < parityRange .routeTable die)
    ∧ (∃ (die index : Nat), isDie die = true ∧ index < parityRange .queueEntry die)
    ∧ (∃ (die index : Nat), isDie die = true ∧ index < tlbSize die)
    ∧ (∃ (die index : Nat), isDie die = true ∧ index < dtcSize die)
    ∧ (∃ (die index : Nat), isDie die = true ∧ index < parityRange .mirror die)
    ∧ (∃ (s : State) (die index : Nat) (p : Pin), isDie die = true ∧ index < parityRange .pin die ∧ s.xlat.pins[index]? = some p ∧ p.programmed = none)
    ∧ (∃ (die index : Nat), isDie die = true ∧ index < parityRange .spectralTable die)
    ∧ (∃ (s : State) (die index : Nat) (r : RunCount), isDie die = true ∧ index < parityRange .runCount die ∧ (dieOf s die).runs[index]? = some r)
    ∧ (∃ (die index : Nat), isDie die = true ∧ index < parityRange .holdBuffer die)
    ∧ (∃ (die index : Nat), isDie die = true ∧ index < parityRange .tally die)
    ∧ (∃ (s : State) (die word : Nat), isDie die = true ∧ wordOnDie die word = true ∧ powered s die = true ∧ (dieOf s die).failed = false ∧ word < otherStores ∧ (dieOf s die).scrubbed + 1 < wordsOfDie die ∧ markOf s word = none)
    ∧ (∃ (s : State) (die word : Nat), isDie die = true ∧ wordOnDie die word = true ∧ powered s die = true ∧ (dieOf s die).failed = false ∧ word < otherStores ∧ markOf s word = none)
    ∧ (∃ (s : State) (die word : Nat), isDie die = true ∧ wordOnDie die word = true ∧ powered s die = true ∧ (dieOf s die).failed = false ∧ word < otherStores ∧ markOf s word = none) :=
  ⟨⟨111, by decide +kernel⟩,
   ⟨83, by decide +kernel⟩,
   ⟨111, by decide +kernel⟩,
   ⟨serving, 83, by decide +kernel⟩,
   ⟨serving, 83, 12, by decide +kernel⟩,
   ⟨onDie 4 (fun x => { x with recentCorrections := 1001 }) {}, 4, by decide +kernel⟩,
   ⟨serving, 15, by decide +kernel⟩,
   ⟨serving, 3, 1279, 7, 0, true, linkName 3 1279 true, by decide +kernel⟩,
   ⟨onDie 3 (fun x => { x with badWires := [{ link := 5, group := 7, wire := 1, inbound := false }] }) serving, 3, 5, 7, 0, false, (3, 5, false), by decide +kernel⟩,
   ⟨onDie 3 (fun x => { x with tileFaults := [(319, 3)] }) serving, 3, 319, by decide +kernel⟩,
   ⟨journal 0x1001 4 2 false [] serving, by decide +kernel⟩,
   ⟨onFabric (fun f => { f with keys := [(223, { key := [], previous := some [] })] }) {}, 223, { key := [], previous := some [] }, by decide +kernel⟩,
   ⟨83, 367, by decide +kernel⟩,
   ⟨83, 159, by decide +kernel⟩,
   ⟨111, 4095, by decide +kernel⟩,
   ⟨111, 31, by decide +kernel⟩,
   ⟨111, 4095, by decide +kernel⟩,
   ⟨111, 8191, by decide +kernel⟩,
   ⟨111, 0, by decide +kernel⟩,
   ⟨pinned {}, 111, 0, { ctx := 9, va := 0, size := 65536, count := 1, programmed := none, leaf := some { ctx := 9, va := 0, size := 65536, target := .place 0x2001 0, r := true, w := true, a := false } }, by decide +kernel⟩,
   ⟨83, 63, by decide +kernel⟩,
   ⟨onDie 83 (fun x => { x with runs := [{ module := 0, ring := 1, run := 1, count := 1 }] }) {}, 83, 0, { module := 0, ring := 1, run := 1, count := 1 }, by decide +kernel⟩,
   ⟨83, 63, by decide +kernel⟩,
   ⟨83, 0, by decide +kernel⟩,
   ⟨servingWith (fun p => { p with frondsOn := true }), 1, 41943040, by decide +kernel⟩,
   ⟨servingWith (fun p => { p with frondsOn := true }), 1, 41943040, by decide +kernel⟩,
   ⟨servingWith (fun p => { p with frondsOn := true }), 1, 41943040, by decide +kernel⟩⟩

/-- States and operands that meet the hypotheses of `ThermalRowsComplete`, clause by clause. -/
theorem witness_ThermalRowsComplete :
    (∃ (s : State) (die index : Nat) (tenths : Int), postUp s = true ∧ isDie die = true ∧ index < sensorCount die ∧ powered s die = true ∧ -400 ≤ tenths ∧ tenths ≤ 1500)
    ∧ (∃ (s : State) (die index : Nat) (tenths : Int), postUp s = true ∧ isDie die = true ∧ index < sensorCount die ∧ powered s die = true ∧ (tenths < -400 ∨ 1500 < tenths))
    ∧ (∃ (s : State) (frond : Nat), frond < 84 ∧ dieHot s frond = true)
    ∧ (∃ (s : State) (frond : Nat), frond < 84 ∧ dieCool s frond = true)
    ∧ (∃ (s : State) (die celsius : Nat), isDie die = true ∧ 115 ≤ celsius ∧ s.power.boot ≠ .unpowered ∧ s.power.boot ≠ .shutdown)
    ∧ (∃ (s : State) (input millivolts : Nat), input < 2 ∧ 58500 < millivolts ∧ s.power.boot ≠ .unpowered ∧ s.power.boot ≠ .shutdown)
    ∧ (∃ (s : State), s.power.boot = .shutdown ∧ s.power.allOff = false)
    ∧ (∃ (s : State) (board : BoardStart), s.power.boot = .shutdown ∧ s.power.allOff = true ∧ (s.power.inA = true ∨ s.power.inB = true) ∧ board.processorStarts = true)
    ∧ (∃ (s : State) (board : BoardStart), s.power.boot = .shutdown ∧ s.power.allOff = true ∧ (s.power.inA = true ∨ s.power.inB = true) ∧ board.processorStarts = false)
    ∧ (∃ (s : State) (command v : Nat), s.power.boot = .shutdown ∧ command < 3 ∧ (v = (if command = 0 then s.power.latch.cause else if command = 1 then s.power.latch.die else s.power.latch.celsius))) :=
  ⟨⟨servingWith (fun p => { p with frondsOn := true }), 83, 3, 1049, by decide +kernel⟩,
   ⟨servingWith (fun p => { p with frondsOn := true }), 83, 3, 1501, by decide +kernel⟩,
   ⟨onPower (fun p => { p with sensors := [(335, { tenths := 1050, condition := 0 })] }) serving, 83, by decide +kernel⟩,
   ⟨onPower (fun p => { p with sensors := (List.range 4).map fun i => (332 + i, { tenths := 1019, condition := 0 }) }) serving, 83, by decide +kernel⟩,
   ⟨serving, 111, 115, by decide +kernel⟩,
   ⟨serving, 1, 58501, by decide +kernel⟩,
   ⟨servingWith (fun p => { p with boot := .shutdown }), by decide +kernel⟩,
   ⟨servingWith (fun p => { p with boot := .shutdown, allOff := true, inB := true }), {}, by decide +kernel⟩,
   ⟨servingWith (fun p => { p with boot := .shutdown, allOff := true, inB := true }), { processorStarts := false }, by decide +kernel⟩,
   ⟨servingWith (fun p => { p with boot := .shutdown, latch := { cause := 1, die := 7, celsius := 116 } }), 2, 116, by decide +kernel⟩⟩

/-- A state and operands that meet the hypotheses of `StepRunsFront`. -/
theorem witness_StepRunsFront : ({ pending := [.coldReset, .mctpWatchdogExpiry] } : State).pending = .coldReset :: [.mctpWatchdogExpiry] := rfl

/-- A state and operands that meet the hypotheses of `StepIdleTicks`. -/
theorem witness_StepIdleTicks : ({} : State).pending = [] := rfl

/-- A state and operands that meet the hypotheses of `StepKeepsCanonicalMemory`. -/
theorem witness_StepKeepsCanonicalMemory : CanonicalMemory { pending := [.nop 0] } ∧ ran (.nop 0) {} = true := ⟨rfl, by decide +kernel⟩

/-- A state and operands that meet the hypotheses of `StepKeepsLegalLadder`. -/
theorem witness_StepKeepsLegalLadder : LegalLadder { pending := [.nop 0] } ∧ ran (.nop 0) {} = true := ⟨(fun _ h => nomatch h), by decide +kernel⟩

/-- A state and operands that meet the hypotheses of `StepKeepsJournal`. -/
theorem witness_StepKeepsJournal : OrderedJournal { pending := [.nop 0] } ∧ ran (.nop 0) {} = true := ⟨⟨by decide, (fun _ h => nomatch h), List.Pairwise.nil⟩, by decide +kernel⟩

/-- A state and operands that meet the hypotheses of `JournalIndexesNeverReused`. -/
theorem witness_JournalIndexesNeverReused : ran .coldReset {} = true := by decide +kernel

/-- A state and operands that meet the hypotheses of `WellFormedCommandsComplete`. -/
theorem witness_WellFormedCommandsComplete : (Instr.portEnable 127).wf = true := by decide +kernel

/-- A state and operands that meet the hypotheses of `IllFormedCommandsChangeNothing`. -/
theorem witness_IllFormedCommandsChangeNothing : (Instr.nop 128).wf = false := by decide +kernel

/-- A state and operands that meet the hypotheses of `CommandsLeaveQueueAndOutputs`. -/
theorem witness_CommandsLeaveQueueAndOutputs : ran .coldReset { pending := [.coldReset] } = true := by decide +kernel

/-- A state and operands that meet the hypotheses of `OnlyActivationChangesBootFloor`. -/
theorem witness_OnlyActivationChangesBootFloor : mayActivate .coldReset = false ∧ ran .coldReset {} = true := by decide +kernel

/-- A state and operands that meet the hypotheses of `OnlyKeyCommandsChangeKeys`. -/
theorem witness_OnlyKeyCommandsChangeKeys : clearsModule (.lbAbort 0 1) = false ∧ mayChangeKeys (.lbAbort 0 1) = false ∧ mayChangeRouteSets (.lbAbort 0 1) = false ∧ mayChangeContexts (.lbAbort 0 1) = false ∧ mayChangeLimit (.lbAbort 0 1) = false ∧ ran (.lbAbort 0 1) {} = true := by decide +kernel

/-- A state and operands that meet the hypotheses of `OnlyTheLadderMovesTheLadder`. -/
theorem witness_OnlyTheLadderMovesTheLadder : clearsModule (.powerRequest 0) = false ∧ movesLadder (.powerRequest 0) = false ∧ ran (.powerRequest 0) {} = true := by decide +kernel

/-- A state and operands that meet the hypotheses of `OnlyCommitChangesModuleNumber`. -/
theorem witness_OnlyCommitChangesModuleNumber : clearsModule (.nop 0) = false ∧ (Instr.nop 0) ≠ .commitTime ∧ (∀ o e, Instr.nop 0 ≠ .mctpSetEndpointId o e) ∧ movesTap (.nop 0) = false ∧ ran (.nop 0) {} = true := ⟨rfl, by decide, by intros; simp, rfl, by decide +kernel⟩

/-- A state and operands that meet the hypotheses of `HostAndLetterboxFrame`. -/
theorem witness_HostAndLetterboxFrame : ∀ i ∈ ([.hostPortTraining 0, .perstAssert 0, .hostLinkDown 0, .configRequest 0 0 false .vendorId 0, .busMasterEnableClear 0 0, .busMasterEnableSet 0 0, .initiateFlr 0 0, .flrReadsDone 0 0, .vfEnableSet 0, .vfEnableClear 0, .d3hotEntry 0 0, .d0Return 0 0, .priEnableToggle 0 0, .msixUnmask 0 0 .functionMask, .badSizeAccess 0 0 0 0 0 false, .registerWrite 0 0 0 0 0 0 0, .hostReadCompletion 0 0 .success [], .completionTimeout 0 0, .poisonedCompletion 0 0 [], .unexpectedCompletion 0 0, .correctableLinkError 0 0, .malformedTlp 0, .atsInvalidationRequest 0 0 0 0 0, .pageResponse 0 0 0 .success, .pageResponseTimeout 0 0 0, .doeObject 0 0 [], .lbDoorbell 0 0, .lbAbort 0 0, .lbResultClear 0 0 false, .lbFrameWrite 0 0 0 0, .commandStart 0, .nop 0, .getVersion 0, .getModuleInfo 0, .fnSetQuota 0, .fnQuery 0] : List Instr), ran i {} = true := by decide +kernel

/-- A state and operands that meet the hypotheses of `RingAndTranslationFrame`. -/
theorem witness_RingAndTranslationFrame : ∀ i ∈ ([.ringAlloc 0, .ringFree 0, .ringBind 0, .ringConfig 0, .ringSetPhysical 0, .ringStart 0, .ringStop 0, .ringModerate 0, .ringQuery 0, .broadcastAnswerTimeout 0, .ringAckLoss 0, .ctxCreate 0, .pinRange 0, .hotpageConfig 0, .ctxDestroy 0, .unpinRange 0, .ctxSetRoot 0, .tlbInvalidate 0, .tlbInvalidateBcast 0, .tableSync 0, .keyLoad 0, .keyClear 0, .ringDoorbell 0 0 0 0, .ringCqConsumed 0 0 0 0, .intEventVector 0 0 0, .intSelect 0 0 0, .msixTableWrite 0 0 0 .data 0, .descriptorFetch 0, .descriptorStart 0, .descriptorSettle 0, .ringError 0 1, .moderationTimer 0, .nopDescriptor 0 0, .tallyWaitTimeout 0 0, .copy 0 0, .atomic 0 0, .spectral 0 0, .launch 0 0, .tallyWait 0 0, .tallySet 0 0, .tallySetTimeout 0 0, .receiptTimeout 0 0, .unreachableTimeout 0 0, .relayTimeout 0 0, .stewardSubmit 0 0 [], .tableWalk 0 0, .hotpageWindowEnd 0 0 0] : List Instr), ran i {} = true := by decide +kernel

/-- A state and operands that meet the hypotheses of `ResidencyFrame`. -/
theorem witness_ResidencyFrame : ∀ i ∈ ([.imageLoad 0, .imageDrop 0, .imageQuery 0, .phQuery 0, .freeMapRead 0, .phCreate 0, .phClaim 0, .residencyTargetReached 0, .phRelease 0, .phEvict 0, .loadCancel 0, .phStop 0, .launchGrant 0 0, .streamReadTimeout 0, .tileCoreAccess 0 0 false 0 [], .launchEnd 0, .tileFault 0 0 1, .entryTimeLimit 0 0, .operatorLibraryCall 0 0 0 false [], .stewardCoreAccess 0 false 0 [], .stewardCoreException 0, .phCreateTimeout 0, .loadReadTimeout 0 0, .stampError 0] : List Instr), ran i {} = true := by decide +kernel

/-- A state and operands that meet the hypotheses of `FabricFrame`. -/
theorem witness_FabricFrame : ∀ i ∈ ([.routeStage 0, .routeCommit 0, .portDisable 0, .portEnable 0, .portRetrain 0, .diagEnter 0, .txTapsSet 0, .prbsGen 0, .prbsCheck 0, .patternLow 0, .patternHigh 0, .bitSlip 0, .loopback 0, .rateLimit 0, .fallbackIdleEnd 0, .backoffAttempt 0, .routeRead 0, .portQuery 0, .status 0, .routeSetDefine 0, .deflectLimit 0, .portSetWidth 0, .portSpare 0, .prbsRead 0 0 0 true, .capture 0 [], .eyeSummary 0 [], .eyeScan 0 [], .beacon 0 0 0, .readyTimer 0, .trainingFrame 0 0 0 0 false, .alignmentMarker 0 0 0, .lockFecWindow 0 false 0 0, .trainingTimeout 0, .replayTimerExpiry 0, .start 0, .narrowTimeout 0, .losAssert 0 0, .lossOfLock 0 0, .keepaliveReturnCheck 0 0, .laserFailure 0 0, .narrow 0 0, .losClear 0 0, .narrowAck 0 0, .flitSend 0, .kaEnter 0, .payloadFlitReceive 0 (.symbols 0 []) false, .linkControlRepeat { port := 0 }, .kaAck 0, .kaEnterTimeout 0, .kaExit 0, .cap 0 [] 0, .laneErrorThreshold 0 0 false, .escapeCreditStall 0, .controlInject 0, .routeDecision 0 0, .injectionStart 0 0 0, .landingWaitExpiry 0 false, .seamCrossing 0 0, .escapeWaitExpiry 0, .escapeDrainAlarm 0, .bankSwap, .commitDrainTimeout] : List Instr), ran i {} = true := by decide +kernel

/-- A state and operands that meet the hypotheses of `PowerAndRepairFrame`. -/
theorem witness_PowerAndRepairFrame : ∀ i ∈ ([.inputPowerUp false false {}, .inputUndervoltage 0, .busBarInputFail 0, .coldReset, .mctpWatchdogExpiry, .heartbeatWatchdogExpiry, .entryRingsStopped, .enableAssert, .enableDeassert, .waitLimitExpiry, .transitionTimeout, .powerupPhaseB .pass .pass, .selftestWave [], .selftestRetryPass [], .powerupVerdict false, .phaseCTimeout, .powerRequest 0, .frondClockSet 0, .govWeightSet 0, .powerQuery 0, .rackTimeQuery 0, .selftestReportRead 0, .journalRead 0, .journalAppend 0, .repairMapRead 0, .countersRead 0, .fwQuery 0, .agentReload 0, .rackTimeSet 0, .repairMapAdd 0 false, .repairMapDelete 0 false, .tileRetire 0, .frondFence 0, .frondRetest 0 .pass, .moduleReset 0, .fwStage 0 false, .fwVerify 0, .fwActivateAtReset { lb := 0, ok := false }, .fwActivateLive 0 false false, .failover 0, .postmasterHeartbeat, .unplannedFailover, .e0Restart false, .standbyLost, .ppsMissing, .governorTransition, .entryLaunchesEnded, .entryInflightZero, .exitSequence, .budgetUpdate 0 false, .governorTick [], .fastGuard 0, .thermalLimitDecrease 0, .thermalLimitIncrease 0, .powerMonitorFail none, .clockLockFail 0 false, .cryptoSelfCheck 0 false, .ppsEdge, .referenceLoss, .holdoverExpiry, .timebaseFailover, .referenceReturn, .slewEnd, .rackTimeSetTimeout, .sramScrub 0 0 .good, .eccThreshold 0, .tileAutoRetire 0 0, .edgeDieFailure 0, .wireFailure 0 0 { index := 0 } 0, .contactImbalance 0 false, .linkKeyPhaseExpiry 160, .parityError .lock 0 0, .journalFlush false, .engineError 0 12, .thermalSample [], .thermalTrip 0 0, .overvoltageTrip 0 0, .shutdownPowerOff false, .cooldownExpiry {}, .supervisorReadByte 0] : List Instr), ran i {} = true := by decide +kernel

/-- A state and operands that meet the hypotheses of `DeliveryFrame`. -/
theorem witness_DeliveryFrame : ∀ i ∈ ([.dataPacketDelivery 0, .readRequestPacket 0, .atomicPacket 0, .receipt 0, .partialListArrival 0, .holdDiscard 0 0, .readResponsePacket 0, .atomicResponsePacket 0, .refusal 0, .tallySetPacket 0, .tallySetAck 0, .phStopPacket 0, .phStopDone 0, .invalidate 0, .invalidateDone 0, .relay 0, .relayDone 0, .stewardIrq 0, .select 0 0, .parkExpiry 0 0 0, .mergeContextExpiry 0 0 0] : List Instr), ran i {} = true := by decide +kernel

/-- A state and operands that meet the hypotheses of `DiscoveryAndManagementFrame`. -/
theorem witness_DiscoveryAndManagementFrame : ∀ i ∈ ([.discoveryStart 0, .helloSend, .hello 0 [], .report 0 [], .assign 0 [], .assignAck 0 [], .commit 0 [], .fail 0 [], .electionQuiet, .rootCompute, .commitTime, .discoveryStepTimeout, .mctpSetEndpointId 0 0, .bypass 0 0, .mctpGetEndpointId 0, .mctpGetEndpointUuid 0, .mctpGetMessageTypeSupport 0, .getPdr 0, .getSensorReading 0, .getStateSensorReadings 0, .getStateEffecterStates 0, .mctpGetVersionSupport 0 0, .mctpGetVendorMsgSupport 0 0, .vendorDefinedMessage [] false, .setdasa 0, .entdaa 0, .rstdaa, .testLogicReset, .busHeldLow, .getPdrRepositoryInfo, .queryDeviceIdentifiers, .getFirmwareParameters, .getStatus, .setTid 0, .passComponentTable 0, .spdmGetDigests 0, .idcode 0, .extest 0, .extestPulse 0, .extestTrain 0, .clamp 0, .highz 0, .powerStateEffecter 0, .resetEffecter 0, .safeStateEffecter 0, .latchClearEffecter 0, .setEventReceiver false 0, .pollForPlatformEventMessage, .requestUpdate, .verifyComplete, .applyComplete, .sensorUpdate [], .updateComponent 0 0, .requestFirmwareData [] false, .transferComplete, .cancelUpdateComponent, .cancelUpdate, .activateFirmware false false, .updateIdleTimeout, .spdmGetVersion 0, .spdmGetCapabilities 0, .spdmNegotiateAlgorithms 0 false false, .spdmGetCertificate 0 0 0 0, .spdmChallenge 0 0 [], .spdmGetMeasurements 0 0 [], .samplePreload 0 0 0] : List Instr), ran i {} = true := by decide +kernel

/-- A state and operands that meet the hypotheses of `OtherRingsAndLetterboxesStay`. -/
theorem witness_OtherRingsAndLetterboxesStay : ∀ i ∈ ([.ringBind 0, .ringConfig 0, .ringSetPhysical 0, .ringStart 0, .ringStop 0, .ringModerate 0, .nopDescriptor 0 0, .descriptorFetch 0, .descriptorStart 0, .descriptorSettle 0, .moderationTimer 0, .lbDoorbell 0 1, .lbResultClear 0 1 false, .lbFrameWrite 0 0 4 1, .commandStart 0, .nop 0, .getVersion 0, .getModuleInfo 0, .fnQuery 0, .ringQuery 0, .imageQuery 0, .phQuery 0, .freeMapRead 0, .routeRead 0, .portQuery 0, .powerQuery 0, .rackTimeQuery 0, .selftestReportRead 0, .journalRead 0, .countersRead 0, .fwQuery 0] : List Instr), ran i {} = true := by decide +kernel

/-- A state and operands that meet the hypotheses of `StoresReachOnlyTheirBytes`. -/
theorem witness_StoresReachOnlyTheirBytes :
    (∃ (s : State) (x : Flight) (d : Nat) (p : Pkt), flightOf s 9 = some x ∧ x.loc = .eject d ∧ (accept s x.pkt).toOption = some p
      ∧ discardIndex s p.dest = none ∧ ran (.dataPacketDelivery 9) s = true ∧ ran (.atomicPacket 9) s = true ∧ ¬ storesAt s p 0
      ∧ (∀ f ∈ (dieOf s (pcDie p.dest)).holds, ¬ storesAt s f.pkt 0))
    ∧ (ran (.tileCoreAccess 83 319 true 0xFDFFF [1]) {} = true ∧ 0xFDFFF + 1 ≤ 0xFE000)
    ∧ (ran (.stewardCoreAccess 3 true (2 ^ 21 - 1) [1]) coreState = true ∧ (2 ^ 21 - 1) + 1 ≤ 2 ^ 21)
    ∧ (∃ (s : State) (p : Ph) (g : Image) (t : Postcode × Nat), ran (.stewardCoreAccess 3 true (2 ^ 32) [1]) s = true
      ∧ (stewardOf s 3).ph = some 4 ∧ phOf s 4 = some p ∧ imageOf s p = some g
      ∧ stewardPlaceFrom (moduleNumber s) g p 0 g.regions (2 ^ 32 - 2 ^ 32) = some t ∧ ¬ storesRange s t.1 t.2 1 0)
    ∧ (∃ (s : State) (x : Launch) (p : Ph), ran (.launchGrant 4 2) s = true ∧ launchOf s 2 = some x ∧ phOf s 4 = some p
      ∧ (launchRange s x).1 = 0 ∧ (launchRange s x).2 = 1
      ∧ ∀ w ∈ controlArea s x 0, ¬ storesRange s (scratchPc (moduleNumber s) (tileAt p 0).1 (tileAt p 0).2) w.1 w.2.length 0)
    ∧ ran (.descriptorSettle 1023) {} = true ∧ ran (.descriptorSettle 1087) {} = true :=
  ⟨⟨arrived (writePkt 0 false) .none (unlocked {}), { pkt := writePkt 0 false, loc := .eject 1 }, 1, writePkt 0 false,
      by decide +kernel, by decide +kernel, by decide +kernel, by decide +kernel, by decide +kernel, by decide +kernel, by decide +kernel, by decide +kernel⟩,
    ⟨by decide +kernel, by decide⟩, ⟨by decide +kernel, by decide⟩,
    ⟨onRes (fun r => { r with images := [(1, { workImage with regions := [{ space := 0, rights := 7, frond := 0, granules := 0, va := 0 }, { space := 1, rights := 7, frond := 0, granules := 1, va := 0 }] })], phs := [(4, regionPh)] }) coreState,
      regionPh, _, _, by decide +kernel, by decide +kernel, by decide +kernel, rfl, rfl, by decide +kernel⟩,
    ⟨working work workDesc, work, workPh, by decide +kernel, by decide +kernel, by decide +kernel, by decide +kernel, by decide +kernel,
      fun w hw => not_stores _ _ _ _ (by decide +kernel) (by
        simp only [controlArea, List.mem_cons, List.not_mem_nil, or_false] at hw
        obtain rfl | rfl | rfl := hw <;> decide)⟩,
    by decide +kernel, by decide +kernel⟩

/-- A state and operands that meet the hypotheses of `DroppedLetterboxWritesCounted`. -/
theorem witness_DroppedLetterboxWritesCounted :
    (∃ s : State, barOpen s 127 = true ∧ bit 1 0 = true ∧ (lbOf s 127).state ≠ .idle)
    ∧ (∃ s : State, barOpen s 0 = true ∧ 1784 % 8 = 0 ∧ 1784 + 8 ≤ 1792 ∧ (lbOf s 0).state ≠ .idle) :=
  ⟨⟨cmdAt 127 1 [] (onFn 64 (fun f => { f with vfEnabled := true, numVfs := 63 }) (onHostPort 1 (fun p => { p with link := 1, configReady := true }) {})),
    by decide +kernel, by decide +kernel, by decide +kernel⟩,
   ⟨cmdAt 0 1 [] (hostUp {}), by decide +kernel, by decide +kernel, by decide +kernel, by decide +kernel⟩⟩

/-- A state and operands that meet the hypotheses of `KeyLoadErasesItsFrame`. -/
theorem witness_KeyLoadErasesItsFrame : ∃ s : State, Started s 127 0x0209 := ⟨cmdAt 127 0x0209 [5, 0, 0, 1] {}, by decide +kernel⟩

/-- A state and operands that meet the hypotheses of `NopChangesNothing`. -/
theorem witness_NopChangesNothing :
    (∃ (s : State) (d : Started), startedOf s 5 7 = some d ∧ descType d.bytes = 0 ∧ d.status = none)
    ∧ (∃ (s : State) (f : Fetched), (ringOf s 1087).fetched = f :: [] ∧ flagWait f.bytes = true ∧ (ringOf s 1087).started ≠ [])
    ∧ (∃ (s : State) (d : Started), (ringOf s 1087).started = d :: [] ∧ d.status = none) :=
  ⟨⟨ringed (startedRing { count := 7, bytes := descOf 0 [] }), { count := 7, bytes := descOf 0 [] }, by decide +kernel, by decide +kernel, by decide +kernel⟩,
   ⟨onRing 1087 (fun _ => { startedRing { count := 7, bytes := descOf 1 [] } with fetched := [{ count := 8, bytes := descOf 0 [(1, [2])] }] }) {},
     { count := 8, bytes := descOf 0 [(1, [2])] }, by decide +kernel, by decide +kernel, by decide +kernel⟩,
   ⟨onRing 1087 (fun _ => startedRing { count := 7, bytes := descOf 1 [] }) {}, { count := 7, bytes := descOf 1 [] }, by decide +kernel, by decide +kernel⟩⟩

/-- A state and operands that meet the hypotheses of `BoundSlotKeepsItsKey`. -/
theorem witness_BoundSlotKeepsItsKey :
    (∃ s : State, Started s 0 0x020A ∧ argOf s 0 0x020A 0 = 159 ∧ (ringOf s 1023).state = .stopped ∧ (ringOf s 1023).key = 159)
    ∧ (∃ s : State, Started s 0 0x020A ∧ argOf s 0 0x020A 0 = 1 ∧ lockValid (lockOf s 83 367) = true ∧ lockSelector (lockOf s 83 367) = 1)
    ∧ (∃ s : State, Started s 0 0x020A ∧ argOf s 0 0x020A 0 = 223 ∧ tget [] s.fabric.routeSets 63 ≠ []) :=
  ⟨⟨cmdAt 0 0x020A [159] (onRing 1023 (fun g => { g with state := .stopped, key := 159 }) {}), by decide +kernel, by decide +kernel, by decide +kernel, by decide +kernel⟩,
   ⟨cmdAt 0 0x020A [1] (onDie 83 (fun x => { x with locks := [(367, 0x10001)] }) {}), by decide +kernel, by decide +kernel, by decide +kernel, by decide +kernel⟩,
   ⟨cmdAt 0 0x020A [223] (onFabric (fun f => { f with routeSets := [(63, [4095])] }) {}), by decide +kernel, by decide +kernel, by decide +kernel⟩⟩

/-- A state and operands that meet the hypotheses of `OvervoltageThreshold`. -/
theorem witness_OvervoltageThreshold :
    (∃ s : State, s.power.boot = .serving) ∧ 1 < 2 ∧ 58500 ≤ 58500 ∧ 59500 < 59501 :=
  ⟨⟨onPower (fun p => { p with boot := .serving }) {}, rfl⟩, by decide, by decide, by decide⟩

end Sys2Proof.Tests
end

section
/-! SUPPORT. What a write that a letterbox drops leaves of it (R112), and how KEY_LOAD ends (R113, R117); with them, the
statements on dropped letterbox writes and on the erased command frame of KEY_LOAD. -/

namespace Sys2Proof.Proofs

open Sys2Proof.Machine Sys2Proof.Safety Sys2Proof.Laws

/-! ### Writes that a letterbox drops (R112) -/

/-- A dropped write leaves its letterbox with the overrun bit set and one more overrun, and nothing else changed. -/
@[simp] theorem lbOf_lbOverrun (s : State) (lb : Nat) :
    lbOf (lbOverrun lb s) lb =
      { lbOf s lb with overrun := true, overruns := ((lbOf s lb).overruns + 1) % 2 ^ 32 } := by
  simp only [lbOverrun, lbOf_onLb]

theorem doorbell_outside_idle {s : State} {lb value : Nat} (hv : bit value 0 = true) (hs : (lbOf s lb).state ≠ .idle) :
    doorbell lb value s = lbOverrun lb s := by
  simp [doorbell, hv, hs]

theorem frameWrite_outside_idle {s : State} {lb : Nat} (offset size value : Nat) (hs : (lbOf s lb).state ≠ .idle) :
    frameWrite lb offset size value s = lbOverrun lb s := by
  simp [frameWrite, hs]

/-- A write to an open BAR reaches its letterbox. -/
theorem onLetterbox_open {s : State} {lb : Nat} (f : State → State) (hlb : lb < 128) (ho : barOpen s lb = true) :
    onLetterbox lb f s = .next (f s) := by
  simp [onLetterbox, barWrite, hlb, ho]

theorem exec_lbDoorbell_open {s : State} {lb : Nat} (value : Nat) (hlb : lb < 128) (ho : barOpen s lb = true) :
    exec (.lbDoorbell lb value) s = .next (doorbell lb value s) :=
  onLetterbox_open _ hlb ho

/-- A naturally aligned write of 4 or 8 bytes inside the command frame is applied to an open letterbox (R93, R110). -/
theorem exec_lbFrameWrite_open {s : State} {lb offset size : Nat} (value : Nat) (hlb : lb < 128)
    (ho : barOpen s lb = true) (hsize : size = 4 ∨ size = 8) (haligned : offset % size = 0) (hend : offset + size ≤ 1792) :
    exec (.lbFrameWrite lb offset size value) s = .next (frameWrite lb offset size value s) := by
  change execLbFrameWrite lb offset size value s = _
  rw [execLbFrameWrite, if_pos ⟨hsize, haligned, hend⟩]
  exact onLetterbox_open _ hlb ho

/-- Settles O56: outside Idle both writes are the one overrun update, whose effect `lbOf_lbOverrun` gives. -/
theorem droppedLetterboxWritesCounted : Obligations.DroppedLetterboxWritesCounted := by
  refine ⟨fun s lb value hlb ho hv hs => ?_, fun s lb offset size value hlb ho hsize haligned hend hs => ?_⟩
  · refine ⟨lbOverrun lb s, ?_, by simp⟩
    rw [exec_lbDoorbell_open value hlb ho, doorbell_outside_idle hv hs]
  · refine ⟨lbOverrun lb s, ?_, by simp⟩
    rw [exec_lbFrameWrite_open value hlb ho hsize haligned hend, frameWrite_outside_idle offset size value hs]

/-! ### The end of KEY_LOAD (R117) -/

/-- A command that ends leaves its letterbox Done, unless an FLR throws its result away (R103, R113). -/
theorem finish_done_state {s : State} {lb : Nat} (e : Nat) (res : List Byte) (hd : (lbOf s lb).discard = false) :
    (lbOf (finish lb (.done e res s)) lb).state = .done := by
  simp only [finish, postResult_lb _ _ _ _ hd]

/-- A loaded key leaves the letterboxes alone. -/
@[simp] theorem lbOf_loadKey (slot kind : Nat) (key : List Byte) (s : State) (lb : Nat) :
    lbOf (loadKey slot kind key s) lb = lbOf s lb := by
  simp [lbOf, loadKey, resetGcm]

/-- A command that refuses with a code or else succeeds is done either way; where its effect leaves the letterboxes alone,
so does the command. -/
theorem err_or_ok0_done (c : Prop) [Decidable c] (code : Nat) {s s' : State} (h : ∀ lb, lbOf s' lb = lbOf s lb) :
    ∃ e t, (if c then err code s else ok0 s') = .done e [] t ∧ ∀ lb, lbOf t lb = lbOf s lb := by
  by_cases hc : c
  · exact ⟨code, s, if_pos hc, fun _ => rfl⟩
  · exact ⟨0, s', if_neg hc, h⟩

/-- KEY_LOAD never waits: it ends at once, whether it loads the key or finds the slot busy, with its letterbox as it was. -/
theorem keyLoad_done (who : Option Nat) (a : List Byte) (s : State) :
    ∃ e t, keyLoad who a s = .done e [] t ∧ ∀ lb, lbOf t lb = lbOf s lb :=
  err_or_ok0_done _ eBusyObject (lbOf_loadKey _ _ _ s)

/-- A started KEY_LOAD ends as its meaning says and then erases its command frame. -/
theorem exec_keyLoad_started {s : State} {lb : Nat} (h : Started s lb 0x0209) :
    exec (.keyLoad lb) s = .next (onLb lb (fun l => { l with cmd := [] })
      (finish lb (keyLoad (some lb) (cmdArgs (lbOf s lb)) s))) := by
  change execKeyLoad lb s = _
  simp only [execKeyLoad, runCmd_started h (sel := anyArgs) rfl, runningFresh_of_started h, if_true]

/-- Settles O57: the meaning always ends (`keyLoad_done`), so a result stands when the frame is erased. -/
theorem keyLoadErasesItsFrame : Obligations.KeyLoadErasesItsFrame := by
  intro s lb h
  obtain ⟨e, s', hk, hlb⟩ := keyLoad_done (some lb) (cmdArgs (lbOf s lb)) s
  have hd : (lbOf s' lb).discard = false := by
    obtain ⟨_, _, _, _, hdiscard, _⟩ := h
    rw [hlb, hdiscard]
  refine ⟨_, exec_keyLoad_started h, ?_, fun i => ?_⟩
  · rw [lbOf_onLb, hk]
    exact finish_done_state e [] hd
  · rw [lbOf_onLb, tget]

end Sys2Proof.Proofs
end

section
/-! SUPPORT. How a NOP descriptor ends (R151), what a ring's translation at fetch (R169, R171) and the end of waiting
invalidations (R180) leave alone; with them, the statement on NOP descriptors and the barrier of WAIT. -/

namespace Sys2Proof.Proofs

open Sys2Proof.Machine Sys2Proof.Safety Sys2Proof.Laws

/-! ### Started descriptors and their ends (R153) -/

theorem count_of_startedOf {s : State} {r c : Nat} {d : Started} (h : startedOf s r c = some d) : d.count = c := by
  simpa using List.find?_some h

/-- An update of the started descriptors with a count, which keeps that count, is seen by that count alone. -/
theorem startedOf_onStarted {f : Started → Started} (hf : ∀ d, (f d).count = d.count) (s : State) (r c k : Nat) :
    startedOf (onStarted r c f s) r k = (startedOf s r k).map fun d => if d.count = c then f d else d := by
  have hcount : ∀ d : Started, (if d.count = c then f d else d).count = d.count := fun d => by
    split
    · exact hf d
    · rfl
  simp only [startedOf, onStarted, ringOf_onRing, findStarted, List.find?_map, Function.comp_def, hcount]

/-- A descriptor that has not ended ends with the status and the result given. -/
theorem startedOf_endStarted {s : State} {r c : Nat} {d : Started} (status result : Nat) (h : startedOf s r c = some d)
    (hd : d.status = none) :
    startedOf (endStarted r c status result s) r c = some { d with status := some status, result := result } := by
  rw [endStarted, startedOf_onStarted (fun d => by split <;> rfl), h]
  simp [count_of_startedOf h, hd]

/-- The end of one descriptor leaves those of its ring with another count alone. -/
theorem startedOf_endStarted_ne {s : State} {r c k : Nat} (status result : Nat) (hk : k ≠ c) :
    startedOf (endStarted r c status result s) r k = startedOf s r k := by
  rw [endStarted, startedOf_onStarted (fun d => by split <;> rfl)]
  cases h : startedOf s r k with
  | none => rfl
  | some d => simp [count_of_startedOf h, hk]

/-- A started NOP that has not ended ends ok, with result 0 (R151). -/
theorem exec_nopDescriptor_started {s : State} {ring count : Nat} {d : Started} (hr : ring < 1088)
    (h : startedOf s ring count = some d) (hty : descType d.bytes = 0) (hd : d.status = none) :
    exec (.nopDescriptor ring count) s = .next (endStarted ring count stOk 0 s) := by
  change execNopDescriptor ring count s = _
  simp [execNopDescriptor, onDesc, validRing, hr, h, hty, hd]

/-! ### Translation at fetch (R169, R171) -/

/-- A walk that is joined or started is kept in its unit: no ring and no byte of memory changes. -/
theorem startWalk_rings_mem {d ctx va : Nat} {ats force : Bool} {req : WalkFor} {s t : State}
    (h : startWalk d ctx va ats force req s = some t) : t.rings = s.rings ∧ t.mem = s.mem := by
  simp only [startWalk] at h
  split at h
  · obtain rfl := Option.some.inj h
    exact ⟨rfl, rfl⟩
  · split at h
    · cases h
    · obtain rfl := Option.some.inj h
      exact ⟨rfl, rfl⟩

/-- Ring `r` has the same started descriptors and the same fetched descriptors' bytes, and memory is the same. -/
def SameDescriptors (r : Nat) (s t : State) : Prop :=
  (ringOf t r).started = (ringOf s r).started
    ∧ (ringOf t r).fetched.map Fetched.bytes = (ringOf s r).fetched.map Fetched.bytes ∧ t.mem = s.mem

theorem SameDescriptors.refl (r : Nat) (s : State) : SameDescriptors r s s := ⟨rfl, rfl, rfl⟩

theorem SameDescriptors.trans {r : Nat} {s t u : State} (h : SameDescriptors r s t) (h' : SameDescriptors r t u) :
    SameDescriptors r s u := by
  obtain ⟨hstarted, hbytes, hmem⟩ := h
  obtain ⟨hstarted', hbytes', hmem'⟩ := h'
  exact ⟨hstarted'.trans hstarted, hbytes'.trans hbytes, hmem'.trans hmem⟩

theorem SameDescriptors.of_rings_mem {r : Nat} {s t : State} (h : t.rings = s.rings ∧ t.mem = s.mem) :
    SameDescriptors r s t := by
  obtain ⟨hrings, hmem⟩ := h
  simp [SameDescriptors, ringOf, hrings, hmem]

/-- An update of a fetched descriptor that keeps its bytes. -/
theorem sameDescriptors_onFetched {f : Fetched → Fetched} (hf : ∀ x, (f x).bytes = x.bytes) (s : State) (r c : Nat) :
    SameDescriptors r s (onFetched r c f s) := by
  have hbytes : ∀ x : Fetched, (if x.count = c then f x else x).bytes = x.bytes := fun x => by
    split
    · exact hf x
    · rfl
  simp [SameDescriptors, onFetched, Function.comp_def, hbytes]

/-- Translating a fetched descriptor records leaves and starts walks; the descriptor itself stays as it was fetched. -/
theorem sameDescriptors_fetchTranslate (fuel r c : Nat) (s : State) :
    SameDescriptors r s (fetchTranslate fuel r c s) := by
  induction fuel generalizing s with
  | zero => exact .refl _ _
  | succ fuel ih =>
    have goOn : ∀ {f : Fetched → Fetched}, (∀ x, (f x).bytes = x.bytes) →
        SameDescriptors r s (fetchTranslate fuel r c (onFetched r c f s)) :=
      fun hf => (sameDescriptors_onFetched hf s r c).trans (ih _)
    simp only [fetchTranslate]
    split
    · exact .refl _ _ -- no such descriptor
    split
    · exact .refl _ _ -- a walk is awaited, or nothing is left to translate
    split
    · exact goOn fun _ => rfl -- a translation is at hand
    split
    · exact goOn fun _ => rfl -- an address beyond 57 bits
    split
    · next hw => -- a walk is joined or started
      exact .trans (.of_rings_mem (startWalk_rings_mem hw)) (sameDescriptors_onFetched (by intro; rfl) _ r c)
    · exact .refl _ _ -- the miss queue is full

/-! ### The barrier of WAIT (R152) -/

/-- A descriptor with WAIT may not start while its ring has one that has not settled. -/
theorem mayStartDesc_wait {s : State} {r : Nat} {f : Fetched} (hw : flagWait f.bytes = true)
    (hs : (ringOf s r).started ≠ []) : mayStartDesc s r f = false := by
  simp [mayStartDesc, hw, hs]

/-- While it waits, a start goes no further than the translation at fetch. -/
theorem sameDescriptors_descriptorStart_wait {s : State} {r : Nat} {f : Fetched} {rest : List Fetched}
    (hf : (ringOf s r).fetched = f :: rest) (hw : flagWait f.bytes = true) (hs : (ringOf s r).started ≠ []) :
    SameDescriptors r s (descriptorStart r s) := by
  have hsame := sameDescriptors_fetchTranslate fetchFuel r f.count s
  simp only [descriptorStart, hf]
  generalize fetchTranslate fetchFuel r f.count s = t at hsame ⊢
  obtain ⟨hstarted, hbytes, hmem⟩ := hsame
  split
  case h_1 => exact ⟨hstarted, hbytes, hmem⟩
  case h_2 f' rest' hf' =>
    have hb : f'.bytes = f.bytes := by
      rw [hf, hf'] at hbytes
      exact (List.cons.inj hbytes).1
    rw [mayStartDesc_wait (hb ▸ hw) (hstarted ▸ hs)]
    exact ⟨hstarted, hbytes, hmem⟩

theorem exec_descriptorStart_valid {s : State} {r : Nat} (hr : r < 1088) :
    exec (.descriptorStart r) s = .next (descriptorStart r s) := by
  change execDescriptorStart r s = _
  simp [execDescriptorStart, validRing, hr]

/-! ### A settlement that finds no end (R156) -/

/-- A settlement waits for the end of the oldest started descriptor. -/
theorem descriptorSettle_unended {s : State} {r : Nat} {d : Started} {rest : List Started}
    (h : (ringOf s r).started = d :: rest) (hd : d.status = none) : descriptorSettle r s = s := by
  simp only [descriptorSettle, h, hd]

/-- A RING_STOP waits while a started descriptor has not ended. -/
theorem stopCheck_unended {s : State} {r : Nat} {d : Started} {rest : List Started}
    (h : (ringOf s r).started = d :: rest) (hd : d.status = none) : stopCheck r s = s := by
  simp only [stopCheck]
  split
  · simp [h, hd]
  · rfl

@[simp] theorem sendControl_rings (p : Pkt) (s : State) : (sendControl p s).rings = s.rings := rfl
@[simp] theorem sendControl_mem (p : Pkt) (s : State) : (sendControl p s).mem = s.mem := rfl

@[simp] theorem sendInvalidate_rings (m ctx va len : Nat) (s : State) : (sendInvalidate m ctx va len s).rings = s.rings :=
  updates_keeps State.rings _ (fun _ _ => sendControl_rings _ _) _ _
@[simp] theorem sendInvalidate_mem (m ctx va len : Nat) (s : State) : (sendInvalidate m ctx va len s).mem = s.mem :=
  updates_keeps State.mem _ (fun _ _ => sendControl_mem _ _) _ _

/-- An ended invalidation answers whoever waits: a letterbox, another module or the host. No ring and no byte of memory changes. -/
theorem invalidated_rings_mem (w : InvFor) (s : State) : (invalidated w s).rings = s.rings ∧ (invalidated w s).mem = s.mem := by
  cases w with
  | command lb =>
    have hrings := fun ctx va len => updates_keeps State.rings _ fun m => sendInvalidate_rings m ctx va len
    have hmem := fun ctx va len => updates_keeps State.mem _ fun m => sendInvalidate_mem m ctx va len
    simp only [invalidated]
    split
    · split <;> simp [hrings, hmem]
    · simp
  | remote src ctx => simp [invalidated]
  | ats k => simp [invalidated]

/-- The end of waiting invalidations changes no ring and no byte of memory. -/
theorem settleWaits_rings_mem (s : State) : (settleWaits s).rings = s.rings ∧ (settleWaits s).mem = s.mem := by
  unfold settleWaits
  constructor
  · exact updates_keeps State.rings _ (fun e s => by rw [(invalidated_rings_mem _ _).1, onXlat_rings]) _ _
  · exact updates_keeps State.mem _ (fun e s => by rw [(invalidated_rings_mem _ _).2, onXlat_mem]) _ _

/-- With no end to settle, DESCRIPTOR_SETTLE only ends the invalidations that wait for nothing more. -/
theorem exec_descriptorSettle_unended {s : State} {r : Nat} {d : Started} {rest : List Started} (hr : r < 1088)
    (h : (ringOf s r).started = d :: rest) (hd : d.status = none) :
    exec (.descriptorSettle r) s = .next (settleWaits s) := by
  change execDescriptorSettle r s = _
  simp [execDescriptorSettle, validRing, hr, descriptorSettle_unended h hd, stopCheck_unended h hd]

/-- Settles O58: a NOP is one `endStarted`; WAIT stops the start (`mayStartDesc_wait`), whose translation at fetch keeps every
descriptor; and a settlement with no end is only `settleWaits`. -/
theorem nopChangesNothing : Obligations.NopChangesNothing := by
  refine ⟨fun s ring count d hr h hty hd => ?_, fun s ring f rest hr hf hw hs => ?_, fun s ring d rest hr h hd => ?_⟩
  · refine ⟨_, exec_nopDescriptor_started hr h hty hd, rfl, startedOf_endStarted stOk 0 h hd,
      fun r hne => ringOf_onRing_ne _ _ _ _ hne, ?_, fun c hc => startedOf_endStarted_ne stOk 0 hc⟩
    simp only [endStarted, onStarted, ringOf_onRing]
  · exact ⟨_, exec_descriptorStart_valid hr, sameDescriptors_descriptorStart_wait hf hw hs⟩
  · exact ⟨_, exec_descriptorSettle_unended hr h hd, settleWaits_rings_mem s⟩

end Sys2Proof.Proofs
end

section
/-! SUPPORT. What binds a key slot (R194), and how KEY_CLEAR of a bound slot ends; with them, the statement on bound slots. -/

namespace Sys2Proof.Proofs

open Sys2Proof.Machine Sys2Proof.Safety Sys2Proof.Laws

/-- What a table reads other than its default is listed. -/
theorem mem_of_tget_ne {α : Type} {d : α} {t : Tab α} {k : Nat} (h : tget d t k ≠ d) : (k, tget d t k) ∈ t := by
  induction t with
  | nil => exact absurd rfl h
  | cons e t ih =>
    obtain ⟨j, v⟩ := e
    by_cases hj : j = k
    · simp [tget, hj]
    · simp only [tget, if_neg hj] at h ⊢
      exact List.mem_cons_of_mem _ (ih h)

/-! ### What binds a slot (R194) -/

/-- A ring that is not Free is listed. -/
theorem mem_rings_of_not_free {s : State} {r : Nat} (h : (ringOf s r).state ≠ .free) : (r, ringOf s r) ∈ s.rings :=
  mem_of_tget_ne fun hd => h (congrArg Ring.state hd)

/-- The locks that are not listed read 0, which is not valid: a valid lock is listed, and so is its die. -/
theorem mem_locks_of_lockValid {s : State} {d l : Nat} (h : lockValid (lockOf s d l) = true) :
    (d, dieOf s d) ∈ s.fabric.dies ∧ (l, lockOf s d l) ∈ (dieOf s d).locks := by
  have hne : lockOf s d l ≠ 0 := fun h0 => by
    rw [h0] at h
    exact absurd h (by decide)
  exact ⟨mem_of_tget_ne fun hd => hne (congrArg (fun x : Die => tget 0 x.locks l) hd), mem_of_tget_ne hne⟩

/-- A configured ring binds the memory slot that it names. -/
theorem slotBound_of_ring {s : State} {r : Nat} (hr : r < 1024) (hfree : (ringOf s r).state ≠ .free)
    (halloc : (ringOf s r).state ≠ .allocated) (hslot : (ringOf s r).key ≤ 159) : slotBound s (ringOf s r).key = true := by
  rw [slotBound, if_pos hslot, Bool.or_eq_true]
  exact .inl (List.any_eq_true.2 ⟨_, mem_rings_of_not_free hfree, by simp [hr, hfree, halloc]⟩)

/-- A valid lock binds the memory slot that it names. -/
theorem slotBound_of_lock {s : State} {d l : Nat} (hv : lockValid (lockOf s d l) = true)
    (hslot : lockSelector (lockOf s d l) ≤ 159) : slotBound s (lockSelector (lockOf s d l)) = true := by
  obtain ⟨hdie, hlock⟩ := mem_locks_of_lockValid hv
  rw [slotBound, if_pos hslot, Bool.or_eq_true]
  exact .inr (List.any_eq_true.2 ⟨_, hdie, List.any_eq_true.2 ⟨_, hlock, by simp [hv]⟩⟩)

/-- A defined route set binds its link slot. -/
theorem slotBound_of_routeSet {s : State} {slot : Nat} (hslot : 160 ≤ slot)
    (hset : tget [] s.fabric.routeSets (slot - 160) ≠ []) : slotBound s slot = true := by
  simp [slotBound, Nat.not_le.2 hslot, hset]

/-! ### KEY_CLEAR of a bound slot (R194) -/

/-- KEY_CLEAR of a bound slot ends at once with "object busy" and clears nothing. -/
theorem keyClear_bound {s : State} {a : List Byte} (who : Option Nat) (h : slotBound s (arg 0x020A a 0) = true) :
    keyClear who a s = .done eBusyObject [] s := by
  simp only [keyClear, h, if_true, err]

/-- Started, KEY_CLEAR of a bound slot posts "object busy" and leaves every key. -/
theorem answers_keyClear_bound {s : State} {lb : Nat} (h : Started s lb 0x020A)
    (hb : slotBound s (argOf s lb 0x020A 0) = true) :
    Answers (.keyClear lb) lb eBusyObject s fun t => t.fabric.keys = s.fabric.keys :=
  answers_done (sel := anyArgs) (f := keyClear) rfl h rfl (keyClear_bound (some lb) hb) rfl (by decide)
    (by rw [postResult_fabric])

/-- Settles O59: a configured ring, a valid lock and a defined route set each bind their slot, and `answers_keyClear_bound` is
how KEY_CLEAR of a bound slot ends. -/
theorem boundSlotKeepsItsKey : Obligations.BoundSlotKeepsItsKey := by
  refine ⟨fun s lb r h _ hslot hr hfree halloc hkey => ?_, fun s lb d l h _ hslot hv hsel => ?_,
    fun s lb h hslot _ hset => ?_⟩
  · exact answers_keyClear_bound h (hkey ▸ slotBound_of_ring hr hfree halloc (hkey ▸ hslot))
  · exact answers_keyClear_bound h (hsel ▸ slotBound_of_lock hv (hsel ▸ hslot))
  · exact answers_keyClear_bound h (slotBound_of_routeSet hslot hset)

end Sys2Proof.Proofs
end

section
/-! SUPPORT. What the shutdown of a powered module sets (R402), and on which side of R441's levels an over-voltage event trips;
with them, the statement on the over-voltage threshold. -/

namespace Sys2Proof.Proofs

open Sys2Proof.Machine Sys2Proof.Safety Sys2Proof.Laws

/-- A free value is drawn from the counter alone. -/
@[simp] theorem freshNat_power (bound : Nat) (s : State) : (freshNat bound s).2.power = s.power := rfl

/-- Steps T1 and T2 of the shutdown, on a module that is powered and not shut down yet (R402). -/
theorem trip_powered {s : State} (cause die celsius : Nat) (hup : s.power.boot ≠ .unpowered)
    (hon : s.power.boot ≠ .shutdown) :
    trip cause die celsius s = onPower (fun p => { p with
      boot := .shutdown, allOff := false, alertShutdown := true, arraysGated := true
      latch := { cause := cause, die := die, celsius := celsius } }) s := by
  unfold trip
  split
  · exact absurd ‹_› hup
  · exact absurd ‹_› hon
  · rfl

/-- The over-voltage event of either connector reaches the supervisor (R404). -/
theorem exec_overvoltageTrip_input {s : State} {input : Nat} (mv : Nat) (hin : input < 2) :
    exec (.overvoltageTrip input mv) s = .next (overvoltage mv s) :=
  if_pos hin

theorem overvoltage_below {mv : Nat} (s : State) (h : mv ≤ 58500) : overvoltage mv s = s :=
  if_pos h

/-- Above 58.5 V the shutdown runs with cause "over-voltage"; what the latch holds as die and temperature is free. -/
theorem overvoltage_above {mv : Nat} (s : State) (h : 58500 < mv) :
    overvoltage mv s =
      trip 2 (freshNat 128 s).1 (freshNat 256 (freshNat 128 s).2).1 (freshNat 256 (freshNat 128 s).2).2 :=
  if_neg (Nat.not_le.2 h)

/-- Above 58.5 V a powered module ends in the shutdown with cause "over-voltage" and with ALERT. -/
theorem overvoltage_above_power {s : State} {mv : Nat} (h : 58500 < mv) (hup : s.power.boot ≠ .unpowered)
    (hon : s.power.boot ≠ .shutdown) :
    (overvoltage mv s).power.boot = .shutdown ∧ (overvoltage mv s).power.latch.cause = 2 ∧
      (overvoltage mv s).power.alertShutdown = true := by
  rw [overvoltage_above s h, trip_powered _ _ _ (by simpa using hup) (by simpa using hon)]
  simp

/-- Settles O60: up to 58.5 V the event changes nothing (`overvoltage_below`), and above 59.5 V, which is above the level that
the model trips at, it runs the shutdown (`overvoltage_above_power`). -/
theorem overvoltageThreshold : Obligations.OvervoltageThreshold := by
  refine ⟨fun s input mv hin hmv => ?_, fun s input mv hin hmv hup hon => ?_⟩
  · rw [exec_overvoltageTrip_input mv hin, overvoltage_below s hmv]
  · exact ⟨overvoltage mv s, exec_overvoltageTrip_input mv hin, overvoltage_above_power (by omega) hup hon⟩

end Sys2Proof.Proofs
end

section
/-! SUPPORT. Footprints: which parts of the state an operation may change. `Touches F s t` says that `t` differs from `s` only in the
parts of `F`, and keeps what every command keeps; it composes, and each operation of the model has one lemma that states its footprint. -/

namespace Sys2Proof.Frames

open Sys2Proof.Machine Sys2Proof.Safety Sys2Proof.Laws

set_option Elab.async false

/-! ### Parts -/

/-- The parts of the state that frames tell apart. A part named after a component is what the component's own named parts leave of it. -/
inductive Part where
  | ladder | power | rackTime | time | fns | hostPorts | host | lbs | frames | fw | maps | journal | boot | post | rings | ctxs | pins | xlat
  | keys | routeSets | limit | active | staged | ports | dies | repairs | fabric | cells | marks | images | launches | phs | res
  | number | mine | disc | eid | taps | spdm | events | mgmt | out | free
  deriving DecidableEq

/-- Every part but those of a list. -/
def allBut (l : List Part) : List Part :=
  let ps : List (List Part) := [
    [.ladder, .power, .rackTime, .time, .fns, .hostPorts, .host, .lbs, .frames, .fw, .maps, .journal, .boot, .post, .rings, .ctxs, .pins],
    [.xlat, .keys, .routeSets, .limit, .active, .staged, .ports, .dies, .repairs, .fabric, .cells, .marks, .images, .launches, .phs, .res],
    [.number, .mine, .disc, .eid, .taps, .spdm, .events, .mgmt, .out, .free]]
  ps.flatten.filter fun p => !l.contains p

/-- What a die keeps of its repairs and faults over the loss of its power. -/
def repairsOf (x : Die) : List Nat × List Nat × Bool × Bool × Bool × List BadWire × List Nat × Bool :=
  (x.retired, x.lostTiles, x.fenced, x.meshOff, x.failed, x.badWires, x.linksOut, x.contactsBad)

/-- Two states agree in a part. -/
def Part.Same : Part → State → State → Prop
  | .ladder, s, t => t.power.state = s.power.state
  | .power, s, t => { t.power with state := none } = { s.power with state := none }
  | .rackTime, s, t => t.time.rackTime = s.time.rackTime
  | .time, s, t => { t.time with rackTime := 0 } = { s.time with rackTime := 0 }
  | .fns, s, t => t.host.fns = s.host.fns
  | .hostPorts, s, t => t.host.ports = s.host.ports
  | .host, s, t => { t.host with ports := [], fns := [] } = { s.host with ports := [], fns := [] }
  | .lbs, s, t => t.post.lbs = s.post.lbs
  | .frames, s, t => ∀ l, (lbOf t l).cmd = (lbOf s l).cmd
  | .fw, s, t => t.post.fw = s.post.fw
  | .maps, s, t => t.post.maps = s.post.maps
  | .journal, s, t => t.post.journal = s.post.journal
  | .boot, s, t => t.post.boot = s.post.boot ∧ t.post.floor = s.post.floor
  | .post, s, t => { t.post with lbs := [], fw := [], maps := [], journal := {}, boot := [], floor := 0 }
      = { s.post with lbs := [], fw := [], maps := [], journal := {}, boot := [], floor := 0 }
  | .rings, s, t => t.rings = s.rings
  | .ctxs, s, t => t.xlat.ctxs = s.xlat.ctxs
  | .pins, s, t => t.xlat.pins = s.xlat.pins
  | .xlat, s, t => { t.xlat with ctxs := [], pins := [] } = { s.xlat with ctxs := [], pins := [] }
  | .keys, s, t => t.fabric.keys = s.fabric.keys
  | .routeSets, s, t => t.fabric.routeSets = s.fabric.routeSets
  | .limit, s, t => t.fabric.deflectLimit = s.fabric.deflectLimit
  | .active, s, t => t.fabric.active = s.fabric.active
  | .staged, s, t => t.fabric.staged = s.fabric.staged
  | .ports, s, t => t.fabric.ports = s.fabric.ports
  | .dies, s, t => t.fabric.dies = s.fabric.dies
  | .repairs, s, t => ∀ d, repairsOf (dieOf t d) = repairsOf (dieOf s d)
  | .fabric, s, t =>
    { t.fabric with keys := [], routeSets := [], deflectLimit := 0, active := {}, staged := {}, ports := [], dies := [] }
      = { s.fabric with keys := [], routeSets := [], deflectLimit := 0, active := {}, staged := {}, ports := [], dies := [] }
  | .cells, s, t => t.mem.cells = s.mem.cells
  | .marks, s, t => t.mem.marks = s.mem.marks
  | .images, s, t => t.res.images = s.res.images
  | .launches, s, t => t.res.launches = s.res.launches
  | .phs, s, t => t.res.phs = s.res.phs
  | .res, s, t => { t.res with images := [], launches := [], phs := [] } = { s.res with images := [], launches := [], phs := [] }
  | .number, s, t => t.disc.number = s.disc.number
  | .mine, s, t => t.disc.mine = s.disc.mine
  | .disc, s, t => { t.disc with number := 0, mine := none } = { s.disc with number := 0, mine := none }
  | .eid, s, t => t.mgmt.eid = s.mgmt.eid
  | .taps, s, t => t.mgmt.taps = s.mgmt.taps
  | .spdm, s, t => t.mgmt.spdm = s.mgmt.spdm
  | .events, s, t => t.mgmt.events = s.mgmt.events ∧ t.mgmt.counts = s.mgmt.counts
  | .mgmt, s, t => { t.mgmt with eid := 0, taps := [], spdm := [], events := [], counts := [] }
      = { s.mgmt with eid := 0, taps := [], spdm := [], events := [], counts := [] }
  | .out, s, t => t.out = s.out
  | .free, s, t => t.free = s.free

theorem Part.Same.refl (p : Part) (s : State) : p.Same s s := by
  cases p <;> simp [Part.Same]

theorem Part.Same.trans {p : Part} {s t u : State} (h : p.Same s t) (g : p.Same t u) : p.Same s u := by
  cases p <;> first | exact Eq.trans g h | exact ⟨g.1.trans h.1, g.2.trans h.2⟩ | exact fun l => (g l).trans (h l)

/-! ### What every command keeps -/

/-- No operation of the model leaves the waiting commands, the outputs so far, the memory's canonical form, the ladder's states, the
journal's order, its indexes or the security floor otherwise. -/
structure Steady (s t : State) : Prop where
  pending : t.pending = s.pending
  out : s.out <+: t.out
  memory : CanonicalMemory s → CanonicalMemory t
  ladder : LegalLadder s → LegalLadder t
  journal : OrderedJournal s → OrderedJournal t
  next : s.post.journal.next ≤ t.post.journal.next
  floor : s.post.floor ≤ t.post.floor

theorem Steady.refl (s : State) : Steady s s := ⟨rfl, List.prefix_rfl, id, id, id, Nat.le_refl _, Nat.le_refl _⟩

theorem Steady.trans {s t u : State} (h : Steady s t) (g : Steady t u) : Steady s u :=
  ⟨g.pending.trans h.pending, h.out.trans g.out, g.memory ∘ h.memory, g.ladder ∘ h.ladder, g.journal ∘ h.journal,
    Nat.le_trans h.next g.next, Nat.le_trans h.floor g.floor⟩

/-- A state with the same memory cells, ladder state, journal, floor, outputs and queue. -/
theorem Steady.of_eq {s t : State} (hp : t.pending = s.pending) (ho : t.out = s.out) (hm : t.mem.cells = s.mem.cells)
    (hl : t.power.state = s.power.state) (hr : t.post.journal.recs = s.post.journal.recs)
    (hn : t.post.journal.next = s.post.journal.next) (hf : t.post.floor = s.post.floor) : Steady s t where
  pending := hp
  out := (congrArg (s.out <+: ·) ho).mpr List.prefix_rfl
  memory h := by unfold CanonicalMemory at *; rwa [wf_of_cells hm]
  ladder h := by unfold LegalLadder at *; rwa [hl]
  journal h := by unfold OrderedJournal at *; rwa [hr, hn]
  next := Nat.le_of_eq hn.symm
  floor := Nat.le_of_eq hf.symm

/-! ### Footprints -/

/-- `t` differs from `s` only in the parts of the footprint `F`, and is steady. -/
structure Touches (F : List Part) (s t : State) : Prop where
  same : ∀ p, F.contains p = false → p.Same s t
  steady : Steady s t

namespace Touches

variable {F G : List Part} {s t u : State}

theorem refl : Touches F s s := ⟨fun p _ => .refl p s, .refl s⟩

/-- An operation with a smaller footprint goes on from where `F` has been kept. -/
theorem after (g : Touches G t u) (h : Touches F s t) (hF : G.all F.contains = true := by exact rfl) : Touches F s u where
  same p hp := (h.same p hp).trans (g.same p (by
    refine Bool.eq_false_iff.2 fun hG => ?_
    have hc := List.all_eq_true.1 hF p (List.contains_iff_mem.1 hG)
    exact absurd (hc.symm.trans hp) (by decide)))
  steady := h.steady.trans g.steady

/-- As `after`, where the footprint `F` is known to hold the parts of `K` only. -/
theorem within {K : List Part} (g : Touches G t u) (h : Touches F s t) (hK : K.all F.contains = true)
    (hG : G.all K.contains = true := by exact rfl) : Touches F s u :=
  g.after h (List.all_eq_true.2 fun p hp => List.all_eq_true.1 hK p (by simpa using List.all_eq_true.1 hG p hp))

theorem widen (g : Touches G t u) (hF : G.all F.contains = true := by exact rfl) : Touches F t u := g.after .refl hF

protected theorem ite {c : Prop} [Decidable c] (h : Touches F s t) (g : Touches F s u) : Touches F s (if c then t else u) := by
  split
  · exact h
  · exact g

protected theorem dite {c : Prop} [Decidable c] {t : c → State} {u : ¬c → State} (h : ∀ hc, Touches F s (t hc))
    (g : ∀ hc, Touches F s (u hc)) : Touches F s (if hc : c then t hc else u hc) := by
  split
  · exact h _
  · exact g _

protected theorem cond {b : Bool} (h : Touches F s t) (g : Touches F s u) : Touches F s (cond b t u) := by
  cases b
  · exact g
  · exact h

protected theorem ite_app {c : Prop} [Decidable c] {f g : State → State} (h : Touches F s (f t)) (k : Touches F s (g t)) :
    Touches F s ((if c then f else g) t) := by
  split
  · exact h
  · exact k

protected theorem ite_fst {α : Type} {c : Prop} [Decidable c] {p q : State × α} (h : Touches F s p.1) (g : Touches F s q.1) :
    Touches F s (if c then p else q).1 := by
  split
  · exact h
  · exact g

protected theorem ite_snd_snd {α β : Type} {c : Prop} [Decidable c] {p q : α × β × State} (h : Touches F s p.2.2)
    (g : Touches F s q.2.2) : Touches F s (if c then p else q).2.2 := by
  split
  · exact h
  · exact g

/-- The state of a pair that an equation names. -/
theorem snd_of_eq {α : Type} {p : α × State} {a : α} (h : Touches F s p.2) (hp : p = (a, u)) : Touches F s u := by
  subst hp
  exact h

protected theorem ite_snd {α : Type} {c : Prop} [Decidable c] {p q : α × State} (h : Touches F s p.2) (g : Touches F s q.2) :
    Touches F s (if c then p else q).2 := by
  split
  · exact h
  · exact g

protected theorem when {b : Bool} {f : State → State} (h : Touches F s t) (hf : ∀ x, Touches F s x → Touches F s (f x)) :
    Touches F s (when b f t) := .ite (hf _ h) h

protected theorem updates {α : Type} {l : List α} {f : α → State → State} (h : Touches F s t)
    (hf : ∀ a x, Touches F s x → Touches F s (f a x)) : Touches F s (updates l f t) := by
  unfold updates
  induction l generalizing t with
  | nil => exact h
  | cons a l ih => exact ih (hf a t h)

/-- A fold that carries a state. -/
protected theorem foldl {α β : Type} {l : List α} {f : β → α → β} {b : β} (st : β → State) (h : Touches F s (st b))
    (hf : ∀ b a, Touches F s (st b) → Touches F s (st (f b a))) : Touches F s (st (l.foldl f b)) := by
  induction l generalizing b with
  | nil => exact h
  | cons a l ih => exact ih (hf b a h)

end Touches

/-- `a` where the footprint holds the part, else `b`. -/
abbrev pick {α : Type} (F : List Part) (p : Part) (a b : α) : α := bif F.contains p then a else b

/-- What a footprint lets a new value `y` of a component change of its old value `x`; the ladder's state, the journal's records, their
indexes and the floor stay. -/
def blendPower (F : List Part) (x y : Power) : Power := { pick F .power y x with state := x.state }
def blendTime (F : List Part) (x y : Timebase) : Timebase :=
  { pick F .time y x with rackTime := pick F .rackTime y.rackTime x.rackTime }
def blendHost (F : List Part) (x y : HostSide) : HostSide :=
  { pick F .host y x with ports := pick F .hostPorts y.ports x.ports, fns := pick F .fns y.fns x.fns }
def blendPost (F : List Part) (x y : Post) : Post :=
  { pick F .post y x with
    lbs := pick F .frames (pick F .lbs y.lbs x.lbs) x.lbs, fw := pick F .fw y.fw x.fw, maps := pick F .maps y.maps x.maps
    journal := pick F .journal { y.journal with recs := x.journal.recs, next := x.journal.next } x.journal
    boot := pick F .boot y.boot x.boot, floor := x.floor }
def blendXlat (F : List Part) (x y : Xlat) : Xlat :=
  { pick F .xlat y x with ctxs := pick F .ctxs y.ctxs x.ctxs, pins := pick F .pins y.pins x.pins }
def blendFabric (F : List Part) (x y : Fabric) : Fabric :=
  { pick F .fabric y x with
    keys := pick F .keys y.keys x.keys, routeSets := pick F .routeSets y.routeSets x.routeSets
    deflectLimit := pick F .limit y.deflectLimit x.deflectLimit, active := pick F .active y.active x.active
    staged := pick F .staged y.staged x.staged, ports := pick F .ports y.ports x.ports
    dies := pick F .repairs (pick F .dies y.dies x.dies) x.dies }
def blendMem (F : List Part) (x y : Memory) : Memory := { cells := x.cells, marks := pick F .marks y.marks x.marks }
def blendRes (F : List Part) (x y : Residency) : Residency :=
  { pick F .res y x with
    images := pick F .images y.images x.images, launches := pick F .launches y.launches x.launches, phs := pick F .phs y.phs x.phs }
def blendDisc (F : List Part) (x y : Discovery) : Discovery :=
  { pick F .disc y x with number := pick F .number y.number x.number, mine := pick F .mine y.mine x.mine }
def blendMgmt (F : List Part) (x y : Mgmt) : Mgmt :=
  { pick F .mgmt y x with
    eid := pick F .eid y.eid x.eid, taps := pick F .taps y.taps x.taps, spdm := pick F .spdm y.spdm x.spdm
    events := pick F .events y.events x.events, counts := pick F .events y.counts x.counts }

/-- `t` in the parts of the footprint and `s` in all others. -/
def blend (F : List Part) (s t : State) : State where
  pending := s.pending
  power := blendPower F s.power t.power
  time := blendTime F s.time t.time
  host := blendHost F s.host t.host
  post := blendPost F s.post t.post
  rings := pick F .rings t.rings s.rings
  xlat := blendXlat F s.xlat t.xlat
  fabric := blendFabric F s.fabric t.fabric
  mem := blendMem F s.mem t.mem
  res := blendRes F s.res t.res
  disc := blendDisc F s.disc t.disc
  mgmt := blendMgmt F s.mgmt t.mgmt
  out := s.out
  free := pick F .free t.free s.free

namespace Touches

variable {F : List Part} {s t u : State}

/-- A new state that is the old one but for the parts of the footprint. -/
theorem of_blend (h : t = blend F s t) : Touches F s t where
  same p hp := by
    rw [h]
    cases p <;>
      simp [Part.Same, lbOf, dieOf, blend, blendPower, blendTime, blendHost, blendPost, blendXlat, blendFabric, blendMem, blendRes,
      blendDisc,
        blendMgmt, pick, hp, -List.contains_eq_mem]
  steady := by
    rw [h]
    refine .of_eq rfl rfl rfl rfl ?_ ?_ rfl
    · cases hj : F.contains .journal <;> simp [blend, blendPost, pick, hj, -List.contains_eq_mem]
    · cases hj : F.contains .journal <;> simp [blend, blendPost, pick, hj, -List.contains_eq_mem]

theorem trans (h : Touches F s t) (g : Touches F t u) : Touches F s u :=
  ⟨fun p hp => (h.same p hp).trans (g.same p hp), h.steady.trans g.steady⟩

/-! ### Updates of a component

The side condition says that the new value changes no more of the component than the footprint allows. -/

section
variable (F)
@[simp] theorem blendPower_self (x : Power) : blendPower F x x = x := by cases h : F.contains .power <;> simp [blendPower, pick]
@[simp] theorem blendTime_self (x : Timebase) : blendTime F x x = x := by simp [blendTime, pick]
@[simp] theorem blendHost_self (x : HostSide) : blendHost F x x = x := by simp [blendHost, pick]
@[simp] theorem blendPost_self (x : Post) : blendPost F x x = x := by simp [blendPost, pick]
@[simp] theorem blendXlat_self (x : Xlat) : blendXlat F x x = x := by simp [blendXlat, pick]
@[simp] theorem blendFabric_self (x : Fabric) : blendFabric F x x = x := by simp [blendFabric, pick]
@[simp] theorem blendMem_self (x : Memory) : blendMem F x x = x := by simp [blendMem, pick]
@[simp] theorem blendRes_self (x : Residency) : blendRes F x x = x := by simp [blendRes, pick]
@[simp] theorem blendDisc_self (x : Discovery) : blendDisc F x x = x := by simp [blendDisc, pick]
@[simp] theorem blendMgmt_self (x : Mgmt) : blendMgmt F x x = x := by simp [blendMgmt, pick]
end

theorem onPower {f : Power → Power} (h : Touches F s t) (hf : ∀ x, f x = blendPower F x (f x) := by exact fun _ => rfl) :
    Touches F s (onPower f t) :=
  h.trans (of_blend (by simp [blend, pick, ← hf t.power, Machine.onPower]))

/-- An update of the power state that stands at one of the ladder's states after it. -/
theorem onLadder {f : Power → Power} (h : Touches F s t) (hf : ∀ n, (f t.power).state = some n → n ≤ 4)
    (hF : [Part.ladder, .power].all F.contains = true := by exact rfl) : Touches F s (Machine.onPower f t) :=
  after (G := [.ladder, .power]) {
    same p hp := by
      cases p <;> first | exact absurd hp (by decide) | rfl | exact ⟨rfl, rfl⟩ | exact fun _ => rfl
    steady := { Steady.refl t with ladder := fun _ => hf } } h hF

theorem onTime {f : Timebase → Timebase} (h : Touches F s t) (hf : ∀ x, f x = blendTime F x (f x) := by exact fun _ => rfl) :
    Touches F s (onTime f t) :=
  h.trans (of_blend (by simp [blend, pick, ← hf t.time, Machine.onTime]))

theorem onHost {f : HostSide → HostSide} (h : Touches F s t) (hf : ∀ x, f x = blendHost F x (f x) := by exact fun _ => rfl) :
    Touches F s (onHost f t) :=
  h.trans (of_blend (by simp [blend, pick, ← hf t.host, Machine.onHost]))

theorem onPost {f : Post → Post} (h : Touches F s t) (hf : ∀ x, f x = blendPost F x (f x) := by exact fun _ => rfl) :
    Touches F s (onPost f t) :=
  h.trans (of_blend (by simp [blend, pick, ← hf t.post, Machine.onPost]))

theorem onXlat {f : Xlat → Xlat} (h : Touches F s t) (hf : ∀ x, f x = blendXlat F x (f x) := by exact fun _ => rfl) :
    Touches F s (onXlat f t) :=
  h.trans (of_blend (by simp [blend, pick, ← hf t.xlat, Machine.onXlat]))

theorem onFabric {f : Fabric → Fabric} (h : Touches F s t) (hf : ∀ x, f x = blendFabric F x (f x) := by exact fun _ => rfl) :
    Touches F s (onFabric f t) :=
  h.trans (of_blend (by simp [blend, pick, ← hf t.fabric, Machine.onFabric]))

theorem onMem {f : Memory → Memory} (h : Touches F s t) (hf : ∀ x, f x = blendMem F x (f x) := by exact fun _ => rfl) :
    Touches F s (onMem f t) :=
  h.trans (of_blend (by simp [blend, pick, ← hf t.mem, Machine.onMem]))

/-- An update of the stored bytes and marks. -/
theorem onCells {f : Memory → Memory} (h : Touches F s t) (hf : t.mem.wf = true → (f t.mem).wf = true)
    (hF : [Part.cells, .marks].all F.contains = true := by exact rfl) : Touches F s (Machine.onMem f t) :=
  after (G := [.cells, .marks]) {
    same p hp := by
      cases p <;> first | exact absurd hp (by decide) | rfl | exact ⟨rfl, rfl⟩ | exact fun _ => rfl
    steady := { Steady.refl t with memory := hf } } h hF

theorem onRes {f : Residency → Residency} (h : Touches F s t) (hf : ∀ x, f x = blendRes F x (f x) := by exact fun _ => rfl) :
    Touches F s (onRes f t) :=
  h.trans (of_blend (by simp [blend, pick, ← hf t.res, Machine.onRes]))

theorem onDisc {f : Discovery → Discovery} (h : Touches F s t) (hf : ∀ x, f x = blendDisc F x (f x) := by exact fun _ => rfl) :
    Touches F s (onDisc f t) :=
  h.trans (of_blend (by simp [blend, pick, ← hf t.disc, Machine.onDisc]))

theorem onMgmt {f : Mgmt → Mgmt} (h : Touches F s t) (hf : ∀ x, f x = blendMgmt F x (f x) := by exact fun _ => rfl) :
    Touches F s (onMgmt f t) :=
  h.trans (of_blend (by simp [blend, pick, ← hf t.mgmt, Machine.onMgmt]))

end Touches

/-! ### Updates of a numbered part -/

section
variable {s : State}

theorem onRing_touches {r : Nat} {f : Ring → Ring} : Touches [.rings] s (onRing r f s) := .of_blend rfl
theorem onFn_touches {k : Nat} {f : Fn → Fn} : Touches [.fns] s (onFn k f s) := .of_blend rfl
theorem onHostPort_touches {p : Nat} {f : HostPort → HostPort} : Touches [.hostPorts] s (onHostPort p f s) := .of_blend rfl
theorem onDie_repairs {d : Nat} {f : Die → Die} : Touches [.dies, .repairs] s (onDie d f s) := .of_blend rfl
theorem onPort_touches {p : Nat} {f : Port → Port} : Touches [.ports] s (onPort p f s) := .of_blend rfl
theorem onLane_touches {p l : Nat} {f : Lane → Lane} : Touches [.ports] s (onLane p l f s) := .of_blend rfl
theorem onFrondPower_touches {d : Nat} {f : FrondPower → FrondPower} : Touches [.power] s (onFrondPower d f s) := .of_blend rfl
theorem onUnit_touches {d : Nat} {f : XUnit → XUnit} : Touches [.xlat] s (onUnit d f s) := .of_blend rfl
theorem onPh_touches {h : Nat} {f : Ph → Ph} : Touches [.phs] s (onPh h f s) := .of_blend rfl
theorem onLaunch_touches {l : Nat} {f : Launch → Launch} : Touches [.launches] s (onLaunch l f s) := .of_blend rfl
theorem onSteward_touches {c : Nat} {f : Steward → Steward} : Touches [.res] s (onSteward c f s) := .of_blend rfl
theorem freshNat_touches {bound : Nat} : Touches [.free] s (freshNat bound s).2 := .of_blend rfl

/-- An update of a letterbox that keeps its command frame. -/
theorem onLb_touches {l : Nat} {f : Letterbox → Letterbox} (hf : (f (lbOf s l)).cmd = (lbOf s l).cmd) :
    Touches [.lbs] s (onLb l f s) where
  same p hp := by
    cases p
    case frames =>
      intro k
      by_cases hk : k = l
      · subst hk; simpa using hf
      · rw [lbOf_onLb_ne l k f s hk]
    case lbs => exact absurd hp (by decide)
    all_goals simp [Part.Same, dieOf, onLb, Machine.onPost]
  steady := .of_eq rfl rfl rfl rfl rfl rfl rfl

/-- An update of a die that keeps its repairs. -/
theorem onDie_touches {d : Nat} {f : Die → Die} (hf : ∀ x, repairsOf (f x) = repairsOf x := by exact fun _ => rfl) :
    Touches [.dies] s (onDie d f s) where
  same p hp := by
    cases p
    case repairs =>
      intro k
      by_cases hk : k = d
      · subst hk; simpa using hf _
      · rw [dieOf_onDie_ne d k f s hk]
    case dies => exact absurd hp (by decide)
    all_goals simp [Part.Same, lbOf, onDie, Machine.onFabric]
  steady := .of_eq rfl rfl rfl rfl rfl rfl rfl

theorem repairsOf_tmap {f : Nat → Die → Die} (hf : ∀ d x, repairsOf (f d x) = repairsOf x) (t : Tab Die) (k : Nat) :
    repairsOf (tget {} (tmap f t) k) = repairsOf (tget {} t k) := by
  induction t with
  | nil => rfl
  | cons e t ih =>
    by_cases hk : e.1 = k
    · simp [tget, tmap, hk, hf]
    · simpa [tget, tmap, hk] using ih

/-- An update of every die that keeps its repairs. -/
theorem mapDies_touches {f : Nat → Die → Die} (hf : ∀ d x, repairsOf (f d x) = repairsOf x) :
    Touches [.dies] s (onFabric (fun x => { x with dies := tmap f x.dies }) s) where
  same p hp := by
    cases p
    case repairs => exact fun k => repairsOf_tmap hf _ k
    case dies => exact absurd hp (by decide)
    all_goals simp [Part.Same, lbOf, Machine.onFabric]
  steady := .of_eq rfl rfl rfl rfl rfl rfl rfl

/-- An update of a letterbox, its command frame included. -/
theorem onLb_touches_frames {l : Nat} {f : Letterbox → Letterbox} : Touches [.lbs, .frames] s (onLb l f s) := .of_blend rfl

theorem emit_touches {o : Out} : Touches [.out] s (emit o s) where
  same p hp := by
    cases p <;> first | exact absurd hp (by decide) | rfl | exact ⟨rfl, rfl⟩ | exact fun _ => rfl
  steady := { Steady.refl s with out := ⟨[o], rfl⟩ }

end

/-! ### Operations that may answer nothing, commands and rows -/

/-- What an operation answers, where it answers a state, touches only `F`. -/
def OptTouches (F : List Part) (s : State) (o : Option State) : Prop := ∀ t, o = some t → Touches F s t

namespace OptTouches

variable {F G : List Part} {s t : State} {o p : Option State}

theorem of_eq (h : OptTouches F s o) (ht : o = some t) : Touches F s t := h t ht

theorem none : OptTouches F s none := fun _ h => nomatch h

theorem some (h : Touches F s t) : OptTouches F s (some t) := fun _ ht => Option.some.inj ht ▸ h

protected theorem ite {c : Prop} [Decidable c] (h : OptTouches F s o) (g : OptTouches F s p) :
    OptTouches F s (if c then o else p) := by
  split
  · exact h
  · exact g

theorem after (g : OptTouches G t o) (h : Touches F s t) (hF : G.all F.contains = true := by exact rfl) : OptTouches F s o :=
  fun _ hu => (g _ hu).after h hF

theorem widen (g : OptTouches G t o) (hF : G.all F.contains = true := by exact rfl) : OptTouches F t o := g.after .refl hF

theorem getD (g : OptTouches F s o) (h : Touches F s t) : Touches F s (o.getD t) := by
  cases o with
  | none => exact h
  | some u => exact g u rfl

end OptTouches

/-- What a command's meaning answers touches only `F`; one that goes on leaves the command frames alone. -/
inductive CmdTouches (F : List Part) (s : State) : CmdOut → Prop
  | done {e : Nat} {r : List Byte} {t : State} (h : Touches F s t) : CmdTouches F s (.done e r t)
  | wait {t : State} (h : Touches F s t) (hF : F.contains .frames = false := by exact rfl) : CmdTouches F s (.wait t)
  | gone {t : State} (h : Touches F s t) : CmdTouches F s (.gone t)

namespace CmdTouches

variable {F G : List Part} {s t : State} {o p : CmdOut}

protected theorem ite {c : Prop} [Decidable c] (h : CmdTouches F s o) (g : CmdTouches F s p) :
    CmdTouches F s (if c then o else p) := by
  split
  · exact h
  · exact g

theorem after (g : CmdTouches G t o) (h : Touches F s t) (hF : G.all F.contains = true := by exact rfl)
    (hf : F.contains .frames = false := by exact rfl) : CmdTouches F s o := by
  cases g with
  | done g => exact .done (g.after h hF)
  | wait g => exact .wait (g.after h hF) hf
  | gone g => exact .gone (g.after h hF)

theorem widen (g : CmdTouches G t o) (hF : G.all F.contains = true := by exact rfl)
    (hf : F.contains .frames = false := by exact rfl) : CmdTouches F t o := g.after .refl hF hf

end CmdTouches

/-- A row completes, and touches only `F`. -/
def Runs (F : List Part) (s : State) (r : Res) : Prop := ∃ t, r = .next t ∧ Touches F s t

namespace Runs

variable {F G : List Part} {s t : State} {r q : Res}

theorem next (h : Touches F s t) : Runs F s (.next t) := ⟨t, rfl, h⟩

protected theorem ite {c : Prop} [Decidable c] (h : Runs F s r) (g : Runs F s q) : Runs F s (if c then r else q) := by
  split
  · exact h
  · exact g

theorem after (g : Runs G t r) (h : Touches F s t) (hF : G.all F.contains = true := by exact rfl) : Runs F s r := by
  obtain ⟨u, rfl, hu⟩ := g
  exact .next (hu.after h hF)

theorem widen (g : Runs G t r) (hF : G.all F.contains = true := by exact rfl) : Runs F t r := g.after .refl hF

/-- What the module does after a row. -/
theorem andThen {f : State → State} : Runs F s r → (∀ t, Touches F s t → Touches F s (f t)) →
    Runs F s (match r with | .next t => .next (f t) | r => r) := by
  rintro ⟨t, rfl, ht⟩ hf
  exact .next (hf t ht)

theorem touches (h : Runs F s r) (ht : r = .next t) : Touches F s t := by
  obtain ⟨u, rfl, hu⟩ := h
  cases ht
  exact hu

end Runs

end Sys2Proof.Frames
end

section
/-! SUPPORT. The footprint of each operation of the model, in the order of the model's files: a proof follows the branches of the definition
and cites the footprints of what it calls. -/

namespace Sys2Proof.Frames

open Sys2Proof.Machine Sys2Proof.Safety Sys2Proof.Laws

set_option Elab.async false

variable {F : List Part} {s t : State}

/-! ### Ops -/

theorem countMgmt_touches {i : Nat} : Touches [.events] s (countMgmt i s) := by
  unfold countMgmt
  exact .onMgmt .refl

theorem pldmRaise_touches {bytes : List Byte} : Touches [.events, .out] s (pldmRaise bytes s) := by
  unfold pldmRaise
  split
  · exact .when emit_touches.widen (fun _ h => emit_touches.after h)
  · exact .when (.onMgmt (.ite countMgmt_touches.widen .refl)) (fun _ h => emit_touches.after h)

theorem appendRecord_recs (mk : Nat → JRec) (j : Journal) (w : Bool) :
    (appendRecord mk j w).recs = (j.recs ++ [mk j.next]).drop ((j.recs ++ [mk j.next]).length - journalDepth) := by
  unfold appendRecord
  generalize journalDepth = n
  dsimp only
  split <;> rfl

/-- A record appended at the next index keeps the journal in order. -/
theorem orderedJournal_putRecord {r : JRec} {s : State} (h : OrderedJournal s) : OrderedJournal (putRecord r s) := by
  obtain ⟨hlen, hlt, hord⟩ := h
  simp only [OrderedJournal, putRecord, onPost_post, appendRecord_next, appendRecord_recs]
  generalize hn : s.post.journal.next = n at *
  generalize s.post.journal.recs = l at *
  have hmem : ∀ x ∈ l ++ [{ r with index := n }], x.index < n + 1 := by
    intro x hx
    rcases List.mem_append.1 hx with hx | hx
    · exact Nat.lt_succ_of_lt (hlt x hx)
    · rw [List.mem_singleton.1 hx]; exact Nat.lt_succ_self _
  refine ⟨by rw [List.length_drop]; simp only [journalDepth]; omega, fun x hx => hmem x (List.mem_of_mem_drop hx), ?_⟩
  refine .sublist (List.drop_sublist _ _) (List.pairwise_append.2 ⟨hord, List.pairwise_singleton _ _, fun a ha b hb => ?_⟩)
  rw [List.mem_singleton.1 hb]
  exact hlt a ha

theorem putRecord_touches {r : JRec} : Touches [.journal] s (putRecord r s) where
  same p hp := by
    cases p <;> first | exact absurd hp (by decide) | rfl | exact ⟨rfl, rfl⟩ | exact fun _ => rfl
  steady := { Steady.refl s with
    journal := orderedJournal_putRecord
    next := by simp [putRecord] }

theorem journalFrom_touches {source : Postcode} {code cls plane : Nat} {pldm : Bool} {fs : List Fld} :
    Touches [.host, .journal, .events, .out] s (journalFrom source code cls plane pldm fs s) := by
  unfold journalFrom
  exact .ite (.onHost (pldmRaise_touches.after putRecord_touches.widen)) putRecord_touches.widen

/-- A record that is no PLDM event. -/
theorem journalFrom_quiet {source : Postcode} {code cls plane : Nat} {fs : List Fld} :
    Touches [.journal] s (journalFrom source code cls plane false fs s) := putRecord_touches

theorem journal_touches {code cls plane : Nat} {pldm : Bool} {fs : List Fld} :
    Touches [.host, .journal, .events, .out] s (journal code cls plane pldm fs s) := journalFrom_touches

theorem journal_quiet {code cls plane : Nat} {fs : List Fld} :
    Touches [.journal] s (journal code cls plane false fs s) := journalFrom_quiet

theorem journalRule_touches {area cls plane : Nat} {pldm : Bool} {rule : Nat} {fs : List Fld} :
    Touches [.host, .journal, .events, .out] s (journalRule area cls plane pldm rule fs s) := journal_touches

theorem journalRule_quiet {area cls plane rule : Nat} {fs : List Fld} :
    Touches [.journal] s (journalRule area cls plane false rule fs s) := journal_quiet

theorem limitMark_touches {rule obj : Nat} : Touches [.post] s (limitMark rule obj s) := by
  unfold limitMark
  exact .onPost .refl

theorem limited_touches {rule obj window : Nat} {f : State → State} (h :
    Touches F s t) (hf : ∀ x, Touches F s x → Touches F s (f x)) (hK : [.post].all F.contains = true := by exact rfl) :
    Touches F s (limited rule obj window f t) := by
  unfold limited
  exact .ite (hf _ (limitMark_touches.within h hK)) h

theorem msix_touches {k v : Nat} : Touches [.fns, .out] s (msix k v s) := by
  unfold msix
  exact .ite .refl (.ite onFn_touches.widen (emit_touches.after onFn_touches.widen))

theorem msixFlush_touches {k : Nat} : Touches [.fns, .out] s (msixFlush k s) := by
  unfold msixFlush
  exact .updates .refl (fun _ _ h => .ite (emit_touches.after (onFn_touches.after h)) h)

theorem fnEvent_touches {k b : Nat} : Touches [.fns, .out] s (fnEvent k b s) := by
  unfold fnEvent
  exact .ite (msix_touches.after onFn_touches.widen) onFn_touches.widen

theorem fnEventAll_touches {b : Nat} : Touches [.fns, .out] s (fnEventAll b s) := by
  unfold fnEventAll
  exact .updates .refl (fun _ _ h => fnEvent_touches.after h)

theorem modEvent_touches {b : Nat} : Touches [.host] s (modEvent b s) := by
  unfold modEvent
  exact .onHost .refl

theorem aer_touches {port cls code : Nat} : Touches [.hostPorts, .journal, .out] s (aer port cls code s) := by
  unfold aer
  exact emit_touches.after (journal_quiet.after onHostPort_touches.widen)

theorem countDie_touches {d i n : Nat} : Touches [.dies] s (countDie d i n s) := by
  unfold countDie
  exact (onDie_touches).widen

theorem countEcc_touches {d i n : Nat} : Touches [.dies] s (countEcc d i n s) := by
  unfold countEcc
  exact (onDie_touches).widen

theorem countFabric_touches {d i n : Nat} : Touches [.dies] s (countFabric d i n s) := by
  unfold countFabric
  exact (onDie_touches).widen

theorem countSelect_touches {d i n : Nat} : Touches [.dies] s (countSelect d i n s) := by
  unfold countSelect
  exact (onDie_touches).widen

theorem countPort_touches {p i n : Nat} : Touches [.ports] s (countPort p i n s) := by
  unfold countPort
  exact onPort_touches.widen

/-! ### Commands -/

theorem ok0_touches : CmdTouches [] s (ok0 s) := by
  unfold ok0
  exact .done .refl

theorem err_touches {code : Nat} : CmdTouches [] s (err code s) := by
  unfold err
  exact .done .refl

theorem commandRecord_touches {lb e : Nat} : Touches [.journal] s (commandRecord lb e s) := by
  unfold commandRecord
  exact .ite .refl journal_quiet.widen

theorem postResult_touches {lb errCode : Nat} {res : List Byte} :
    Touches [.fns, .lbs, .journal, .out] s (postResult lb errCode res s) := by
  unfold postResult
  exact .ite ((onLb_touches rfl).after commandRecord_touches.widen) (msix_touches.after
      ((onLb_touches rfl).after commandRecord_touches.widen))

/-- What the operation of an aborted command is detached in (R125). -/
def detachFoot (op : Nat) : List Part :=
  match op with
  | 0x0501 => [.power]
  | 0x040B => [.disc]
  | 0x0505 => [.time]
  | 0x0107 => [.rings]
  | _ => []

theorem detach_foot {lb op : Nat} : Touches (detachFoot op) s (detach lb op s) := by
  unfold detach
  split
  · exact .onPower .refl
  · exact .onDisc .refl (fun _ => by split <;> rfl)
  · exact .onTime .refl
  · exact .of_blend rfl
  · exact .refl

theorem detachFoot_subset (op : Nat) : (detachFoot op).all [.power, .time, .rings, .disc].contains = true := by
  unfold detachFoot
  split <;> decide

theorem detach_touches {lb op : Nat} : Touches [.power, .time, .rings, .disc] s (detach lb op s) :=
  detach_foot.widen (detachFoot_subset op)

/-- Letterboxes, their messages and their records: what ending a command touches. -/
theorem finish_touches {lb op : Nat} {o : CmdOut} (hop : cmdOpcode (lbOf s lb) = op) (ho : CmdTouches F s o)
    (hK : [Part.fns, .lbs, .journal, .out].all F.contains = true) (hop' : (detachFoot op).all F.contains = true) :
    Touches F s (finish lb o) := by
  cases ho with
  | done h =>
    unfold finish
    exact postResult_touches.within h hK
  | @wait t h hf =>
    have hcmd : cmdOpcode (lbOf t lb) = op := by rw [← hop]; unfold cmdOpcode cmdHeader; rw [h.same .frames hf lb]
    dsimp only [finish]
    rw [hcmd]
    exact .ite (detach_foot.after (postResult_touches.within h hK) hop') ((onLb_touches rfl).within h hK)
  | gone h => exact h

theorem runCmd_touches {op : Nat} {sel : List Byte → Bool} {f : Cmd} {lb : Nat} (h : Touches F s t)
    (hf : ∀ o a x, Touches F t x → CmdTouches F t (f o a x))
    (hK : ([Part.fns, .lbs, .journal, .out] ++ detachFoot op).all F.contains = true := by exact rfl) :
    Runs F s (runCmd op sel f lb t) := by
  unfold runCmd
  split
  · exact .next h
  dsimp only
  split
  · rename_i hrun
    have hop : cmdOpcode (lbOf t lb) = op := by simp [runningFresh] at hrun; exact hrun.1.2
    rw [List.all_append, Bool.and_eq_true] at hK
    exact .next (h.trans (finish_touches hop (hf _ _ _ .refl) hK.1 hK.2))
  · exact .next h

theorem postFrameError_touches {lb e : Nat} : Touches [.fns, .lbs, .out] s (postFrameError lb e s) := by
  unfold postFrameError
  exact .ite ((onLb_touches rfl).widen) (msix_touches.after ((onLb_touches rfl).widen))

theorem commandStart_touches {lb : Nat} : Touches [.fns, .lbs, .frames, .out] s (commandStart lb s) := by
  unfold commandStart
  refine .ite ?_ .refl
  extract_lets
  split
  · exact (onLb_touches rfl).widen
  · exact .when (postFrameError_touches.after ((onLb_touches rfl).widen)) (fun _ h => onLb_touches_frames.after h)

theorem postWaiting_touches {lb op e : Nat} {res : List Byte} : Touches [.fns, .lbs, .journal, .out] s (postWaiting lb op e res s) := by
  unfold postWaiting
  exact .ite postResult_touches.widen .refl

theorem postWaiting?_touches {lb : Option Nat} {op e : Nat} {res : List Byte} :
    Touches [.fns, .lbs, .journal, .out] s (postWaiting? lb op e res s) := by
  unfold postWaiting?
  split
  · exact postWaiting_touches.widen
  · exact .refl

theorem abortCommand_touches {lb : Nat} : Touches [.power, .time, .fns, .lbs, .journal, .rings, .disc, .out] s (abortCommand lb s) := by
  unfold abortCommand
  extract_lets
  split
  · exact postFrameError_touches.widen
  · exact .ite .refl (.ite (detach_touches.after (postResult_touches.after ((onLb_touches rfl).widen))) ((onLb_touches rfl).widen))
  · exact .refl

/-! ### Packets -/

theorem deadLetterRaw_touches {d reason ingress stream : Nat} {head : List Byte} :
    Touches [.journal, .post, .dies] s (deadLetterRaw d reason ingress stream head s) := by
  unfold deadLetterRaw
  exact limited_touches (onDie_touches).widen (fun _ h => journalFrom_quiet.after h)

theorem deadLetter_touches {d reason ingress : Nat} {p : Pkt} : Touches [.journal, .post, .dies] s (deadLetter d reason ingress p s) := by
  unfold deadLetter
  exact deadLetterRaw_touches.widen

/-! ### Fabric -/

theorem onBanks_touches {f : Bank → Bank} : Touches [.active, .staged] s (onBanks f s) := by
  unfold onBanks
  exact .onFabric .refl

theorem markDie_touches {d : Nat} {reachable : Bool} {reason : Nat} {off : Bool} :
    Touches [.active, .staged] s (markDie d reachable reason off s) := by
  unfold markDie
  exact onBanks_touches.widen

theorem markModule_touches {m : Nat} {v : Bool} : Touches [.active, .staged] s (markModule m v s) := by
  unfold markModule
  exact onBanks_touches.widen

theorem addFlight_touches {p : Pkt} {loc : Loc} {o : Origin} : Touches [.fabric] s (addFlight p loc o s) := by
  unfold addFlight
  exact .onFabric .refl

theorem setFlight_touches {pid : Nat} {f : Flight} : Touches [.fabric] s (setFlight pid f s) := by
  unfold setFlight
  exact .onFabric .refl

theorem dropFlight_touches {pid : Nat} : Touches [.fabric] s (dropFlight pid s) := by
  unfold dropFlight
  exact .onFabric .refl

theorem dropPackets_touches {q : Nat → Bool} : Touches [.fabric] s (dropPackets q s) := by
  unfold dropPackets
  exact .onFabric .refl

theorem sendData_touches {p : Pkt} {o : Origin} : Touches [.fabric] s (sendData p o s) := by
  unfold sendData
  exact addFlight_touches.widen

theorem sendControl_touches {p : Pkt} : Touches [.fabric] s (sendControl p s) := by
  unfold sendControl
  exact .onFabric .refl

theorem waitsNoMore_touches {d pid : Nat} : Touches [.dies] s (waitsNoMore d pid s) := by
  unfold waitsNoMore
  exact .ite (onDie_touches).widen .refl

theorem leaveEscape_touches {pid d : Nat} {f : Flight} : Touches [.journal, .dies, .fabric] s (leaveEscape pid d f s) := by
  unfold leaveEscape
  exact journalFrom_quiet.after (countFabric_touches.after (waitsNoMore_touches.after setFlight_touches.widen))

theorem returnCredits_touches {l : Loc} {p : Pkt} : Touches [.ports] s (returnCredits l p s) := by
  unfold returnCredits
  split
  · exact onPort_touches.widen
  · exact .refl

theorem escapeHop_touches {d r pid : Nat} {f : Flight} {tgt : Target273} {taken : List Output} :
    Touches [.journal, .ports, .dies, .fabric] s (escapeHop d r pid f tgt taken s).1 := by
  unfold escapeHop
  extract_lets
  split
  · exact leaveEscape_touches.widen
  · extract_lets
    split
    · exact returnCredits_touches.after (countFabric_touches.after (countFabric_touches.after
        (waitsNoMore_touches.after setFlight_touches.widen)))
    · exact setFlight_touches.widen

theorem decide1_touches {d r pid : Nat} {free : Freedom} {taken : List Output} :
    Touches [.journal, .post, .ports, .dies, .fabric] s (decide1 d r pid free taken s).1 := by
  unfold decide1
  split
  · exact .refl
  · extract_lets
    split
    · exact dropFlight_touches.after (returnCredits_touches.after deadLetter_touches.widen)
    · refine .ite_fst (escapeHop_touches.after (.ite countFabric_touches.widen .refl)) ?_
      refine .ite_fst (countFabric_touches.after (setFlight_touches.after (.ite countFabric_touches.widen .refl))) ?_
      extract_lets
      split
      · exact countFabric_touches.after (setFlight_touches.after (.ite (.onFabric (.ite countFabric_touches.widen .refl))
          (.ite countFabric_touches.widen .refl)))
      · split
        · split
          · exact countFabric_touches.after ((onDie_touches).after (countFabric_touches.after (countFabric_touches.after
              (setFlight_touches.after (.ite (.onFabric (.ite countFabric_touches.widen .refl))
              (.ite countFabric_touches.widen .refl))))))
          · exact (onDie_touches).after (countFabric_touches.after (countFabric_touches.after (setFlight_touches.after (.ite (.onFabric
              (.ite countFabric_touches.widen .refl)) (.ite countFabric_touches.widen .refl)))))
        · exact setFlight_touches.after (.ite (.onFabric (.ite countFabric_touches.widen .refl)) (.ite countFabric_touches.widen .refl))

theorem decideAll_touches {d r : Nat} {a1 : List (Nat × Freedom)} {a2 : List Output} :
    Touches [.journal, .post, .ports, .dies, .fabric] s (decideAll d r a1 a2 s).1 := by
  induction a1 generalizing d r a2 s with
  | nil => exact .refl
  | cons e rest ih =>
    unfold decideAll
    exact ih.after decide1_touches.widen

theorem liftDrain_touches {d : Nat} : Touches [.dies] s (liftDrain d s) := by
  unfold liftDrain
  exact .ite (onDie_touches).widen .refl

theorem routerDecision_touches {d r : Nat} {extra : List (Nat × Freedom)} :
    Touches [.journal, .post, .ports, .dies, .fabric] s (routerDecision d r extra s) := by
  unfold routerDecision
  exact liftDrain_touches.after decideAll_touches.widen

/-! ### RepairMap -/

theorem mramFailed_touches {d : Nat} : Touches [.journal, .dies] s (mramFailed d s) := by
  unfold mramFailed
  exact journalRule_quiet.after countEcc_touches.widen

theorem writeMap_touches {ok : Bool} : Touches [.maps, .journal, .dies] s (writeMap ok s) := by
  unfold writeMap
  refine .ite .refl ?_
  refine .ite (.updates .refl (fun _ _ h => .onPost h)) ?_
  split
  · exact mramFailed_touches.after (.onPost .refl)
  · exact .refl

theorem addEntries_touches {es : List (BitVec 64)} : Touches [.post] s (addEntries es s) := by
  unfold addEntries
  exact .onPost .refl

theorem mapAdd_touches {es : List (BitVec 64)} : Touches [.maps, .journal, .post, .dies] s (mapAdd es s) := by
  unfold mapAdd
  exact writeMap_touches.after addEntries_touches.widen

theorem mapRemove_touches {q : BitVec 64 → Bool} : Touches [.maps, .journal, .post, .dies] s (mapRemove q s) := by
  unfold mapRemove
  exact .ite (writeMap_touches.after (.onPost (.onPost .refl))) (.onPost .refl)

theorem linkOut_touches {d l : Nat} : Touches [.dies, .repairs] s (linkOut d l s) := by
  unfold linkOut
  extract_lets x0_0 x0_1
  clear_value x0_1
  split
  · exact onDie_repairs.after onDie_repairs.widen
  · exact onDie_repairs.widen

theorem badWire_touches {d l g w : Nat} {inbound : Bool} : Touches [.dies, .repairs] s (badWire d l g w inbound s) := by
  unfold badWire
  exact .ite .refl (.ite linkOut_touches.widen onDie_repairs.widen)

theorem sparePort_touches {bad spare : Nat} : Touches [.fabric] s (sparePort bad spare s) := by
  unfold sparePort
  exact .ite .refl (.onFabric .refl)

theorem exchangePorts_touches {bad spare : Nat} : Touches [.fabric] s (exchangePorts bad spare s) := by
  unfold exchangePorts
  exact .ite .refl (.onFabric .refl)

theorem applyEntry_touches {e : BitVec 64} : Touches [.journal, .ports, .dies, .repairs, .fabric] s (applyEntry e s) := by
  unfold applyEntry
  refine .ite .refl ?_
  split
  · exact .ite badWire_touches.widen .refl
  · exact .ite linkOut_touches.widen .refl
  · exact .ite onDie_repairs.widen .refl
  · exact .ite onDie_repairs.widen .refl
  · exact .ite onDie_repairs.widen .refl
  · exact .ite onPort_touches.widen .refl
  · exact .ite exchangePorts_touches.widen .refl
  · exact .ite onDie_repairs.widen .refl
  · exact journalRule_quiet.widen

theorem applyMap_touches {edge : Bool} : Touches [.journal, .ports, .dies, .repairs, .fabric] s (applyMap edge s) := by
  unfold applyMap
  exact .updates .refl (fun _ _ h => applyEntry_touches.after h)

theorem reapplyMap_touches {edge : Bool} : Touches [.journal, .ports, .dies, .repairs, .fabric] s (reapplyMap edge s) := by
  unfold reapplyMap
  exact .updates .refl (fun _ _ h => applyEntry_touches.after h)

/-! ### Time -/

theorem aligned_touches : Touches [.time, .journal] s (aligned s) := by
  unfold aligned
  exact journal_quiet.after (.onTime .refl)

theorem applyStep_touches : Touches [.rackTime, .time, .journal] s (applyStep s) := by
  unfold applyStep
  split
  · exact .ite .refl (aligned_touches.after (.onTime .refl))
  · exact .refl

theorem timeTick_touches : Touches [.rackTime, .time, .journal] s (timeTick s) := by
  unfold timeTick
  exact .ite .refl (applyStep_touches.after (.when (.onTime .refl) (fun _ h => aligned_touches.after h)))

theorem slewEnd_touches : Touches [.rackTime, .time, .journal] s (slewEnd s) := by
  unfold slewEnd
  exact .ite .refl (aligned_touches.after (.onTime .refl))

theorem execSlewEnd_touches : Runs [.rackTime, .time, .journal] s (execSlewEnd s) := by
  unfold execSlewEnd
  exact .next slewEnd_touches.widen

theorem realign_touches : Touches [.time, .journal] s (realign s) := by
  unfold realign
  exact .ite (.when (.onTime .refl) (fun _ h => aligned_touches.after h)) (.ite (.onTime (.onTime .refl)) (.onTime (.onTime .refl)))

theorem moveTime_touches {v : Nat} : Touches [.rackTime, .lbs, .frames] s (moveTime v s) := by
  unfold moveTime
  exact .onPost (.onTime .refl)

theorem applyLoad_touches {l : RackLoad} : Touches [.rackTime, .time, .fns, .lbs, .frames, .journal, .out] s (applyLoad l s) := by
  unfold applyLoad
  exact .ite (.ite journalRule_quiet.widen postWaiting?_touches.widen) (postWaiting?_touches.after (.onTime moveTime_touches.widen))

theorem ppsEdge_touches : Touches [.rackTime, .time, .fns, .lbs, .frames, .journal, .out] s (ppsEdge s) := by
  unfold ppsEdge
  exact .ite (realign_touches.after (.ite (.onTime (.updates (.onTime .refl) (fun _ _ h => applyLoad_touches.after h)))
      (journal_quiet.after (.onTime (.updates (.onTime .refl) (fun _ _ h => applyLoad_touches.after h)))))) (.ite (.onTime (.updates
      (.onTime .refl) (fun _ _ h => applyLoad_touches.after h))) (journal_quiet.after (.onTime (.updates (.onTime .refl)
      (fun _ _ h => applyLoad_touches.after h)))))

theorem onClock_touches {f : State → State} (h : Touches F s t) (hf : ∀ x, Touches F s x → Touches F s (f x)) :
    Runs F s (onClock f t) := by
  unfold onClock
  exact .next (.when h hf)

theorem execPpsEdge_touches : Runs [.rackTime, .time, .fns, .lbs, .frames, .journal, .out] s (execPpsEdge s) := by
  unfold execPpsEdge
  exact onClock_touches .refl (fun _ h => ppsEdge_touches.after h)

theorem execPpsMissing_touches : Runs [.journal] s (execPpsMissing s) := by
  unfold execPpsMissing
  exact onClock_touches .refl (fun _ h => journal_quiet.after h)

theorem referenceLoss_touches : Touches [.time, .host, .journal, .events, .out] s (referenceLoss s) := by
  unfold referenceLoss
  exact .ite .refl (journal_touches.after (.onTime .refl))

theorem execReferenceLoss_touches : Runs [.time, .host, .journal, .events, .out] s (execReferenceLoss s) := by
  unfold execReferenceLoss
  exact onClock_touches .refl (fun _ h => referenceLoss_touches.after h)

theorem holdoverExpiry_touches : Touches [.time, .journal] s (holdoverExpiry s) := by
  unfold holdoverExpiry
  exact .ite (journal_quiet.after (.onTime .refl)) .refl

theorem execHoldoverExpiry_touches : Runs [.time, .journal] s (execHoldoverExpiry s) := by
  unfold execHoldoverExpiry
  exact onClock_touches .refl (fun _ h => holdoverExpiry_touches.after h)

theorem referenceReturn_touches : Touches [.time] s (referenceReturn s) := by
  unfold referenceReturn
  exact .ite (.onTime .refl) .refl

theorem execReferenceReturn_touches : Runs [.time] s (execReferenceReturn s) := by
  unfold execReferenceReturn
  exact onClock_touches .refl (fun _ h => referenceReturn_touches.after h)

theorem timebaseFailover_touches : Touches [.time, .journal] s (timebaseFailover s) := by
  unfold timebaseFailover
  exact .ite .refl (journalRule_quiet.after (.onTime .refl))

theorem execTimebaseFailover_touches : Runs [.time, .journal] s (execTimebaseFailover s) := by
  unfold execTimebaseFailover
  exact onClock_touches .refl (fun _ h => timebaseFailover_touches.after h)

theorem rackTimeSet_touches {who : Option Nat} {a : List Byte} : CmdTouches [.time] s (rackTimeSet who a s) := by
  unfold rackTimeSet
  exact .ite (.done .refl) (.wait (.onTime .refl))

theorem execRackTimeSet_touches {lb : Nat} : Runs [.time, .fns, .lbs, .journal, .out] s (execRackTimeSet lb s) := by
  unfold execRackTimeSet
  exact runCmd_touches .refl (fun _ _ _ h => rackTimeSet_touches.after h)

theorem execRackTimeQuery_touches {lb : Nat} : Runs [.fns, .lbs, .journal, .out] s (execRackTimeQuery lb s) := by
  unfold execRackTimeQuery
  exact runCmd_touches .refl (fun _ _ _ h => .done h)

theorem rackTimeSetTimeout_touches : Touches [.time, .fns, .lbs, .journal, .out] s (rackTimeSetTimeout s) := by
  unfold rackTimeSetTimeout
  split
  · exact postWaiting?_touches.after (.onTime .refl)
  · exact .refl

theorem execRackTimeSetTimeout_touches : Runs [.time, .fns, .lbs, .journal, .out] s (execRackTimeSetTimeout s) := by
  unfold execRackTimeSetTimeout
  exact .next rackTimeSetTimeout_touches.widen

/-! ### Routing -/

theorem controlInject_touches {point : Nat} : Touches [.fabric] s (controlInject point s) := by
  unfold controlInject
  exact .ite .refl (.updates (.onFabric .refl) (fun _ _ h => addFlight_touches.after h))

theorem execControlInject_touches {point : Nat} : Runs [.fabric] s (execControlInject point s) := by
  unfold execControlInject
  exact .ite (.next controlInject_touches.widen) (.next .refl)

theorem execRouteDecision_touches {die router : Nat} :
    Runs [.journal, .post, .ports, .dies, .fabric] s (execRouteDecision die router s) := by
  unfold execRouteDecision
  exact .ite (.next routerDecision_touches.widen) (.next .refl)

theorem injectionStart_touches {d r pid : Nat} : Touches [.journal, .post, .ports, .dies, .fabric] s (injectionStart d r pid s) := by
  unfold injectionStart
  split
  · exact .ite routerDecision_touches.widen .refl
  · exact .refl

theorem landingWait_touches {pid : Nat} {four : Bool} : Touches [.journal, .post, .ports, .dies, .fabric] s (landingWait pid four s) := by
  unfold landingWait
  split
  · split
    · exact routerDecision_touches.after (.ite countFabric_touches.widen .refl)
    · exact .refl
  · exact .refl

theorem execLandingWaitExpiry_touches {pid : Nat} {fourMicros : Bool} :
    Runs [.journal, .post, .ports, .dies, .fabric] s (execLandingWaitExpiry pid fourMicros s) := by
  unfold execLandingWaitExpiry
  exact .next landingWait_touches.widen

theorem seamCross_touches {d l : Nat} : Touches [.fabric] s (seamCross d l s) := by
  unfold seamCross
  extract_lets x1_0
  clear_value x1_0
  split
  · exact .refl
  · extract_lets
    split
    · exact .ite setFlight_touches.widen .refl
    · exact .refl

theorem execSeamCrossing_touches {die output : Nat} : Runs [.fabric] s (execSeamCrossing die output s) := by
  unfold execSeamCrossing
  exact .ite (.next seamCross_touches.widen) (.next .refl)

theorem execEscapeWaitExpiry_touches {pid : Nat} : Runs [.dies] s (execEscapeWaitExpiry pid s) := by
  unfold execEscapeWaitExpiry
  refine .next ?_
  split
  · exact (onDie_touches).widen
  · exact .refl

theorem execEscapeDrainAlarm_touches {die : Nat} : Runs [.host, .journal, .events, .out] s (execEscapeDrainAlarm die s) := by
  unfold execEscapeDrainAlarm
  exact .ite (.next (.ite journalFrom_touches.widen .refl)) (.next .refl)

theorem fabricTick_touches : Touches [.dies] s (fabricTick s) := by
  unfold fabricTick
  exact .updates .refl (fun _ _ h => (onDie_touches).after h)

theorem idleTick_touches : Touches [.rackTime, .time, .journal, .dies] s (idleTick s) := by
  unfold idleTick
  exact timeTick_touches.after (.ite fabricTick_touches.widen .refl)

/-! ### Ports -/

theorem runPort_touches {p : Nat} {f : State → State} (h : Touches F s t) (hf : ∀ x, Touches F s x → Touches F s (f x)) :
    Runs F s (runPort p f t) := by
  unfold runPort
  exact .ite (.next (hf _ h)) (.next h)

theorem runLane_touches {p l : Nat} {f : State → State} (h : Touches F s t) (hf : ∀ x, Touches F s x → Touches F s (f x)) :
    Runs F s (runLane p l f t) := by
  unfold runLane
  exact .ite (runPort_touches h hf) (.next h)

theorem freshTaps_touches {a1 : Nat} : Touches [.free] s (freshTaps a1 s).2 := by
  induction a1 generalizing s with
  | zero => exact .refl
  | succ n ih =>
    unfold freshTaps
    exact ih.after freshNat_touches.widen

theorem adapt_touches {p l : Nat} : Touches [.ports, .free] s (adapt p l s) := by
  unfold adapt
  exact onLane_touches.after (.ite_snd (freshTaps_touches.after (freshNat_touches.after freshNat_touches.widen)) (freshNat_touches.after
      (freshTaps_touches.after (freshNat_touches.after freshNat_touches.widen))))

theorem sendBeacon_touches {p l : Nat} : Touches [.ports, .out, .free] s (sendBeacon p l s) := by
  unfold sendBeacon
  exact emit_touches.after (emit_touches.after (onLane_touches.after (.ite_snd freshNat_touches.widen .refl)))

theorem sendBeacons_touches {p : Nat} : Touches [.ports, .out, .free] s (sendBeacons p s) := by
  unfold sendBeacons
  exact .updates .refl (fun _ _ h => sendBeacon_touches.after h)

theorem widthDone_touches {p : Nat} : Touches [.fns, .lbs, .journal, .ports, .out] s (widthDone p s) := by
  unfold widthDone
  split
  · exact postWaiting_touches.after onPort_touches.widen
  · exact .refl

theorem discardLink_touches {p : Nat} : Touches [.ports, .fabric] s (discardLink p s) := by
  unfold discardLink
  exact .ite (.onFabric (countPort_touches.after countPort_touches.widen)) .refl

theorem enterDetect_touches {p : Nat} : Touches [.fns, .lbs, .journal, .ports, .out, .free] s (enterDetect p s) := by
  unfold enterDetect
  exact widthDone_touches.after (sendBeacons_touches.after onPort_touches.widen)

theorem journalFallback_touches {p reason : Nat} : Touches [.journal, .post] s (journalFallback p reason s) := by
  unfold journalFallback
  exact .ite (.onPost .refl) journal_quiet.widen

theorem journalDeferred_touches : Touches [.journal, .post] s (journalDeferred s) := by
  unfold journalDeferred
  exact .updates (.onPost .refl) (fun _ _ h => putRecord_touches.after h)

theorem fallback_touches {p reason : Nat} : Touches [.journal, .post, .ports, .fabric] s (fallback p reason s) := by
  unfold fallback
  exact journalFallback_touches.after (countPort_touches.after (onPort_touches.after discardLink_touches.widen))

theorem disablePort_touches {p : Nat} : Touches [.fns, .lbs, .journal, .ports, .fabric, .out] s (disablePort p s) := by
  unfold disablePort
  exact widthDone_touches.after (onPort_touches.after discardLink_touches.widen)

theorem enablePort_touches {p : Nat} : Touches [.fns, .lbs, .journal, .ports, .out, .free] s (enablePort p s) := by
  unfold enablePort
  exact .ite enterDetect_touches.widen .refl

theorem queueControl_touches {p op : Nat} : Touches [.ports] s (queueControl p op s) := by
  unfold queueControl
  exact onPort_touches.widen

theorem kaBegin_touches {p : Nat} : Touches [.ports] s (kaBegin p s) := by
  unfold kaBegin
  exact .ite .refl (.ite (queueControl_touches.after onPort_touches.widen) onPort_touches.widen)

theorem kaSwitch_touches {p : Nat} : Touches [.ports] s (kaSwitch p s) := by
  unfold kaSwitch
  exact onPort_touches.widen

theorem kaLeave_touches {p : Nat} : Touches [.ports] s (kaLeave p s) := by
  unfold kaLeave
  exact .ite (queueControl_touches.after onPort_touches.widen) onPort_touches.widen

theorem enterActive_touches {p : Nat} : Touches [.host, .journal, .ports, .disc, .events, .out] s (enterActive p s) := by
  unfold enterActive
  extract_lets x v late w grant
  clear_value w
  refine .when (.when (.when ?_ (fun _ h => journal_touches.after h)) (fun _ h => .onDisc h)) (fun _ h => kaBegin_touches.after h)
  rcases w with ⟨up, _ | code⟩
  · exact onPort_touches.widen
  · exact journal_touches.after onPort_touches.widen

theorem narrowTo_touches {p mask trigger : Nat} : Touches [.host, .journal, .ports, .events, .out] s (narrowTo p mask trigger s) := by
  unfold narrowTo
  exact queueControl_touches.after (journal_touches.after (countPort_touches.after onPort_touches.widen))

theorem narrowIfWaiting_touches {p : Nat} : Touches [.fns, .host, .lbs, .journal, .ports, .events, .out] s (narrowIfWaiting p s) := by
  unfold narrowIfWaiting
  exact .ite (.ite narrowTo_touches.widen widthDone_touches.widen) .refl

/-! ### CmdFabric -/

theorem routeStage_touches {a1 : Option Nat} {a : List Byte} : CmdTouches [.staged] s (routeStage a1 a s) := by
  unfold routeStage
  exact .done (.onFabric .refl)

theorem execRouteStage_touches {lb : Nat} : Runs [.fns, .lbs, .journal, .staged, .out] s (execRouteStage lb s) := by
  unfold execRouteStage
  exact runCmd_touches .refl (fun _ _ _ h => routeStage_touches.after h)

theorem routeRead_touches {a1 : Option Nat} {a : List Byte} : CmdTouches [] s (routeRead a1 a s) := by
  unfold routeRead
  exact .done .refl

theorem execRouteRead_touches {lb : Nat} : Runs [.fns, .lbs, .journal, .out] s (execRouteRead lb s) := by
  unfold execRouteRead
  exact runCmd_touches .refl (fun _ _ _ h => routeRead_touches.after h)

theorem beginCommit_touches {lb : Option Nat} {set_ : Nat} : Touches [.ports, .fabric] s (beginCommit lb set_ s) := by
  unfold beginCommit
  exact .onFabric .refl

theorem routeCommit_touches {who : Option Nat} {a : List Byte} : CmdTouches [.ports, .fabric] s (routeCommit who a s) := by
  unfold routeCommit
  exact .ite (.done .refl) (.ite (.done .refl) (.wait beginCommit_touches.widen))

theorem execRouteCommit_touches {lb : Nat} : Runs [.fns, .lbs, .journal, .ports, .fabric, .out] s (execRouteCommit lb s) := by
  unfold execRouteCommit
  exact runCmd_touches .refl (fun _ _ _ h => routeCommit_touches.after h)

theorem bankSwap_touches : Touches [.fns, .lbs, .journal, .active, .staged, .fabric, .out] s (bankSwap s) := by
  unfold bankSwap
  split
  · exact .ite (postWaiting?_touches.after (.onFabric .refl)) .refl
  · exact .refl

theorem execBankSwap_touches : Runs [.fns, .lbs, .journal, .active, .staged, .fabric, .out] s (execBankSwap s) := by
  unfold execBankSwap
  exact .next bankSwap_touches.widen

theorem cancelCommit_touches {e : Nat} : Touches [.fns, .lbs, .journal, .fabric, .out] s (cancelCommit e s) := by
  unfold cancelCommit
  split
  · exact postWaiting?_touches.after (.onFabric .refl)
  · exact .refl

theorem drainTimeout_touches : Touches [.fns, .lbs, .journal, .fabric, .out] s (drainTimeout s) := by
  unfold drainTimeout
  exact .ite .refl cancelCommit_touches.widen

theorem execCommitDrainTimeout_touches : Runs [.fns, .lbs, .journal, .fabric, .out] s (execCommitDrainTimeout s) := by
  unfold execCommitDrainTimeout
  exact .next drainTimeout_touches.widen

theorem routeSetDefine_touches {a1 : Option Nat} {a : List Byte} : CmdTouches [.routeSets] s (routeSetDefine a1 a s) := by
  unfold routeSetDefine
  exact .ite (.done .refl) (.done (.onFabric .refl))

theorem execRouteSetDefine_touches {lb : Nat} : Runs [.fns, .lbs, .journal, .routeSets, .out] s (execRouteSetDefine lb s) := by
  unfold execRouteSetDefine
  exact runCmd_touches .refl (fun _ _ _ h => routeSetDefine_touches.after h)

theorem execDeflectLimit_touches {lb : Nat} : Runs [.fns, .lbs, .journal, .limit, .out] s (execDeflectLimit lb s) := by
  unfold execDeflectLimit
  exact runCmd_touches .refl (fun _ _ _ h => .done (.onFabric h))

theorem portQuery_touches {a1 : Option Nat} {a : List Byte} : CmdTouches [] s (portQuery a1 a s) := by
  unfold portQuery
  exact .done .refl

theorem execPortQuery_touches {lb : Nat} : Runs [.fns, .lbs, .journal, .out] s (execPortQuery lb s) := by
  unfold execPortQuery
  exact runCmd_touches .refl (fun _ _ _ h => portQuery_touches.after h)

theorem retrain_touches {p : Nat} : Touches [.fns, .lbs, .journal, .post, .ports, .fabric, .out, .free] s (retrain p s) := by
  unfold retrain
  split
  · exact enterDetect_touches.after (journalFallback_touches.after (countPort_touches.after onPort_touches.widen))
  · exact fallback_touches.after onPort_touches.widen
  · exact fallback_touches.widen

theorem portSetWidth_touches {who : Option Nat} {a : List Byte} :
    CmdTouches [.fns, .host, .lbs, .maps, .journal, .post, .ports, .dies, .fabric, .events, .out, .free] s (portSetWidth who a s) := by
  unfold portSetWidth
  exact .ite (.wait (.ite (onPort_touches.after (.ite mapRemove_touches.widen .refl)) (narrowTo_touches.after (onPort_touches.after
      (.ite mapRemove_touches.widen .refl))))) (.ite (.done (onPort_touches.after (onPort_touches.after
      (.ite mapRemove_touches.widen .refl)))) (.ite (.done (retrain_touches.after (onPort_touches.after (onPort_touches.after
      (.ite mapRemove_touches.widen .refl))))) (.wait (retrain_touches.after (onPort_touches.after
      (.ite mapRemove_touches.widen .refl))))))

theorem execPortSetWidth_touches {lb : Nat} :
    Runs [.fns, .host, .lbs, .maps, .journal, .post, .ports, .dies, .fabric, .events, .out, .free] s (execPortSetWidth lb s) := by
  unfold execPortSetWidth
  exact runCmd_touches .refl (fun _ _ _ h => portSetWidth_touches.after h)

theorem portSpare_touches {a1 : Option Nat} {a : List Byte} :
    CmdTouches [.fns, .lbs, .maps, .journal, .post, .ports, .dies, .fabric, .out, .free] s (portSpare a1 a s) := by
  unfold portSpare
  exact .ite (.done .refl) (.done (enterDetect_touches.after (mapAdd_touches.after (onPort_touches.after (onPort_touches.after
      (sparePort_touches.after (disablePort_touches.after disablePort_touches.widen)))))))

theorem execPortSpare_touches {lb : Nat} :
    Runs [.fns, .lbs, .maps, .journal, .post, .ports, .dies, .fabric, .out, .free] s (execPortSpare lb s) := by
  unfold execPortSpare
  exact runCmd_touches .refl (fun _ _ _ h => portSpare_touches.after h)

theorem clearFailures_touches {p : Nat} : Touches [.ports] s (clearFailures p s) := by
  unfold clearFailures
  exact onPort_touches.widen

theorem execPortDisable_touches {lb : Nat} : Runs [.fns, .lbs, .journal, .ports, .fabric, .out] s (execPortDisable lb s) := by
  unfold execPortDisable
  exact runCmd_touches .refl (fun _ _ _ h => .done (disablePort_touches.after h))

theorem execPortEnable_touches {lb : Nat} : Runs [.fns, .lbs, .journal, .ports, .out, .free] s (execPortEnable lb s) := by
  unfold execPortEnable
  exact runCmd_touches .refl (fun _ _ _ h => .done (.when (clearFailures_touches.after h) (fun _ h => enterDetect_touches.after h)))

theorem execPortRetrain_touches {lb : Nat} :
    Runs [.fns, .lbs, .journal, .post, .ports, .fabric, .out, .free] s (execPortRetrain lb s) := by
  unfold execPortRetrain
  exact runCmd_touches .refl (fun _ _ _ h => .done (clearFailures_touches.after (.ite h (retrain_touches.after h))))

/-! ### Store -/

theorem setMark_touches {w : Nat} {k : WordMark} : Touches [.marks] s (setMark w k s) := by
  unfold setMark
  exact .onMem .refl

theorem clearMark_touches {w : Nat} : Touches [.marks] s (clearMark w s) := by
  unfold clearMark
  exact .onMem .refl

theorem countCorrection_touches {d w : Nat} : Touches [.dies] s (countCorrection d w s) := by
  unfold countCorrection
  exact (onDie_touches).after countEcc_touches.widen

theorem foundUncorrectable_touches {pc : Postcode} {w : Nat} : Touches [.journal, .dies, .marks] s (foundUncorrectable pc w s) := by
  unfold foundUncorrectable
  exact journalFrom_quiet.after ((onDie_touches).after (countEcc_touches.after (countEcc_touches.after setMark_touches.widen)))

theorem senseWord_touches {pc : Postcode} {w : Nat} : Touches [.journal, .dies, .marks] s (senseWord pc w s) := by
  unfold senseWord
  split
  · exact countCorrection_touches.widen
  · exact foundUncorrectable_touches.widen
  · exact .refl

theorem readMem_touches {pc : Postcode} {off len : Nat} : Touches [.journal, .dies, .marks] s (readMem pc off len s).2.2 := by
  unfold readMem
  exact .ite (countEcc_touches.after (.updates .refl (fun _ _ h => senseWord_touches.after h))) (.updates .refl
      (fun _ _ h => senseWord_touches.after h))

theorem writeWord_touches {pc : Postcode} {base : Nat} {bytes : List Byte} {bad : Bool} :
    Touches [.journal, .dies, .cells, .marks] s (writeWord pc base bytes bad s) := by
  unfold writeWord
  refine .ite ?_ ?_
  · refine countEcc_touches.after (setMark_touches.after ?_)
    refine .ite ((onDie_touches).after (clearMark_touches.after (.onCells .refl (putBytes_wf _ _ _)))) ?_
    split
    · exact .onCells (clearMark_touches.after countCorrection_touches.widen) (putBytes_wf _ _ _)
    · exact .onCells foundUncorrectable_touches.widen (putBytes_wf _ _ _)
    · exact .onCells .refl (putBytes_wf _ _ _)
  · refine .ite ((onDie_touches).after (clearMark_touches.after (.onCells .refl (putBytes_wf _ _ _)))) ?_
    split
    · exact .onCells (clearMark_touches.after countCorrection_touches.widen) (putBytes_wf _ _ _)
    · exact .onCells foundUncorrectable_touches.widen (putBytes_wf _ _ _)
    · exact .onCells .refl (putBytes_wf _ _ _)

theorem writeUnit_touches {pc : Postcode} {off : Nat} {bytes : List Byte} {bad : List Bool} {key : List Byte} :
    Touches [.journal, .dies, .cells, .marks] s (writeUnit pc off bytes bad key s) := by
  unfold writeUnit
  exact .ite (countEcc_touches.after (.updates (.updates (.onCells (.ite .refl (.updates .refl
      (fun _ _ h => senseWord_touches.after h))) (putBytes_wf _ _ _)) (fun _ _ h => clearMark_touches.after h))
      (fun _ _ h => setMark_touches.after h))) (.updates (.onCells (.ite .refl (.updates .refl
      (fun _ _ h => senseWord_touches.after h))) (putBytes_wf _ _ _)) (fun _ _ h => clearMark_touches.after h))

theorem writeMem_touches {pc : Postcode} {off : Nat} {bytes : List Byte} {bad : List Bool} :
    Touches [.journal, .dies, .cells, .marks] s (writeMem pc off bytes bad s) := by
  unfold writeMem
  refine .updates .refl (fun _ _ h => ?_)
  split
  · exact writeUnit_touches.after h
  · exact .updates h (fun _ _ h => writeWord_touches.after h)

theorem zeroRange_touches {lo hi : Nat} : Touches [.cells, .marks] s (zeroRange lo hi s) :=
  .onCells .refl (zeroRange_wf lo hi s)

theorem zeroScratch_touches {f a1 : Nat} : Touches [.cells, .marks] s (zeroScratch f a1 s) := by
  unfold zeroScratch
  exact zeroRange_touches.widen

theorem zeroGranule_touches {f g : Nat} : Touches [.cells, .marks] s (zeroGranule f g s) := by
  unfold zeroGranule
  exact zeroRange_touches.widen

theorem zeroFrond_touches {f : Nat} : Touches [.cells, .marks] s (zeroFrond f s) := by
  unfold zeroFrond
  exact zeroRange_touches.after zeroRange_touches.widen

/-! ### Seal -/

theorem sealPkt_touches {p : Pkt} : Touches [.dies] s (sealPkt p s).2 := by
  unfold sealPkt
  refine .ite_snd .refl ?_
  split
  · exact .refl
  · exact (onDie_touches).widen

theorem sendSealed_touches {p : Pkt} {o : Origin} : Touches [.dies, .fabric] s (sendSealed p o s) := by
  unfold sendSealed
  exact sendData_touches.after sealPkt_touches.widen

/-! ### RingOps -/

theorem hostRead_touches {k addr len : Nat} {pasid : Option Nat} {translated : Bool} {purpose : ReadFor} :
    Touches [.hostPorts, .out] s (hostRead k addr len pasid translated purpose s) := by
  unfold hostRead
  extract_lets
  split
  · exact .refl
  · exact emit_touches.after onHostPort_touches.widen

theorem atsRead_touches {k va ctx : Nat} {purpose : ReadFor} : Touches [.hostPorts, .out] s (atsRead k va ctx purpose s) := by
  unfold atsRead
  extract_lets
  split
  · exact .refl
  · exact emit_touches.after onHostPort_touches.widen

theorem hostWriteFrom_touches {k : Nat} {data : Bool} {pasid : Option Nat} {translated : Bool} {a1 a2 : Nat} {a3 : List Byte}
    {a4 : List Bool} : Touches [.out] s (hostWriteFrom k data pasid translated a1 a2 a3 a4 s) := by
  induction a1 generalizing k data pasid translated a2 a3 a4 s with
  | zero => exact .refl
  | succ n ih =>
    unfold hostWriteFrom
    exact .ite .refl (ih.after emit_touches.widen)

theorem hostWrite_touches {k addr : Nat} {bytes : List Byte} {bad : List Bool} {data : Bool} {pasid : Option Nat}
    {translated : Bool} : Touches [.out] s (hostWrite k addr bytes bad data pasid translated s) := by
  unfold hostWrite
  exact hostWriteFrom_touches.widen

theorem onStarted_touches {r c : Nat} {f : Started → Started} : Touches [.rings] s (onStarted r c f s) := by
  unfold onStarted
  exact onRing_touches.widen

theorem endStarted_touches {r c status result : Nat} : Touches [.rings] s (endStarted r c status result s) := by
  unfold endStarted
  exact onStarted_touches.widen

theorem ringMessage_touches {r : Nat} : Touches [.fns, .out] s (ringMessage r s) := by
  unfold ringMessage
  exact .ite .refl msix_touches.widen

theorem ringError_touches {r reason : Nat} : Touches [.fns, .journal, .rings, .out] s (ringError r reason s) := by
  unfold ringError
  exact .ite (ringMessage_touches.after (journalFrom_quiet.after (fnEvent_touches.after onRing_touches.widen))) .refl

theorem ringInject_touches {r c : Nat} {p : Pkt} : Touches [.rings, .dies, .fabric] s (ringInject r c p s) := by
  unfold ringInject
  exact .ite (sendSealed_touches.after onStarted_touches.widen) (.ite onStarted_touches.widen (sendSealed_touches.after
      (onStarted_touches.after onRing_touches.widen)))

theorem releaseHeld_touches {r : Nat} : Touches [.rings, .dies, .fabric] s (releaseHeld r s) := by
  unfold releaseHeld
  exact .updates .refl (fun _ _ h => .updates h (fun _ _ h => .ite (ringInject_touches.after (onStarted_touches.after h)) h))

theorem returnToSender_touches {r c : Nat} {dest : Postcode} : Touches [.fns, .rings, .out] s (returnToSender r c dest s) := by
  unfold returnToSender
  split
  · exact .refl
  · exact .ite .refl (fnEvent_touches.after (onRing_touches.after (onStarted_touches.after endStarted_touches.widen)))

theorem receiptArrived_touches {r : Nat} {src : Postcode} : Touches [.rings, .dies, .fabric] s (receiptArrived r src s) := by
  unfold receiptArrived
  refine .ite .refl ?_
  refine releaseHeld_touches.after ?_
  split
  · exact onStarted_touches.after onRing_touches.widen
  · exact onRing_touches.widen

theorem newTag_touches {a1 : TagFor} : Touches [.fabric] s (newTag a1 s).2 :=
  .onFabric (f := fun x => { x with tags := tset x.tags s.fabric.nextTag a1, nextTag := (s.fabric.nextTag + 1) % 2 ^ 48 }) .refl

theorem takeTag_touches {n : Nat} : Touches [.fabric] s (takeTag n s) := by
  unfold takeTag
  exact .onFabric .refl

/-! ### Xlate -/

theorem installLeaf_touches {d : Nat} {l : Leaf} : Touches [.xlat] s (installLeaf d l s) := by
  unfold installLeaf
  exact onUnit_touches.widen

theorem hotCount_touches {d ctx va units : Nat} : Touches [.xlat, .dies] s (hotCount d ctx va units s) := by
  unfold hotCount
  exact .updates .refl (fun _ _ h => .ite h (.ite (countDie_touches.after (onUnit_touches.after h)) (.onXlat h)))

theorem hotSpan_touches {d ctx va len : Nat} : Touches [.xlat, .dies] s (hotSpan d ctx va len s) := by
  unfold hotSpan
  exact .ite .refl (.updates .refl (fun _ _ h => .ite (hotCount_touches.after h) h))

theorem setWalk_touches {d n : Nat} {w : Walk} : Touches [.xlat] s (setWalk d n w s) := by
  unfold setWalk
  exact onUnit_touches.widen

theorem startWalk_touches {d ctx va : Nat} {ats force : Bool} {req : WalkFor} :
    OptTouches [.xlat] s (startWalk d ctx va ats force req s) := by
  unfold startWalk
  extract_lets
  split
  · exact .some setWalk_touches.widen
  · exact .ite .none (.some onUnit_touches.widen)

theorem mirrorTouch_touches {d : Nat} {l : Line} : Touches [.xlat] s (mirrorTouch d l s) := by
  unfold mirrorTouch
  exact onUnit_touches.widen

theorem mirrorDrop_touches {d ctx addr : Nat} : Touches [.xlat] s (mirrorDrop d ctx addr s) := by
  unfold mirrorDrop
  exact onUnit_touches.widen

theorem malformed_touches {ctx level addr : Nat} : Touches [.journal, .post] s (malformed ctx level addr s) := by
  unfold malformed
  exact limited_touches .refl (fun _ h => journal_quiet.after h)

theorem walkAdvance_touches {go : Bool} {a1 a2 a3 : Nat} :
    Touches [.hostPorts, .journal, .post, .xlat, .out] s (walkAdvance go a1 a2 a3 s).1 := by
  induction a1 generalizing go a2 a3 s with
  | zero => exact .refl
  | succ n ih =>
    unfold walkAdvance
    split
    · exact .refl
    · refine .ite_fst .refl ?_
      refine .ite_fst (.ite_fst .refl (.ite_fst .refl (.ite_fst (atsRead_touches.after setWalk_touches.widen)
          (hostRead_touches.after setWalk_touches.widen)))) ?_
      extract_lets
      split
      · exact .ite_fst .refl (.ite_fst .refl (.ite_fst (atsRead_touches.after setWalk_touches.widen)
          (hostRead_touches.after setWalk_touches.widen)))
      · extract_lets
        split
        · exact .ite_fst (.ite_fst (mirrorDrop_touches.after mirrorTouch_touches.widen) (.ite_fst
            (mirrorDrop_touches.after mirrorTouch_touches.widen) (.ite_fst (atsRead_touches.after (setWalk_touches.after
            (mirrorDrop_touches.after mirrorTouch_touches.widen))) (hostRead_touches.after (setWalk_touches.after
            (mirrorDrop_touches.after mirrorTouch_touches.widen)))))) mirrorTouch_touches.widen
        · exact .ite_fst (.ite_fst (.ite_fst (mirrorDrop_touches.after mirrorTouch_touches.widen) (.ite_fst
            (mirrorDrop_touches.after mirrorTouch_touches.widen) (.ite_fst (atsRead_touches.after (setWalk_touches.after
            (mirrorDrop_touches.after mirrorTouch_touches.widen))) (hostRead_touches.after (setWalk_touches.after
            (mirrorDrop_touches.after mirrorTouch_touches.widen)))))) mirrorTouch_touches.widen)
            (malformed_touches.after mirrorTouch_touches.widen)
        · exact ih.after (setWalk_touches.after mirrorTouch_touches.widen)
        · exact mirrorTouch_touches.widen

theorem walkData_touches {d n : Nat} {status : CplStatus} {poison : Bool} {data : List Byte} :
    Touches [.hostPorts, .journal, .post, .xlat, .out] s (walkData d n status poison data s).1 := by
  unfold walkData
  split
  · exact .refl
  · exact .ite_fst onUnit_touches.widen (.ite_fst .refl (.ite_fst .refl (walkAdvance_touches.after
      (mirrorTouch_touches.after setWalk_touches.widen))))

theorem pageFault_touches {r c va : Nat} {write : Bool} : Touches [.fns, .rings, .out] s (pageFault r c va write s) := by
  unfold pageFault
  exact .ite endStarted_touches.widen (.ite .refl (emit_touches.after (onStarted_touches.after onFn_touches.widen)))

theorem dropLeaves_touches {ctx va len : Nat} {atsOnly : Bool} : Touches [.xlat] s (dropLeaves ctx va len atsOnly s) := by
  unfold dropLeaves
  exact .onXlat .refl

theorem dropLines_touches {ctx va len : Nat} {all : Bool} : Touches [.xlat] s (dropLines ctx va len all s) := by
  unfold dropLines
  exact .onXlat .refl

theorem restartWalks_touches {ctx : Nat} : Touches [.xlat] s (restartWalks ctx s) := by
  unfold restartWalks
  refine .updates .refl (fun _ _ h => .updates h (fun _ _ h => .updates (.ite (setWalk_touches.after (.updates h
      (fun _ _ h => mirrorDrop_touches.after h))) (onUnit_touches.after (.updates h (fun _ _ h => mirrorDrop_touches.after h))))
      (fun _ _ h => ?_)))
  split
  · exact (startWalk_touches.of_eq ‹_›).after h
  · exact h

theorem dropPaused_touches {ctx va len : Nat} : Touches [.rings] s (dropPaused ctx va len s) := .of_blend rfl

theorem staleFetched_touches {ctx : Nat} : Touches [.rings] s (staleFetched ctx s) := .of_blend rfl

theorem beginInvalidate_touches {who : InvFor} {ctx va len : Nat} {sync : Bool} :
    Touches [.rings, .xlat] s (beginInvalidate who ctx va len sync s) := by
  unfold beginInvalidate
  refine .updates (.onXlat (.ite (restartWalks_touches.after ?_) (dropPaused_touches.after (staleFetched_touches.after
    (restartWalks_touches.after ?_))))) (fun _ _ h => ?_)
  · exact .ite dropLines_touches.widen (.ite dropLeaves_touches.widen (dropLines_touches.after dropLeaves_touches.widen))
  · exact .ite dropLines_touches.widen (.ite dropLeaves_touches.widen (dropLines_touches.after dropLeaves_touches.widen))
  · split
    · exact (startWalk_touches.of_eq ‹_›).after h
    · exact h

theorem sendInvalidate_touches {m ctx va len : Nat} : Touches [.fabric] s (sendInvalidate m ctx va len s) := by
  unfold sendInvalidate
  exact .updates .refl (fun _ _ h => sendControl_touches.after h)

theorem invalidated_touches {w : InvFor} : Touches [.fns, .lbs, .journal, .fabric, .out] s (invalidated w s) := by
  unfold invalidated
  split
  · exact .ite (.ite (postWaiting_touches.after (.updates .refl (fun _ _ h => sendInvalidate_touches.after h)))
      ((onLb_touches rfl).after (.updates .refl (fun _ _ h => sendInvalidate_touches.after h)))) postWaiting_touches.widen
  · exact sendControl_touches.widen
  · exact emit_touches.widen

theorem settleWaits_touches : Touches [.fns, .lbs, .journal, .xlat, .fabric, .out] s (settleWaits s) := by
  unfold settleWaits
  exact .updates .refl (fun _ _ h => invalidated_touches.after (.onXlat h))

theorem readReturned_touches {token : Nat} : Touches [.fns, .lbs, .journal, .xlat, .fabric, .out] s (readReturned token s) := by
  unfold readReturned
  exact settleWaits_touches.after (.onXlat .refl)

theorem refreshResult_touches {id va ctx : Nat} {e : WalkEnd} :
    Touches [.fns, .lbs, .journal, .pins, .xlat, .fabric, .out] s (refreshResult id va ctx e s) := by
  unfold refreshResult
  exact settleWaits_touches.after (.onXlat .refl)

theorem unpinPage_touches {ctx va : Nat} : Touches [.pins] s (unpinPage ctx va s) := by
  unfold unpinPage
  exact .onXlat .refl

theorem pinFail_touches {lb e : Nat} : Touches [.fns, .lbs, .journal, .pins, .out] s (pinFail lb e s) := by
  unfold pinFail
  exact postWaiting_touches.after ((onLb_touches rfl).after (.updates .refl (fun _ _ h => unpinPage_touches.after h)))

theorem pinNext_touches {lb : Nat} : Touches [.fns, .lbs, .journal, .xlat, .out] s (pinNext lb s) := by
  unfold pinNext
  refine .ite (postWaiting_touches.after ((onLb_touches rfl).widen)) ?_
  split
  · exact (startWalk_touches.of_eq ‹_›).widen
  · exact .refl

theorem pinResult_touches {lb : Nat} {e : WalkEnd} : Touches [.fns, .lbs, .journal, .pins, .xlat, .out] s (pinResult lb e s) := by
  unfold pinResult
  refine .ite .refl ?_
  split
  · exact .ite pinFail_touches.widen (.ite (pinFail_touches.after ((onLb_touches rfl).after (.onXlat .refl))) (pinNext_touches.after
      ((onLb_touches rfl).after (.onXlat .refl))))
  · exact pinFail_touches.widen
  · exact pinFail_touches.widen
  · exact pinFail_touches.widen

/-! ### CopyEngine -/

theorem freshBytes_touches {a1 : Nat} : Touches [.free] s (freshBytes a1 s).2 := by
  induction a1 generalizing s with
  | zero => exact .refl
  | succ n ih =>
    unfold freshBytes
    exact ih.after freshNat_touches.widen

theorem streamOut_touches {key : List Byte} {pc : Postcode} {a1 a2 : Nat} {a3 : List Byte} :
    Touches [.free] s (streamOut key pc a1 a2 a3 s).2 := by
  induction a1 generalizing key pc a2 a3 s with
  | zero => exact .refl
  | succ n ih =>
    unfold streamOut
    exact .ite_snd .refl (ih.after (.ite_snd .refl freshBytes_touches.widen))

theorem copySend_touches {r c : Nat} {p : Pkt} : Touches [.rings, .dies, .fabric] s (copySend r c p s) := by
  unfold copySend
  split
  · exact .refl
  · refine .ite ?_ ringInject_touches.widen
    extract_lets x3_0 x3_1 x3_2
    clear_value x3_1
    split
    · exact ringInject_touches.after onStarted_touches.widen
    · exact onStarted_touches.widen

theorem copyWrite_touches {r c pos : Nat} {pc : Postcode} {off : Nat} {bytes : List Byte} {bad : List Bool} :
    Touches [.rings, .dies, .fabric] s (copyWrite r c pos pc off bytes bad s) := by
  unfold copyWrite
  split
  · exact .refl
  · exact copySend_touches.after onStarted_touches.widen

theorem copyUnitPart_touches {r c pos : Nat} {key : List Byte} {pc : Postcode} {off : Nat} {bytes : List Byte}
    {bad : List Bool} : Touches [.rings, .dies, .fabric, .free] s (copyUnitPart r c pos key pc off bytes bad s) := by
  unfold copyUnitPart
  split
  · exact .refl
  · exact .ite .refl (.ite (copyWrite_touches.after streamOut_touches.widen) (.ite onStarted_touches.widen
      (copyWrite_touches.after onStarted_touches.widen)))

theorem copyStream_touches {r c pos : Nat} {key : List Byte} {pc : Postcode} {off : Nat} {bytes : List Byte} {bad : List Bool} :
    Touches [.rings, .dies, .fabric, .free] s (copyStream r c pos key pc off bytes bad s) := by
  unfold copyStream
  exact copyUnitPart_touches.after (.ite (copyUnitPart_touches.after streamOut_touches.widen) (copyWrite_touches.after
      (copyUnitPart_touches.after streamOut_touches.widen)))

theorem copyDeliver_touches {r c pos : Nat} {src dst : Target} {bytes : List Byte} {bad : List Bool} :
    Touches [.rings, .dies, .fabric, .out, .free] s (copyDeliver r c pos src dst bytes bad s) := by
  unfold copyDeliver
  split
  · exact .refl
  · extract_lets
    split
    · exact .ite (hostWrite_touches.after onStarted_touches.widen) (endStarted_touches.after onStarted_touches.widen)
    · split
      · exact copyStream_touches.after onStarted_touches.widen
      · exact copyWrite_touches.after onStarted_touches.widen

theorem sendLast_touches {r c : Nat} : Touches [.rings, .dies, .fabric] s (sendLast r c s) := by
  unfold sendLast
  split
  · exact .refl
  · exact .updates onStarted_touches.widen (fun _ _ h => ringInject_touches.after h)

theorem copyCheck_touches {r c : Nat} : Touches [.fns, .lbs, .journal, .rings, .xlat, .dies, .fabric, .out] s (copyCheck r c s) := by
  unfold copyCheck
  split
  · exact .refl
  · refine .ite .refl ?_
    extract_lets
    split
    · exact .ite (endStarted_touches.after (settleWaits_touches.after sendLast_touches.widen))
        (settleWaits_touches.after sendLast_touches.widen)
    · exact settleWaits_touches.after sendLast_touches.widen

theorem beginRelay_touches {r c : Nat} : Touches [.rings, .fabric] s (beginRelay r c s) := by
  unfold beginRelay
  split
  · exact .refl
  · exact .ite .refl (onStarted_touches.after (.onFabric .refl))

theorem sendRelay_touches {src target : Postcode} {fr : Frank} {issuer : Postcode}
    {left mode direction off chunk len tally id total : Nat} {previous : Postcode} :
    Touches [.fabric] s (sendRelay src target fr issuer left mode direction off chunk len tally id total previous s) := by
  unfold sendRelay
  exact sendControl_touches.widen

theorem relayCheck_touches {r c : Nat} : Touches [.rings, .dies, .fabric] s (relayCheck r c s) := by
  unfold relayCheck
  split
  · exact .refl
  · split
    · exact .refl
    · split
      · exact .refl
      · refine .ite .refl ?_
        extract_lets
        split
        · exact sendLast_touches.widen
        · exact .ite sendLast_touches.widen (.onFabric (sendRelay_touches.after sendLast_touches.widen))

theorem takeChannel_touches {r c : Nat} : OptTouches [.rings] s (takeChannel r c s) := by
  unfold takeChannel
  split
  · exact .none
  · exact .ite (.some .refl) (.ite .none (.some onStarted_touches.widen))

theorem copyWalk_touches {r c : Nat} {engine : Postcode} {va : Nat} {write : Bool} :
    Touches [.rings, .xlat] s (copyWalk r c engine va write s) := by
  unfold copyWalk
  extract_lets
  split
  · exact onStarted_touches.after ((startWalk_touches.of_eq ‹_›).widen)
  · exact .refl

theorem copyAhead_touches {r c va : Nat} {write : Bool} : Touches [.xlat] s (copyAhead r c va write s) := by
  unfold copyAhead
  split
  · exact .refl
  · extract_lets
    split
    · exact .refl
    · exact .ite .refl (.updates .refl (fun _ _ h => .ite h ((startWalk_touches.after h).getD h)))

/-- What a copy's bytes of a leaf are counted and looked ahead for. -/
theorem copyProgress_touches {n r c : Nat} :
    Touches [.fns, .hostPorts, .lbs, .journal, .rings, .xlat, .dies, .fabric, .out] s (copyProgress n r c s) := by
  induction n generalizing s with
  | zero => exact copyCheck_touches.after relayCheck_touches.widen
  | succ n ih =>
    unfold copyProgress
    split
    · exact .refl
    refine .ite .refl (.ite ?_ ?_)
    · extract_lets u
      have hu : Touches [.fns, .hostPorts, .lbs, .journal, .rings, .xlat, .dies, .fabric, .out] s u := relayCheck_touches.widen
      split
      · exact .ite (ih.after hu) (copyCheck_touches.after hu)
      · exact hu
    · extract_lets
      split
      · exact endStarted_touches.widen
      · exact endStarted_touches.widen
      · exact copyWalk_touches.widen
      · exact pageFault_touches.widen
      · exact copyWalk_touches.widen
      · exact pageFault_touches.widen
      · refine .ite endStarted_touches.widen ?_
        extract_lets moved took
        have hm {w : Bool} {va : Option Nat} {x : State} : Touches [.rings, .xlat, .dies] x (moved w va x) := by
          unfold moved
          split
          · exact .when hotSpan_touches.widen fun _ h => copyAhead_touches.after h
          · exact .refl
        have ht {x : State} : Touches [.rings, .xlat, .dies] x (took x) := hm.after (hm.after onStarted_touches.widen)
        split
        · exact .ite endStarted_touches.widen (.ite .refl (ih.after (ht.after hostRead_touches.widen)))
        · exact ih.after (ht.after (ringInject_touches.after newTag_touches.widen))

theorem copyData_touches {r c pos n : Nat} {src dst : Target} {bytes : List Byte} {bad : List Bool} :
    Touches [.fns, .hostPorts, .lbs, .journal, .rings, .xlat, .dies, .fabric, .out, .free] s (copyData r c pos n src dst bytes bad s) :=
    by
  unfold copyData
  split
  · exact .refl
  · exact .ite .refl (copyProgress_touches.after (copyDeliver_touches.after onStarted_touches.widen))

theorem copyFail_touches {r c status : Nat} : Touches [.rings] s (copyFail r c status s) := by
  unfold copyFail
  exact endStarted_touches.after onStarted_touches.widen

/-! ### Letterbox -/

theorem unreachableFn_touches {k : Nat} : Touches [.out] s (unreachableFn k s) := by
  unfold unreachableFn
  exact .ite emit_touches.widen .refl

theorem barWrite_touches {k : Nat} {f : State → State} (h :
    Touches F s t) (hf : ∀ x, Touches F s x → Touches F s (f x)) (hK : [.out].all F.contains = true := by exact rfl) :
    Touches F s (barWrite k f t) := by
  unfold barWrite
  exact .ite (hf _ h) (.ite h (unreachableFn_touches.within h hK))

theorem badAccess_touches {k : Nat} {write : Bool} : Touches [.hostPorts, .journal, .out] s (badAccess k write s) := by
  unfold badAccess
  exact .ite .refl (.ite (.when aer_touches.widen (fun _ h => emit_touches.after h)) unreachableFn_touches.widen)

theorem lbOverrun_touches {lb : Nat} : Touches [.lbs] s (lbOverrun lb s) := by
  unfold lbOverrun
  exact (onLb_touches rfl).widen

theorem doorbell_touches {lb value : Nat} : Touches [.lbs, .post] s (doorbell lb value s) := by
  unfold doorbell
  exact .ite .refl (.ite ((onLb_touches rfl).after (.onPost .refl)) lbOverrun_touches.widen)

theorem onLetterbox_touches {lb : Nat} {f : State → State} (h :
    Touches F s t) (hf : ∀ x, Touches F s x → Touches F s (f x)) (hK : [.out].all F.contains = true := by exact rfl) :
    Runs F s (onLetterbox lb f t) := by
  unfold onLetterbox
  exact .ite (.next (barWrite_touches h hf hK)) (.next h)

theorem execLbDoorbell_touches {lb value : Nat} : Runs [.lbs, .post, .out] s (execLbDoorbell lb value s) := by
  unfold execLbDoorbell
  exact onLetterbox_touches .refl (fun _ h => doorbell_touches.after h)

theorem execLbAbort_touches {lb value : Nat} :
    Runs [.power, .time, .fns, .lbs, .journal, .rings, .disc, .out] s (execLbAbort lb value s) := by
  unfold execLbAbort
  exact onLetterbox_touches .refl (fun _ h => .ite (abortCommand_touches.after h) h)

theorem resultClear_touches {lb value : Nat} {hwSet : Bool} : Touches [.lbs] s (resultClear lb value hwSet s) := by
  unfold resultClear
  exact (onLb_touches rfl).widen

theorem execLbResultClear_touches {lb value : Nat} {hwSet : Bool} : Runs [.lbs, .out] s (execLbResultClear lb value hwSet s) := by
  unfold execLbResultClear
  exact onLetterbox_touches .refl (fun _ h => resultClear_touches.after h)

theorem frameWrite_touches {lb offset size value : Nat} : Touches [.lbs, .frames] s (frameWrite lb offset size value s) := by
  unfold frameWrite
  exact .ite onLb_touches_frames.widen lbOverrun_touches.widen

theorem execLbFrameWrite_touches {lb offset size value : Nat} :
    Runs [.hostPorts, .lbs, .frames, .journal, .out] s (execLbFrameWrite lb offset size value s) := by
  unfold execLbFrameWrite
  exact .ite (onLetterbox_touches .refl (fun _ h => frameWrite_touches.after h)) (.ite (.next .refl) (.ite
      (.next badAccess_touches.widen) (.next .refl)))

theorem execCommandStart_touches {lb : Nat} : Runs [.fns, .lbs, .frames, .out] s (execCommandStart lb s) := by
  unfold execCommandStart
  exact .ite (.next commandStart_touches.widen) (.next .refl)

/-! ### RingEngine -/

theorem ringRestate_touches {r : Nat} : Touches [.rings] s (ringRestate r s) := by
  unfold ringRestate
  exact .ite onRing_touches.widen .refl

theorem ringDoorbell_touches {r value : Nat} : Touches [.journal, .rings] s (ringDoorbell r value s) := by
  unfold ringDoorbell
  exact .ite .refl (.ite (ringRestate_touches.after onRing_touches.widen) (journalFrom_quiet.after onRing_touches.widen))

theorem onRingPage_touches {port fn page : Nat} {f : Nat → State → State} (h :
    Touches F s t) (hf : ∀ a x, Touches F s x → Touches F s (f a x)) (hK : [.out].all F.contains = true := by exact rfl) :
    Runs F s (onRingPage port fn page f t) := by
  unfold onRingPage
  refine .ite (.next h) ?_
  refine .next (barWrite_touches h (fun _ h => ?_) hK)
  split
  · exact hf _ _ h
  · exact h

theorem execRingDoorbell_touches {port fn page value : Nat} :
    Runs [.journal, .rings, .out] s (execRingDoorbell port fn page value s) := by
  unfold execRingDoorbell
  exact onRingPage_touches .refl (fun _ _ h => ringDoorbell_touches.after h)

theorem cqConsume_touches {r value : Nat} : Touches [.rings] s (cqConsume r value s) := by
  unfold cqConsume
  exact .ite (ringRestate_touches.after onRing_touches.widen) .refl

theorem execRingCqConsumed_touches {port fn page value : Nat} : Runs [.rings, .out] s (execRingCqConsumed port fn page value s) := by
  unfold execRingCqConsumed
  exact onRingPage_touches .refl (fun _ _ h => cqConsume_touches.after h)

theorem noDiag_touches {f : State → State} (h : Touches F s t) (hf : ∀ x, Touches F s x → Touches F s (f x)) :
    Touches F s (noDiag f t) := by
  unfold noDiag
  exact .ite h (hf _ h)

theorem execIntEventVector_touches {port fn value : Nat} : Runs [.fns, .out] s (execIntEventVector port fn value s) := by
  unfold execIntEventVector
  exact .ite (.next .refl) (.next (barWrite_touches .refl (fun _ h => noDiag_touches h (fun _ h => onFn_touches.after h))))

theorem execIntSelect_touches {port fn value : Nat} : Runs [.fns, .out] s (execIntSelect port fn value s) := by
  unfold execIntSelect
  exact .ite (.next .refl) (.next (barWrite_touches .refl (fun _ h => noDiag_touches h (fun _ h => onFn_touches.after h))))

theorem msixWrite_touches {k v : Nat} {field : MsixField} {value : Nat} : Touches [.fns, .out] s (msixWrite k v field value s) := by
  unfold msixWrite
  exact msixFlush_touches.after onFn_touches.widen

theorem execMsixTableWrite_touches {port fn vector : Nat} {field : MsixField} {value : Nat} :
    Runs [.fns, .out] s (execMsixTableWrite port fn vector field value s) := by
  unfold execMsixTableWrite
  exact .ite (.next .refl) (.ite (.next .refl) (.next (barWrite_touches .refl (fun _ h => noDiag_touches h
      (fun _ h => msixWrite_touches.after h)))))

theorem ringWalk_touches {r va : Nat} {q : WalkFor} : OptTouches [.xlat] s (ringWalk r va q s) := by
  unfold ringWalk
  exact startWalk_touches.widen

theorem descriptorFetch_touches {r : Nat} :
    Touches [.fns, .hostPorts, .journal, .rings, .xlat, .dies, .fabric, .out] s (descriptorFetch r s) := by
  unfold descriptorFetch
  refine .ite .refl ?_
  extract_lets
  split
  · split
    · exact onRing_touches.after ((ringWalk_touches.of_eq ‹_›).widen)
    · exact .refl
  · exact ringError_touches.widen
  · split
    · exact .ite .refl (hostRead_touches.after (onRing_touches.after hotSpan_touches.widen))
    · exact .ite .refl (sendSealed_touches.after (onRing_touches.after (hotSpan_touches.after newTag_touches.widen)))

theorem execDescriptorFetch_touches {ring : Nat} :
    Runs [.fns, .hostPorts, .journal, .rings, .xlat, .dies, .fabric, .out] s (execDescriptorFetch ring s) := by
  unfold execDescriptorFetch
  exact .ite (.next descriptorFetch_touches.widen) (.next .refl)

theorem onFetched_touches {r c : Nat} {f : Fetched → Fetched} : Touches [.rings] s (onFetched r c f s) := by
  unfold onFetched
  exact onRing_touches.widen

theorem fetchTranslate_touches {a1 a2 a3 : Nat} : Touches [.rings, .xlat] s (fetchTranslate a1 a2 a3 s) := by
  induction a1 generalizing a2 a3 s with
  | zero => exact .refl
  | succ n ih =>
    unfold fetchTranslate
    split
    · exact .refl
    · split
      · exact .refl
      · extract_lets
        split
        · exact ih.after onFetched_touches.widen
        · refine .ite (ih.after onFetched_touches.widen) ?_
          split
          · exact onFetched_touches.after ((startWalk_touches.of_eq ‹_›).widen)
          · exact .refl

theorem aheadAnswer_touches {r c va : Nat} {e : WalkEnd} : Touches [.rings, .xlat] s (aheadAnswer r c va e s) := by
  unfold aheadAnswer
  extract_lets
  split
  · exact fetchTranslate_touches.after onFetched_touches.widen
  · split
    · exact .ite (fetchTranslate_touches.after (onFetched_touches.after onFetched_touches.widen))
        (fetchTranslate_touches.after onFetched_touches.widen)
    · exact onFetched_touches.widen
  · exact onFetched_touches.after onFetched_touches.widen
  · exact onFetched_touches.widen

theorem fetchData_touches {r first n : Nat} {ok : Bool} {bytes : List Byte} :
    Touches [.fns, .journal, .rings, .xlat, .out] s (fetchData r first n ok bytes s) := by
  unfold fetchData
  exact .ite .refl (.ite onRing_touches.widen (.ite (ringError_touches.after onRing_touches.widen) (.updates
      (onRing_touches.after onRing_touches.widen) (fun _ _ h => fetchTranslate_touches.after h))))

theorem startFetched_touches {r : Nat} {f : Fetched} {rest : List Fetched} : Touches [.host, .rings] s (startFetched r f rest s) := by
  unfold startFetched
  exact .onHost onRing_touches.widen

theorem descriptorStart_touches {r : Nat} : Touches [.host, .rings, .xlat] s (descriptorStart r s) := by
  unfold descriptorStart
  extract_lets u
  have hu : Touches [.host, .rings, .xlat] s u := by
    unfold u
    split
    · exact fetchTranslate_touches.widen
    · exact .refl
  split
  · exact hu
  · exact .ite (startFetched_touches.after hu) hu

theorem execDescriptorStart_touches {ring : Nat} : Runs [.host, .rings, .xlat] s (execDescriptorStart ring s) := by
  unfold execDescriptorStart
  exact .ite (.next descriptorStart_touches.widen) (.next .refl)

theorem stopCheck_touches {r : Nat} : Touches [.fns, .lbs, .journal, .rings, .out] s (stopCheck r s) := by
  unfold stopCheck
  extract_lets
  split
  · exact .ite (postWaiting_touches.after onRing_touches.widen) .refl
  · exact .refl

theorem moderate_touches {r : Nat} {now : Bool} : Touches [.fns, .rings, .out] s (moderate r now s) := by
  unfold moderate
  exact .ite (ringMessage_touches.after onRing_touches.widen) onRing_touches.widen

theorem writeArray_touches {r : Nat} {bytes : List Byte} {now : Bool} :
    OptTouches [.fns, .rings, .xlat, .dies, .fabric, .out] s (writeArray r bytes now s) := by
  unfold writeArray
  extract_lets
  split
  · exact .some (moderate_touches.after (onRing_touches.after (hotSpan_touches.after hostWrite_touches.widen)))
  · exact .some (moderate_touches.after (onRing_touches.after (hotSpan_touches.after sendSealed_touches.widen)))
  · exact .none

theorem writeEntry_touches {r : Nat} {bytes : List Byte} {now : Bool} :
    OptTouches [.fns, .rings, .xlat, .dies, .fabric, .cells, .marks, .out] s (writeEntry r bytes now s) := by
  unfold writeEntry
  exact .ite (.some (.onCells onRing_touches.widen (putBytes_wf _ _ _))) writeArray_touches.widen

theorem descriptorSettle_touches {r : Nat} :
    Touches [.fns, .lbs, .journal, .rings, .xlat, .dies, .fabric, .cells, .marks, .out] s (descriptorSettle r s) := by
  unfold descriptorSettle
  extract_lets
  split
  · exact .refl
  · split
    · exact .refl
    · refine .ite .refl ?_
      refine .ite (stopCheck_touches.after onRing_touches.widen) ?_
      refine .ite .refl ?_
      refine .ite (.ite onRing_touches.widen .refl) ?_
      split
      · exact stopCheck_touches.after (onRing_touches.after ((writeEntry_touches.of_eq ‹_›).widen))
      · split
        · exact ringError_touches.widen
        · split
          · exact (ringWalk_touches.of_eq ‹_›).widen
          · exact .refl

theorem execDescriptorSettle_touches {ring : Nat} :
    Runs [.fns, .lbs, .journal, .rings, .xlat, .dies, .fabric, .cells, .marks, .out] s (execDescriptorSettle ring s) := by
  unfold execDescriptorSettle
  exact .ite (.next (settleWaits_touches.after (stopCheck_touches.after descriptorSettle_touches.widen))) (.next .refl)

theorem settleAll_touches {r a1 : Nat} :
    Touches [.fns, .lbs, .journal, .rings, .xlat, .dies, .fabric, .cells, .marks, .out] s (settleAll r a1 s) := by
  induction a1 generalizing r s with
  | zero => exact .refl
  | succ n ih =>
    unfold settleAll
    exact ih.after descriptorSettle_touches.widen

theorem execRingError_touches {ring reason : Nat} : Runs [.fns, .journal, .rings, .out] s (execRingError ring reason s) := by
  unfold execRingError
  exact .ite (.next .refl) (.ite (.next ringError_touches.widen) (.next .refl))

theorem moderationTimer_touches {r : Nat} : Touches [.fns, .rings, .out] s (moderationTimer r s) := by
  unfold moderationTimer
  exact .ite (ringMessage_touches.after onRing_touches.widen) .refl

theorem execModerationTimer_touches {ring : Nat} : Runs [.fns, .rings, .out] s (execModerationTimer ring s) := by
  unfold execModerationTimer
  exact .ite (.next moderationTimer_touches.widen) (.next .refl)

/-! ### Target -/

theorem rewriteStores_touches {d lock : Nat} : Touches [.dies] s (rewriteStores d lock s) := by
  unfold rewriteStores
  exact (onDie_touches).widen

theorem noteRefusal_touches {d lock : Nat} {fr : Frank} : Touches [.journal, .post, .dies] s (noteRefusal d lock fr s) := by
  unfold noteRefusal
  exact rewriteStores_touches.after (limited_touches countDie_touches.widen (fun _ h => journalFrom_quiet.after h))

theorem refuse_touches {p : Pkt} {lock : Nat} : Touches [.journal, .post, .dies, .fabric] s (refuse p lock s) := by
  unfold refuse
  exact sendControl_touches.after noteRefusal_touches.widen

theorem endWait_touches {r c status : Nat} : Touches [.rings] s (endWait r c status s) := by
  unfold endWait
  split
  · exact .refl
  · exact .ite .refl onStarted_touches.widen

theorem tallyLook_touches {r c : Nat} : Touches [.journal, .rings] s (tallyLook r c s) := by
  unfold tallyLook
  split
  · exact .refl
  · exact .ite .refl (.ite (endWait_touches.after journalRule_quiet.widen) (.ite endWait_touches.widen .refl))

theorem tallyLooks_touches {die a1 : Nat} : Touches [.journal, .rings] s (tallyLooks die a1 s) := by
  unfold tallyLooks
  exact .updates .refl (fun _ _ h => .updates h (fun _ _ h => tallyLook_touches.after h))

theorem tallyAdd_touches {die a1 bytes : Nat} : Touches [.journal, .rings, .dies] s (tallyAdd die a1 bytes s) := by
  unfold tallyAdd
  exact .ite .refl (tallyLooks_touches.after (onDie_touches).widen)

theorem tallySet_touches {die a1 bytes packets : Nat} : Touches [.journal, .rings, .dies] s (tallySet die a1 bytes packets s) := by
  unfold tallySet
  exact tallyLooks_touches.after (onDie_touches).widen

theorem settleRun_touches {d : Nat} {p : Pkt} : Touches [.dies] s (settleRun d p s) := by
  unfold settleRun
  refine .ite .refl ?_
  refine .ite (onDie_touches).widen ?_
  split
  · exact (onDie_touches).widen
  · exact (onDie_touches).after (.ite countDie_touches.widen .refl)

theorem atomicPerform_touches {p : Pkt} : Touches [.journal, .dies, .cells, .marks] s (atomicPerform p s).2.2 := by
  unfold atomicPerform
  exact .ite_snd_snd .refl (.ite_snd_snd (countEcc_touches.after (.updates .refl (fun _ _ h => senseWord_touches.after h)))
      (writeMem_touches.after (.updates .refl (fun _ _ h => senseWord_touches.after h))))

/-! ### Descriptors -/

theorem readPieces_touches {frond : Nat} {fr : Frank} {a1 : List (Target × Nat)} :
    Touches [.journal, .post, .dies, .marks] s (readPieces frond fr a1 s).2 := by
  induction a1 generalizing frond fr s with
  | nil => exact .refl
  | cons e rest ih =>
    unfold readPieces
    split
    · exact .refl
    · refine .ite_snd .refl ?_
      split
      · exact noteRefusal_touches.widen
      · extract_lets
        split <;> exact ih.after readMem_touches.widen

theorem readSource_touches {frond : Nat} {fr : Frank} {look : Nat → Option Leaf} {a : Addr} {len : Nat} :
    Touches [.journal, .post, .dies, .marks] s (readSource frond fr look a len s).2 := by
  unfold readSource
  split
  · exact .refl
  · extract_lets
    split
    · exact readPieces_touches.widen
    · exact .ite_snd readPieces_touches.widen readPieces_touches.widen

theorem descCount_touches {r : Nat} {engine : Postcode} {a : Addr} {len : Nat} :
    Touches [.xlat, .dies] s (descCount r engine a len s) := by
  unfold descCount
  exact .ite .refl hotSpan_touches.widen

theorem noteSent_touches {r c : Nat} {pc : Postcode} {off pos : Nat} : Touches [.rings] s (noteSent r c pc off pos s) := by
  unfold noteSent
  exact onStarted_touches.widen

theorem sendBytes_touches {r c : Nat} {engine pc : Postcode} {tally a1 a2 a3 : Nat} {a4 : List Byte} :
    Touches [.rings, .dies, .fabric] s (sendBytes r c engine pc tally a1 a2 a3 a4 s) := by
  induction a1 generalizing r c engine pc tally a2 a3 a4 s with
  | zero => exact .refl
  | succ n ih =>
    unfold sendBytes
    exact .ite .refl (ih.after (copySend_touches.after noteSent_touches.widen))

theorem sendPieces_touches {r c : Nat} {engine : Postcode} {tally a1 : Nat} {a2 : List (Target × Nat)} {a3 : List Byte} :
    Touches [.rings, .dies, .fabric, .out] s (sendPieces r c engine tally a1 a2 a3 s) := by
  induction a2 generalizing r c engine tally a1 a3 s with
  | nil => exact .refl
  | cons e rest ih =>
    unfold sendPieces
    refine ih.after ?_
    split
    · exact .ite hostWrite_touches.widen endStarted_touches.widen
    · exact sendBytes_touches.widen

theorem otherCheck_touches {r c : Nat} : Touches [.rings, .dies, .fabric] s (otherCheck r c s) := by
  unfold otherCheck
  split
  · exact .refl
  · refine .ite .refl ?_
    extract_lets
    split
    · exact .ite (endStarted_touches.after sendLast_touches.widen) sendLast_touches.widen
    · exact sendLast_touches.widen

theorem descProgress_touches {r c : Nat} :
    Touches [.fns, .hostPorts, .lbs, .journal, .rings, .xlat, .dies, .fabric, .out] s (descProgress r c s) := by
  unfold descProgress
  split
  · exact .refl
  · refine .ite .refl ?_
    split
    · exact .ite copyProgress_touches.widen .refl
    · exact otherCheck_touches.widen
    · exact otherCheck_touches.widen
    · exact otherCheck_touches.widen
    · exact .refl

theorem ringProgress_touches {r : Nat} :
    Touches [.fns, .hostPorts, .lbs, .journal, .rings, .xlat, .dies, .fabric, .out] s (ringProgress r s) := by
  unfold ringProgress
  exact .updates .refl (fun _ _ h => descProgress_touches.after h)

theorem onDesc_touches {ring count ty : Nat} {f : Started → State → State} (h :
    Touches F s t) (hf : ∀ a x, Touches F s x → Touches F s (f a x)) :
    Runs F s (onDesc ring count ty f t) := by
  unfold onDesc
  refine .ite (.next h) ?_
  split
  · exact .ite (.next (hf _ _ h)) (.next h)
  · exact .next h

theorem execNopDescriptor_touches {ring count : Nat} : Runs [.rings] s (execNopDescriptor ring count s) := by
  unfold execNopDescriptor
  exact onDesc_touches .refl (fun _ _ h => endStarted_touches.after h)

theorem copyRun_touches {r c : Nat} :
    Touches [.fns, .hostPorts, .lbs, .journal, .rings, .xlat, .dies, .fabric, .out] s (copyRun r c s) := by
  unfold copyRun
  split
  · exact .refl
  · exact copyProgress_touches.after (beginRelay_touches.after ((takeChannel_touches.of_eq ‹_›).widen))

theorem placeWalk_touches {r c : Nat} {a : Addr} {write : Bool} : Touches [.rings, .xlat] s (placeWalk r c a write s) := by
  unfold placeWalk
  split
  · exact onStarted_touches.after ((startWalk_touches.of_eq ‹_›).widen)
  · exact .refl

theorem copyStep_touches {r c : Nat} :
    Touches [.fns, .hostPorts, .lbs, .journal, .rings, .xlat, .dies, .fabric, .out] s (copyStep r c s) := by
  unfold copyStep
  split
  · exact .refl
  · refine .ite .refl ?_
    refine .ite copyRun_touches.widen ?_
    split
    · exact copyRun_touches.after onStarted_touches.widen
    · exact .ite placeWalk_touches.widen placeWalk_touches.widen

theorem execCopy_touches {ring count : Nat} :
    Runs [.fns, .hostPorts, .lbs, .journal, .rings, .xlat, .dies, .fabric, .out] s (execCopy ring count s) := by
  unfold execCopy
  exact onDesc_touches .refl (fun _ _ h => copyStep_touches.after h)

theorem atomicStep_touches {r : Nat} {d : Started} : Touches [.rings, .xlat, .dies, .fabric] s (atomicStep r d s) := by
  unfold atomicStep
  refine .ite .refl ?_
  split
  · exact endStarted_touches.widen
  · exact otherCheck_touches.after (ringInject_touches.after (descCount_touches.after (onStarted_touches.after newTag_touches.widen)))

theorem execAtomic_touches {ring count : Nat} : Runs [.rings, .xlat, .dies, .fabric] s (execAtomic ring count s) := by
  unfold execAtomic
  exact onDesc_touches .refl (fun _ _ h => atomicStep_touches.after h)

theorem spectralStep_touches {r : Nat} {d : Started} :
    Touches [.journal, .post, .rings, .xlat, .dies, .fabric, .marks, .out] s (spectralStep r d s) := by
  unfold spectralStep
  refine .ite .refl ?_
  extract_lets
  split
  · exact endStarted_touches.widen
  · refine .ite (endStarted_touches.after (journalRule_quiet.after (onDie_touches).widen)) ?_
    extract_lets
    split
    · exact endStarted_touches.after ((readSource_touches.snd_of_eq ‹_›).widen)
    · split
      · exact endStarted_touches.after ((readSource_touches.snd_of_eq ‹_›).widen)
      · exact .ite (endStarted_touches.after ((readSource_touches.snd_of_eq ‹_›).widen)) (otherCheck_touches.after
          (sendPieces_touches.after (descCount_touches.after (descCount_touches.after (onStarted_touches.after
          ((readSource_touches.snd_of_eq ‹_›).widen))))))

theorem execSpectral_touches {ring count : Nat} :
    Runs [.journal, .post, .rings, .xlat, .dies, .fabric, .marks, .out] s (execSpectral ring count s) := by
  unfold execSpectral
  exact onDesc_touches .refl (fun _ _ h => spectralStep_touches.after h)

theorem execTallyWait_touches {ring count : Nat} : Runs [.journal, .rings] s (execTallyWait ring count s) := by
  unfold execTallyWait
  exact onDesc_touches .refl (fun _ _ h => tallyLook_touches.after (onStarted_touches.after h))

theorem execTallyWaitTimeout_touches {ring count : Nat} : Runs [.rings] s (execTallyWaitTimeout ring count s) := by
  unfold execTallyWaitTimeout
  exact onDesc_touches .refl (fun _ _ h => .ite (endWait_touches.after h) h)

theorem tallySetStep_touches {r : Nat} {d : Started} : Touches [.rings, .fabric] s (tallySetStep r d s) := by
  unfold tallySetStep
  exact .ite .refl (sendControl_touches.after onStarted_touches.widen)

theorem execTallySet_touches {ring count : Nat} : Runs [.rings, .fabric] s (execTallySet ring count s) := by
  unfold execTallySet
  exact onDesc_touches .refl (fun _ _ h => tallySetStep_touches.after h)

theorem execTallySetTimeout_touches {ring count : Nat} : Runs [.fns, .rings, .out] s (execTallySetTimeout ring count s) := by
  unfold execTallySetTimeout
  exact onDesc_touches .refl (fun _ _ h => .ite (returnToSender_touches.after h) h)

theorem onUnsettled_touches {ring count : Nat} {f : Started → State → State} (h :
    Touches F s t) (hf : ∀ a x, Touches F s x → Touches F s (f a x)) :
    Runs F s (onUnsettled ring count f t) := by
  unfold onUnsettled
  refine .ite (.next h) ?_
  split
  · exact .ite (.next (hf _ _ h)) (.next h)
  · exact .next h

theorem execReceiptTimeout_touches {ring count : Nat} : Runs [.fns, .rings, .out] s (execReceiptTimeout ring count s) := by
  unfold execReceiptTimeout
  refine onUnsettled_touches .refl (fun _ _ h => ?_)
  split
  · exact returnToSender_touches.after h
  · exact h

theorem execUnreachableTimeout_touches {ring count : Nat} : Runs [.fns, .rings, .out] s (execUnreachableTimeout ring count s) := by
  unfold execUnreachableTimeout
  refine onUnsettled_touches .refl (fun _ _ h => ?_)
  split
  · exact returnToSender_touches.after h
  · exact h

theorem execRelayTimeout_touches {ring count : Nat} : Runs [.fns, .rings, .fabric, .out] s (execRelayTimeout ring count s) := by
  unfold execRelayTimeout
  refine onDesc_touches .refl (fun _ _ h => ?_)
  split
  · split
    · exact returnToSender_touches.after (.onFabric h)
    · exact h
  · exact h

theorem execStewardSubmit_touches {core array : Nat} {descriptor : List Byte} :
    Runs [.rings, .res] s (execStewardSubmit core array descriptor s) := by
  unfold execStewardSubmit
  refine .ite (.next .refl) ?_
  split
  · exact .next .refl
  · exact .ite (.next .refl) (.next (onSteward_touches.after onRing_touches.widen))

/-! ### Launches -/

theorem askPiece_touches {i : Image} {p : Ph} {record pos : Nat} {tag : TagFor} :
    Touches [.dies, .fabric] s (askPiece i p record pos tag s) := by
  unfold askPiece
  extract_lets
  split
  · exact sendSealed_touches.after newTag_touches.widen
  · exact .refl

theorem loadAsk_touches {a1 record : Nat} : Touches [.dies, .fabric, .phs] s (loadAsk a1 record s) := by
  unfold loadAsk
  split
  · exact .refl
  · split
    · split
      · exact askPiece_touches.after onPh_touches.widen
      · exact onPh_touches.widen
    · exact .refl

theorem streamAsk_touches {l record : Nat} : Touches [.dies, .fabric, .launches] s (streamAsk l record s) := by
  unfold streamAsk
  split
  · exact .refl
  · split
    · exact .refl
    · split
      · exact .refl
      · extract_lets
        split
        · exact askPiece_touches.after onLaunch_touches.widen
        · exact .refl

theorem channel7_touches {engine : Postcode} : Touches [.dies, .fabric, .launches, .phs] s (channel7 engine s) := by
  unfold channel7
  refine .ite .refl ?_
  split
  · exact loadAsk_touches.widen
  · exact streamAsk_touches.widen
  · exact .refl

theorem channels7_touches : Touches [.dies, .fabric, .launches, .phs] s (channels7 s) := by
  unfold channels7
  exact .updates .refl (fun _ _ h => channel7_touches.after h)

theorem endLaunch_touches {l status result : Nat} :
    Touches [.rings, .dies, .fabric, .launches, .phs] s (endLaunch l status result s) := by
  unfold endLaunch
  split
  · exact .refl
  · exact endStarted_touches.after (.when (.onRes .refl) (fun _ h => channels7_touches.after h))

theorem scrambleBytes_touches {key n : Nat} : Touches [.cells, .marks, .free] s (scrambleBytes key n s) := by
  unfold scrambleBytes
  exact .onCells freshBytes_touches.widen (putBytes_wf _ _ _)

theorem scrambleRegions_touches {x : Launch} : Touches [.cells, .marks, .free] s (scrambleRegions x s) := by
  unfold scrambleRegions
  split
  · exact .refl
  · split
    · exact .refl
    · refine .updates .refl (fun _ _ h => ?_)
      refine .ite h ?_
      refine .ite (.updates h (fun _ _ h => scrambleBytes_touches.after h)) ?_
      refine .updates h (fun _ _ h => ?_)
      split
      · exact scrambleBytes_touches.after h
      · exact h

theorem faultLaunch_touches {l tile code : Nat} :
    Touches [.journal, .rings, .dies, .fabric, .cells, .marks, .launches, .phs, .free] s (faultLaunch l tile code s) := by
  unfold faultLaunch
  split
  · exact .refl
  · exact .ite .refl (endLaunch_touches.after (journalFrom_quiet.after (.when scrambleRegions_touches.widen
      (fun _ h => (onDie_touches).after h))))

theorem stopLaunches_touches {a1 : Nat} {q : Launch → Bool} :
    Touches [.journal, .rings, .dies, .fabric, .cells, .marks, .launches, .phs, .free] s (stopLaunches a1 q s).2 := by
  unfold stopLaunches
  exact .updates .refl (fun _ _ h => faultLaunch_touches.after h)

theorem dropQueued_touches {a1 : Nat} : Touches [.rings, .dies, .fabric, .launches, .phs] s (dropQueued a1 s) := by
  unfold dropQueued
  exact .updates .refl (fun _ _ h => endLaunch_touches.after h)

theorem returnLaunches_touches {a1 : Nat} {q : Launch → Bool} {pc : Postcode} :
    Touches [.rings, .dies, .fabric, .launches, .phs] s (returnLaunches a1 q pc s) := by
  unfold returnLaunches
  exact .updates .refl (fun _ _ h => endLaunch_touches.after h)

theorem launchCheck_touches {l : Nat} : Touches [.rings, .dies, .fabric, .launches, .phs] s (launchCheck l s) := by
  unfold launchCheck
  split
  · exact .refl
  · exact .ite endLaunch_touches.widen .refl

theorem argsNext_touches {l : Nat} : Touches [.hostPorts, .rings, .xlat, .dies, .fabric, .launches, .phs, .out] s (argsNext l s) := by
  unfold argsNext
  split
  · exact .refl
  refine .ite .refl (.ite onLaunch_touches.widen ?_)
  extract_lets a left k g ask
  have ha {t : Target} {room : Nat} {va : Option Nat} :
      Touches [.hostPorts, .rings, .xlat, .dies, .fabric, .launches, .phs, .out] s (ask t room va) := by
    have ht {n : Nat} {x : State} {r c : Nat} :
        Touches [.xlat, .dies] x (match va with | some va => hotSpan r c va n x | none => x) := by
      split
      · exact hotSpan_touches
      · exact .refl
    unfold ask
    rcases t with ⟨h, tr⟩ | ⟨pc, off⟩
    · exact .ite (hostRead_touches.after ht.widen) .refl
    · exact sendSealed_touches.after (ht.after newTag_touches.widen)
  clear_value ask
  refine .ite ha ?_
  extract_lets
  split
  · split
    · exact (ringWalk_touches.of_eq ‹_›).widen
    · exact .refl
  · exact endLaunch_touches.widen
  · exact ha

theorem argsData_touches {l : Nat} {bytes : List Byte} {bad : Bool} :
    Touches [.hostPorts, .rings, .xlat, .dies, .fabric, .launches, .phs, .out] s (argsData l bytes bad s) := by
  unfold argsData
  split
  · exact .refl
  · exact .ite endLaunch_touches.widen (argsNext_touches.after onLaunch_touches.widen)

theorem launchStep_touches {r : Nat} {d : Started} :
    Touches [.hostPorts, .rings, .xlat, .dies, .fabric, .launches, .phs, .res, .out] s (launchStep r d s) := by
  unfold launchStep
  refine .ite .refl ?_
  split
  · exact endStarted_touches.widen
  · refine .ite endStarted_touches.widen ?_
    refine .ite endStarted_touches.widen ?_
    split
    · exact endStarted_touches.widen
    · split
      · exact endStarted_touches.widen
      · exact .ite endStarted_touches.widen (argsNext_touches.after (onStarted_touches.after (.onRes .refl)))

theorem execLaunch_touches {ring count : Nat} :
    Runs [.hostPorts, .rings, .xlat, .dies, .fabric, .launches, .phs, .res, .out] s (execLaunch ring count s) := by
  unfold execLaunch
  exact onDesc_touches .refl (fun _ _ h => launchStep_touches.after h)

theorem launchGrant_touches {a1 l : Nat} :
    Touches [.journal, .dies, .fabric, .cells, .marks, .launches, .phs] s (launchGrant a1 l s) := by
  unfold launchGrant
  split
  · exact .refl
  · refine .ite .refl ?_
    split
    · exact .refl
    · split
      · exact .refl
      · exact .when (onLaunch_touches.after (.updates .refl (fun _ _ h => .updates h (fun _ _ h => writeMem_touches.after h))))
          (fun _ h => channels7_touches.after h)

theorem execLaunchGrant_touches {pigeonhole launch : Nat} :
    Runs [.journal, .dies, .fabric, .cells, .marks, .launches, .phs] s (execLaunchGrant pigeonhole launch s) := by
  unfold execLaunchGrant
  exact .ite (.next .refl) (.next launchGrant_touches.widen)

theorem streamData_touches {l record pos : Nat} {bytes : List Byte} {bad : List Bool} :
    Touches [.dies, .fabric, .launches, .phs] s (streamData l record pos bytes bad s) := by
  unfold streamData
  split
  · exact .refl
  · split
    · exact .refl
    · split
      · exact .refl
      · split
        · exact .ite (channel7_touches.after (onLaunch_touches.after (sendSealed_touches.after onLaunch_touches.widen))) (.ite
            (streamAsk_touches.after (sendSealed_touches.after onLaunch_touches.widen)) (channels7_touches.after
            (sendSealed_touches.after onLaunch_touches.widen)))
        · exact .refl

theorem execStreamReadTimeout_touches {launch : Nat} :
    Runs [.fns, .rings, .dies, .fabric, .launches, .phs, .out] s (execStreamReadTimeout launch s) := by
  unfold execStreamReadTimeout
  refine .next ?_
  split
  · exact .refl
  · refine .ite .refl ?_
    split
    · exact .refl
    · exact channels7_touches.after (returnToSender_touches.after (.onRes .refl))

theorem tileAccess_touches {f a1 : Nat} {write : Bool} {off : Nat} {bytes : List Byte} :
    Touches [.journal, .rings, .dies, .fabric, .cells, .marks, .launches, .phs, .free] s (tileAccess f a1 write off bytes s) := by
  unfold tileAccess
  split
  · exact .refl
  · exact .ite faultLaunch_touches.widen (.ite (.ite faultLaunch_touches.widen writeMem_touches.widen) (.ite
      (faultLaunch_touches.after readMem_touches.widen) readMem_touches.widen))

theorem execTileCoreAccess_touches {frond tile : Nat} {write : Bool} {offset : Nat} {bytes : List Byte} :
    Runs [.journal, .rings, .dies, .fabric, .cells, .marks, .launches, .phs, .free] s (execTileCoreAccess frond tile write offset bytes
    s) := by
  unfold execTileCoreAccess
  exact .ite (.next .refl) (.next tileAccess_touches.widen)

theorem execLaunchEnd_touches {launch : Nat} : Runs [.rings, .dies, .fabric, .launches, .phs] s (execLaunchEnd launch s) := by
  unfold execLaunchEnd
  refine .next ?_
  split
  · exact .ite (launchCheck_touches.after onLaunch_touches.widen) .refl
  · exact .refl

theorem execTileFault_touches {launch tile code : Nat} :
    Runs [.journal, .rings, .dies, .fabric, .cells, .marks, .launches, .phs, .free] s (execTileFault launch tile code s) := by
  unfold execTileFault
  refine .ite (.next .refl) ?_
  refine .next ?_
  split
  · exact .ite faultLaunch_touches.widen .refl
  · exact .refl

theorem execEntryTimeLimit_touches {launch tile : Nat} :
    Runs [.journal, .rings, .dies, .fabric, .cells, .marks, .launches, .phs, .free] s (execEntryTimeLimit launch tile s) := by
  unfold execEntryTimeLimit
  refine .next ?_
  split
  · split
    · exact .ite faultLaunch_touches.widen .refl
    · exact .refl
  · exact .refl

theorem operandKick_touches {l : Nat} : Touches [.hostPorts, .launches, .out] s (operandKick l s) := by
  unfold operandKick
  split
  · exact .refl
  · exact .updates .refl (fun _ _ h => .ite (hostRead_touches.after (onLaunch_touches.after h)) h)

theorem operatorCall_touches {l lt j : Nat} {write : Bool} {bytes : List Byte} :
    Touches [.hostPorts, .journal, .rings, .xlat, .dies, .fabric, .cells, .marks, .launches, .phs, .out, .free] s
      (operatorCall l lt j write bytes s) := by
  unfold operatorCall
  split
  · exact .refl
  split
  · exact .refl
  split
  · exact .refl
  refine .ite .refl (.ite .refl (.ite .refl ?_))
  split
  · exact faultLaunch_touches.widen
  refine .ite endLaunch_touches.widen (.ite (.foldl Prod.snd (.ite hotSpan_touches.widen .refl) fun b a h => ?_)
    (.updates (.ite hotSpan_touches.widen .refl) fun a _ h => ?_))
  · rcases a with ⟨_ | _, n⟩
    · exact hostWrite_touches.after h
    · exact .updates h fun _ _ h => sendSealed_touches.after (onLaunch_touches.after h)
  · rcases a with ⟨_ | _, n⟩
    · exact operandKick_touches.after (onLaunch_touches.after h)
    · exact .updates h fun _ _ h => sendSealed_touches.after (onLaunch_touches.after (newTag_touches.after h))

theorem execOperatorLibraryCall_touches {launch tile operand : Nat} {write : Bool} {bytes : List Byte} :
    Runs [.hostPorts, .journal, .rings, .xlat, .dies, .fabric, .cells, .marks, .launches, .phs, .out, .free] s (execOperatorLibraryCall
    launch tile operand write bytes s) := by
  unfold execOperatorLibraryCall
  exact .next operatorCall_touches.widen

theorem operandData_touches {l : Nat} {bad fromHost : Bool} :
    Touches [.rings, .dies, .fabric, .launches, .phs] s (operandData l bad fromHost s) := by
  unfold operandData
  split
  · exact .refl
  · exact .ite endLaunch_touches.widen (launchCheck_touches.after onLaunch_touches.widen)

theorem stewardAccess_touches {core : Nat} {write : Bool} {addr : Nat} {bytes : List Byte} :
    Touches [.journal, .post, .dies, .cells, .marks] s (stewardAccess core write addr bytes s) := by
  unfold stewardAccess
  refine .ite .refl ?_
  refine .ite (.ite (.onCells .refl (putBytes_wf _ _ _)) .refl) ?_
  split
  · exact .refl
  · split
    · exact .refl
    · split
      · exact .refl
      · refine .ite .refl ?_
        split
        · exact .refl
        · extract_lets
          split
          · exact noteRefusal_touches.widen
          · exact .ite writeMem_touches.widen readMem_touches.widen

theorem execStewardCoreAccess_touches {core : Nat} {write : Bool} {address : Nat} {bytes : List Byte} :
    Runs [.journal, .post, .dies, .cells, .marks] s (execStewardCoreAccess core write address bytes s) := by
  unfold execStewardCoreAccess
  exact .ite (.next .refl) (.next stewardAccess_touches.widen)

theorem execStewardCoreException_touches {core : Nat} : Runs [.journal, .res] s (execStewardCoreException core s) := by
  unfold execStewardCoreException
  exact .ite (.next .refl) (.ite (.next .refl) (.next (journalFrom_quiet.after onSteward_touches.widen)))

/-! ### Placement -/

theorem phEnter_touches {a1 : Nat} {st : PhState} {cause : Nat} {pldm : Bool} :
    Touches [.host, .journal, .phs, .events, .out] s (phEnter a1 st cause pldm s) := by
  unfold phEnter
  split
  · exact .refl
  · exact .ite .refl (journal_touches.after onPh_touches.widen)

theorem writeLocks_touches {set_ : Nat} {i : Image} {p : Ph} : Touches [.dies] s (writeLocks set_ i p s) := by
  unfold writeLocks
  exact .updates (.updates .refl (fun _ _ h => .updates h (fun _ _ h => (onDie_touches).after h))) (fun _ _ h => (onDie_touches).after h)

theorem clearLocks_touches {p : Ph} : Touches [.dies] s (clearLocks p s) := by
  unfold clearLocks
  exact .updates (.updates .refl (fun _ _ h => .updates h (fun _ _ h => (onDie_touches).after h))) (fun _ _ h => (onDie_touches).after h)

theorem fillSlots_touches {a1 : Nat} {i : Image} {p : Ph} : Touches [.dies, .cells, .marks] s (fillSlots a1 i p s) := by
  unfold fillSlots
  exact .updates .refl (fun _ _ h => .updates (.ite h (.onCells h (putBytes_wf _ _ _))) (fun _ _ h => (onDie_touches).after h))

theorem emptySlots_touches {a1 : Nat} {p : Ph} : Touches [.dies] s (emptySlots a1 p s) := by
  unfold emptySlots
  exact .updates .refl (fun _ _ h => (onDie_touches).after h)

theorem assignCores_touches {a1 : Nat} {i : Image} {cores : List Nat} : Touches [.cells, .marks, .res] s (assignCores a1 i cores s) := by
  unfold assignCores
  exact .updates .refl (fun _ _ h => .onCells (onSteward_touches.after h) (putBytes_wf _ _ _))

theorem startLoads_touches {a1 : Nat} {rs : List Nat} : Touches [.dies, .fabric, .launches, .phs] s (startLoads a1 rs s) := by
  unfold startLoads
  split
  · exact .refl
  · split
    · exact .refl
    · exact channels7_touches.after onPh_touches.widen

theorem returnAll_touches {a1 : Nat} {pc : Postcode} : Touches [.rings, .dies, .fabric, .launches, .phs] s (returnAll a1 pc s) := by
  unfold returnAll
  exact returnLaunches_touches.widen

theorem phLose_touches {a1 cause : Nat} :
    Touches [.host, .journal, .rings, .dies, .fabric, .launches, .phs, .res, .events, .out] s (phLose a1 cause s) := by
  unfold phLose
  split
  · exact .refl
  · exact .when (phEnter_touches.after (.updates (dropQueued_touches.after onPh_touches.widen)
      (fun _ _ h => onSteward_touches.after h))) (fun _ h => channels7_touches.after h)

theorem cancelLoad_touches {a1 e cause : Nat} :
    Touches [.host, .journal, .rings, .dies, .fabric, .launches, .phs, .res, .events, .out] s (cancelLoad a1 e cause s) := by
  unfold cancelLoad
  split
  · exact .refl
  · exact .ite .refl (.ite phLose_touches.widen (channels7_touches.after (phEnter_touches.after onPh_touches.widen)))

theorem loadData_touches {a1 record pos : Nat} {bytes : List Byte} {bad : List Bool} :
    Touches [.host, .lbs, .journal, .rings, .dies, .fabric, .launches, .phs, .res, .events, .out] s (loadData a1 record pos bytes bad s) :=
    by
  unfold loadData
  split
  · exact .refl
  · split
    · refine .ite .refl ?_
      split
      · refine .ite (.ite (cancelLoad_touches.after journal_quiet.widen) (loadAsk_touches.after
          (onPh_touches.after journal_quiet.widen))) ?_
        refine .ite ?_ ?_
        · refine cancelLoad_touches.after ?_
          split
          · exact (onLb_touches rfl).after (sendSealed_touches.after onPh_touches.widen)
          · exact sendSealed_touches.after onPh_touches.widen
        · refine .ite ?_ ?_
          · refine loadAsk_touches.after ?_
            split
            · exact (onLb_touches rfl).after (sendSealed_touches.after onPh_touches.widen)
            · exact sendSealed_touches.after onPh_touches.widen
          · refine channel7_touches.after (onPh_touches.after ?_)
            split
            · exact (onLb_touches rfl).after (sendSealed_touches.after onPh_touches.widen)
            · exact sendSealed_touches.after onPh_touches.widen
      · exact .refl
    · exact .refl

theorem loadDelivered_touches {a1 bytes : Nat} : Touches [.phs] s (loadDelivered a1 bytes s) := by
  unfold loadDelivered
  exact onPh_touches.widen

theorem reload_touches {a1 cause : Nat} :
    Touches [.host, .journal, .rings, .dies, .fabric, .cells, .marks, .launches, .phs, .res, .events, .out] s (reload a1 cause s) := by
  unfold reload
  split
  · exact .refl
  · split
    · exact .refl
    · extract_lets
      split
      · exact phLose_touches.widen
      · exact .ite phLose_touches.widen (startLoads_touches.after (fillSlots_touches.after (writeLocks_touches.after
          (onPh_touches.after phEnter_touches.widen))))

theorem zeroPh_touches {p : Ph} : Touches [.cells, .marks] s (zeroPh p s) := by
  unfold zeroPh
  exact .updates (.updates .refl (fun _ _ h => zeroScratch_touches.after h)) (fun _ _ h => .updates h
      (fun _ _ h => zeroGranule_touches.after h))

theorem evict_touches {a1 : Nat} :
    Touches [.fns, .host, .lbs, .journal, .rings, .pins, .dies, .fabric, .cells, .marks, .launches, .phs, .res, .events, .out, .free] s
    (evict a1 s) := by
  unfold evict
  split
  · exact .refl
  · exact .when (.onRes (journal_quiet.after (emptySlots_touches.after (.onXlat (zeroPh_touches.after (clearLocks_touches.after
      (.updates (stopLaunches_touches.after (dropQueued_touches.after (phEnter_touches.after postWaiting?_touches.widen)))
      (fun _ _ h => onRing_touches.after (zeroRange_touches.after (onSteward_touches.after h))))))))))
      (fun _ h => channels7_touches.after h)

theorem releaseClaim_touches {k a1 : Nat} :
    Touches [.fns, .host, .lbs, .journal, .rings, .pins, .dies, .fabric, .cells, .marks, .launches, .phs, .res, .events, .out, .free] s
    (releaseClaim k a1 s).2 := by
  unfold releaseClaim
  split
  · exact .refl
  · exact .ite (evict_touches.after onPh_touches.widen) onPh_touches.widen

/-! ### CmdRing -/

theorem withRing_touches {op : Nat} {f : Nat → List Byte → State → CmdOut} {who : Option Nat} {a : List Byte} (h :
    Touches F s t) (hf : ∀ a b x, Touches F s x → CmdTouches F s (f a b x)) :
     CmdTouches F s (withRing op f who a t) := by
  unfold withRing
  exact .ite (hf _ _ _ h) (.done h)

theorem freeRing_touches {r : Nat} : Touches [.fns, .lbs, .journal, .rings, .xlat, .fabric, .launches, .out] s (freeRing r s) := by
  unfold freeRing
  exact settleWaits_touches.after (.onRes (.onFabric onRing_touches.widen))

theorem dropRingTags_touches {r : Nat} : Touches [.fabric] s (dropRingTags r s) := by
  unfold dropRingTags
  exact .onFabric .refl

theorem ringAlloc_touches {who : Option Nat} {a : List Byte} : CmdTouches [.rings, .fabric] s (ringAlloc who a s) := by
  unfold ringAlloc
  exact .ite (.done .refl) (.done (.updates .refl (fun _ _ h => onRing_touches.after (dropRingTags_touches.after h))))

theorem execRingAlloc_touches {lb : Nat} : Runs [.fns, .lbs, .journal, .rings, .fabric, .out] s (execRingAlloc lb s) := by
  unfold execRingAlloc
  exact runCmd_touches .refl (fun _ _ _ h => ringAlloc_touches.after h)

theorem execRingFree_touches {lb : Nat} : Runs [.fns, .lbs, .journal, .rings, .xlat, .fabric, .launches, .out] s (execRingFree lb s) := by
  unfold execRingFree
  exact runCmd_touches .refl (fun _ _ _ h => withRing_touches h (fun _ _ _ h => .ite (.done h) (.done (freeRing_touches.after h))))

theorem ringBind_touches {who : Option Nat} {a : List Byte} : CmdTouches [.rings] s (ringBind who a s) := by
  unfold ringBind
  exact .ite (.done .refl) (.ite (.done .refl) (.ite (.done .refl) (.done onRing_touches.widen)))

theorem execRingBind_touches {lb : Nat} : Runs [.fns, .lbs, .journal, .rings, .out] s (execRingBind lb s) := by
  unfold execRingBind
  exact runCmd_touches .refl (fun _ _ _ h => ringBind_touches.after h)

theorem ringConfig_touches {r : Nat} {a : List Byte} : CmdTouches [.rings, .xlat] s (ringConfig r a s) := by
  unfold ringConfig
  extract_lets
  split
  · exact .done .refl
  · exact .ite (.done .refl) (.ite (.done .refl) (.ite (.done .refl) (.done (onRing_touches.after (.onXlat .refl)))))

theorem execRingConfig_touches {lb : Nat} : Runs [.fns, .lbs, .journal, .rings, .xlat, .out] s (execRingConfig lb s) := by
  unfold execRingConfig
  exact runCmd_touches .refl (fun _ _ _ h => withRing_touches h (fun _ _ _ h => ringConfig_touches.after h))

theorem execRingSetPhysical_touches {lb : Nat} : Runs [.fns, .lbs, .journal, .rings, .out] s (execRingSetPhysical lb s) := by
  unfold execRingSetPhysical
  exact runCmd_touches .refl (fun _ _ _ h => withRing_touches h (fun _ _ _ h => .done (onRing_touches.after h)))

theorem execRingStart_touches {lb : Nat} : Runs [.fns, .lbs, .journal, .rings, .out] s (execRingStart lb s) := by
  unfold execRingStart
  exact runCmd_touches .refl (fun _ _ _ h => withRing_touches h (fun _ _ _ h => .ite (.done h) (.ite (.done (ringRestate_touches.after
      (onRing_touches.after h))) (.done h))))

theorem ringStop_touches {who : Option Nat} {a : List Byte} : CmdTouches [.rings] s (ringStop who a s) := by
  unfold ringStop
  exact withRing_touches .refl (fun _ _ _ h => .ite (.wait (onRing_touches.after h)) (.done h))

theorem execRingStop_touches {lb : Nat} : Runs [.fns, .lbs, .journal, .rings, .out] s (execRingStop lb s) := by
  unfold execRingStop
  exact Runs.andThen (runCmd_touches .refl fun _ _ _ h => ringStop_touches.after h) fun _ h => .ite (stopCheck_touches.after h) h

theorem execRingQuery_touches {lb : Nat} : Runs [.fns, .lbs, .journal, .out] s (execRingQuery lb s) := by
  unfold execRingQuery
  exact runCmd_touches .refl (fun _ _ _ h => withRing_touches h (fun _ _ _ h => .done h))

theorem ringAckLoss_touches {r : Nat} {a : List Byte} : CmdTouches [.rings, .dies, .fabric] s (ringAckLoss r a s) := by
  unfold ringAckLoss
  exact .ite (.done .refl) (.done (releaseHeld_touches.after onRing_touches.widen))

theorem execRingAckLoss_touches {lb : Nat} : Runs [.fns, .lbs, .journal, .rings, .dies, .fabric, .out] s (execRingAckLoss lb s) := by
  unfold execRingAckLoss
  exact runCmd_touches .refl (fun _ _ _ h => withRing_touches h (fun _ _ _ h => ringAckLoss_touches.after h))

theorem execRingModerate_touches {lb : Nat} : Runs [.fns, .lbs, .journal, .rings, .out] s (execRingModerate lb s) := by
  unfold execRingModerate
  exact runCmd_touches .refl (fun _ _ _ h => withRing_touches h (fun _ _ _ h => .done (onRing_touches.after h)))

/-! ### CmdXlat -/

theorem withCtx_touches {op i : Nat} {f : Nat → List Byte → State → CmdOut} {who : Option Nat} {a : List Byte} (h :
    Touches F s t) (hf : ∀ a b x, Touches F s x → CmdTouches F s (f a b x)) :
     CmdTouches F s (withCtx op i f who a t) := by
  unfold withCtx
  exact .ite (hf _ _ _ h) (.done h)

theorem runThen_touches {op : Nat} {f : Cmd} {after : List Byte → State → State} {lb : Nat} (h : Touches F s t)
    (hf : ∀ o a x, Touches F t x → CmdTouches F t (f o a x)) (ha : ∀ a x, Touches F s x → Touches F s (after a x))
    (hK : ([Part.fns, .lbs, .journal, .out] ++ detachFoot op).all F.contains = true := by exact rfl) :
    Runs F s (runThen op f after lb t) := by
  unfold runThen
  exact Runs.andThen (runCmd_touches h hf hK) fun _ h => .ite (ha _ _ h) h

theorem ctxCreate_touches {who : Option Nat} {a : List Byte} : CmdTouches [.ctxs] s (ctxCreate who a s) := by
  unfold ctxCreate
  exact .ite (.done .refl) (.ite (.done .refl) (.done (.onXlat .refl)))

theorem execCtxCreate_touches {lb : Nat} : Runs [.fns, .lbs, .journal, .ctxs, .out] s (execCtxCreate lb s) := by
  unfold execCtxCreate
  exact runCmd_touches .refl (fun _ _ _ h => ctxCreate_touches.after h)

theorem forgetCtx_touches {ctx : Nat} {pins : Bool} : Touches [.pins, .xlat] s (forgetCtx ctx pins s) := by
  unfold forgetCtx
  exact .onXlat (dropLines_touches.after dropLeaves_touches.widen)

theorem execCtxDestroy_touches {lb : Nat} : Runs [.fns, .lbs, .journal, .ctxs, .pins, .xlat, .out] s (execCtxDestroy lb s) := by
  unfold execCtxDestroy
  exact runCmd_touches .refl (fun _ _ _ h => withCtx_touches h (fun _ _ _ h => .ite (.done h) (.done (.onXlat (forgetCtx_touches.after
      (restartWalks_touches.after h))))))

theorem execCtxSetRoot_touches {lb : Nat} : Runs [.fns, .lbs, .journal, .rings, .ctxs, .xlat, .fabric, .out] s (execCtxSetRoot lb s) := by
  unfold execCtxSetRoot
  exact runThen_touches .refl (fun _ _ _ h => withCtx_touches h (fun _ _ _ h => .wait (.onXlat h)))
      (fun _ _ h => settleWaits_touches.after (beginInvalidate_touches.after h))

theorem execTlbInvalidate_touches {lb : Nat} : Runs [.fns, .lbs, .journal, .rings, .xlat, .fabric, .out] s (execTlbInvalidate lb s) := by
  unfold execTlbInvalidate
  exact runThen_touches .refl (fun _ _ _ h => withCtx_touches h (fun _ _ _ h => .wait h)) (fun _ _ h => settleWaits_touches.after
      (beginInvalidate_touches.after h))

theorem execTlbInvalidateBcast_touches {lb : Nat} :
    Runs [.fns, .lbs, .journal, .rings, .xlat, .fabric, .out] s (execTlbInvalidateBcast lb s) := by
  unfold execTlbInvalidateBcast
  exact runThen_touches .refl (fun _ _ _ h => withCtx_touches h (fun _ _ _ h => .wait h)) (fun _ _ h => settleWaits_touches.after
      (beginInvalidate_touches.after h))

theorem execTableSync_touches {lb : Nat} : Runs [.fns, .lbs, .journal, .rings, .xlat, .fabric, .out] s (execTableSync lb s) := by
  unfold execTableSync
  exact runThen_touches .refl (fun _ _ _ h => withCtx_touches h (fun _ _ _ h => .wait h)) (fun _ _ h => settleWaits_touches.after
      (beginInvalidate_touches.after h))

theorem execPinRange_touches {lb : Nat} : Runs [.fns, .lbs, .journal, .xlat, .out] s (execPinRange lb s) := by
  unfold execPinRange
  exact runThen_touches .refl (fun _ _ _ h => withCtx_touches h (fun _ _ _ h => .wait ((onLb_touches rfl).after h)))
      (fun _ _ h => pinNext_touches.after h)

theorem execUnpinRange_touches {lb : Nat} : Runs [.fns, .lbs, .journal, .pins, .out] s (execUnpinRange lb s) := by
  unfold execUnpinRange
  exact runCmd_touches .refl (fun _ _ _ h => withCtx_touches h (fun _ _ _ h => .done (.updates h
      (fun _ _ h => unpinPage_touches.after h))))

theorem resetGcm_touches {slot : Nat} : Touches [.dies] s (resetGcm slot s) := by
  unfold resetGcm
  exact mapDies_touches (f := fun _ d => { d with gcm := if 160 ≤ slot then d.gcm.filter fun e => e.1 % 64 != slot - 160 else d.gcm })
    fun _ _ => rfl

theorem loadKey_touches {slot kind : Nat} {key : List Byte} : Touches [.keys, .dies] s (loadKey slot kind key s) := by
  unfold loadKey
  exact resetGcm_touches.after (.onFabric (f := fun x => { x with keys := tset x.keys slot _ }) ((mapDies_touches
    (f := fun _ d => { d with badKeys := d.badKeys.filter (· != slot) }) fun _ _ => rfl).widen))

theorem keyLoad_touches {a1 : Option Nat} {a : List Byte} : CmdTouches [.keys, .dies] s (keyLoad a1 a s) := by
  unfold keyLoad
  exact .ite (.done .refl) (.done loadKey_touches.widen)

theorem execKeyLoad_touches {lb : Nat} : Runs [.fns, .lbs, .frames, .journal, .keys, .dies, .out] s (execKeyLoad lb s) := by
  unfold execKeyLoad
  exact Runs.andThen ((runCmd_touches (F := [.fns, .lbs, .journal, .keys, .dies, .out]) .refl fun _ _ _ h => keyLoad_touches.after
      h).widen) fun _ h => .ite (onLb_touches_frames.after h) h

theorem keyClear_touches {a1 : Option Nat} {a : List Byte} : CmdTouches [.keys] s (keyClear a1 a s) := by
  unfold keyClear
  exact .ite (.done .refl) (.done (.onFabric .refl))

theorem execKeyClear_touches {lb : Nat} : Runs [.fns, .lbs, .journal, .keys, .out] s (execKeyClear lb s) := by
  unfold execKeyClear
  exact runCmd_touches .refl (fun _ _ _ h => keyClear_touches.after h)

theorem hotpageConfig_touches {who : Option Nat} {a : List Byte} : CmdTouches [.xlat] s (hotpageConfig who a s) := by
  unfold hotpageConfig
  exact .ite (.done .refl) (.done (.onXlat .refl))

theorem execHotpageConfig_touches {lb : Nat} : Runs [.fns, .lbs, .journal, .xlat, .out] s (execHotpageConfig lb s) := by
  unfold execHotpageConfig
  exact runCmd_touches .refl (fun _ _ _ h => hotpageConfig_touches.after h)

/-! ### CmdModule -/

theorem execNop_touches {lb : Nat} : Runs [.fns, .lbs, .journal, .out] s (execNop lb s) := by
  unfold execNop
  exact runCmd_touches .refl (fun _ _ _ h => .done h)

theorem execGetVersion_touches {lb : Nat} : Runs [.fns, .lbs, .journal, .out] s (execGetVersion lb s) := by
  unfold execGetVersion
  exact runCmd_touches .refl (fun _ _ _ h => .done h)

theorem execGetModuleInfo_touches {lb : Nat} : Runs [.fns, .lbs, .journal, .out] s (execGetModuleInfo lb s) := by
  unfold execGetModuleInfo
  exact runCmd_touches .refl (fun _ _ _ h => .done h)

theorem fnSetQuota_touches {who : Option Nat} {a : List Byte} : CmdTouches [.fns] s (fnSetQuota who a s) := by
  unfold fnSetQuota
  exact .ite (.done .refl) (.done onFn_touches.widen)

theorem execFnSetQuota_touches {lb : Nat} : Runs [.fns, .lbs, .journal, .out] s (execFnSetQuota lb s) := by
  unfold execFnSetQuota
  exact runCmd_touches .refl (fun _ _ _ h => fnSetQuota_touches.after h)

theorem fnQuery_touches {who : Option Nat} {a : List Byte} : CmdTouches [] s (fnQuery who a s) := by
  unfold fnQuery
  exact .ite (.done .refl) (.done .refl)

theorem execFnQuery_touches {lb : Nat} : Runs [.fns, .lbs, .journal, .out] s (execFnQuery lb s) := by
  unfold execFnQuery
  exact runCmd_touches .refl (fun _ _ _ h => fnQuery_touches.after h)

/-! ### Residency -/

theorem imageDone_touches {lb : Nat} : Touches [.fns, .lbs, .journal, .images, .res, .out] s (imageDone lb s) := by
  unfold imageDone
  extract_lets
  split
  · exact postWaiting_touches.widen
  · exact postWaiting_touches.after (.onRes .refl)

theorem imageNext_touches {lb : Nat} :
    Touches [.fns, .hostPorts, .lbs, .journal, .dies, .fabric, .images, .res, .out] s (imageNext lb s) := by
  unfold imageNext
  exact .ite .refl (.ite imageDone_touches.widen (.ite (.ite postWaiting_touches.widen (.ite hostRead_touches.widen .refl))
      (sendSealed_touches.after newTag_touches.widen)))

theorem imageData_touches {lb pos : Nat} {bytes : List Byte} {bad : Bool} :
    Touches [.fns, .hostPorts, .lbs, .journal, .dies, .fabric, .images, .res, .out] s (imageData lb pos bytes bad s) := by
  unfold imageData
  exact .ite .refl (.ite imageNext_touches.widen (.ite postWaiting_touches.widen (.ite (postWaiting_touches.after
      ((onLb_touches rfl).widen)) (imageNext_touches.after ((onLb_touches rfl).widen)))))

theorem imageLoadStart_touches {who : Option Nat} {a : List Byte} : CmdTouches [] s (imageLoadStart who a s) := by
  unfold imageLoadStart
  split
  · exact .ite (.wait .refl) (.done .refl)
  · exact .done .refl

theorem execImageLoad_touches {lb : Nat} :
    Runs [.fns, .hostPorts, .lbs, .journal, .dies, .fabric, .images, .res, .out] s (execImageLoad lb s) := by
  unfold execImageLoad
  exact Runs.andThen (runCmd_touches .refl fun _ _ _ h => imageLoadStart_touches.after h) fun _ h => .ite (imageNext_touches.after h) h

theorem imageDrop_touches {who : Option Nat} {a : List Byte} : CmdTouches [.images] s (imageDrop who a s) := by
  unfold imageDrop
  extract_lets
  split
  · exact .done .refl
  · exact .ite (.done .refl) (.done (.onRes .refl))

theorem execImageDrop_touches {lb : Nat} : Runs [.fns, .lbs, .journal, .images, .out] s (execImageDrop lb s) := by
  unfold execImageDrop
  exact runCmd_touches .refl (fun _ _ _ h => imageDrop_touches.after h)

theorem imageQuery_touches {who : Option Nat} {a : List Byte} : CmdTouches [] s (imageQuery who a s) := by
  unfold imageQuery
  extract_lets
  split <;> exact .done .refl

theorem execImageQuery_touches {lb : Nat} : Runs [.fns, .lbs, .journal, .out] s (execImageQuery lb s) := by
  unfold execImageQuery
  exact runCmd_touches .refl (fun _ _ _ h => imageQuery_touches.after h)

theorem phCreate_touches {who : Option Nat} {a : List Byte} :
    CmdTouches [.journal, .pins, .dies, .fabric, .cells, .marks, .launches, .phs, .res] s (phCreate who a s) := by
  unfold phCreate
  extract_lets
  split
  · exact .done .refl
  · refine .ite (.done .refl) ?_
    split
    · exact .done .refl
    · split
      · exact .done .refl
      · split
        · exact .ite (.done .refl) (.wait (startLoads_touches.after (assignCores_touches.after (fillSlots_touches.after
            (writeLocks_touches.after (.onXlat (journal_quiet.after (.onRes .refl))))))))
        · exact .done .refl

theorem execPhCreate_touches {lb : Nat} :
    Runs [.fns, .lbs, .journal, .pins, .dies, .fabric, .cells, .marks, .launches, .phs, .res, .out] s (execPhCreate lb s) := by
  unfold execPhCreate
  exact runCmd_touches .refl (fun _ _ _ h => phCreate_touches.after h)

theorem phClaim_touches {who : Option Nat} {a : List Byte} : CmdTouches [.phs] s (phClaim who a s) := by
  unfold phClaim
  extract_lets
  split
  · exact .done .refl
  · exact .ite (.done .refl) (.ite (.done .refl) (.ite (.done .refl) (.done onPh_touches.widen)))

theorem execPhClaim_touches {lb : Nat} : Runs [.fns, .lbs, .journal, .phs, .out] s (execPhClaim lb s) := by
  unfold execPhClaim
  exact runCmd_touches .refl (fun _ _ _ h => phClaim_touches.after h)

theorem phRelease_touches {who : Option Nat} {a : List Byte} :
    CmdTouches [.fns, .host, .lbs, .journal, .rings, .pins, .dies, .fabric, .cells, .marks, .launches, .phs, .res, .events, .out, .free] s
    (phRelease who a s) := by
  unfold phRelease
  extract_lets
  split
  · exact .done .refl
  · exact .done releaseClaim_touches.widen

theorem execPhRelease_touches {lb : Nat} :
    Runs [.fns, .host, .lbs, .journal, .rings, .pins, .dies, .fabric, .cells, .marks, .launches, .phs, .res, .events, .out, .free] s
    (execPhRelease lb s) := by
  unfold execPhRelease
  exact runCmd_touches .refl (fun _ _ _ h => phRelease_touches.after h)

theorem phEvict_touches {who : Option Nat} {a : List Byte} :
    CmdTouches [.fns, .host, .lbs, .journal, .rings, .pins, .dies, .fabric, .cells, .marks, .launches, .phs, .res, .events, .out, .free] s
    (phEvict who a s) := by
  unfold phEvict
  split
  · exact .done .refl
  · exact .done evict_touches.widen

theorem execPhEvict_touches {lb : Nat} :
    Runs [.fns, .host, .lbs, .journal, .rings, .pins, .dies, .fabric, .cells, .marks, .launches, .phs, .res, .events, .out, .free] s
    (execPhEvict lb s) := by
  unfold execPhEvict
  exact runCmd_touches .refl (fun _ _ _ h => phEvict_touches.after h)

theorem phQuery_touches {who : Option Nat} {a : List Byte} : CmdTouches [] s (phQuery who a s) := by
  unfold phQuery
  split <;> exact .done .refl

theorem execPhQuery_touches {lb : Nat} : Runs [.fns, .lbs, .journal, .out] s (execPhQuery lb s) := by
  unfold execPhQuery
  exact runCmd_touches .refl (fun _ _ _ h => phQuery_touches.after h)

theorem stopAnswer_touches {who a1 count : Nat} : Touches [.fns, .lbs, .journal, .fabric, .out] s (stopAnswer who a1 count s) := by
  unfold stopAnswer
  exact .ite postWaiting_touches.widen sendControl_touches.widen

theorem stopSend_touches {who a1 : Nat} : Touches [.fns, .lbs, .journal, .fabric, .res, .out] s (stopSend who a1 s) := by
  unfold stopSend
  split
  · exact stopAnswer_touches.widen
  · exact .ite stopAnswer_touches.widen (.updates (.onRes .refl) (fun _ _ h => sendControl_touches.after h))

theorem stopDone_touches {src : Postcode} {a1 count : Nat} :
    Touches [.fns, .lbs, .journal, .fabric, .res, .out] s (stopDone src a1 count s) := by
  unfold stopDone
  extract_lets
  split
  · exact .refl
  · exact .ite (stopAnswer_touches.after (.onRes .refl)) (.onRes .refl)

theorem stopAtFrond_touches {f a1 : Nat} {replyTo src : Postcode} :
    Touches [.journal, .rings, .dies, .fabric, .cells, .marks, .launches, .phs, .free] s (stopAtFrond f a1 replyTo src s) := by
  unfold stopAtFrond
  exact sendControl_touches.after stopLaunches_touches.widen

theorem phStop_touches {who : Option Nat} {a : List Byte} : CmdTouches [.fabric, .res] s (phStop who a s) := by
  unfold phStop
  refine .ite ?_ (.ite (.done .refl) (.wait (.updates (.onRes .refl) (fun _ _ h => sendControl_touches.after h))))
  split
  · exact .done .refl
  · exact .wait .refl

theorem execPhStop_touches {lb : Nat} : Runs [.fns, .lbs, .journal, .fabric, .res, .out] s (execPhStop lb s) := by
  unfold execPhStop
  exact Runs.andThen (runCmd_touches .refl fun _ _ _ h => phStop_touches.after h) fun _ h => .ite (stopSend_touches.after h) h

theorem freeMapRead_touches {a1 : Option Nat} {a : List Byte} : CmdTouches [] s (freeMapRead a1 a s) := by
  unfold freeMapRead
  exact .done .refl

theorem execFreeMapRead_touches {lb : Nat} : Runs [.fns, .lbs, .journal, .out] s (execFreeMapRead lb s) := by
  unfold execFreeMapRead
  exact runCmd_touches .refl (fun _ _ _ h => freeMapRead_touches.after h)

theorem onPigeonhole_touches {a1 : Nat} {f : Ph → State → State} (h : Touches F s t) (hf : ∀ a x, Touches F s x → Touches F s (f a x)) :
    Runs F s (onPigeonhole a1 f t) := by
  unfold onPigeonhole
  refine .ite (.next h) ?_
  refine .next ?_
  split
  · exact hf _ _ h
  · exact h

theorem becomeResident_touches {a1 : Nat} {p : Ph} :
    Touches [.fns, .host, .lbs, .journal, .phs, .res, .events, .out] s (becomeResident a1 p s) := by
  unfold becomeResident
  refine .ite .refl ?_
  split
  · exact .refl
  · exact postWaiting?_touches.after (onPh_touches.after (phEnter_touches.after (.updates .refl
      (fun _ _ h => onSteward_touches.after h))))

theorem execResidencyTargetReached_touches {pigeonhole : Nat} :
    Runs [.fns, .host, .lbs, .journal, .phs, .res, .events, .out] s (execResidencyTargetReached pigeonhole s) := by
  unfold execResidencyTargetReached
  exact onPigeonhole_touches .refl (fun _ _ h => becomeResident_touches.after h)

theorem execPhCreateTimeout_touches {pigeonhole : Nat} :
    Runs [.fns, .host, .lbs, .journal, .rings, .dies, .fabric, .launches, .phs, .res, .events, .out] s (execPhCreateTimeout pigeonhole s)
    := by
  unfold execPhCreateTimeout
  exact onPigeonhole_touches .refl (fun _ _ h => .ite h (postWaiting?_touches.after (onPh_touches.after (cancelLoad_touches.after h))))

theorem execLoadCancel_touches {pigeonhole : Nat} :
    Runs [.fns, .host, .lbs, .journal, .rings, .pins, .dies, .fabric, .cells, .marks, .launches, .phs, .res, .events, .out, .free] s
    (execLoadCancel pigeonhole s) := by
  unfold execLoadCancel
  exact onPigeonhole_touches .refl (fun _ _ h => .ite (evict_touches.after h) h)

theorem dropLoadTags_touches {a1 : Nat} {q : Nat → Bool} : Touches [.fabric] s (dropLoadTags a1 q s) := by
  unfold dropLoadTags
  exact .onFabric .refl

theorem execLoadReadTimeout_touches {pigeonhole record : Nat} :
    Runs [.host, .journal, .rings, .dies, .fabric, .launches, .phs, .res, .events, .out] s (execLoadReadTimeout pigeonhole record s) := by
  unfold execLoadReadTimeout
  refine onPigeonhole_touches .refl (fun _ _ h => ?_)
  split
  · exact h
  · exact .ite h (.ite (cancelLoad_touches.after (journalRule_quiet.after (dropLoadTags_touches.after h))) (loadAsk_touches.after
      (onPh_touches.after (journalRule_quiet.after (dropLoadTags_touches.after h)))))

theorem execStampError_touches {pigeonhole : Nat} :
    Runs [.host, .journal, .rings, .dies, .fabric, .cells, .marks, .launches, .phs, .res, .events, .out] s (execStampError pigeonhole s) :=
    by
  unfold execStampError
  exact onPigeonhole_touches .refl (fun _ _ h => .ite (reload_touches.after (dropLoadTags_touches.after (journalRule_quiet.after h))) h)

/-! ### Firmware -/

theorem onSlot_touches {d slot : Nat} {f : FwSlot → FwSlot} : Touches [.fw] s (onSlot d slot f s) := by
  unfold onSlot
  exact .onPost .refl

theorem onInactive_touches {f : FwSlot → FwSlot} : Touches [.fw] s (onInactive f s) := by
  unfold onInactive
  exact .updates .refl (fun _ _ h => onSlot_touches.after h)

theorem writeSelector_touches {ok : Bool} {d slot : Nat} : Touches [.boot] s (writeSelector ok d slot s) := by
  unfold writeSelector
  exact .onPost .refl

/-- The security floor rises. -/
theorem raiseFloor_touches {n : Nat} : Touches [.boot] s (onPost (fun p => { p with floor := max p.floor n }) s) where
  same p hp := by
    cases p <;> first | exact absurd hp (by decide) | rfl | exact ⟨rfl, rfl⟩ | exact fun _ => rfl
  steady := { Steady.refl s with floor := Nat.le_max_left _ _ }

theorem selectStaged_touches {image : List Byte} : Touches [.fw, .boot] s (selectStaged image s) := by
  unfold selectStaged
  exact .updates raiseFloor_touches.widen
    (fun _ _ h => writeSelector_touches.after (onSlot_touches.after (onSlot_touches.after h)))

theorem stageEnd_touches {lb e : Nat} : Touches [.fns, .lbs, .fw, .journal, .out] s (stageEnd lb e s) := by
  unfold stageEnd
  exact postWaiting_touches.after (.ite onInactive_touches.widen onInactive_touches.widen)

theorem stageNext_touches {lb : Nat} : Touches [.fns, .hostPorts, .lbs, .fw, .journal, .out] s (stageNext lb s) := by
  unfold stageNext
  exact .ite .refl (.ite stageEnd_touches.widen (.ite stageEnd_touches.widen (.ite hostRead_touches.widen .refl)))

theorem stageData_touches {lb pos : Nat} {bytes : List Byte} :
    Touches [.fns, .hostPorts, .lbs, .fw, .journal, .dies, .out] s (stageData lb pos bytes s) := by
  unfold stageData
  exact .ite .refl (.ite stageNext_touches.widen (.ite (stageEnd_touches.after mramFailed_touches.widen) (.ite (stageEnd_touches.after
      ((onLb_touches rfl).widen)) (stageNext_touches.after ((onLb_touches rfl).widen)))))

/-! ### Relays -/

theorem onHop_touches {a1 : Nat} {f : RelayHop → RelayHop} : Touches [.fabric] s (onHop a1 f s) := by
  unfold onHop
  exact .onFabric .refl

theorem dropHop_touches {a1 : Nat} : Touches [.fabric] s (dropHop a1 s) := by
  unfold dropHop
  exact .onFabric .refl

theorem sendRelayDone_touches {engine issuer : Postcode} {fr : Frank} {id status : Nat} {failing : Postcode} {bytes : Nat} :
    Touches [.fabric] s (sendRelayDone engine issuer fr id status failing bytes s) := by
  unfold sendRelayDone
  exact sendControl_touches.widen

theorem hopAsk_touches {a1 : Nat} : Touches [.dies, .fabric] s (hopAsk a1 s) := by
  unfold hopAsk
  split
  · exact .refl
  · exact .ite .refl (sendSealed_touches.after (onHop_touches.after newTag_touches.widen))

theorem relayLast_touches {engine issuer : Postcode} {fr : Frank} {id len total : Nat} :
    Touches [.fabric] s (relayLast engine issuer fr id len total s) := by
  unfold relayLast
  exact .ite (sendRelayDone_touches.after (.onFabric .refl)) (.onFabric .refl)

theorem relayStep_touches {engine : Postcode} {m : RelayMsg} : Touches [.dies, .fabric] s (relayStep engine m s) := by
  unfold relayStep
  refine .ite relayLast_touches.widen ?_
  split
  · exact sendRelayDone_touches.widen
  · exact .ite sendRelayDone_touches.widen (.ite sendRelay_touches.widen (hopAsk_touches.after (.onFabric .refl)))

theorem hopCheck_touches {a1 : Nat} : Touches [.dies, .fabric] s (hopCheck a1 s) := by
  unfold hopCheck
  split
  · exact .refl
  · exact .ite .refl (relayStep_touches.after dropHop_touches.widen)

theorem hopData_touches {a1 pos : Nat} {bytes : List Byte} {bad : List Bool} :
    Touches [.dies, .fabric] s (hopData a1 pos bytes bad s) := by
  unfold hopData
  split
  · exact .refl
  · exact hopAsk_touches.after (sendSealed_touches.after onHop_touches.widen)

theorem hopRefused_touches {a1 : Nat} {place : Postcode} : Touches [.fabric] s (hopRefused a1 place s) := by
  unfold hopRefused
  split
  · exact .refl
  · exact sendRelayDone_touches.after dropHop_touches.widen

theorem relayDone_touches {p : Pkt} : Touches [.fns, .rings, .fabric, .out] s (relayDone p s) := by
  unfold relayDone
  extract_lets
  split
  · exact .refl
  · split
    · exact .onFabric .refl
    · refine .ite .refl ?_
      split
      · exact endStarted_touches.after (.onFabric .refl)
      · exact endStarted_touches.after (.onFabric .refl)
      · exact returnToSender_touches.after (.onFabric .refl)

theorem localDone_touches {o : Origin} {p : Pkt} {bytes : Nat} :
    Touches [.fns, .hostPorts, .lbs, .journal, .rings, .xlat, .dies, .fabric, .launches, .phs, .out] s (localDone o p bytes s) := by
  unfold localDone
  split
  · exact .ite (descProgress_touches.after onStarted_touches.widen) onStarted_touches.widen
  · exact launchCheck_touches.after onLaunch_touches.widen
  · exact launchCheck_touches.after onLaunch_touches.widen
  · exact loadDelivered_touches.widen
  · exact hopCheck_touches.after onHop_touches.widen
  · exact .refl

theorem delivered_touches {o : Origin} {p : Pkt} {bytes : Nat} :
    Touches [.fns, .hostPorts, .lbs, .journal, .rings, .xlat, .dies, .fabric, .launches, .phs, .out] s (delivered o p bytes s) := by
  unfold delivered
  exact localDone_touches.after (settleRun_touches.after (.when tallyAdd_touches.widen (fun _ h => sendControl_touches.after h)))

/-! ### SelectEngine -/

theorem selBusy_touches {die unit cycles : Nat} : Touches [.dies] s (selBusy die unit cycles s) := by
  unfold selBusy
  exact countSelect_touches.widen

theorem readRow_touches {f : Nat} {fr : Frank} {look : Nat → Option Leaf} {b : List Byte} :
    Touches [.journal, .post, .dies, .marks] s (readRow f fr look b s).2 := by
  unfold readRow
  extract_lets
  split
  · exact .refl
  · split <;> exact readSource_touches.widen

theorem readLists_touches {f : Nat} {fr : Frank} {look : Nat → Option Leaf} {tell : Addr → Nat → State → State} {b : List Byte}
    {n : Nat} {a : Addr} (h : Touches F s t) (hf : ∀ a b x, Touches F s x → Touches F s (tell a b x))
    (hK : [.journal, .post, .dies, .marks].all F.contains = true := by exact rfl) : Touches F s (readLists f fr look tell b n a t).2 := by
  induction n generalizing a t with
  | zero => exact h
  | succ n ih =>
    have h1 : Touches F s (readSource f fr look a 16 t).2 := readSource_touches.within h hK
    unfold readLists
    dsimp only
    split
    · exact h1
    · refine .ite_snd h1 ?_
      split
      · exact readSource_touches.within h1 hK
      · split
        · exact ih (hf _ _ _ (readSource_touches.within h1 hK))
        · exact ih (hf _ _ _ (readSource_touches.within h1 hK))

theorem selOutput_touches {r c : Nat} {engine : Postcode} {l : List SelEntry} {sources used : Nat} :
    Touches [.rings, .xlat, .dies, .fabric, .out, .free] s (selOutput r c engine l sources used s) := by
  unfold selOutput
  split
  · exact .refl
  · refine .ite .refl ?_
    extract_lets b dst tagged src u bytes went
    clear_value tagged
    have hu : Touches [.rings, .xlat, .dies, .fabric, .out, .free] s u := .ite_snd freshNat_touches.widen .refl
    have hw : Touches [.rings, .xlat, .dies, .fabric, .out, .free] s (went u) := descCount_touches.after (onStarted_touches.after hu)
    split
    · exact endStarted_touches.after hu
    · exact copyWalk_touches.after hu
    · refine .ite (endStarted_touches.after hu) ?_
      split
      · exact otherCheck_touches.after (copySend_touches.after (noteSent_touches.after hw))
      · exact otherCheck_touches.after (sendPieces_touches.after hw)

theorem onMerges_touches {die unit : Nat} {f : List MergeCtx → List MergeCtx} : Touches [.dies] s (onMerges die unit f s) := by
  unfold onMerges
  exact (onDie_touches).widen

theorem onPark_touches {die unit : Nat} {f : List Flight → List Flight} : Touches [.dies] s (onPark die unit f s) := by
  unfold onPark
  exact (onDie_touches).widen

theorem parkDiscard_touches {die unit : Nat} : Touches [.journal, .dies] s (parkDiscard die unit s) := by
  unfold parkDiscard
  exact journalFrom_quiet.after countSelect_touches.widen

theorem parkList_touches {die unit : Nat} {f : Flight} : Touches [.journal, .dies] s (parkList die unit f s) := by
  unfold parkList
  exact .ite parkDiscard_touches.widen (countSelect_touches.after onPark_touches.widen)

theorem closeContext_touches {die unit : Nat} {c : MergeCtx} :
    Touches [.rings, .xlat, .dies, .fabric, .out, .free] s (closeContext die unit c s) := by
  unfold closeContext
  exact selOutput_touches.after onMerges_touches.widen

theorem mergeList_touches {die unit : Nat} {c : MergeCtx} {f : Flight} :
    Touches [.fns, .hostPorts, .lbs, .journal, .rings, .xlat, .dies, .fabric, .launches, .phs, .out, .free] s (mergeList die unit c f s)
    := by
  unfold mergeList
  exact .ite (closeContext_touches.after (delivered_touches.after (selBusy_touches.after
      (countSelect_touches.after onMerges_touches.widen)))) (delivered_touches.after (selBusy_touches.after
      (countSelect_touches.after onMerges_touches.widen)))

theorem listArrive_touches {f : Flight} :
    Touches [.fns, .hostPorts, .lbs, .journal, .post, .rings, .xlat, .dies, .fabric, .launches, .phs, .out, .free] s (listArrive f s) :=
    by
  unfold listArrive
  extract_lets
  split
  · exact parkList_touches.widen
  · exact .ite refuse_touches.widen (.ite deadLetter_touches.widen (.ite parkList_touches.widen
      (.ite (onDie_touches).widen mergeList_touches.widen)))

theorem takeParked_touches {die unit group : Nat} :
    Touches [.fns, .hostPorts, .lbs, .journal, .post, .rings, .xlat, .dies, .fabric, .launches, .phs, .out, .free] s (takeParked die unit
    group s) := by
  unfold takeParked
  exact .updates .refl (fun _ _ h => .ite (listArrive_touches.after (onPark_touches.after h)) h)

theorem openContext_touches {r : Nat} {d : Started} :
    Touches [.fns, .hostPorts, .lbs, .journal, .post, .rings, .xlat, .dies, .fabric, .launches, .phs, .out, .free] s (openContext r d s)
    := by
  unfold openContext
  exact .ite .refl (takeParked_touches.after (onMerges_touches.after onStarted_touches.widen))

theorem selectStep_touches {r : Nat} {d : Started} :
    Touches [.fns, .hostPorts, .lbs, .journal, .post, .rings, .xlat, .dies, .fabric, .marks, .launches, .phs, .out, .free] s
      (selectStep r d s) := by
  unfold selectStep
  refine .ite .refl (.ite openContext_touches.widen (.ite ?_ ?_))
  · have hl (f : Nat) (fr : Frank) (look : Nat → Option Leaf) (e : Postcode) (n : Nat) (a : Addr) :
        Touches [.journal, .post, .dies, .marks, .rings, .xlat] s (readLists f fr look (descCount r e) d.bytes n a s).2 :=
      readLists_touches .refl fun _ _ _ h => descCount_touches.after h
    split
    · exact endStarted_touches.after ((hl _ _ _ _ _ _).snd_of_eq ‹_›).widen
    · exact selOutput_touches.after (selBusy_touches.after ((hl _ _ _ _ _ _).snd_of_eq ‹_›).widen)
  · split
    · exact endStarted_touches.after ((readRow_touches.snd_of_eq ‹_›).widen)
    · exact selOutput_touches.after (selBusy_touches.after (descCount_touches.after ((readRow_touches.snd_of_eq ‹_›).widen)))

theorem descResume_touches {r c : Nat} :
    Touches [.fns, .hostPorts, .lbs, .journal, .post, .rings, .xlat, .dies, .fabric, .marks, .launches, .phs, .out, .free] s (descResume
    r c s) := by
  unfold descResume
  split
  · exact .refl
  · refine .ite descProgress_touches.widen ?_
    split
    · exact copyStep_touches.widen
    · exact selectStep_touches.widen
    · exact descProgress_touches.widen

theorem pageMissing_touches {r c va : Nat} {write : Bool} : Touches [.fns, .rings, .out] s (pageMissing r c va write s) := by
  unfold pageMissing
  split
  · exact .refl
  · exact .ite pageFault_touches.widen endStarted_touches.widen

theorem onSelectEngine_touches {die engine : Nat} {f : State → State} (h : Touches F s t) (hf : ∀ x, Touches F s x → Touches F s (f x)) :
    Runs F s (onSelectEngine die engine f t) := by
  unfold onSelectEngine
  exact .ite (.next h) (.next (hf _ h))

theorem execParkExpiry_touches {die engine index : Nat} : Runs [.journal, .dies] s (execParkExpiry die engine index s) := by
  unfold execParkExpiry
  exact onSelectEngine_touches .refl (fun _ h => .ite (parkDiscard_touches.after (onPark_touches.after h)) h)

theorem execMergeContextExpiry_touches {die engine group : Nat} : Runs [.rings, .dies] s (execMergeContextExpiry die engine group s) := by
  unfold execMergeContextExpiry
  refine onSelectEngine_touches .refl (fun _ h => ?_)
  split
  · exact h
  · exact endStarted_touches.after (onStarted_touches.after (countSelect_touches.after (onMerges_touches.after h)))

/-! ### Delivery -/

theorem tagFailed_touches {n : Nat} {refused : Bool} {place : Postcode} :
    Touches [.fns, .host, .lbs, .journal, .rings, .xlat, .dies, .fabric, .cells, .marks, .launches, .phs, .res, .events, .out, .free] s
    (tagFailed n refused place s) := by
  unfold tagFailed
  split
  · exact .refl
  · extract_lets
    split
    · exact .ite (copyFail_touches.after (onStarted_touches.after (readReturned_touches.after takeTag_touches.widen)))
        (returnToSender_touches.after (readReturned_touches.after takeTag_touches.widen))
    · exact .ite (endStarted_touches.after (onStarted_touches.after (readReturned_touches.after takeTag_touches.widen)))
        (returnToSender_touches.after (readReturned_touches.after takeTag_touches.widen))
    · exact fetchData_touches.after (readReturned_touches.after takeTag_touches.widen)
    · exact cancelLoad_touches.after (readReturned_touches.after takeTag_touches.widen)
    · exact .ite (faultLaunch_touches.after (readReturned_touches.after takeTag_touches.widen)) (endLaunch_touches.after
        (readReturned_touches.after takeTag_touches.widen))
    · refine .ite (hopRefused_touches.after (readReturned_touches.after takeTag_touches.widen)) ?_
      split
      · exact sendRelayDone_touches.after (dropHop_touches.after (readReturned_touches.after takeTag_touches.widen))
      · exact readReturned_touches.after takeTag_touches.widen
    · exact endLaunch_touches.after (readReturned_touches.after takeTag_touches.widen)
    · exact faultLaunch_touches.after (readReturned_touches.after takeTag_touches.widen)
    · exact postWaiting_touches.after (readReturned_touches.after takeTag_touches.widen)

theorem discardReport_touches {o : Origin} {p : Pkt} :
    Touches [.fns, .host, .lbs, .journal, .rings, .xlat, .dies, .fabric, .cells, .marks, .launches, .phs, .res, .events, .out, .free] s
    (discardReport o p s) := by
  unfold discardReport
  split
  · exact .ite returnToSender_touches.widen tagFailed_touches.widen
  · exact endLaunch_touches.widen
  · exact endLaunch_touches.widen
  · exact cancelLoad_touches.widen
  · split
    · exact sendRelayDone_touches.after dropHop_touches.widen
    · exact .refl
  · exact .ite tagFailed_touches.widen (.ite (.updates .refl (fun _ _ h => .updates h
      (fun _ _ h => returnToSender_touches.after h))) .refl)

theorem onArrival_touches {kind : Pkt → Bool} {f : Flight → State → State} {pid : Nat} (h :
    Touches F s t) (hf : ∀ a x, Touches F s x → Touches F s (f a x))
    (hK : [.fns, .host, .lbs, .journal, .post, .rings, .xlat, .dies, .fabric, .cells, .marks, .launches, .phs, .res, .events, .out,
    .free].all F.contains = true := by exact rfl) :
    Runs F s (onArrival kind f pid t) := by
  unfold onArrival
  split
  · exact .next h
  · split
    · split
      · exact .next (deadLetter_touches.within (dropFlight_touches.within h hK) hK)
      · refine .ite (.next h) ?_
        extract_lets
        split
        · exact .next (discardReport_touches.within (countDie_touches.within (dropFlight_touches.within h hK) hK) hK)
        · exact .next (hf _ _ (dropFlight_touches.within h hK))
    · exact .next h

theorem writePacket_touches {f : Flight} :
    Touches [.fns, .hostPorts, .lbs, .journal, .rings, .xlat, .dies, .fabric, .cells, .marks, .launches, .phs, .out] s (writePacket f s)
    := by
  unfold writePacket
  exact delivered_touches.after writeMem_touches.widen

theorem atomicPacket_touches {f : Flight} :
    Touches [.fns, .hostPorts, .lbs, .journal, .rings, .xlat, .dies, .fabric, .cells, .marks, .launches, .phs, .out] s (atomicPacket f s)
    := by
  unfold atomicPacket
  exact sendSealed_touches.after (.ite (delivered_touches.after atomicPerform_touches.widen) (localDone_touches.after
      (settleRun_touches.after atomicPerform_touches.widen)))

theorem holdOr_touches {f : Flight} {go : State → State} (h :
    Touches F s t) (hf : ∀ x, Touches F s x → Touches F s (go x)) (hK : [.dies].all F.contains = true := by exact rfl) :
    Touches F s (holdOr f go t) := by
  unfold holdOr
  exact .ite ((onDie_touches).within h hK) (hf _ h)

theorem deliverHeld_touches {f : Flight} :
    Touches [.fns, .hostPorts, .lbs, .journal, .post, .rings, .xlat, .dies, .fabric, .cells, .marks, .launches, .phs, .out, .free] s
    (deliverHeld f s) := by
  unfold deliverHeld
  exact .ite listArrive_touches.widen (.ite atomicPacket_touches.widen writePacket_touches.widen)

theorem releaseHolds_touches {d a1 : Nat} :
    Touches [.fns, .hostPorts, .lbs, .journal, .post, .rings, .xlat, .dies, .fabric, .cells, .marks, .launches, .phs, .out, .free] s
    (releaseHolds d a1 s) := by
  induction a1 generalizing d s with
  | zero => exact .refl
  | succ n ih =>
    unfold releaseHolds
    split
    · exact .refl
    · exact ih.after (deliverHeld_touches.after (onDie_touches).widen)

theorem settled_touches {d : Nat} :
    Touches [.fns, .hostPorts, .lbs, .journal, .post, .rings, .xlat, .dies, .fabric, .cells, .marks, .launches, .phs, .out, .free] s
    (settled d s) := by
  unfold settled
  exact releaseHolds_touches.widen

theorem locked_touches {f : Flight} {go : State → State} (h :
    Touches F s t) (hf : ∀ x, Touches F s x → Touches F s (go x))
    (hK : [.journal, .post, .dies, .fabric].all F.contains = true := by exact rfl) :
    Touches F s (locked f go t) := by
  unfold locked
  extract_lets
  split
  · exact refuse_touches.within h hK
  · exact hf _ h

theorem execDataPacketDelivery_touches {pid : Nat} :
    Runs [.fns, .hostPorts, .host, .lbs, .journal, .post, .rings, .xlat, .dies, .fabric, .cells, .marks, .launches, .phs, .res, .events,
    .out, .free] s (execDataPacketDelivery pid s) := by
  unfold execDataPacketDelivery
  exact onArrival_touches .refl (fun _ _ h => settled_touches.after (locked_touches h (fun _ h => holdOr_touches h
      (fun _ h => writePacket_touches.after h))))

theorem execAtomicPacket_touches {pid : Nat} :
    Runs [.fns, .hostPorts, .host, .lbs, .journal, .post, .rings, .xlat, .dies, .fabric, .cells, .marks, .launches, .phs, .res, .events,
    .out, .free] s (execAtomicPacket pid s) := by
  unfold execAtomicPacket
  exact onArrival_touches .refl (fun _ _ h => settled_touches.after (locked_touches h (fun _ h => holdOr_touches h
      (fun _ h => atomicPacket_touches.after h))))

theorem execPartialListArrival_touches {pid : Nat} :
    Runs [.fns, .hostPorts, .host, .lbs, .journal, .post, .rings, .xlat, .dies, .fabric, .cells, .marks, .launches, .phs, .res, .events,
    .out, .free] s (execPartialListArrival pid s) := by
  unfold execPartialListArrival
  exact onArrival_touches .refl (fun _ _ h => settled_touches.after (listArrive_touches.after h))

theorem execSelect_touches {ring count : Nat} :
    Runs [.fns, .hostPorts, .lbs, .journal, .post, .rings, .xlat, .dies, .fabric, .cells, .marks, .launches, .phs, .out, .free] s
    (execSelect ring count s) := by
  unfold execSelect
  exact onDesc_touches .refl (fun _ _ h => settled_touches.after (selectStep_touches.after h))

theorem execHoldDiscard_touches {die index : Nat} : Runs [.journal, .dies] s (execHoldDiscard die index s) := by
  unfold execHoldDiscard
  refine .ite (.next .refl) ?_
  split
  · exact .next .refl
  · exact .next (journalFrom_quiet.after (countDie_touches.after (onDie_touches).widen))

theorem readPacket_touches {f : Flight} : Touches [.journal, .dies, .fabric, .marks] s (readPacket f s) := by
  unfold readPacket
  exact sendSealed_touches.after (settleRun_touches.after readMem_touches.widen)

theorem execReadRequestPacket_touches {pid : Nat} :
    Runs [.fns, .hostPorts, .host, .lbs, .journal, .post, .rings, .xlat, .dies, .fabric, .cells, .marks, .launches, .phs, .res, .events,
    .out, .free] s (execReadRequestPacket pid s) := by
  unfold execReadRequestPacket
  exact onArrival_touches .refl (fun _ _ h => settled_touches.after (locked_touches h (fun _ h => readPacket_touches.after h)))

theorem lateResponse_touches {p : Pkt} {a1 : Option TagFor} : Touches [.dies] s (lateResponse p a1 s) := by
  unfold lateResponse
  exact countDie_touches.widen

theorem readData_touches {a1 : TagFor} {bytes : List Byte} {bad : List Bool} :
    Touches [.fns, .hostPorts, .host, .lbs, .journal, .rings, .xlat, .dies, .fabric, .images, .launches, .phs, .res, .events, .out, .free]
    s (readData a1 bytes bad s) := by
  unfold readData
  extract_lets
  split
  · exact copyData_touches.widen
  · exact .refl
  · exact fetchData_touches.widen
  · exact loadData_touches.widen
  · exact streamData_touches.widen
  · exact hopData_touches.widen
  · exact argsData_touches.widen
  · exact operandData_touches.widen
  · exact imageData_touches.widen

theorem responseArrive_touches {p : Pkt} :
    Touches [.fns, .hostPorts, .host, .lbs, .journal, .rings, .xlat, .dies, .fabric, .images, .launches, .phs, .res, .events, .out, .free]
    s (responseArrive p s) := by
  unfold responseArrive
  split
  · exact lateResponse_touches.widen
  · exact .ite (lateResponse_touches.after (readReturned_touches.after takeTag_touches.widen)) (readData_touches.after
      (readReturned_touches.after takeTag_touches.widen))

theorem execReadResponsePacket_touches {pid : Nat} :
    Runs [.fns, .hostPorts, .host, .lbs, .journal, .post, .rings, .xlat, .dies, .fabric, .cells, .marks, .images, .launches, .phs, .res,
    .events, .out, .free] s (execReadResponsePacket pid s) := by
  unfold execReadResponsePacket
  exact onArrival_touches .refl (fun _ _ h => responseArrive_touches.after h)

theorem atomicResponse_touches {p : Pkt} : Touches [.fns, .journal, .rings, .dies, .fabric, .out] s (atomicResponse p s) := by
  unfold atomicResponse
  extract_lets status u
  clear_value status
  split
  · have hu : Touches [.fns, .journal, .rings, .dies, .fabric, .out] s u := takeTag_touches.widen
    have hl {q : Option TagFor} : Touches [.fns, .journal, .rings, .dies, .fabric, .out] s
        (lateResponse p q u) := lateResponse_touches.after hu
    refine .ite ?_ (.ite (journalFrom_quiet.after hl) hl)
    split
    · exact hu
    · have ho {r c : Nat} {f : Started → Started} : Touches [.fns, .journal, .rings, .dies, .fabric, .out] s (onStarted r c f u) :=
        onStarted_touches.after hu
      dsimp only
      split
      · exact otherCheck_touches.after (onStarted_touches.after ho)
      · exact endStarted_touches.after (onStarted_touches.after (.ite ho (receiptArrived_touches.after ho)))
      · exact returnToSender_touches.after ho
  · exact lateResponse_touches.widen

theorem execAtomicResponsePacket_touches {pid : Nat} :
    Runs [.fns, .host, .lbs, .journal, .post, .rings, .xlat, .dies, .fabric, .cells, .marks, .launches, .phs, .res, .events, .out, .free] s
    (execAtomicResponsePacket pid s) := by
  unfold execAtomicResponsePacket
  exact onArrival_touches .refl (fun _ _ h => atomicResponse_touches.after h)

theorem execReceipt_touches {pid : Nat} :
    Runs [.fns, .hostPorts, .host, .lbs, .journal, .post, .rings, .xlat, .dies, .fabric, .cells, .marks, .launches, .phs, .res, .events,
    .out, .free] s (execReceipt pid s) := by
  unfold execReceipt
  exact onArrival_touches .refl (fun _ _ h => .ite h (.ite (countDie_touches.after h) (ringProgress_touches.after
      (receiptArrived_touches.after h))))

theorem lateRefusal_touches {p : Pkt} : Touches [.journal, .dies] s (lateRefusal p s) := by
  unfold lateRefusal
  exact journalFrom_quiet.after countDie_touches.widen

theorem refusedOther_touches {p : Pkt} :
    Touches [.host, .journal, .rings, .dies, .fabric, .cells, .marks, .launches, .phs, .res, .events, .out, .free] s (refusedOther p s) :=
    by
  unfold refusedOther
  split
  · exact hopRefused_touches.widen
  · split
    · exact faultLaunch_touches.widen
    · split
      · exact cancelLoad_touches.widen
      · exact lateRefusal_touches.widen

theorem refusalArrive_touches {p : Pkt} :
    Touches [.fns, .host, .lbs, .journal, .rings, .xlat, .dies, .fabric, .cells, .marks, .launches, .phs, .res, .events, .out, .free] s
    (refusalArrive p s) := by
  unfold refusalArrive
  refine .ite ?_ ?_
  · split
    · exact endStarted_touches.after onStarted_touches.widen
    · exact lateRefusal_touches.widen
  · refine .ite ?_ ?_
    · split
      · split
        · exact .ite tagFailed_touches.widen (lateRefusal_touches.after takeTag_touches.widen)
        · exact .refl
      · exact lateRefusal_touches.widen
    · split
      · split
        · exact .ite lateRefusal_touches.widen (endStarted_touches.after onStarted_touches.widen)
        · exact .refl
      · exact .ite lateRefusal_touches.widen refusedOther_touches.widen

theorem execRefusal_touches {pid : Nat} :
    Runs [.fns, .host, .lbs, .journal, .post, .rings, .xlat, .dies, .fabric, .cells, .marks, .launches, .phs, .res, .events, .out, .free] s
    (execRefusal pid s) := by
  unfold execRefusal
  exact onArrival_touches .refl (fun _ _ h => refusalArrive_touches.after h)

theorem execTallySetPacket_touches {pid : Nat} :
    Runs [.fns, .host, .lbs, .journal, .post, .rings, .xlat, .dies, .fabric, .cells, .marks, .launches, .phs, .res, .events, .out, .free] s
    (execTallySetPacket pid s) := by
  unfold execTallySetPacket
  exact onArrival_touches .refl (fun _ _ h => .ite (sendControl_touches.after (tallySet_touches.after h)) (refuse_touches.after h))

theorem execTallySetAck_touches {pid : Nat} :
    Runs [.fns, .host, .lbs, .journal, .post, .rings, .xlat, .dies, .fabric, .cells, .marks, .launches, .phs, .res, .events, .out, .free] s
    (execTallySetAck pid s) := by
  unfold execTallySetAck
  refine onArrival_touches .refl (fun _ _ h => ?_)
  extract_lets
  split
  · exact endStarted_touches.after (onStarted_touches.after h)
  · exact countDie_touches.after h

theorem execPhStopPacket_touches {pid : Nat} :
    Runs [.fns, .host, .lbs, .journal, .post, .rings, .xlat, .dies, .fabric, .cells, .marks, .launches, .phs, .res, .events, .out, .free] s
    (execPhStopPacket pid s) := by
  unfold execPhStopPacket
  exact onArrival_touches .refl (fun _ _ h => .ite (stopAtFrond_touches.after h) (.ite (stopSend_touches.after h) h))

theorem execPhStopDone_touches {pid : Nat} :
    Runs [.fns, .host, .lbs, .journal, .post, .rings, .xlat, .dies, .fabric, .cells, .marks, .launches, .phs, .res, .events, .out, .free] s
    (execPhStopDone pid s) := by
  unfold execPhStopDone
  exact onArrival_touches .refl (fun _ _ h => .ite (stopDone_touches.after h) h)

theorem execInvalidate_touches {pid : Nat} :
    Runs [.fns, .host, .lbs, .journal, .post, .rings, .xlat, .dies, .fabric, .cells, .marks, .launches, .phs, .res, .events, .out, .free] s
    (execInvalidate pid s) := by
  unfold execInvalidate
  refine onArrival_touches .refl (fun _ _ h => ?_)
  refine .ite h ?_
  split
  · exact sendControl_touches.after h
  · exact settleWaits_touches.after (beginInvalidate_touches.after h)

theorem broadcastAnswer_touches {m ctx : Nat} : Touches [.fns, .lbs, .journal, .out] s (broadcastAnswer m ctx s) := by
  unfold broadcastAnswer
  split
  · exact .refl
  · exact .ite (postWaiting_touches.after ((onLb_touches rfl).widen)) ((onLb_touches rfl).widen)

theorem execInvalidateDone_touches {pid : Nat} :
    Runs [.fns, .host, .lbs, .journal, .post, .rings, .xlat, .dies, .fabric, .cells, .marks, .launches, .phs, .res, .events, .out, .free] s
    (execInvalidateDone pid s) := by
  unfold execInvalidateDone
  exact onArrival_touches .refl (fun _ _ h => .ite (broadcastAnswer_touches.after h) h)

theorem execRelay_touches {pid : Nat} :
    Runs [.fns, .host, .lbs, .journal, .post, .rings, .xlat, .dies, .fabric, .cells, .marks, .launches, .phs, .res, .events, .out, .free] s
    (execRelay pid s) := by
  unfold execRelay
  exact onArrival_touches .refl (fun _ _ h => relayStep_touches.after h)

theorem execRelayDone_touches {pid : Nat} :
    Runs [.fns, .host, .lbs, .journal, .post, .rings, .xlat, .dies, .fabric, .cells, .marks, .launches, .phs, .res, .events, .out, .free] s
    (execRelayDone pid s) := by
  unfold execRelayDone
  exact onArrival_touches .refl (fun _ _ h => relayDone_touches.after h)

theorem execStewardIrq_touches {pid : Nat} :
    Runs [.fns, .host, .lbs, .journal, .post, .rings, .xlat, .dies, .fabric, .cells, .marks, .launches, .phs, .res, .events, .out, .free] s
    (execStewardIrq pid s) := by
  unfold execStewardIrq
  exact onArrival_touches .refl (fun _ _ h => emit_touches.after (onSteward_touches.after h))

/-! ### HotPages -/

theorem hotWrite_touches {i n : Nat} : Touches [.fns, .journal, .rings, .xlat, .dies, .fabric, .out] s (hotWrite i n s) := by
  induction n generalizing s with
  | zero => exact .refl
  | succ n ih =>
    unfold hotWrite
    split
    · exact .refl
    split
    · exact .refl
    refine .ite .refl ?_
    split
    · exact ih.after (.onXlat ((writeArray_touches.of_eq ‹_›).widen))
    · extract_lets
      split
      · exact ringError_touches.widen
      · exact ringWalk_touches.widen.getD .refl

theorem hotFlush_touches {r : Nat} : Touches [.fns, .journal, .rings, .xlat, .dies, .fabric, .out] s (hotFlush r s) := by
  unfold hotFlush
  refine .updates .refl (fun _ _ h => ?_)
  split
  · exact .ite (hotWrite_touches.after h) h
  · exact h

theorem windowEnd_touches {k ctx : Nat} : Touches [.fns, .journal, .rings, .xlat, .dies, .fabric, .out] s (windowEnd k ctx s) := by
  unfold windowEnd
  split
  · exact .refl
  · split
    · exact .refl
    · exact .ite .refl (.ite (.onXlat .refl) (.ite (.onXlat .refl) (hotFlush_touches.after (.onXlat .refl))))

/-! ### Walks -/

theorem walkAnswer_touches {ctx : Nat} {e : WalkEnd} {q : WalkFor} :
    Touches [.fns, .hostPorts, .lbs, .journal, .post, .rings, .pins, .xlat, .dies, .fabric, .marks, .launches, .phs, .out, .free] s
    (walkAnswer ctx e q s) := by
  unfold walkAnswer
  split
  · refine .ite .refl ?_
    split
    · exact .refl
    · extract_lets
      split
      · exact descResume_touches.after (.ite (onStarted_touches.after onStarted_touches.widen) onStarted_touches.widen)
      · exact pageMissing_touches.after onStarted_touches.widen
      · exact endStarted_touches.after onStarted_touches.widen
  · exact aheadAnswer_touches.widen
  · extract_lets
    split
    · exact onRing_touches.widen
    · exact ringError_touches.after onRing_touches.widen
    · exact onRing_touches.widen
    · exact ringError_touches.after onRing_touches.widen
  · split
    · exact hotFlush_touches.widen
    · exact .refl
    · exact ringError_touches.widen
  · exact pinResult_touches.widen
  · exact refreshResult_touches.widen
  · split
    · exact argsNext_touches.widen
    · exact endLaunch_touches.widen
    · exact endLaunch_touches.widen

theorem shareAts_touches {w : Walk} {l : Leaf} : Touches [.xlat] s (shareAts w l s) := by
  unfold shareAts
  refine .ite .refl ?_
  refine .updates .refl (fun _ _ h => ?_)
  split
  · split
    · exact .ite (installLeaf_touches.after h) h
    · exact h
  · exact h

theorem walkFinish_touches {d n : Nat} {e : WalkEnd} :
    Touches [.fns, .hostPorts, .lbs, .journal, .post, .rings, .pins, .xlat, .dies, .fabric, .marks, .launches, .phs, .out, .free] s
    (walkFinish d n e s) := by
  unfold walkFinish
  split
  · exact .refl
  · refine .updates ?_ (fun _ _ h => walkAnswer_touches.after h)
    split
    · exact shareAts_touches.after (installLeaf_touches.after onUnit_touches.widen)
    · exact onUnit_touches.widen

theorem walkMoved_touches {d n : Nat} {x : State × Option WalkEnd}
    (h : Touches [.fns, .hostPorts, .lbs, .journal, .post, .rings, .pins, .xlat, .dies, .fabric, .marks, .launches, .phs, .out, .free] s
        x.1) : Touches [.fns, .hostPorts, .lbs, .journal, .post, .rings, .pins, .xlat, .dies, .fabric, .marks, .launches, .phs, .out,
        .free] s (walkMoved d n x) := by
  unfold walkMoved
  split
  · exact walkFinish_touches.after h
  · exact h

theorem execTableWalk_touches {unit walk : Nat} :
    Runs [.fns, .hostPorts, .lbs, .journal, .post, .rings, .pins, .xlat, .dies, .fabric, .marks, .launches, .phs, .out, .free] s
        (execTableWalk unit walk s) :=
  .ite (.next .refl) (.next (walkMoved_touches walkAdvance_touches.widen))

theorem execHotpageWindowEnd_touches {port fn context : Nat} :
    Runs [.fns, .journal, .rings, .xlat, .dies, .fabric, .out] s (execHotpageWindowEnd port fn context s) := by
  unfold execHotpageWindowEnd
  exact .ite (.next .refl) (.next windowEnd_touches.widen)

theorem stopUnanswered_touches {lb : Nat} : Touches [.fns, .lbs, .journal, .res, .out] s (stopUnanswered lb s) := by
  unfold stopUnanswered
  exact .ite (postWaiting_touches.after (.onRes .refl)) .refl

theorem execBroadcastAnswerTimeout_touches {lb : Nat} : Runs [.fns, .lbs, .journal, .res, .out] s (execBroadcastAnswerTimeout lb s) := by
  unfold execBroadcastAnswerTimeout
  exact .ite (.next .refl) (.ite (.next postWaiting_touches.widen) (.next stopUnanswered_touches.widen))

/-! ### HostPort -/

theorem onHostSide_touches {port : Nat} {f : State → State} (h : Touches F s t) (hf : ∀ x, Touches F s x → Touches F s (f x)) :
    Runs F s (onHostSide port f t) := by
  unfold onHostSide
  exact .ite (.next (hf _ h)) (.next h)

theorem onFunction_touches {port fn : Nat} {f : Nat → State → State} (h :
    Touches F s t) (hf : ∀ a x, Touches F s x → Touches F s (f a x)) :
    Runs F s (onFunction port fn f t) := by
  unfold onFunction
  exact .ite (.next (hf _ _ h)) (.next h)

theorem hostAbort_touches {r c : Nat} : Touches [.rings] s (hostAbort r c s) := by
  unfold hostAbort
  exact endStarted_touches.after onStarted_touches.widen

theorem unsend_touches {p : Pkt} : Touches [.fns, .lbs, .journal, .rings, .xlat, .dies, .fabric, .out] s (unsend p s) := by
  unfold unsend
  refine .ite ?_ ?_
  · split
    · exact readReturned_touches.after takeTag_touches.widen
    · exact .refl
  · refine .ite ?_ ?_
    · refine releaseHeld_touches.after (onRing_touches.after ?_)
      split
      · exact readReturned_touches.after takeTag_touches.widen
      · exact .refl
    · refine .ite ?_ ?_
      · refine onRing_touches.after ?_
        split
        · exact readReturned_touches.after takeTag_touches.widen
        · exact .refl
      · refine .onFabric ?_
        split
        · exact readReturned_touches.after takeTag_touches.widen
        · exact .refl

theorem dropUninjected_touches {cs : List (Nat × Nat)} :
    Touches [.fns, .lbs, .journal, .rings, .xlat, .dies, .fabric, .out] s (dropUninjected cs s) := by
  unfold dropUninjected
  exact .updates (.onFabric .refl) (fun _ _ h => unsend_touches.after h)

theorem abortWalks_touches {k : Nat} :
    Touches [.fns, .hostPorts, .lbs, .journal, .post, .rings, .pins, .xlat, .dies, .fabric, .marks, .launches, .phs, .out, .free] s
    (abortWalks k s) := by
  unfold abortWalks
  exact .updates .refl (fun _ _ h => .updates h (fun _ _ h => .ite (onUnit_touches.after h) (walkFinish_touches.after h)))

theorem haltFn_touches {k : Nat} :
    Touches [.fns, .hostPorts, .lbs, .fw, .journal, .post, .rings, .pins, .xlat, .dies, .fabric, .marks, .launches, .phs, .out, .free] s
    (haltFn k s) := by
  unfold haltFn
  refine .updates (abortWalks_touches.after (.updates (onHostPort_touches.after (onFn_touches.after (dropUninjected_touches.after
      (.updates (.updates .refl (fun _ _ h => endLaunch_touches.after h)) (fun _ _ h => hostAbort_touches.after h)))))
      (fun _ _ h => ?_))) (fun _ _ h => ringRestate_touches.after (onRing_touches.after h))
  split
  · exact onRing_touches.after h
  · exact endLaunch_touches.after h
  · exact endLaunch_touches.after h
  · exact postWaiting_touches.after h
  · exact stageEnd_touches.after h
  · exact h

theorem resumeFn_touches {k : Nat} :
    Touches [.fns, .lbs, .journal, .rings, .xlat, .dies, .fabric, .cells, .marks, .out] s (resumeFn k s) := by
  unfold resumeFn
  exact .ite (msixFlush_touches.after (.updates .refl (fun _ _ h => hotFlush_touches.after (settleAll_touches.after
      (onRing_touches.after h))))) .refl

theorem setBusMaster_touches {k : Nat} {on : Bool} :
    Touches [.fns, .hostPorts, .lbs, .fw, .journal, .post, .rings, .pins, .xlat, .dies, .fabric, .cells, .marks, .launches, .phs, .out,
    .free] s (setBusMaster k on s) := by
  unfold setBusMaster
  exact .ite .refl (.ite (resumeFn_touches.after onFn_touches.widen) (haltFn_touches.after onFn_touches.widen))

theorem whenThere_touches {f : Nat → State → State} {k : Nat} (h : Touches F s t) (hf : ∀ a x, Touches F s x → Touches F s (f a x)) :
    Touches F s (whenThere f k t) := by
  unfold whenThere
  exact .ite (hf _ _ h) h

theorem execBusMasterEnableClear_touches {port fn : Nat} :
    Runs [.fns, .hostPorts, .lbs, .fw, .journal, .post, .rings, .pins, .xlat, .dies, .fabric, .cells, .marks, .launches, .phs, .out,
    .free] s (execBusMasterEnableClear port fn s) := by
  unfold execBusMasterEnableClear
  exact onFunction_touches .refl (fun _ _ h => whenThere_touches h (fun _ _ h => setBusMaster_touches.after h))

theorem execBusMasterEnableSet_touches {port fn : Nat} :
    Runs [.fns, .hostPorts, .lbs, .fw, .journal, .post, .rings, .pins, .xlat, .dies, .fabric, .cells, .marks, .launches, .phs, .out,
    .free] s (execBusMasterEnableSet port fn s) := by
  unfold execBusMasterEnableSet
  exact onFunction_touches .refl (fun _ _ h => whenThere_touches h (fun _ _ h => setBusMaster_touches.after h))

theorem enterD3_touches {k : Nat} :
    Touches [.fns, .hostPorts, .lbs, .fw, .journal, .post, .rings, .pins, .xlat, .dies, .fabric, .marks, .launches, .phs, .out, .free] s
    (enterD3 k s) := by
  unfold enterD3
  exact .ite .refl (haltFn_touches.after onFn_touches.widen)

theorem returnD0_touches {k : Nat} :
    Touches [.fns, .lbs, .journal, .rings, .xlat, .dies, .fabric, .cells, .marks, .out] s (returnD0 k s) := by
  unfold returnD0
  exact .ite (resumeFn_touches.after onFn_touches.widen) .refl

theorem execD3hotEntry_touches {port fn : Nat} :
    Runs [.fns, .hostPorts, .lbs, .fw, .journal, .post, .rings, .pins, .xlat, .dies, .fabric, .marks, .launches, .phs, .out, .free] s
    (execD3hotEntry port fn s) := by
  unfold execD3hotEntry
  exact onFunction_touches .refl (fun _ _ h => whenThere_touches h (fun _ _ h => enterD3_touches.after h))

theorem execD0Return_touches {port fn : Nat} :
    Runs [.fns, .lbs, .journal, .rings, .xlat, .dies, .fabric, .cells, .marks, .out] s (execD0Return port fn s) := by
  unfold execD0Return
  exact onFunction_touches .refl (fun _ _ h => whenThere_touches h (fun _ _ h => returnD0_touches.after h))

theorem flrLetterbox_touches {k : Nat} : Touches [.power, .time, .fns, .lbs, .journal, .rings, .disc, .out] s (flrLetterbox k s) := by
  unfold flrLetterbox
  extract_lets
  split
  · exact abortCommand_touches.after ((onLb_touches rfl).widen)
  · exact abortCommand_touches.after ((onLb_touches rfl).widen)
  · exact (onLb_touches rfl).widen

theorem flrBegin_touches {k : Nat} :
    Touches [.power, .time, .fns, .hostPorts, .lbs, .fw, .journal, .post, .rings, .pins, .xlat, .dies, .fabric, .marks, .launches, .phs,
    .disc, .out, .free] s (flrBegin k s) := by
  unfold flrBegin
  exact .ite .refl (haltFn_touches.after (flrLetterbox_touches.after onFn_touches.widen))

theorem clearVfs_touches {port : Nat} :
    Touches [.power, .time, .fns, .hostPorts, .lbs, .fw, .journal, .post, .rings, .pins, .xlat, .dies, .fabric, .marks, .launches, .phs,
    .disc, .out, .free] s (clearVfs port s) := by
  unfold clearVfs
  exact onFn_touches.after (.updates .refl (fun _ _ h => flrBegin_touches.after h))

theorem flrStart_touches {k : Nat} :
    Touches [.power, .time, .fns, .hostPorts, .lbs, .fw, .journal, .post, .rings, .pins, .xlat, .dies, .fabric, .marks, .launches, .phs,
    .disc, .out, .free] s (flrStart k s) := by
  unfold flrStart
  exact .ite .refl (flrBegin_touches.after (.ite clearVfs_touches.widen .refl))

theorem flrTranslations_touches {k : Nat} :
    Touches [.fns, .hostPorts, .lbs, .journal, .post, .rings, .pins, .xlat, .dies, .fabric, .marks, .launches, .phs, .out, .free] s
    (flrTranslations k s) := by
  unfold flrTranslations
  exact .updates (onFn_touches.after (.updates .refl (fun _ _ h => .updates h (fun _ _ h => walkFinish_touches.after h))))
      (fun _ _ h => forgetCtx_touches.after h)

theorem flrRelease_touches {k : Nat} :
    Touches [.fns, .host, .lbs, .journal, .rings, .pins, .xlat, .dies, .fabric, .cells, .marks, .launches, .phs, .res, .events, .out,
    .free] s (flrRelease k s) := by
  unfold flrRelease
  exact journal_quiet.after (.updates (.onXlat (.updates .refl (fun _ _ h => freeRing_touches.after (journal_quiet.after h))))
      (fun _ _ h => releaseClaim_touches.after h))

theorem flrRegisters_touches {k : Nat} :
    Touches [.fns, .hostPorts, .lbs, .frames, .journal, .xlat, .fabric, .out] s (flrRegisters k s) := by
  unfold flrRegisters
  exact .updates (onHostPort_touches.after (onLb_touches_frames.after onFn_touches.widen)) (fun _ _ h => readReturned_touches.after h)

theorem flrFinish_touches {k : Nat} :
    Touches [.fns, .hostPorts, .host, .lbs, .frames, .journal, .post, .rings, .pins, .xlat, .dies, .fabric, .cells, .marks, .launches,
    .phs, .res, .events, .out, .free] s (flrFinish k s) := by
  unfold flrFinish
  exact .ite (flrRegisters_touches.after (flrRelease_touches.after flrTranslations_touches.widen)) .refl

theorem execInitiateFlr_touches {port fn : Nat} :
    Runs [.power, .time, .fns, .hostPorts, .lbs, .fw, .journal, .post, .rings, .pins, .xlat, .dies, .fabric, .marks, .launches, .phs,
    .disc, .out, .free] s (execInitiateFlr port fn s) := by
  unfold execInitiateFlr
  exact onFunction_touches .refl (fun _ _ h => whenThere_touches h (fun _ _ h => flrStart_touches.after h))

theorem execFlrReadsDone_touches {port fn : Nat} :
    Runs [.fns, .hostPorts, .host, .lbs, .frames, .journal, .post, .rings, .pins, .xlat, .dies, .fabric, .cells, .marks, .launches, .phs,
    .res, .events, .out, .free] s (execFlrReadsDone port fn s) := by
  unfold execFlrReadsDone
  exact onFunction_touches .refl (fun _ _ h => .ite (.updates h (fun _ _ h => flrFinish_touches.after h)) h)

theorem setVfs_touches {port : Nat} : Touches [.fns] s (setVfs port s) := by
  unfold setVfs
  exact onFn_touches.widen

theorem execVfEnableSet_touches {port : Nat} : Runs [.fns] s (execVfEnableSet port s) := by
  unfold execVfEnableSet
  exact onHostSide_touches .refl (fun _ h => .ite (setVfs_touches.after h) h)

theorem execVfEnableClear_touches {port : Nat} :
    Runs [.power, .time, .fns, .hostPorts, .lbs, .fw, .journal, .post, .rings, .pins, .xlat, .dies, .fabric, .marks, .launches, .phs,
    .disc, .out, .free] s (execVfEnableClear port s) := by
  unfold execVfEnableClear
  exact onHostSide_touches .refl (fun _ h => .ite (clearVfs_touches.after h) h)

theorem linkDown_touches {port : Nat} :
    Touches [.power, .time, .fns, .hostPorts, .host, .lbs, .frames, .fw, .journal, .post, .rings, .pins, .xlat, .dies, .fabric, .cells,
    .marks, .launches, .phs, .res, .disc, .events, .out, .free] s (linkDown port s) := by
  unfold linkDown
  exact .ite .refl (.updates (onHostPort_touches.after (.updates (.updates .refl (fun _ _ h => flrBegin_touches.after h))
      (fun _ _ h => flrFinish_touches.after h))) (fun _ _ h => readReturned_touches.after h))

theorem trainHost_touches {port : Nat} : Touches [.hostPorts] s (trainHost port s) := by
  unfold trainHost
  exact .ite onHostPort_touches.widen .refl

theorem execHostPortTraining_touches {port : Nat} : Runs [.hostPorts] s (execHostPortTraining port s) := by
  unfold execHostPortTraining
  exact onHostSide_touches .refl (fun _ h => trainHost_touches.after (onHostPort_touches.after h))

theorem execPerstAssert_touches {port : Nat} :
    Runs [.power, .time, .fns, .hostPorts, .host, .lbs, .frames, .fw, .journal, .post, .rings, .pins, .xlat, .dies, .fabric, .cells,
    .marks, .launches, .phs, .res, .disc, .events, .out, .free] s (execPerstAssert port s) := by
  unfold execPerstAssert
  exact onHostSide_touches .refl (fun _ h => linkDown_touches.after (onHostPort_touches.after h))

theorem execHostLinkDown_touches {port : Nat} :
    Runs [.power, .time, .fns, .hostPorts, .host, .lbs, .frames, .fw, .journal, .post, .rings, .pins, .xlat, .dies, .fabric, .cells,
    .marks, .launches, .phs, .res, .disc, .events, .out, .free] s (execHostLinkDown port s) := by
  unfold execHostLinkDown
  exact onHostSide_touches .refl (fun _ h => .ite (linkDown_touches.after (journalRule_quiet.after h)) h)

theorem setPri_touches {on : Bool} {k : Nat} : Touches [.fns] s (setPri on k s) := by
  unfold setPri
  exact onFn_touches.widen

theorem cfgWrite_touches {k : Nat} {reg : CfgReg} {v : Nat} :
    Touches [.power, .time, .fns, .hostPorts, .lbs, .fw, .journal, .post, .rings, .pins, .xlat, .dies, .fabric, .cells, .marks,
    .launches, .phs, .disc, .out, .free] s (cfgWrite k reg v s) := by
  unfold cfgWrite
  refine .ite .refl ?_
  split
  · exact .ite onFn_touches.widen .refl
  · exact .ite .refl (.ite setVfs_touches.widen clearVfs_touches.widen)
  · exact .ite onFn_touches.widen .refl
  · exact .ite onFn_touches.widen .refl
  · exact .ite onFn_touches.widen .refl
  · exact onFn_touches.widen
  · exact .ite .refl onFn_touches.widen
  · exact .ite .refl setPri_touches.widen
  · exact .ite .refl onFn_touches.widen
  · exact .ite .refl (msixFlush_touches.after onFn_touches.widen)
  · exact .ite .refl (msixFlush_touches.after onFn_touches.widen)
  · exact setBusMaster_touches.widen
  · exact .ite enterD3_touches.widen (.ite returnD0_touches.widen .refl)
  · exact .ite flrStart_touches.widen .refl
  · exact onFn_touches.widen
  · exact onFn_touches.widen
  · exact onFn_touches.widen
  · exact onFn_touches.widen
  · exact .ite onFn_touches.widen .refl
  · exact .ite onFn_touches.widen .refl
  · exact .ite onFn_touches.widen .refl
  · exact .ite onFn_touches.widen .refl
  · exact .ite onFn_touches.widen .refl
  · exact .ite onFn_touches.widen .refl
  · exact .ite onFn_touches.widen .refl
  · exact .ite onFn_touches.widen .refl
  · exact .refl

theorem configRequest_touches {k : Nat} {write : Bool} {reg : CfgReg} {v : Nat} :
    Touches [.power, .time, .fns, .hostPorts, .lbs, .fw, .journal, .post, .rings, .pins, .xlat, .dies, .fabric, .cells, .marks,
    .launches, .phs, .disc, .out, .free] s (configRequest k write reg v s) := by
  unfold configRequest
  exact .ite .refl (.ite emit_touches.widen (.ite emit_touches.widen (.ite (emit_touches.after cfgWrite_touches.widen)
      emit_touches.widen)))

theorem execConfigRequest_touches {port fn : Nat} {write : Bool} {reg : CfgReg} {value : Nat} :
    Runs [.power, .time, .fns, .hostPorts, .lbs, .fw, .journal, .post, .rings, .pins, .xlat, .dies, .fabric, .cells, .marks, .launches,
    .phs, .disc, .out, .free] s (execConfigRequest port fn write reg value s) := by
  unfold execConfigRequest
  exact onFunction_touches .refl (fun _ _ h => configRequest_touches.after h)

theorem execPriEnableToggle_touches {port fn : Nat} : Runs [.fns] s (execPriEnableToggle port fn s) := by
  unfold execPriEnableToggle
  exact onFunction_touches .refl (fun _ _ h => whenThere_touches h (fun _ _ h => .ite h (setPri_touches.after (setPri_touches.after h))))

theorem msixUnmask_touches {what : Unmask} {k : Nat} :
    Touches [.power, .time, .fns, .hostPorts, .lbs, .fw, .journal, .post, .rings, .pins, .xlat, .dies, .fabric, .cells, .marks,
    .launches, .phs, .disc, .out, .free] s (msixUnmask what k s) := by
  unfold msixUnmask
  split
  · exact barWrite_touches .refl (fun _ h => noDiag_touches h (fun _ h => msixFlush_touches.after (onFn_touches.after h)))
  · exact cfgWrite_touches.widen
  · exact cfgWrite_touches.widen
  · exact setBusMaster_touches.widen

theorem execMsixUnmask_touches {port fn : Nat} {what : Unmask} :
    Runs [.power, .time, .fns, .hostPorts, .lbs, .fw, .journal, .post, .rings, .pins, .xlat, .dies, .fabric, .cells, .marks, .launches,
    .phs, .disc, .out, .free] s (execMsixUnmask port fn what s) := by
  unfold execMsixUnmask
  exact .ite (.next .refl) (onFunction_touches .refl (fun _ _ h => whenThere_touches h (fun _ _ h => msixUnmask_touches.after h)))

theorem execBadSizeAccess_touches {port fn bar offset size : Nat} {write : Bool} :
    Runs [.hostPorts, .journal, .out] s (execBadSizeAccess port fn bar offset size write s) := by
  unfold execBadSizeAccess
  exact .ite (.next .refl) (onFunction_touches .refl (fun _ _ h => .ite h (badAccess_touches.after h)))

theorem hwEvents_touches {n hw : Nat} {f : Nat → State → State} (h : Touches F s t) (hf : ∀ a x, Touches F s x → Touches F s (f a x)) :
    Touches F s (hwEvents n hw f t) := by
  unfold hwEvents
  exact .updates h hf

theorem ringPageWrite_touches {r off value hw : Nat} : Touches [.journal, .rings] s (ringPageWrite r off value hw s) := by
  unfold ringPageWrite
  exact .ite ringDoorbell_touches.widen (.ite cqConsume_touches.widen (.ite onRing_touches.widen .refl))

theorem lbWrite_touches {k off size value hw : Nat} :
    Touches [.power, .time, .fns, .lbs, .frames, .journal, .post, .rings, .disc, .out] s (lbWrite k off size value hw s) := by
  unfold lbWrite
  exact .ite doorbell_touches.widen (.ite (.ite abortCommand_touches.widen .refl) (.ite (.when (.when resultClear_touches.widen
      (fun _ h => lbOverrun_touches.after h)) (fun _ h => (onLb_touches rfl).after h)) (.ite frameWrite_touches.widen .refl)))

theorem bar0Write_touches {k off size value hw : Nat} :
    Touches [.power, .time, .fns, .host, .lbs, .frames, .journal, .post, .rings, .disc, .out] s (bar0Write k off size value hw s) := by
  unfold bar0Write
  refine .ite (.ite lbWrite_touches.widen .refl) ?_
  refine .ite (hwEvents_touches onFn_touches.widen (fun _ _ h => fnEvent_touches.after h)) ?_
  refine .ite lbWrite_touches.widen ?_
  refine .ite onFn_touches.widen ?_
  refine .ite onFn_touches.widen ?_
  refine .ite onFn_touches.widen ?_
  refine .ite (hwEvents_touches (.onHost .refl) (fun _ _ h => modEvent_touches.after h)) ?_
  refine .ite ?_ .refl
  split
  · exact ringPageWrite_touches.widen
  · exact .refl

theorem bar2Write_touches {k off size value : Nat} : Touches [.fns, .out] s (bar2Write k off size value s) := by
  unfold bar2Write
  exact .ite .refl (.ite (.ite (msixWrite_touches.after (.ite msixWrite_touches.widen .refl)) (.ite msixWrite_touches.widen .refl))
      (.ite msixWrite_touches.widen .refl))

theorem registerWrite_touches {k bar off size value hw : Nat} :
    Touches [.power, .time, .fns, .hostPorts, .host, .lbs, .frames, .journal, .post, .rings, .disc, .out] s (registerWrite k bar off size
    value hw s) := by
  unfold registerWrite
  exact .ite badAccess_touches.widen (barWrite_touches .refl (fun _ h => .ite (bar2Write_touches.after h) (.ite h
      (bar0Write_touches.after h))))

theorem execRegisterWrite_touches {port fn bar offset size value hwSet : Nat} :
    Runs [.power, .time, .fns, .hostPorts, .host, .lbs, .frames, .journal, .post, .rings, .disc, .out] s (execRegisterWrite port fn bar
    offset size value hwSet s) := by
  unfold execRegisterWrite
  exact .ite (.next .refl) (onFunction_touches .refl (fun _ _ h => registerWrite_touches.after h))

theorem readArrived_touches {r : HostRead} {e : ReadEnd} {data : List Byte} :
    Touches [.fns, .hostPorts, .lbs, .fw, .journal, .post, .rings, .pins, .xlat, .dies, .fabric, .marks, .images, .launches, .phs, .res,
        .out,
      .free] s (readArrived r e data s) := by
  unfold readArrived
  dsimp only
  split
  · exact fetchData_touches.widen
  · exact .ite copyFail_touches.widen copyData_touches.widen
  · exact (walkMoved_touches walkData_touches.widen).widen
  · exact .ite postWaiting_touches.widen imageData_touches.widen
  · exact .ite stageData_touches.widen stageEnd_touches.widen
  · exact .ite argsData_touches.widen endLaunch_touches.widen
  · exact .ite endLaunch_touches.widen operandData_touches.widen

theorem kickReads_touches :
    Touches [.fns, .hostPorts, .lbs, .fw, .journal, .rings, .xlat, .dies, .fabric, .images, .launches, .phs, .res, .out] s (kickReads s)
    := by
  unfold kickReads
  refine .updates (.updates .refl (fun _ _ h => stageNext_touches.after (imageNext_touches.after h)))
      (fun _ _ h => operandKick_touches.after ?_)
  split
  · exact .ite (argsNext_touches.after h) h
  · exact h

theorem readEnded_touches {port tag : Nat} {r : HostRead} {e : ReadEnd} {data : List Byte} :
    Touches [.fns, .hostPorts, .lbs, .fw, .journal, .post, .rings, .pins, .xlat, .dies, .fabric, .marks, .images, .launches, .phs, .res,
    .out, .free] s (readEnded port tag r e data s) := by
  unfold readEnded
  exact kickReads_touches.after (readReturned_touches.after (.ite onHostPort_touches.widen
      (readArrived_touches.after onHostPort_touches.widen)))

theorem unexpected_touches {port : Nat} : Touches [.hostPorts, .journal, .out] s (unexpected port s) := by
  unfold unexpected
  exact aer_touches.widen

theorem onRead_touches {port tag : Nat} {f : HostRead → State → State} {miss : State → State} (h :
    Touches F s t) (hf1 : ∀ a x, Touches F s x → Touches F s (f a x)) (hf2 : ∀ x, Touches F s x → Touches F s (miss x)) :
    Runs F s (onRead port tag f miss t) := by
  unfold onRead
  refine onHostSide_touches h (fun _ h => ?_)
  refine .ite h ?_
  split
  · exact hf1 _ _ h
  · exact hf2 _ h

theorem execHostReadCompletion_touches {port tag : Nat} {status : CplStatus} {data : List Byte} :
    Runs [.fns, .hostPorts, .lbs, .fw, .journal, .post, .rings, .pins, .xlat, .dies, .fabric, .marks, .images, .launches, .phs, .res,
    .out, .free] s (execHostReadCompletion port tag status data s) := by
  unfold execHostReadCompletion
  exact onRead_touches .refl (fun _ _ h => .ite (readEnded_touches.after h) (readEnded_touches.after (aer_touches.after h)))
      (fun _ h => unexpected_touches.after h)

theorem execCompletionTimeout_touches {port tag : Nat} :
    Runs [.fns, .hostPorts, .lbs, .fw, .journal, .post, .rings, .pins, .xlat, .dies, .fabric, .marks, .images, .launches, .phs, .res,
    .out, .free] s (execCompletionTimeout port tag s) := by
  unfold execCompletionTimeout
  exact onRead_touches .refl (fun _ _ h => .ite h (readEnded_touches.after (aer_touches.after h))) (fun _ h => h)

theorem execPoisonedCompletion_touches {port tag : Nat} {data : List Byte} :
    Runs [.fns, .hostPorts, .lbs, .fw, .journal, .post, .rings, .pins, .xlat, .dies, .fabric, .marks, .images, .launches, .phs, .res,
    .out, .free] s (execPoisonedCompletion port tag data s) := by
  unfold execPoisonedCompletion
  exact onRead_touches .refl (fun _ _ h => readEnded_touches.after (aer_touches.after h)) (fun _ h => unexpected_touches.after h)

theorem execUnexpectedCompletion_touches {port tag : Nat} :
    Runs [.hostPorts, .journal, .out] s (execUnexpectedCompletion port tag s) := by
  unfold execUnexpectedCompletion
  exact onRead_touches .refl (fun _ _ h => h) (fun _ h => unexpected_touches.after h)

theorem execMalformedTlp_touches {port : Nat} : Runs [.hostPorts, .journal, .out] s (execMalformedTlp port s) := by
  unfold execMalformedTlp
  exact onHostSide_touches .refl (fun _ h => .ite h (aer_touches.after h))

theorem execCorrectableLinkError_touches {port kind : Nat} :
    Runs [.hostPorts, .journal, .out] s (execCorrectableLinkError port kind s) := by
  unfold execCorrectableLinkError
  exact .ite (.next .refl) (onHostSide_touches .refl (fun _ h => .ite h (aer_touches.after h)))

theorem unsupportedRequest_touches {k : Nat} : Touches [.hostPorts, .journal, .out] s (unsupportedRequest k s) := by
  unfold unsupportedRequest
  exact emit_touches.after aer_touches.widen

theorem hostUnsupported_touches {k : Nat} : Touches [.hostPorts, .journal, .out] s (hostUnsupported k s) := by
  unfold hostUnsupported
  exact .ite unsupportedRequest_touches.widen unreachableFn_touches.widen

theorem atsInvalidate_touches {k pasid va len : Nat} :
    Touches [.fns, .hostPorts, .lbs, .journal, .rings, .xlat, .fabric, .out] s (atsInvalidate k pasid va len s) := by
  unfold atsInvalidate
  refine .ite unsupportedRequest_touches.widen ?_
  split
  · exact .ite (settleWaits_touches.after beginInvalidate_touches.widen) emit_touches.widen
  · exact emit_touches.widen

theorem execAtsInvalidationRequest_touches {port fn pasid va length : Nat} :
    Runs [.fns, .hostPorts, .lbs, .journal, .rings, .xlat, .fabric, .out] s (execAtsInvalidationRequest port fn pasid va length s) := by
  unfold execAtsInvalidationRequest
  exact onFunction_touches .refl (fun _ _ h => whenThere_touches h (fun _ _ h => atsInvalidate_touches.after h))

theorem pageAnswer_touches {k index : Nat} {f : PageReq → State → State} (h :
    Touches F s t) (hf : ∀ a x, Touches F s x → Touches F s (f a x)) (hK : [.fns, .rings].all F.contains = true := by exact rfl) :
    Touches F s (pageAnswer k index f t) := by
  unfold pageAnswer
  split
  · exact h
  · extract_lets
    split
    · exact .ite (onFn_touches.within h hK) (hf _ _ (onStarted_touches.within (onFn_touches.within h hK) hK))
    · exact onFn_touches.within h hK

theorem pageUnresolved_touches {q : PageReq} : Touches [.journal, .rings] s (pageUnresolved q s) := by
  unfold pageUnresolved
  exact endStarted_touches.after journalRule_quiet.widen

theorem pageResume_touches {q : PageReq} :
    Touches [.fns, .hostPorts, .lbs, .journal, .post, .rings, .xlat, .dies, .fabric, .marks, .launches, .phs, .out, .free] s (pageResume
    q s) := by
  unfold pageResume
  split
  · exact .refl
  · exact .ite copyWalk_touches.widen descResume_touches.widen

theorem pageResponse_touches {k index : Nat} {code : PageCode} :
    Touches [.fns, .hostPorts, .lbs, .journal, .post, .rings, .xlat, .dies, .fabric, .marks, .launches, .phs, .out, .free] s
    (pageResponse k index code s) := by
  unfold pageResponse
  refine pageAnswer_touches .refl (fun _ _ h => ?_)
  split
  · exact pageResume_touches.after (dropLeaves_touches.after h)
  · exact pageUnresolved_touches.after h
  · exact pageUnresolved_touches.after (onFn_touches.after h)

theorem execPageResponse_touches {port fn index : Nat} {code : PageCode} :
    Runs [.fns, .hostPorts, .lbs, .journal, .post, .rings, .xlat, .dies, .fabric, .marks, .launches, .phs, .out, .free] s
    (execPageResponse port fn index code s) := by
  unfold execPageResponse
  exact onFunction_touches .refl (fun _ _ h => whenThere_touches h (fun _ _ h => pageResponse_touches.after h))

theorem execPageResponseTimeout_touches {port fn index : Nat} :
    Runs [.fns, .journal, .rings] s (execPageResponseTimeout port fn index s) := by
  unfold execPageResponseTimeout
  exact onFunction_touches .refl (fun _ _ h => pageAnswer_touches h (fun _ _ h => pageUnresolved_touches.after h))

/-! ### Failover -/

theorem dropPinWalks_touches {lb : Nat} : Touches [.xlat] s (dropPinWalks lb s) := by
  unfold dropPinWalks
  exact .onXlat .refl

theorem pinSafePoint_touches {lb : Nat} : Touches [.fns, .lbs, .journal, .pins, .xlat, .out] s (pinSafePoint lb s) := by
  unfold pinSafePoint
  exact pinNext_touches.after ((onLb_touches rfl).after (.updates dropPinWalks_touches.widen (fun _ _ h => unpinPage_touches.after h)))

theorem fromSafePoint_touches {lb : Nat} :
    Touches [.fns, .hostPorts, .lbs, .fw, .journal, .pins, .xlat, .dies, .fabric, .images, .res, .out] s (fromSafePoint lb s) := by
  unfold fromSafePoint
  exact .ite (imageNext_touches.after ((onLb_touches rfl).widen)) (.ite (stageNext_touches.after ((onLb_touches rfl).widen))
      (.ite pinSafePoint_touches.widen .refl))

theorem settleRunning_touches {lb : Nat} :
    Touches [.fns, .hostPorts, .host, .lbs, .fw, .journal, .rings, .pins, .xlat, .dies, .fabric, .cells, .marks, .images, .launches,
    .phs, .res, .events, .out, .free] s (settleRunning lb s) := by
  unfold settleRunning
  refine .ite .refl ?_
  refine .ite fromSafePoint_touches.widen ?_
  refine .ite postResult_touches.widen ?_
  split
  · exact cancelCommit_touches.widen
  · exact pinFail_touches.after dropPinWalks_touches.widen
  · exact postWaiting_touches.widen
  · split
    · exact evict_touches.after onPh_touches.widen
    · exact .refl
  · exact .refl

theorem requestPiece_touches : Touches [.out] s (requestPiece s) := by
  unfold requestPiece
  exact emit_touches.widen

theorem keepPieces_touches {n : Nat} :
    Touches [.events,
        .mgmt] s (onMgmt (fun m => { m with updateData := m.updateData.take (m.updateData.length / n * n) }) s) := .onMgmt .refl

theorem resumeUpdate_touches : Touches [.events, .mgmt, .out] s (resumeUpdate s) := by
  unfold resumeUpdate
  exact .ite .refl (requestPiece_touches.after keepPieces_touches.widen)

theorem moveRole_touches {toE8 : Bool} : Touches [.lbs, .post] s (moveRole toE8 s) := by
  unfold moveRole
  exact .updates (.onPost .refl) (fun _ _ h => (onLb_touches rfl).after h)

theorem announceRole_touches : Touches [.fns, .host, .lbs, .journal, .spdm, .events, .mgmt, .out] s (announceRole s) := by
  unfold announceRole
  exact modEvent_touches.after (fnEventAll_touches.after (countMgmt_touches.after (resumeUpdate_touches.after (.onMgmt
      (journal_touches.after (.updates .refl (fun _ _ h => (onLb_touches rfl).after h)))))))

theorem takeRole_touches {toE8 : Bool} : Touches [.fns, .host, .lbs, .journal, .post, .spdm, .events, .mgmt, .out] s (takeRole toE8 s) := by
  unfold takeRole
  exact announceRole_touches.after moveRole_touches.widen

theorem plannedHandover_touches {toE8 : Bool} :
    Touches [.fns, .hostPorts, .host, .lbs, .fw, .journal, .post, .pins, .xlat, .dies, .fabric, .images, .res, .spdm, .events, .mgmt,
        .out] s
    (plannedHandover toE8 s) := by
  unfold plannedHandover
  exact announceRole_touches.after (.updates moveRole_touches.widen (fun _ _ h => fromSafePoint_touches.after h))

theorem unplannedFailover_touches :
    Touches [.fns, .hostPorts, .host, .lbs, .fw, .journal, .post, .rings, .pins, .xlat, .dies, .fabric, .cells, .marks, .images,
    .launches, .phs, .res, .spdm, .events, .mgmt, .out, .free] s (unplannedFailover s) := by
  unfold unplannedFailover
  exact .ite .refl (announceRole_touches.after (journalDeferred_touches.after (.updates (moveRole_touches.after (.onPost .refl))
      (fun _ _ h => settleRunning_touches.after h))))

theorem execUnplannedFailover_touches :
    Runs [.fns, .hostPorts, .host, .lbs, .fw, .journal, .post, .rings, .pins, .xlat, .dies, .fabric, .cells, .marks, .images, .launches,
    .phs, .res, .spdm, .events, .mgmt, .out, .free] s (execUnplannedFailover s) := by
  unfold execUnplannedFailover
  exact .next (.when .refl (fun _ h => unplannedFailover_touches.after h))

theorem e0Restart_touches {passed : Bool} : Touches [.post] s (e0Restart passed s) := by
  unfold e0Restart
  exact .ite .refl (.ite (.onPost .refl) (.onPost .refl))

theorem execE0Restart_touches {passed : Bool} : Runs [.post] s (execE0Restart passed s) := by
  unfold execE0Restart
  exact .next e0Restart_touches.widen

theorem execStandbyLost_touches : Runs [.host, .journal, .post, .events, .out] s (execStandbyLost s) := by
  unfold execStandbyLost
  exact .next (.ite (journal_touches.after (.onPost .refl)) .refl)

theorem execPostmasterHeartbeat_touches : Runs [.power, .post] s (execPostmasterHeartbeat s) := by
  unfold execPostmasterHeartbeat
  exact .next (.ite (.onPower (.onPost .refl)) .refl)

/-! ### CmdFirmware -/

theorem execFwQuery_touches {lb : Nat} : Runs [.fns, .lbs, .journal, .out] s (execFwQuery lb s) := by
  unfold execFwQuery
  exact runCmd_touches .refl (fun _ _ _ h => .done h)

theorem fwStageStart_touches {ok : Bool} {who : Option Nat} {a : List Byte} : CmdTouches [.lbs, .fw] s (fwStageStart ok who a s) := by
  unfold fwStageStart
  exact .ite (.done .refl) (.ite (.done .refl) (.wait ((onLb_touches rfl).after onInactive_touches.widen)))

theorem execFwStage_touches {lb : Nat} {mramOk : Bool} :
    Runs [.fns, .hostPorts, .lbs, .fw, .journal, .out] s (execFwStage lb mramOk s) := by
  unfold execFwStage
  exact Runs.andThen (runCmd_touches .refl fun _ _ _ h => fwStageStart_touches.after h) fun _ h => .ite (stageNext_touches.after h) h

theorem markVerified_touches : Touches [.fw] s (markVerified s) := by
  unfold markVerified
  exact onInactive_touches.widen

theorem fwVerify_touches {who : Option Nat} {a1 : List Byte} : CmdTouches [.fw] s (fwVerify who a1 s) := by
  unfold fwVerify
  refine .ite (.done .refl) ?_
  refine .ite (.done .refl) ?_
  split
  · exact .done .refl
  · exact .done markVerified_touches.widen

theorem execFwVerify_touches {lb : Nat} : Runs [.fns, .lbs, .fw, .journal, .out] s (execFwVerify lb s) := by
  unfold execFwVerify
  exact runCmd_touches .refl (fun _ _ _ h => fwVerify_touches.after h)

theorem activateAtReset_touches {ok : Bool} : Touches [.fw, .journal, .boot, .dies] s (activateAtReset ok s).2 := by
  unfold activateAtReset
  split
  · exact .ite_snd selectStaged_touches.widen (mramFailed_touches.after writeSelector_touches.widen)
  · exact .refl

theorem activateLive_touches {ok2 ok4 : Bool} :
    Touches [.fns, .hostPorts, .host, .lbs, .fw, .journal, .boot, .post, .pins, .xlat, .dies, .fabric, .images, .res, .spdm, .events,
        .mgmt, .out]
        s
      (activateLive ok2 ok4 s).2 := by
  unfold activateLive
  split
  · exact .refl
  · extract_lets run u
    have hrun {d : Nat} {x : State} : Touches [.post] x (run d x) := .onPost .refl
    have hu : Touches [.fns, .hostPorts, .host, .lbs, .fw, .journal, .boot, .post, .pins, .xlat, .dies, .fabric, .images, .res, .spdm,
        .events, .mgmt,
        .out] s u := plannedHandover_touches.after hrun.widen
    have hlost {x : State} : Touches [.post] x (onPost (fun p => { p with standby := false }) x) := .onPost .refl
    exact .ite_snd .refl (.ite_snd .refl (.ite_snd (selectStaged_touches.after (hrun.after hu)) (hlost.after hu)))

theorem fwActivateReset_touches {ok : Bool} {a1 : Option Nat} {a2 : List Byte} :
    CmdTouches [.fw, .journal, .boot, .dies] s (fwActivateReset ok a1 a2 s) := by
  unfold fwActivateReset
  exact .ite (.done .refl) (.done activateAtReset_touches.widen)

theorem execFwActivateAtReset_touches {write : MramWrite} :
    Runs [.fns, .lbs, .fw, .journal, .boot, .dies, .out] s (execFwActivateAtReset write s) := by
  unfold execFwActivateAtReset
  exact runCmd_touches .refl (fun _ _ _ h => fwActivateReset_touches.after h)

theorem fwActivateLive_touches {ok2 ok4 : Bool} {who : Option Nat} {a1 : List Byte} :
    CmdTouches [.fns, .hostPorts, .host, .lbs, .fw, .journal, .boot, .post, .pins, .xlat, .dies, .fabric, .images, .res, .spdm, .events,
        .mgmt,
    .out] s (fwActivateLive ok2 ok4 who a1 s) := by
  unfold fwActivateLive
  exact .ite (.done .refl) (.ite (.done .refl) (.done activateLive_touches.widen))

theorem execFwActivateLive_touches {lb : Nat} {step2Ok step4Ok : Bool} :
    Runs [.fns, .hostPorts, .host, .lbs, .fw, .journal, .boot, .post, .pins, .xlat, .dies, .fabric, .images, .res, .spdm, .events, .mgmt,
        .out] s
    (execFwActivateLive lb step2Ok step4Ok s) := by
  unfold execFwActivateLive
  exact .ite (.next .refl) (runCmd_touches .refl (fun _ _ _ h => fwActivateLive_touches.after h))

theorem agentReload_touches {a1 : Option Nat} {a : List Byte} : CmdTouches [.post] s (agentReload a1 a s) := by
  unfold agentReload
  exact .ite (.done .refl) (.done (.onPost .refl))

theorem execAgentReload_touches {lb : Nat} : Runs [.fns, .lbs, .journal, .post, .out] s (execAgentReload lb s) := by
  unfold execAgentReload
  exact Runs.andThen (runCmd_touches .refl fun _ _ _ h => agentReload_touches.after h) fun _ h => .ite h (journalDeferred_touches.after h)

theorem failoverCmd_touches {a1 : Option Nat} {a2 : List Byte} :
    CmdTouches [.fns, .hostPorts, .host, .lbs, .fw, .journal, .post, .pins, .xlat, .dies, .fabric, .images, .res, .spdm, .events, .mgmt,
        .out] s
    (failoverCmd a1 a2 s) := by
  unfold failoverCmd
  exact .ite (.done .refl) (.done plannedHandover_touches.widen)

theorem execFailover_touches {lb : Nat} :
    Runs [.fns, .hostPorts, .host, .lbs, .fw, .journal, .post, .pins, .xlat, .dies, .fabric, .images, .res, .spdm, .events, .mgmt, .out] s
    (execFailover lb s) := by
  unfold execFailover
  exact .ite (.next .refl) (runCmd_touches .refl (fun _ _ _ h => failoverCmd_touches.after h))

/-! ### Repair -/

theorem clearDie_touches {d : Nat} : Touches [.xlat, .dies, .cells, .marks] s (clearDie d s) := by
  unfold clearDie
  exact onUnit_touches.after ((onDie_touches).after (.ite zeroFrond_touches.widen .refl))

theorem losePh_touches {a1 cause : Nat} {pc : Postcode} :
    Touches [.fns, .host, .lbs, .journal, .rings, .dies, .fabric, .launches, .phs, .res, .events, .out] s (losePh a1 cause pc s) := by
  unfold losePh
  split
  · exact .refl
  · exact .ite returnAll_touches.widen (postWaiting?_touches.after (onPh_touches.after (phLose_touches.after returnAll_touches.widen)))

theorem frondOff_touches {f : Nat} : Touches [.fns, .rings, .fabric, .out] s (frondOff f s) := by
  unfold frondOff
  exact .updates dropPackets_touches.widen (fun _ _ h => .updates h (fun _ _ h => returnToSender_touches.after h))

theorem endContexts_touches {f : Nat} : Touches [.fns, .rings, .out] s (endContexts f s) := by
  unfold endContexts
  exact .updates .refl (fun _ _ h => .updates h (fun _ _ h => returnToSender_touches.after h))

theorem fenceFrond_touches {f : Nat} {mesh : Bool} :
    Touches [.power, .fns, .host, .lbs, .maps, .journal, .post, .rings, .active, .staged, .dies, .repairs, .fabric, .launches, .phs,
        .res, .events,
    .out] s (fenceFrond f mesh s).2 := by
  unfold fenceFrond
  refine .ite_snd (.when .refl (fun _ h => frondOff_touches.after (onDie_repairs.after (markDie_touches.after h)))) ?_
  refine modEvent_touches.after (journalFrom_touches.after (mapAdd_touches.after (onFrondPower_touches.after (onDie_repairs.after (.when
      (endContexts_touches.after (.updates (.updates (onDie_repairs.after markDie_touches.widen) (fun _ _ h => losePh_touches.after h))
      (fun _ _ h => ?_))) (fun _ h => frondOff_touches.after h))))))
  split
  · exact clearLocks_touches.after h
  · exact h

theorem fence_touches {f : Nat} {mesh : Bool} :
    Touches [.power, .fns, .host, .lbs, .maps, .journal, .post, .rings, .active, .staged, .dies, .repairs, .fabric, .launches, .phs,
        .res, .events,
    .out] s (fence f mesh s) := by
  unfold fence
  exact fenceFrond_touches.widen

theorem reloadTile_touches {a1 lt : Nat} :
    Touches [.host, .journal, .dies, .fabric, .launches, .phs, .events, .out] s (reloadTile a1 lt s) := by
  unfold reloadTile
  split
  · exact .refl
  · split
    · exact .refl
    · exact .ite (startLoads_touches.after (onPh_touches.after (phEnter_touches.after (.onFabric dropLoadTags_touches.widen)))) (.ite
        (startLoads_touches.after (onPh_touches.after (.onFabric dropLoadTags_touches.widen))) (.onFabric dropLoadTags_touches.widen))

theorem rebindTile_touches {f a1 a2 : Nat} :
    Touches [.host, .journal, .dies, .fabric, .launches, .phs, .events, .out] s (rebindTile f a1 a2 s) := by
  unfold rebindTile
  split
  · exact .refl
  · split
    · exact .refl
    · exact .ite .refl (reloadTile_touches.after ((onDie_touches).after onPh_touches.widen))

theorem retireTile_touches {f a1 : Nat} :
    Touches [.fns, .host, .lbs, .maps, .journal, .post, .rings, .dies, .repairs, .fabric, .launches, .phs, .res, .events,
        .out] s (retireTile f a1 s)
    := by
  unfold retireTile
  refine journalFrom_touches.after (mapAdd_touches.after (onDie_repairs.after ?_))
  refine .ite ?_ ?_
  · refine .updates (.updates onDie_repairs.widen (fun _ _ h => ?_)) (fun _ _ h => rebindTile_touches.after h)
    split
    · exact returnLaunches_touches.after h
    · exact h
  · refine .ite ?_ ?_
    · refine .updates (.updates onDie_repairs.widen (fun _ _ h => ?_)) (fun _ _ h => losePh_touches.after h)
      split
      · exact returnLaunches_touches.after h
      · exact h
    · refine onDie_repairs.after (.updates (.updates onDie_repairs.widen (fun _ _ h => ?_)) (fun _ _ h => losePh_touches.after h))
      split
      · exact returnLaunches_touches.after h
      · exact h

theorem edgeDieFail_touches {e : Nat} :
    Touches (allBut [.ladder, .rackTime, .boot, .ctxs, .keys, .routeSets, .limit, .number, .mine, .eid, .taps]) s (edgeDieFail e s) := by
  unfold edgeDieFail
  exact .ite .refl (.when (.when (mapAdd_touches.after (modEvent_touches.after (journal_touches.after (dropPackets_touches.after
      (clearDie_touches.after (.updates (.updates (.updates (markDie_touches.after onDie_repairs.widen)
      (fun _ _ h => freeRing_touches.after (postWaiting?_touches.after (journalFrom_quiet.after h))))
      (fun _ _ h => losePh_touches.after h)) (fun _ _ h => disablePort_touches.after h)))))))
      (fun _ h => unplannedFailover_touches.after (linkDown_touches.after h))) (fun _ h => .ite (linkDown_touches.after h)
      (journal_touches.after (.onPost (linkDown_touches.after h)))))

theorem wireFail_touches {d link group wire : Nat} {inbound : Bool} :
    Touches [.power, .fns, .host, .lbs, .maps, .journal, .post, .rings, .active, .staged, .dies, .repairs, .fabric, .launches, .phs,
        .res, .events,
    .out] s (wireFail d link group wire inbound s) := by
  unfold wireFail
  exact .ite .refl (.ite (.ite (fence_touches.after (mapAdd_touches.after (journalRule_touches.after badWire_touches.widen)))
      (mapAdd_touches.after (journalRule_touches.after badWire_touches.widen))) (mapAdd_touches.after
      (journalRule_quiet.after badWire_touches.widen)))

/-! ### Governor -/

theorem setLastPldm_touches {e : Nat} : Touches [.power, .free] s (setLastPldm e s) := by
  unfold setLastPldm
  split
  · exact .onPower .refl
  · exact .onPower freshNat_touches.widen

theorem requestDone_touches {q : PowerReq} {e : Nat} : Touches [.power, .fns, .lbs, .journal, .out, .free] s (requestDone q e s) := by
  unfold requestDone
  split
  · exact postWaiting_touches.widen
  · exact setLastPldm_touches.widen
  · exact .refl

theorem requestPower_touches {q : PowerReq} : Touches [.power, .fns, .lbs, .journal, .out, .free] s (requestPower q s) := by
  unfold requestPower
  extract_lets x4_0 x4_1
  clear_value x4_0
  split
  · exact requestDone_touches.after (.onPower .refl)
  · exact .onPower .refl

theorem reachState_touches {n : Nat} (hn : n ≤ 4) : Touches [.ladder, .power, .fns, .host, .journal, .out] s (reachState n s) := by
  unfold reachState
  exact modEvent_touches.after (fnEventAll_touches.after (journal_quiet.after (.onLadder .refl fun m hm => by cases hm; exact hn)))

theorem restateAll_touches : Touches [.rings] s (restateAll s) := by
  unfold restateAll
  exact .updates .refl (fun _ _ h => ringRestate_touches.after h)

theorem holdRings_touches {on : Bool} : Touches [.power, .rings] s (holdRings on s) := by
  unfold holdRings
  exact restateAll_touches.after (.onPower .refl)

theorem enterP2_touches : Touches [.ladder, .power, .fns, .host, .journal, .active, .staged, .ports, .res, .out] s (enterP2 s) := by
  unfold enterP2
  exact (reachState_touches (by decide)).after (.onPower (.updates (.updates (.updates (.onPower .refl)
      (fun _ _ h => kaBegin_touches.after h)) (fun _ _ h => onSteward_touches.after h)) (fun _ _ h => markDie_touches.after h)))

theorem suspendPh_touches {release : Bool} {a1 : Nat} :
    Touches [.fns, .host, .lbs, .journal, .rings, .dies, .fabric, .launches, .phs, .res, .events, .out] s (suspendPh release a1 s) := by
  unfold suspendPh
  split
  · exact .refl
  · exact .ite (.ite (dropLoadTags_touches.after dropQueued_touches.widen) (phLose_touches.after
      (dropLoadTags_touches.after dropQueued_touches.widen))) (.ite (postWaiting?_touches.after (phEnter_touches.after (.updates
      (onPh_touches.after (dropLoadTags_touches.after dropQueued_touches.widen)) (fun _ _ h => onSteward_touches.after h))))
      (dropLoadTags_touches.after dropQueued_touches.widen))

theorem dropBudgets_touches : Touches [.power] s (dropBudgets s) := by
  unfold dropBudgets
  exact .updates .refl (fun _ _ h => onFrondPower_touches.after h)

theorem enterP3_touches {release : Bool} :
    Touches [.ladder, .power, .fns, .host, .lbs, .journal, .rings, .xlat, .dies, .fabric, .cells, .marks, .launches, .phs, .res, .events,
    .out] s (enterP3 release s) := by
  unfold enterP3
  exact (reachState_touches (by decide)).after (.updates (dropPackets_touches.after (dropBudgets_touches.after (.onPower (.updates .refl
      (fun _ _ h => suspendPh_touches.after h))))) (fun _ _ h => clearDie_touches.after h))

theorem enterP4_touches :
    Touches (allBut [.rackTime, .maps, .boot, .ctxs, .keys, .routeSets, .limit, .active, .staged, .images, .number, .mine, .eid, .taps,
    .spdm]) s (enterP4 s) := by
  unfold enterP4
  exact (reachState_touches (by decide)).after (.onFabric (.updates (.updates (dropPackets_touches.after (.updates
      (linkDown_touches.after linkDown_touches.widen) (fun _ _ h => disablePort_touches.after h)))
      (fun _ _ h => clearDie_touches.after h)) (fun _ _ h => zeroRange_touches.after (onRing_touches.after h))))

theorem enterDeep_touches {target : Nat} {release : Bool} :
    Touches (allBut [.rackTime, .maps, .boot, .ctxs, .keys, .routeSets, .limit, .active, .staged, .images, .number, .mine, .eid, .taps,
    .spdm]) s (enterDeep target release s) := by
  unfold enterDeep
  exact .ite (enterP4_touches.after (.ite enterP3_touches.widen .refl)) (.ite enterP3_touches.widen .refl)

theorem leaveP4_touches :
    Touches [.ladder, .power, .fns, .hostPorts, .host, .lbs, .journal, .ports, .dies, .repairs, .fabric, .out, .free] s (leaveP4 s) := by
  unfold leaveP4
  exact .updates (trainHost_touches.after (trainHost_touches.after ((reachState_touches (by decide)).after reapplyMap_touches.widen)))
      (fun _ _ h => enablePort_touches.after h)

theorem leaveP2_touches :
    Touches [.ladder, .power, .fns, .host, .journal, .rings, .active, .staged, .ports, .res, .out] s (leaveP2 s) := by
  unfold leaveP2
  exact (reachState_touches (by decide)).after (holdRings_touches.after (.updates (.updates (.updates (.onPower .refl)
      (fun _ _ h => markDie_touches.after h)) (fun _ _ h => kaLeave_touches.after h)) (fun _ _ h => onSteward_touches.after h)))

theorem leaveP3_touches : Touches [.ladder, .power, .fns, .host, .journal, .ports, .dies, .repairs, .fabric, .out] s (leaveP3 s) := by
  unfold leaveP3
  exact (reachState_touches (by decide)).after (reapplyMap_touches.after (.onPower .refl))

theorem leaveP1_touches : Touches [.ladder, .power, .fns, .host, .journal, .rings, .out] s (leaveP1 s) := by
  unfold leaveP1
  exact (reachState_touches (by decide)).after (holdRings_touches.after (.onPower .refl))

theorem reloadRecorded_touches :
    Touches [.power, .host, .journal, .rings, .dies, .fabric, .cells, .marks, .launches, .phs, .res, .events, .out] s (reloadRecorded s) :=
    by
  unfold reloadRecorded
  refine .updates (.onPower .refl) (fun _ _ h => ?_)
  split
  · refine .ite ?_ h
    refine reload_touches.after ?_
    split
    · exact assignCores_touches.after h
    · exact h
  · exact h

theorem exitTo_touches {target : Nat} :
    Touches [.ladder, .power, .fns, .hostPorts, .host, .lbs, .journal, .rings, .active, .staged, .ports, .dies, .repairs, .fabric,
        .cells, .marks,
    .launches, .phs, .res, .events, .out, .free] s (exitTo target s) := by
  unfold exitTo
  exact .ite (leaveP1_touches.after (.ite (reloadRecorded_touches.after (.ite (leaveP2_touches.after (.ite (leaveP3_touches.after
      (.ite leaveP4_touches.widen .refl)) (.ite leaveP4_touches.widen .refl))) (.ite (leaveP3_touches.after
      (.ite leaveP4_touches.widen .refl)) (.ite leaveP4_touches.widen .refl)))) (.ite (leaveP2_touches.after (.ite
      (leaveP3_touches.after (.ite leaveP4_touches.widen .refl)) (.ite leaveP4_touches.widen .refl))) (.ite (leaveP3_touches.after
      (.ite leaveP4_touches.widen .refl)) (.ite leaveP4_touches.widen .refl))))) (.ite (reloadRecorded_touches.after (.ite
      (leaveP2_touches.after (.ite (leaveP3_touches.after (.ite leaveP4_touches.widen .refl)) (.ite leaveP4_touches.widen .refl))) (.ite
      (leaveP3_touches.after (.ite leaveP4_touches.widen .refl)) (.ite leaveP4_touches.widen .refl)))) (.ite (leaveP2_touches.after
      (.ite (leaveP3_touches.after (.ite leaveP4_touches.widen .refl)) (.ite leaveP4_touches.widen .refl))) (.ite (leaveP3_touches.after
      (.ite leaveP4_touches.widen .refl)) (.ite leaveP4_touches.widen .refl))))

theorem setTrans_touches {a1 : Option Transition} : Touches [.power] s (setTrans a1 s) := by
  unfold setTrans
  exact .onPower .refl

theorem transDone_touches {e : Nat} : Touches [.power, .fns, .lbs, .journal, .out, .free] s (transDone e s) := by
  unfold transDone
  split
  · exact requestDone_touches.after setTrans_touches.widen
  · exact .refl

theorem transitionStart_touches :
    Touches (allBut [.rackTime, .maps, .boot, .ctxs, .keys, .routeSets, .limit, .active, .staged, .images, .number, .mine, .eid, .taps,
    .spdm]) s (transitionStart s) := by
  unfold transitionStart
  split
  · refine .ite .refl ?_
    extract_lets
    split
    · exact requestDone_touches.after (.onPower .refl)
    · exact .ite (requestDone_touches.after (.onPower .refl)) (.ite (setTrans_touches.after (.onPower .refl)) (.ite
        (setTrans_touches.after (journalRule_quiet.after (.onPower (.onPower .refl)))) (.ite (setTrans_touches.after
        (holdRings_touches.after (journalRule_quiet.after (.onPower (.onPower .refl))))) (transDone_touches.after
        (enterDeep_touches.after (setTrans_touches.after (journalRule_quiet.after (.onPower (.onPower .refl)))))))))
  · exact .refl

theorem execGovernorTransition_touches :
    Runs (allBut [.rackTime, .maps, .boot, .ctxs, .keys, .routeSets, .limit, .active, .staged, .images, .number, .mine, .eid, .taps,
    .spdm]) s (execGovernorTransition s) := by
  unfold execGovernorTransition
  exact .next transitionStart_touches.widen

theorem atStep_touches {st : Step49} {f : PowerReq → State → State} (h :
    Touches F s t) (hf : ∀ a x, Touches F s x → Touches F s (f a x)) :
    Runs F s (atStep st f t) := by
  unfold atStep
  refine .next ?_
  split
  · exact .ite (hf _ _ h) h
  · exact h

theorem execEntryLaunchesEnded_touches :
    Runs [.ladder, .power, .fns, .host, .lbs, .journal, .rings, .out, .free] s (execEntryLaunchesEnded s) := by
  unfold execEntryLaunchesEnded
  exact atStep_touches .refl (fun _ _ h => .ite h (.ite (transDone_touches.after ((reachState_touches (by decide)).after (.onPower h)))
      (setTrans_touches.after (holdRings_touches.after ((reachState_touches (by decide)).after (.onPower h))))))

theorem execEntryRingsStopped_touches : Runs [.power] s (execEntryRingsStopped s) := by
  unfold execEntryRingsStopped
  exact atStep_touches .refl (fun _ _ h => .ite h (setTrans_touches.after h))

theorem execEntryInflightZero_touches :
    Runs (allBut [.rackTime, .maps, .boot, .ctxs, .keys, .routeSets, .limit, .images, .number, .mine, .eid, .taps, .spdm]) s
    (execEntryInflightZero s) := by
  unfold execEntryInflightZero
  exact atStep_touches .refl (fun _ _ h => .ite h (transDone_touches.after (enterDeep_touches.after (enterP2_touches.after h))))

theorem transFail_touches {e : Nat} : Touches [.power, .fns, .lbs, .journal, .rings, .out, .free] s (transFail e s) := by
  unfold transFail
  exact .ite (holdRings_touches.after (.onPower transDone_touches.widen)) (setTrans_touches.after transDone_touches.widen)

theorem execWaitLimitExpiry_touches : Runs [.power, .fns, .lbs, .journal, .rings, .out, .free] s (execWaitLimitExpiry s) := by
  unfold execWaitLimitExpiry
  refine .next ?_
  split
  · exact .ite transFail_touches.widen .refl
  · exact .refl

theorem execTransitionTimeout_touches : Runs [.power, .fns, .lbs, .journal, .rings, .out, .free] s (execTransitionTimeout s) := by
  unfold execTransitionTimeout
  refine .next ?_
  split
  · exact .ite (transFail_touches.after journalRule_quiet.widen) .refl
  · exact .refl

theorem execExitSequence_touches :
    Runs [.ladder, .power, .fns, .hostPorts, .host, .lbs, .journal, .rings, .active, .staged, .ports, .dies, .repairs, .fabric, .cells,
        .marks,
    .launches, .phs, .res, .events, .out, .free] s (execExitSequence s) := by
  unfold execExitSequence
  exact atStep_touches .refl (fun _ _ h => transDone_touches.after (exitTo_touches.after h))

theorem dropToP3_touches :
    Touches [.ladder, .power, .fns, .host, .lbs, .journal, .rings, .xlat, .active, .staged, .ports, .dies, .fabric, .cells, .marks,
    .launches, .phs, .res, .events, .out, .free] s (dropToP3 s) := by
  unfold dropToP3
  extract_lets
  split
  · exact .ite transDone_touches.widen (enterP3_touches.after (.ite (enterP2_touches.after (holdRings_touches.after (.ite
      ((reachState_touches (by decide)).after (.onPower (.updates transDone_touches.widen (fun _ _ h => returnAll_touches.after h))))
      (.onPower (.updates transDone_touches.widen (fun _ _ h => returnAll_touches.after h)))))) (.onPower
      (.updates transDone_touches.widen (fun _ _ h => returnAll_touches.after h)))))
  · exact transDone_touches.widen

theorem inputLost_touches {input : Nat} :
    Touches [.ladder, .power, .fns, .host, .lbs, .journal, .rings, .xlat, .active, .staged, .ports, .dies, .fabric, .cells, .marks,
    .launches, .phs, .res, .events, .out, .free] s (inputLost input s) := by
  unfold inputLost
  exact dropToP3_touches.after (journal_touches.after (.onPower .refl (fun _ => by split <;> rfl)))

theorem onInput_touches {input : Nat} {f : State → State} (h : Touches F s t) (hf : ∀ x, Touches F s x → Touches F s (f x)) :
    Runs F s (onInput input f t) := by
  unfold onInput
  exact .ite (.next (.ite (hf _ h) h)) (.next h)

theorem execBusBarInputFail_touches {input : Nat} :
    Runs [.ladder, .power, .fns, .host, .lbs, .journal, .rings, .xlat, .active, .staged, .ports, .dies, .fabric, .cells, .marks,
    .launches, .phs, .res, .events, .out, .free] s (execBusBarInputFail input s) := by
  unfold execBusBarInputFail
  exact onInput_touches .refl (fun _ h => inputLost_touches.after h)

theorem trimPool_onPower_touches {f : Power → Power} (hf : ∀ x, (f x).state = x.state) :
    Touches [.power] s (onPower (fun p => trimPool (f p)) s) := by
  refine .onPower .refl fun x => ?_
  unfold trimPool
  split
  · simp [blendPower, pick, ← hf x]
  · split <;> simp [blendPower, pick, ← hf x]

theorem budgetUpdate_touches {input : Nat} {valid : Bool} : Touches [.power] s (budgetUpdate input valid s) := by
  unfold budgetUpdate
  have h {u : State} (hu : Touches [.power] s u) :
      Touches [.power] s (if valid then onPower (fun p => trimPool { p with inputMw := input }) u else u) :=
    .ite ((trimPool_onPower_touches (f := fun p => { p with inputMw := input }) fun _ => rfl).after hu) hu
  exact .ite (h (.onPower .refl)) (.updates (h (.onPower .refl)) (fun _ _ h => onFrondPower_touches.after h))

theorem execBudgetUpdate_touches {input : Nat} {inputValid : Bool} : Runs [.power] s (execBudgetUpdate input inputValid s) := by
  unfold execBudgetUpdate
  exact .next budgetUpdate_touches.widen

theorem governorTick_touches {powers : List (Option Nat)} : Touches [.power] s (governorTick powers s) := by
  unfold governorTick
  refine .ite .refl ?_
  refine .updates .refl (fun _ _ h => ?_)
  split
  · exact onFrondPower_touches.after h
  · exact h

theorem execGovernorTick_touches {powers : List (Option Nat)} : Runs [.power] s (execGovernorTick powers s) := by
  unfold execGovernorTick
  exact .next governorTick_touches.widen

theorem execFastGuard_touches {input : Nat} : Runs [.power] s (execFastGuard input s) := by
  unfold execFastGuard
  exact .next (.ite (.updates .refl (fun _ _ h => onFrondPower_touches.after h)) .refl)

theorem execPowerMonitorFail_touches {frond : Option Nat} :
    Runs [.power, .host, .journal, .events, .out] s (execPowerMonitorFail frond s) := by
  unfold execPowerMonitorFail
  split
  · exact .next (journal_touches.after (.onPower .refl))
  · exact .ite (.next .refl) (.next (journal_touches.after onFrondPower_touches.widen))

theorem setClock_touches {mhz f : Nat} : Touches [.power] s (setClock mhz f s) := by
  unfold setClock
  exact onFrondPower_touches.widen

theorem execClockLockFail_touches {frond : Nat} {retryOk : Bool} :
    Runs [.power, .fns, .host, .lbs, .maps, .journal, .post, .rings, .active, .staged, .dies, .repairs, .fabric, .launches, .phs, .res,
        .events,
    .out] s (execClockLockFail frond retryOk s) := by
  unfold execClockLockFail
  exact .ite (.next .refl) (.next (.ite (journal_quiet.after onFrondPower_touches.widen) (fence_touches.after
      (journal_quiet.after onFrondPower_touches.widen))))

theorem powerRequest_touches {who : Option Nat} {a : List Byte} :
    CmdTouches [.power, .fns, .lbs, .journal, .out, .free] s (powerRequest who a s) := by
  unfold powerRequest
  extract_lets
  split
  · exact .done .refl
  · exact .wait requestPower_touches.widen

theorem execPowerRequest_touches {lb : Nat} : Runs [.power, .fns, .lbs, .journal, .out, .free] s (execPowerRequest lb s) := by
  unfold execPowerRequest
  exact runCmd_touches .refl (fun _ _ _ h => powerRequest_touches.after h)

theorem execPowerQuery_touches {lb : Nat} : Runs [.fns, .lbs, .journal, .out] s (execPowerQuery lb s) := by
  unfold execPowerQuery
  exact runCmd_touches .refl (fun _ _ _ h => .done h)

theorem frondClockSet_touches {a1 : Option Nat} {a : List Byte} : CmdTouches [.power] s (frondClockSet a1 a s) := by
  unfold frondClockSet
  exact .ite (.done (.updates .refl (fun _ _ h => setClock_touches.after h))) (.ite (.done .refl) (.done setClock_touches.widen))

theorem execFrondClockSet_touches {lb : Nat} : Runs [.power, .fns, .lbs, .journal, .out] s (execFrondClockSet lb s) := by
  unfold execFrondClockSet
  exact runCmd_touches .refl (fun _ _ _ h => frondClockSet_touches.after h)

theorem govWeightSet_touches {a1 : Option Nat} {a : List Byte} : CmdTouches [.power] s (govWeightSet a1 a s) := by
  unfold govWeightSet
  exact .done (.updates .refl (fun _ _ h => onFrondPower_touches.after h))

theorem execGovWeightSet_touches {lb : Nat} : Runs [.power, .fns, .lbs, .journal, .out] s (execGovWeightSet lb s) := by
  unfold execGovWeightSet
  exact runCmd_touches .refl (fun _ _ _ h => govWeightSet_touches.after h)

/-! ### Faults -/

theorem countScrub_touches {d : Nat} : Touches [.dies] s (countScrub d s) := by
  unfold countScrub
  exact .ite (countEcc_touches.after (onDie_touches).widen) (onDie_touches).widen

theorem scrub_touches {d w : Nat} {found : ScrubFinding} : Touches [.journal, .dies, .marks] s (scrub d w found s) := by
  unfold scrub
  refine .ite .refl ?_
  refine .ite (.ite countScrub_touches.widen .refl) ?_
  split
  · exact .ite countScrub_touches.widen .refl
  · exact countCorrection_touches.after (clearMark_touches.after (.ite countScrub_touches.widen .refl))
  · split
    · exact foundUncorrectable_touches.after (.ite countScrub_touches.widen .refl)
    · exact journalFrom_quiet.after (countEcc_touches.after (countEcc_touches.after (.ite countScrub_touches.widen .refl)))

theorem execSramScrub_touches {die word : Nat} {found : ScrubFinding} :
    Runs [.journal, .dies, .marks] s (execSramScrub die word found s) := by
  unfold execSramScrub
  exact .ite (.next scrub_touches.widen) (.next .refl)

theorem eccThreshold_touches {d : Nat} : Touches [.host, .journal, .dies, .events, .out] s (eccThreshold d s) := by
  unfold eccThreshold
  exact .ite (journalFrom_touches.after (onDie_touches).widen) .refl

theorem execEccThreshold_touches {die : Nat} : Runs [.host, .journal, .dies, .events, .out] s (execEccThreshold die s) := by
  unfold execEccThreshold
  exact .ite (.next eccThreshold_touches.widen) (.next .refl)

theorem autoRetire_touches {f a1 : Nat} :
    Touches [.fns, .host, .lbs, .maps, .journal, .post, .rings, .dies, .repairs, .fabric, .launches, .phs, .res, .events,
        .out] s (autoRetire f a1 s)
    := by
  unfold autoRetire
  exact .ite .refl (retireTile_touches.after (onDie_touches).widen)

theorem execTileAutoRetire_touches {frond tile : Nat} :
    Runs [.fns, .host, .lbs, .maps, .journal, .post, .rings, .dies, .repairs, .fabric, .launches, .phs, .res, .events,
        .out] s (execTileAutoRetire
    frond tile s) := by
  unfold execTileAutoRetire
  exact .ite (.next autoRetire_touches.widen) (.next .refl)

theorem execEdgeDieFailure_touches {edge : Nat} :
    Runs (allBut [.ladder, .rackTime, .boot, .ctxs, .keys, .routeSets, .limit, .number, .mine, .eid, .taps]) s (execEdgeDieFailure edge
    s) := by
  unfold execEdgeDieFailure
  exact .ite (.next edgeDieFail_touches.widen) (.next .refl)

theorem execWireFailure_touches {die link : Nat} {group : WireGroup} {wire : Nat} :
    Runs [.power, .fns, .host, .lbs, .maps, .journal, .post, .rings, .active, .staged, .dies, .repairs, .fabric, .launches, .phs, .res,
        .events,
    .out] s (execWireFailure die link group wire s) := by
  unfold execWireFailure
  exact .ite (.next wireFail_touches.widen) (.next .refl)

theorem fenceDie_touches {d : Nat} :
    Touches (allBut [.ladder, .rackTime, .boot, .ctxs, .keys, .routeSets, .limit, .number, .mine, .eid, .taps]) s (fenceDie d s) := by
  unfold fenceDie
  exact .ite fence_touches.widen edgeDieFail_touches.widen

theorem contactImbalance_touches {d : Nat} {within : Bool} :
    Touches (allBut [.ladder, .rackTime, .boot, .ctxs, .keys, .routeSets, .limit, .number, .mine, .eid, .taps]) s (contactImbalance d
    within s) := by
  unfold contactImbalance
  exact .when (journalRule_touches.after onDie_repairs.widen) (fun _ h => fenceDie_touches.after h)

theorem execContactImbalance_touches {die : Nat} {withinLimits : Bool} :
    Runs (allBut [.ladder, .rackTime, .boot, .ctxs, .keys, .routeSets, .limit, .number, .mine, .eid, .taps]) s (execContactImbalance die
    withinLimits s) := by
  unfold execContactImbalance
  exact .ite (.next contactImbalance_touches.widen) (.next .refl)

theorem execCryptoSelfCheck_touches {frond : Nat} {passed : Bool} :
    Runs [.power, .fns, .host, .lbs, .maps, .journal, .post, .rings, .active, .staged, .dies, .repairs, .fabric, .launches, .phs, .res,
        .events,
    .out] s (execCryptoSelfCheck frond passed s) := by
  unfold execCryptoSelfCheck
  exact .ite (.next .refl) (.ite (.next .refl) (.next (fence_touches.after journalFrom_touches.widen)))

theorem execEngineError_touches {frond unit : Nat} :
    Runs [.power, .fns, .host, .lbs, .maps, .journal, .post, .rings, .active, .staged, .dies, .repairs, .fabric, .launches, .phs, .res,
        .events,
    .out] s (execEngineError frond unit s) := by
  unfold execEngineError
  exact .ite (.next .refl) (.ite (.next .refl) (.next (fence_touches.after journalFrom_touches.widen)))

theorem execLinkKeyPhaseExpiry_touches {slot : Nat} : Runs [.keys] s (execLinkKeyPhaseExpiry slot s) := by
  unfold execLinkKeyPhaseExpiry
  refine .ite (.next .refl) ?_
  refine .next ?_
  split
  · exact .onFabric .refl
  · exact .refl

theorem dropHold_touches {d i : Nat} : Touches [.dies] s (dropHold d i s) := by
  unfold dropHold
  split
  · exact (onDie_touches).widen
  · exact .refl

theorem dropRun_touches {d i : Nat} : Touches [.dies] s (dropRun d i s) := by
  unfold dropRun
  split
  · exact (onDie_touches).widen
  · exact .refl

theorem refreshPin_touches {i : Nat} : Touches [.pins, .xlat] s (refreshPin i s) := by
  unfold refreshPin
  split
  · exact .refl
  · refine .ite .refl ?_
    extract_lets
    split
    · exact (startWalk_touches.of_eq ‹_›).after (.onXlat .refl)
    · exact .onXlat .refl

theorem keyParity_touches {d slot : Nat} : Touches [.dies] s (keyParity d slot s) := by
  unfold keyParity
  exact .ite .refl (onDie_touches).widen

theorem parityError_touches {k : ParityKind} {d i : Nat} : Touches [.journal, .pins, .xlat, .dies, .fabric] s (parityError k d i s) := by
  unfold parityError
  extract_lets
  split
  · exact journalFrom_quiet.after (onDie_touches).widen
  · exact journalFrom_quiet.after keyParity_touches.widen
  · exact journalFrom_quiet.after (.onFabric .refl)
  · exact (onDie_touches).widen
  · exact journalFrom_quiet.after onUnit_touches.widen
  · exact journalFrom_quiet.after onUnit_touches.widen
  · exact journalFrom_quiet.after refreshPin_touches.widen
  · exact (onDie_touches).widen
  · exact journalFrom_quiet.after dropRun_touches.widen
  · exact journalFrom_quiet.after dropHold_touches.widen
  · exact journalFrom_quiet.after (onDie_touches).widen

theorem execParityError_touches {kind : ParityKind} {die index : Nat} :
    Runs [.journal, .pins, .xlat, .dies, .fabric] s (execParityError kind die index s) := by
  unfold execParityError
  exact .ite (.next parityError_touches.widen) (.next .refl)

theorem journalFlush_touches {ok : Bool} : Touches [.journal, .dies] s (journalFlush ok s) := by
  unfold journalFlush
  exact .ite .refl (.ite mramFailed_touches.widen (.onPost .refl))

theorem execJournalFlush_touches {mramOk : Bool} : Runs [.journal, .dies] s (execJournalFlush mramOk s) := by
  unfold execJournalFlush
  exact .next journalFlush_touches.widen

/-! ### Discovery -/

theorem sendDiscovery_touches {p op : Nat} {fields : List (Nat × Fld)} : Touches [.fabric] s (sendDiscovery p op fields s) := by
  unfold sendDiscovery
  exact addFlight_touches.widen

theorem execHelloSend_touches : Runs [.fabric] s (execHelloSend s) := by
  unfold execHelloSend
  exact .next (.updates .refl (fun _ _ h => sendDiscovery_touches.after h))

theorem abandon_touches {reason : Nat} : Touches [.fns, .host, .lbs, .journal, .mine, .disc, .events, .out] s (abandon reason s) := by
  unfold abandon
  exact postWaiting?_touches.after (journal_touches.after (.onDisc .refl))

theorem beginEpoch_touches {epoch priority : Nat} :
    Touches [.fns, .host, .lbs, .journal, .mine, .disc, .events, .out] s (beginEpoch epoch priority s) := by
  unfold beginEpoch
  exact .onDisc (.ite .refl abandon_touches.widen)

theorem discoveryStart_touches {who : Option Nat} {a : List Byte} :
    CmdTouches [.fns, .host, .lbs, .journal, .mine, .disc, .events, .out] s (discoveryStart who a s) := by
  unfold discoveryStart
  exact .wait (.onDisc beginEpoch_touches.widen)

theorem execDiscoveryStart_touches {lb : Nat} :
    Runs [.fns, .host, .lbs, .journal, .mine, .disc, .events, .out] s (execDiscoveryStart lb s) := by
  unfold execDiscoveryStart
  exact runCmd_touches .refl (fun _ _ _ h => discoveryStart_touches.after h)

theorem hello_touches {p : Nat} {q : Pkt} : Touches [.fns, .host, .lbs, .journal, .ports, .mine, .disc, .events, .out] s (hello p q s) := by
  unfold hello
  exact .ite (.onDisc (.ite (onPort_touches.after (.onDisc (.ite beginEpoch_touches.widen .refl))) (.onDisc
      (.ite beginEpoch_touches.widen .refl)))) (.ite (onPort_touches.after (.onDisc (.ite beginEpoch_touches.widen .refl))) (.onDisc
      (.ite beginEpoch_touches.widen .refl)))

theorem sendReport_touches {r : Report} : Touches [.fabric, .disc] s (sendReport r s) := by
  unfold sendReport
  exact .ite (.onDisc .refl) sendDiscovery_touches.widen

theorem checkSubtree_touches : Touches [.fabric, .disc] s (checkSubtree s) := by
  unfold checkSubtree
  exact .ite (.ite (.onDisc .refl) (sendReport_touches.after (.onDisc .refl))) .refl

theorem electionQuiet_touches : Touches [.fabric, .disc] s (electionQuiet s) := by
  unfold electionQuiet
  exact .ite (checkSubtree_touches.after (.updates (.onDisc .refl) (fun _ _ h => sendReport_touches.after h))) .refl

theorem execElectionQuiet_touches : Runs [.fabric, .disc] s (execElectionQuiet s) := by
  unfold execElectionQuiet
  exact .next electionQuiet_touches.widen

theorem report_touches {p : Nat} {q : Pkt} : Touches [.fabric, .disc] s (report p q s) := by
  unfold report
  exact .ite .refl (.ite (checkSubtree_touches.after (.onDisc .refl)) (sendReport_touches.after (.onDisc .refl)))

theorem toChildren_touches {op : Nat} {fields : List (Nat × Fld)} : Touches [.fabric] s (toChildren op fields s) := by
  unfold toChildren
  exact .updates .refl (fun _ _ h => sendDiscovery_touches.after h)

theorem rootFail_touches {reason : Nat} :
    Touches [.fns, .host, .lbs, .journal, .fabric, .mine, .disc, .events, .out] s (rootFail reason s) := by
  unfold rootFail
  exact abandon_touches.after toChildren_touches.widen

theorem sendAssign_touches {a : Assign} : Touches [.fabric] s (sendAssign a s) := by
  unfold sendAssign
  split
  · exact sendDiscovery_touches.widen
  · exact .refl

theorem takeAssign_touches {a : Assign} : Touches [.time, .mine, .disc] s (takeAssign a s) := by
  unfold takeAssign
  extract_lets
  split
  · exact .ite (.onDisc .refl) (.onTime (.onDisc .refl))
  · exact .onDisc .refl

theorem checkAcks_touches : Touches [.fabric, .disc] s (checkAcks s) := by
  unfold checkAcks
  exact .ite (toChildren_touches.after (.onDisc .refl)) .refl

theorem rootCompute_touches : Touches [.time, .fns, .host, .lbs, .journal, .fabric, .mine, .disc, .events, .out] s (rootCompute s) := by
  unfold rootCompute
  refine .ite .refl ?_
  split
  · exact rootFail_touches.widen
  · exact .ite (rootFail_touches.after (.onDisc .refl)) (checkAcks_touches.after (.updates (.onDisc (takeAssign_touches.after
      (.onDisc .refl))) (fun _ _ h => sendAssign_touches.after h)))

theorem execRootCompute_touches :
    Runs [.time, .fns, .host, .lbs, .journal, .fabric, .mine, .disc, .events, .out] s (execRootCompute s) := by
  unfold execRootCompute
  exact .next rootCompute_touches.widen

theorem assign_touches {q : Pkt} : Touches [.time, .fabric, .mine, .disc] s (assign q s) := by
  unfold assign
  exact .ite .refl (.ite sendAssign_touches.widen (sendDiscovery_touches.after (.ite .refl takeAssign_touches.widen)))

theorem assignAck_touches {q : Pkt} : Touches [.fns, .host, .lbs, .journal, .fabric, .mine, .disc, .events, .out] s (assignAck q s) := by
  unfold assignAck
  exact .ite .refl (.ite sendDiscovery_touches.widen (.ite .refl (.ite rootFail_touches.widen (checkAcks_touches.after (.onDisc .refl)))))

theorem commitMsg_touches {q : Pkt} : Touches [.fabric, .disc] s (commitMsg q s) := by
  unfold commitMsg
  exact .ite .refl (toChildren_touches.after (.onDisc .refl))

theorem failMsg_touches {q : Pkt} : Touches [.fns, .host, .lbs, .journal, .fabric, .mine, .disc, .events, .out] s (failMsg q s) := by
  unfold failMsg
  exact .ite .refl (abandon_touches.after toChildren_touches.widen)

theorem discoveryMessage_touches {p : Nat} {q : Pkt} :
    Touches [.time, .fns, .host, .lbs, .journal, .ports, .fabric, .mine, .disc, .events, .out] s (discoveryMessage p q s) := by
  unfold discoveryMessage
  split
  · exact hello_touches.widen
  · exact report_touches.widen
  · exact assign_touches.widen
  · exact assignAck_touches.widen
  · exact commitMsg_touches.widen
  · exact failMsg_touches.widen
  · exact .refl

theorem onDiscovery_touches {op p : Nat} {bytes : List Byte} :
    Runs [.time, .fns, .host, .lbs, .journal, .post, .ports, .dies, .fabric, .mine, .disc, .events, .out] s (onDiscovery op p bytes s) := by
  unfold onDiscovery
  refine runPort_touches .refl (fun _ h => ?_)
  refine .ite ?_ h
  split
  · exact discoveryMessage_touches.after h
  · exact deadLetterRaw_touches.after h

theorem execHello_touches {port : Nat} {packet : List Byte} :
    Runs [.time, .fns, .host, .lbs, .journal, .post, .ports, .dies, .fabric, .mine, .disc, .events, .out] s (execHello port packet s) := by
  unfold execHello
  exact onDiscovery_touches.widen

theorem execReport_touches {port : Nat} {packet : List Byte} :
    Runs [.time, .fns, .host, .lbs, .journal, .post, .ports, .dies, .fabric, .mine, .disc, .events, .out] s (execReport port packet s) := by
  unfold execReport
  exact onDiscovery_touches.widen

theorem execAssign_touches {port : Nat} {packet : List Byte} :
    Runs [.time, .fns, .host, .lbs, .journal, .post, .ports, .dies, .fabric, .mine, .disc, .events, .out] s (execAssign port packet s) := by
  unfold execAssign
  exact onDiscovery_touches.widen

theorem execAssignAck_touches {port : Nat} {packet : List Byte} :
    Runs [.time, .fns, .host, .lbs, .journal, .post, .ports, .dies, .fabric, .mine, .disc, .events, .out] s (execAssignAck port packet s)
    := by
  unfold execAssignAck
  exact onDiscovery_touches.widen

theorem execCommit_touches {port : Nat} {packet : List Byte} :
    Runs [.time, .fns, .host, .lbs, .journal, .post, .ports, .dies, .fabric, .mine, .disc, .events, .out] s (execCommit port packet s) := by
  unfold execCommit
  exact onDiscovery_touches.widen

theorem execFail_touches {port : Nat} {packet : List Byte} :
    Runs [.time, .fns, .host, .lbs, .journal, .post, .ports, .dies, .fabric, .mine, .disc, .events, .out] s (execFail port packet s) := by
  unfold execFail
  exact onDiscovery_touches.widen

theorem recordPartners_touches : Touches [.ports] s (recordPartners s) := by
  unfold recordPartners
  exact .onFabric .refl

theorem adopt_touches {a : Assign} :
    Touches [.fns, .host, .lbs, .journal, .staged, .ports, .fabric, .number, .mine, .disc, .out] s (adopt a s) := by
  unfold adopt
  exact postWaiting?_touches.after (.ite (beginCommit_touches.after (.onFabric (recordPartners_touches.after (.when (.onDisc .refl)
      (fun _ h => modEvent_touches.after h))))) (.onFabric (recordPartners_touches.after (.when (.onDisc .refl)
      (fun _ h => modEvent_touches.after h)))))

theorem commitTime_touches :
    Touches [.fns, .host, .lbs, .journal, .staged, .ports, .fabric, .number, .mine, .disc, .out] s (commitTime s) := by
  unfold commitTime
  refine .ite ?_ .refl
  split
  · exact adopt_touches.widen
  · exact .onDisc .refl

theorem execCommitTime_touches :
    Runs [.fns, .host, .lbs, .journal, .staged, .ports, .fabric, .number, .mine, .disc, .out] s (execCommitTime s) := by
  unfold execCommitTime
  exact .next commitTime_touches.widen

theorem execDiscoveryStepTimeout_touches :
    Runs [.fns, .host, .lbs, .journal, .fabric, .mine, .disc, .events, .out] s (execDiscoveryStepTimeout s) := by
  unfold execDiscoveryStepTimeout
  exact .next (.ite rootFail_touches.widen .refl)

/-! ### PowerUp -/

theorem startFirmware_touches : Touches [.power, .journal, .post] s (startFirmware s) := by
  unfold startFirmware
  exact .updates (.updates (.when (.onPower (.onPost .refl)) (fun _ h => journal_quiet.after (.onPost h)))
      (fun _ _ h => journal_quiet.after h)) (fun _ _ h => journal_quiet.after h)

theorem openEndpoint_touches : Touches [.ladder, .power, .journal] s (openEndpoint s) := by
  unfold openEndpoint
  exact journal_quiet.after (.onLadder .refl fun n hn => by cases hn; decide)

theorem readLatch_touches : Touches [.journal] s (readLatch s) := by
  unfold readLatch
  exact .when .refl (fun _ h => journal_quiet.after h)

theorem phaseA_touches : Touches [.ladder, .power, .journal, .post] s (phaseA s) := by
  unfold phaseA
  exact openEndpoint_touches.after (readLatch_touches.after startFirmware_touches.widen)

theorem clearModule_touches : Touches (allBut [.rackTime, .maps, .boot, .eid, .taps, .spdm]) s (clearModule s) := by
  unfold clearModule
  extract_lets u
  refine Touches.trans (t := u) (linkDown_touches.after linkDown_touches.widen) ⟨fun p hp => ?_, ?_⟩
  · cases p <;> first | exact absurd hp (by decide) | rfl | exact ⟨rfl, rfl⟩
  · exact { Steady.refl u with
      memory := fun _ => reset_wf
      ladder := fun _ n hn => by cases hn; decide }

/-- Losing the power drops the newest records. -/
theorem orderedJournal_losePower (h : OrderedJournal s) : OrderedJournal (onPost (fun p => { p with journal := losePower p.journal }) s)
    := by
  obtain ⟨hlen, hlt, hord⟩ := h
  exact ⟨Nat.le_trans (List.length_take_le' _ _) hlen, fun r hr => hlt r (List.mem_of_mem_take hr), hord.sublist (List.take_sublist _ _)⟩

theorem clearAll_touches : Touches (allBut [.maps, .fw, .boot, .out, .free]) s (clearAll s) := by
  refine ⟨fun p hp => ?_, ?_⟩
  · cases p <;> first | exact absurd hp (by decide) | rfl | exact ⟨rfl, rfl⟩
  · exact { Steady.refl s with
      memory := fun _ => reset_wf
      ladder := fun _ n hn => nomatch hn
      journal := orderedJournal_losePower
      next := Nat.le_refl _ }

theorem moduleReset_touches : Touches (allBut [.rackTime, .maps, .boot, .eid, .taps, .spdm]) s (moduleReset s) := by
  unfold moduleReset
  exact startFirmware_touches.after (.onMgmt clearModule_touches.widen)

theorem askReset_touches : Touches (allBut [.rackTime, .maps, .boot, .eid, .taps, .spdm]) s (askReset s) := by
  unfold askReset
  split
  · exact .onPower .refl
  · exact .onPower .refl
  · exact .refl
  · exact .refl
  · exact moduleReset_touches.widen

theorem powerOn_touches {b : BoardStart} : Touches [.ladder, .power, .journal, .post] s (powerOn b s) := by
  unfold powerOn
  exact .ite (phaseA_touches.after (.onPower .refl)) (.onPower (.onPower .refl))

theorem inputPowerUp_touches {a b : Bool} {board : BoardStart} :
    Touches [.ladder, .power, .journal, .post] s (inputPowerUp a b board s) := by
  unfold inputPowerUp
  exact .ite (powerOn_touches.after (.onPower .refl)) (.onPower .refl)

theorem execInputPowerUp_touches {inA inB : Bool} {board : BoardStart} :
    Runs [.ladder, .power, .journal, .post] s (execInputPowerUp inA inB board s) := by
  unfold execInputPowerUp
  exact .next inputPowerUp_touches.widen

theorem inputUnder_touches {input : Nat} :
    Touches [.ladder, .power, .fns, .host, .lbs, .journal, .rings, .xlat, .active, .staged, .ports, .dies, .fabric, .cells, .marks,
    .launches, .phs, .res, .events, .out, .free] s (inputUnder input s) := by
  unfold inputUnder
  exact .ite inputLost_touches.widen (.ite (.onPower (.onPower .refl (fun _ => by split <;> rfl))) (.onPower .refl
      (fun _ => by split <;> rfl)))

theorem execInputUndervoltage_touches {input : Nat} :
    Runs [.ladder, .power, .fns, .host, .lbs, .journal, .rings, .xlat, .active, .staged, .ports, .dies, .fabric, .cells, .marks,
    .launches, .phs, .res, .events, .out, .free] s (execInputUndervoltage input s) := by
  unfold execInputUndervoltage
  exact .ite (.next inputUnder_touches.widen) (.next .refl)

theorem freshBoard_touches : Touches [.free] s (freshBoard s).2 := by
  show Touches _ s (freshNat 2 (freshNat 2 (freshNat 2 s).2).2).2
  exact freshNat_touches.after (freshNat_touches.after freshNat_touches)

theorem coldReset_touches : Touches (allBut [.maps, .fw, .boot, .out]) s (coldReset s) := by
  unfold coldReset
  refine .ite .refl (powerOn_touches.after (clearAll_touches.after (Touches.trans freshBoard_touches.widen (.of_blend ?_))))
  rfl

theorem execColdReset_touches : Runs (allBut [.fw, .maps, .boot, .out]) s (execColdReset s) := by
  unfold execColdReset
  exact .next coldReset_touches.widen

theorem execMctpWatchdogExpiry_touches : Runs [.power] s (execMctpWatchdogExpiry s) := by
  unfold execMctpWatchdogExpiry
  exact .next (.ite (.onPower .refl) .refl)

theorem execHeartbeatWatchdogExpiry_touches : Runs [.power] s (execHeartbeatWatchdogExpiry s) := by
  unfold execHeartbeatWatchdogExpiry
  exact .next (.ite (.onPower .refl) .refl)

theorem enableHigh_touches : Touches [.power, .fns, .lbs, .journal, .out, .free] s (enableHigh s) := by
  unfold enableHigh
  exact .ite .refl (.ite (requestPower_touches.after (.onPower .refl)) (.onPower .refl))

theorem execEnableAssert_touches : Runs [.power, .fns, .lbs, .journal, .out, .free] s (execEnableAssert s) := by
  unfold execEnableAssert
  exact .next enableHigh_touches.widen

theorem enableLow_touches : Touches [.power, .fns, .lbs, .journal, .out, .free] s (enableLow s) := by
  unfold enableLow
  refine .ite .refl ?_
  extract_lets
  split
  · exact journal_quiet.after (.onPower (.onPower .refl))
  · exact journal_quiet.after (.onPower (.onPower .refl))
  · exact .ite (.ite (transDone_touches.after (journal_quiet.after (.onPower .refl))) (.onPower .refl)) (journal_quiet.after
      (requestPower_touches.after (.onPower .refl)))
  · exact .onPower .refl

theorem execEnableDeassert_touches : Runs [.power, .fns, .lbs, .journal, .out, .free] s (execEnableDeassert s) := by
  unfold execEnableDeassert
  exact .next enableLow_touches.widen

theorem addFindings_touches {es : List (BitVec 64)} : Touches [.power, .journal, .ports, .dies, .repairs,
    .fabric] s (addFindings es s) := by
  unfold addFindings
  exact .updates (.onPower .refl) (fun _ _ h => applyEntry_touches.after h)

theorem memberFailed_touches {d : Nat} {mesh : Bool} {m : Member} :
    Touches [.power, .journal, .ports, .dies, .repairs, .fabric] s (memberFailed d mesh m s) := by
  unfold memberFailed
  exact onDie_repairs.after (addFindings_touches.after (.onPower .refl))

theorem memberEnds_touches {r : TestResult} : Touches [.power, .journal, .ports, .dies, .repairs, .fabric] s (memberEnds r s) := by
  unfold memberEnds
  refine journal_quiet.after ?_
  split
  · exact .onPower .refl
  · exact addFindings_touches.after (.onPower .refl)
  · exact memberFailed_touches.widen

theorem markHeldOut_touches {ds : List Nat} : Touches [.power] s (markHeldOut ds s) := by
  unfold markHeldOut
  exact .updates .refl (fun _ _ h => .onPower h)

theorem testMembers_touches {ds : List Nat} {rs : List TestResult} :
    Touches [.power, .journal, .ports, .dies, .repairs, .fabric] s (testMembers ds rs s) := by
  unfold testMembers
  exact .updates markHeldOut_touches.widen (fun _ _ h => memberEnds_touches.after h)

theorem moveToE8_touches : Touches [.power, .fns, .host, .lbs, .journal, .post, .spdm, .events, .mgmt, .out] s (moveToE8 s) := by
  unfold moveToE8
  exact .ite .refl (.onPower (takeRole_touches.after (.onPost .refl)))

theorem phaseB_touches {r0 r8 : TestOutcome} :
    Touches [.power, .fns, .hostPorts, .host, .lbs, .journal, .post, .ports, .dies, .repairs, .fabric, .spdm, .events, .mgmt,
        .out] s (phaseB r0 r8 s) := by
  unfold phaseB
  exact .ite .refl (.ite journal_touches.widen (trainHost_touches.after (trainHost_touches.after (.onPower (moveToE8_touches.after
      (.updates (markHeldOut_touches.after (applyMap_touches.after (.onPost (.onPower .refl))))
      (fun _ _ h => memberEnds_touches.after h)))))))

theorem execPowerupPhaseB_touches {result0 result8 : TestOutcome} :
    Runs [.power, .fns, .hostPorts, .host, .lbs, .journal, .post, .ports, .dies, .repairs, .fabric, .spdm, .events, .mgmt,
        .out] s (execPowerupPhaseB
    result0 result8 s) := by
  unfold execPowerupPhaseB
  exact .next phaseB_touches.widen

theorem startRoles_touches : Touches [.power, .post] s (startRoles s) := by
  unfold startRoles
  exact .onPower (.onPost .refl)

theorem testStops_touches : OptTouches (allBut [.rackTime, .maps, .boot, .eid, .taps, .spdm]) s (testStops s) := by
  unfold testStops
  exact .ite (.some moduleReset_touches.widen) (.ite (.some (startRoles_touches.after clearModule_touches.widen)) .none)

theorem orStop_touches {f : State → State} (h :
    Touches F s t) (hf : ∀ x, Touches F s x → Touches F s (f x))
    (hK : (allBut [.rackTime, .maps, .boot, .eid, .taps, .spdm]).all F.contains = true := by exact rfl) :
    Touches F s (orStop f t) := by
  unfold orStop
  split
  · exact (testStops_touches.of_eq ‹_›).within h hK
  · exact hf _ h

theorem powerFronds_touches : Touches [.power, .journal, .ports, .dies, .repairs, .fabric] s (powerFronds s) := by
  unfold powerFronds
  exact applyMap_touches.after (.onPower .refl)

theorem selftestWave_touches {rs : List TestResult} :
    Touches (allBut [.rackTime, .maps, .boot, .eid, .taps, .spdm]) s (selftestWave rs s) := by
  unfold selftestWave
  split
  · exact .ite .refl (orStop_touches .refl (fun _ h => .onPower (testMembers_touches.after (.when h
      (fun _ h => powerFronds_touches.after h)))))
  · exact .refl

theorem execSelftestWave_touches {results : List TestResult} :
    Runs (allBut [.rackTime, .maps, .boot, .eid, .taps, .spdm]) s (execSelftestWave results s) := by
  unfold execSelftestWave
  exact .next selftestWave_touches.widen

theorem selftestRetry_touches {rs : List TestResult} :
    Touches (allBut [.rackTime, .maps, .boot, .eid, .taps, .spdm]) s (selftestRetry rs s) := by
  unfold selftestRetry
  exact .ite .refl (orStop_touches .refl (fun _ h => .onPower (.updates (testMembers_touches.after h) (fun _ _ h => journal_quiet.after
      (memberFailed_touches.after h)))))

theorem execSelftestRetryPass_touches {results : List TestResult} :
    Runs (allBut [.rackTime, .maps, .boot, .eid, .taps, .spdm]) s (execSelftestRetryPass results s) := by
  unfold execSelftestRetryPass
  exact .next selftestRetry_touches.widen

theorem markAll_touches : Touches [.active, .staged] s (markAll s) := by
  unfold markAll
  exact .updates .refl (fun _ _ h => .ite (markDie_touches.after h) (markDie_touches.after h))

theorem enterSafe_touches {reason : Nat} :
    Touches [.ladder, .power, .fns, .host, .hostPorts, .lbs, .journal, .xlat, .active, .staged, .ports, .dies, .cells, .marks, .events,
        .out,
      .free] s (enterSafe reason s) := by
  unfold enterSafe
  refine .updates (journalRule_touches.after (.onHost (.updates (markAll_touches.after (.updates (dropBudgets_touches.after
      (.onLadder .refl ?_))
    (fun _ _ h => clearDie_touches.after h))) (fun _ _ h => markDie_touches.after h)))) (fun _ _ h => enablePort_touches.after h)
  intro n hn
  cases hn
  decide

theorem enterService_touches :
    Touches [.ladder, .power, .fns, .hostPorts, .host, .lbs, .journal, .rings, .xlat, .active, .staged, .ports, .dies, .fabric, .cells,
    .marks, .launches, .phs, .res, .mine, .disc, .events, .out, .free] s (enterService s) := by
  unfold enterService
  exact .when (beginEpoch_touches.after (.updates (journal_touches.after (.onPower ((reachState_touches (by decide)).after (.onHost
      (markAll_touches.after (.onPower .refl)))))) (fun _ _ h => enablePort_touches.after h))) (fun _ h => dropToP3_touches.after h)

theorem writeFindings_touches {ok : Bool} : Touches [.maps, .journal, .post, .dies] s (writeFindings ok s) := by
  unfold writeFindings
  exact .ite .refl (writeMap_touches.after addEntries_touches.widen)

theorem verdict_touches {mramOk : Bool} : Touches (allBut [.rackTime, .boot, .eid, .taps, .spdm]) s (verdict mramOk s) := by
  unfold verdict
  refine .ite .refl (orStop_touches .refl (fun _ h => ?_))
  have hw : Touches (allBut [.rackTime, .boot, .eid, .taps, .spdm]) s (onMem (fun _ => {}) (writeFindings mramOk _)) :=
    .onCells (writeFindings_touches.after h) fun _ => reset_wf
  dsimp only
  split
  · exact enterSafe_touches.after hw
  · exact enterService_touches.after hw

theorem execPowerupVerdict_touches {mramOk : Bool} :
    Runs (allBut [.rackTime, .boot, .eid, .taps, .spdm]) s (execPowerupVerdict mramOk s) := by
  unfold execPowerupVerdict
  exact .next verdict_touches.widen

theorem execPhaseCTimeout_touches : Runs (allBut [.rackTime, .maps, .boot, .eid, .taps, .spdm]) s (execPhaseCTimeout s) := by
  unfold execPhaseCTimeout
  refine .next ?_
  split
  · exact orStop_touches .refl (fun _ h => enterSafe_touches.after h)
  · exact orStop_touches .refl (fun _ h => enterSafe_touches.after h)
  · exact .refl

/-! ### Thermal -/

theorem onSensor_touches {d i : Nat} {f : Sensor → Sensor} : Touches [.power] s (onSensor d i f s) := by
  unfold onSensor
  exact .onPower .refl

theorem badReading_touches {r : SensorReading} : Touches [.power, .host, .journal, .events, .out] s (takeReading.badReading r s) := by
  unfold takeReading.badReading
  exact .ite .refl (journalFrom_touches.after onSensor_touches.widen)

theorem takeReading_touches {r : SensorReading} : Touches [.power, .host, .journal, .events, .out] s (takeReading r s) := by
  unfold takeReading
  refine .ite onSensor_touches.widen ?_
  split
  · exact .ite onSensor_touches.widen badReading_touches
  · exact badReading_touches

theorem throttleDie_touches {d : Nat} : Touches [.power, .host, .journal, .post] s (throttleDie d s) := by
  unfold throttleDie
  exact .ite (.when (limited_touches (.ite onFrondPower_touches.widen (.onPower .refl)) (fun _ h => journalFrom_quiet.after h))
      (fun _ h => modEvent_touches.after h)) (.ite (.ite onFrondPower_touches.widen (.onPower .refl)) .refl)

theorem thermalSample_touches {rs : List SensorReading} :
    Touches [.power, .fns, .host, .lbs, .maps, .journal, .post, .rings, .active, .staged, .dies, .repairs, .fabric, .launches, .phs,
        .res, .events,
    .out] s (thermalSample rs s) := by
  unfold thermalSample
  exact .updates (.updates (.updates .refl (fun _ _ h => takeReading_touches.after h)) (fun _ _ h => throttleDie_touches.after h))
      (fun _ _ h => fence_touches.after h)

theorem execThermalSample_touches {readings : List SensorReading} :
    Runs [.power, .fns, .host, .lbs, .maps, .journal, .post, .rings, .active, .staged, .dies, .repairs, .fabric, .launches, .phs, .res,
        .events,
    .out] s (execThermalSample readings s) := by
  unfold execThermalSample
  exact .next (.ite thermalSample_touches.widen .refl)

theorem execThermalLimitDecrease_touches {frond : Nat} : Runs [.power] s (execThermalLimitDecrease frond s) := by
  unfold execThermalLimitDecrease
  exact .ite (.next .refl) (.next (.ite onFrondPower_touches.widen .refl))

theorem execThermalLimitIncrease_touches {frond : Nat} : Runs [.power] s (execThermalLimitIncrease frond s) := by
  unfold execThermalLimitIncrease
  exact .ite (.next .refl) (.next (.ite onFrondPower_touches.widen .refl))

theorem trip_touches {cause die celsius : Nat} : Touches [.power] s (trip cause die celsius s) := by
  unfold trip
  split
  · exact .refl
  · exact .refl
  · exact .onPower .refl

theorem execThermalTrip_touches {die celsius : Nat} : Runs [.power] s (execThermalTrip die celsius s) := by
  unfold execThermalTrip
  exact .ite (.next (.ite trip_touches.widen .refl)) (.next .refl)

theorem overvoltage_touches {millivolts : Nat} : Touches [.power, .free] s (overvoltage millivolts s) := by
  unfold overvoltage
  exact .ite .refl (trip_touches.after (freshNat_touches.after freshNat_touches.widen))

theorem execOvervoltageTrip_touches {input millivolts : Nat} : Runs [.power, .free] s (execOvervoltageTrip input millivolts s) := by
  unfold execOvervoltageTrip
  exact .ite (.next overvoltage_touches.widen) (.next .refl)

theorem powerOff_touches : Touches (allBut [.fw, .maps, .boot, .out, .free]) s (powerOff s) := by
  unfold powerOff
  exact .ite .refl (.onPower clearAll_touches.widen)

theorem execShutdownPowerOff_touches {a1 : Bool} : Runs (allBut [.fw, .maps, .boot, .out, .free]) s (execShutdownPowerOff a1 s) := by
  unfold execShutdownPowerOff
  exact .next powerOff_touches.widen

theorem cooldown_touches {board : BoardStart} : Touches [.ladder, .power, .journal, .post] s (cooldown board s) := by
  unfold cooldown
  exact .ite .refl (.ite (powerOn_touches.after (.onPower .refl)) (.onPower (.onPower .refl)))

theorem execCooldownExpiry_touches {board : BoardStart} : Runs [.ladder, .power, .journal, .post] s (execCooldownExpiry board s) := by
  unfold execCooldownExpiry
  exact .next cooldown_touches.widen

theorem supervisorRead_touches {command : Nat} : Touches [.out] s (supervisorRead command s) := by
  unfold supervisorRead
  refine .ite .refl ?_
  split
  · exact emit_touches.widen
  · exact emit_touches.widen
  · exact emit_touches.widen
  · exact .refl

theorem execSupervisorReadByte_touches {command : Nat} : Runs [.out] s (execSupervisorReadByte command s) := by
  unfold execSupervisorReadByte
  exact .next supervisorRead_touches.widen

/-! ### CmdRepair -/

theorem selftestReportRead_touches {a1 : Option Nat} {a : List Byte} : CmdTouches [] s (selftestReportRead a1 a s) := by
  unfold selftestReportRead
  exact .ite (.done .refl) (.done .refl)

theorem execSelftestReportRead_touches {lb : Nat} : Runs [.fns, .lbs, .journal, .out] s (execSelftestReportRead lb s) := by
  unfold execSelftestReportRead
  exact runCmd_touches .refl (fun _ _ _ h => selftestReportRead_touches.after h)

theorem journalRead_touches {a1 : Option Nat} {a : List Byte} : CmdTouches [] s (journalRead a1 a s) := by
  unfold journalRead
  exact .ite (.done .refl) (.done .refl)

theorem execJournalRead_touches {lb : Nat} : Runs [.fns, .lbs, .journal, .out] s (execJournalRead lb s) := by
  unfold execJournalRead
  exact runCmd_touches .refl (fun _ _ _ h => journalRead_touches.after h)

theorem textRecord_touches {lb : Nat} {text : List Byte} : Touches [.journal] s (textRecord lb text s) := by
  unfold textRecord
  exact putRecord_touches.widen

theorem journalAppend_touches {who : Option Nat} {a : List Byte} : CmdTouches [.journal] s (journalAppend who a s) := by
  unfold journalAppend
  exact .done textRecord_touches.widen

theorem execJournalAppend_touches {lb : Nat} : Runs [.fns, .lbs, .journal, .out] s (execJournalAppend lb s) := by
  unfold execJournalAppend
  exact runCmd_touches .refl (fun _ _ _ h => journalAppend_touches.after h)

theorem mapRead_touches {a1 : Option Nat} {a : List Byte} : CmdTouches [] s (mapRead a1 a s) := by
  unfold mapRead
  exact .ite (.done .refl) (.done .refl)

theorem execRepairMapRead_touches {lb : Nat} : Runs [.fns, .lbs, .journal, .out] s (execRepairMapRead lb s) := by
  unfold execRepairMapRead
  exact runCmd_touches .refl (fun _ _ _ h => mapRead_touches.after h)

theorem mapWrite_touches {es : List (BitVec 64)} {ok : Bool} : CmdTouches [.maps, .journal, .post, .dies] s (mapWrite es ok s) := by
  unfold mapWrite
  exact .ite (.done (writeMap_touches.after (.onPost .refl))) (.done (.onPost (writeMap_touches.after (.onPost .refl))))

theorem mapAddCmd_touches {ok : Bool} {a1 : Option Nat} {a : List Byte} :
    CmdTouches [.maps, .journal, .post, .dies] s (mapAddCmd ok a1 a s) := by
  unfold mapAddCmd
  exact .ite (.done .refl) mapWrite_touches.widen

theorem execRepairMapAdd_touches {lb : Nat} {mramOk : Bool} :
    Runs [.fns, .lbs, .maps, .journal, .post, .dies, .out] s (execRepairMapAdd lb mramOk s) := by
  unfold execRepairMapAdd
  exact runCmd_touches .refl (fun _ _ _ h => mapAddCmd_touches.after h)

theorem mapDeleteCmd_touches {ok : Bool} {a1 : Option Nat} {a : List Byte} :
    CmdTouches [.maps, .journal, .post, .dies] s (mapDeleteCmd ok a1 a s) := by
  unfold mapDeleteCmd
  exact .ite mapWrite_touches.widen (.done .refl)

theorem execRepairMapDelete_touches {lb : Nat} {mramOk : Bool} :
    Runs [.fns, .lbs, .maps, .journal, .post, .dies, .out] s (execRepairMapDelete lb mramOk s) := by
  unfold execRepairMapDelete
  exact runCmd_touches .refl (fun _ _ _ h => mapDeleteCmd_touches.after h)

theorem tileRetireCmd_touches {a1 : Option Nat} {a : List Byte} :
    CmdTouches [.fns, .host, .lbs, .maps, .journal, .post, .rings, .dies, .repairs, .fabric, .launches, .phs, .res, .events,
        .out] s (tileRetireCmd
    a1 a s) := by
  unfold tileRetireCmd
  exact .ite (.done retireTile_touches.widen) (.done .refl)

theorem execTileRetire_touches {lb : Nat} :
    Runs [.fns, .host, .lbs, .maps, .journal, .post, .rings, .dies, .repairs, .fabric, .launches, .phs, .res, .events,
        .out] s (execTileRetire lb s)
    := by
  unfold execTileRetire
  exact runCmd_touches .refl (fun _ _ _ h => tileRetireCmd_touches.after h)

theorem frondFenceCmd_touches {a1 : Option Nat} {a : List Byte} :
    CmdTouches [.power, .fns, .host, .lbs, .maps, .journal, .post, .rings, .active, .staged, .dies, .repairs, .fabric, .launches, .phs,
        .res,
    .events, .out] s (frondFenceCmd a1 a s) := by
  unfold frondFenceCmd
  exact .ite (.done .refl) (.done fenceFrond_touches.widen)

theorem execFrondFence_touches {lb : Nat} :
    Runs [.power, .fns, .host, .lbs, .maps, .journal, .post, .rings, .active, .staged, .dies, .repairs, .fabric, .launches, .phs, .res,
        .events,
    .out] s (execFrondFence lb s) := by
  unfold execFrondFence
  exact runCmd_touches .refl (fun _ _ _ h => frondFenceCmd_touches.after h)

theorem unfence_touches {f : Nat} {es : List (BitVec 64)} :
    Touches [.power, .maps, .journal, .post, .active, .staged, .ports, .dies, .repairs, .fabric] s (unfence f es s) := by
  unfold unfence
  exact .when (onFrondPower_touches.after (.when (onDie_repairs.after mapRemove_touches.widen) (fun _ h => mapAdd_touches.after
      (.updates h (fun _ _ h => applyEntry_touches.after h))))) (fun _ h => markDie_touches.after h)

theorem frondRetest_touches {o : TestOutcome} {who : Option Nat} {a : List Byte} :
    CmdTouches [.power, .maps, .journal, .post, .xlat, .active, .staged, .ports, .dies, .repairs, .fabric, .cells,
        .marks] s (frondRetest o who a
    s) := by
  unfold frondRetest
  refine .ite (.done .refl) ?_
  refine .ite (.done clearDie_touches.widen) ?_
  refine .ite (.done clearDie_touches.widen) ?_
  split
  · exact .done (unfence_touches.after clearDie_touches.widen)
  · exact .done (unfence_touches.after clearDie_touches.widen)
  · exact .done clearDie_touches.widen

theorem execFrondRetest_touches {lb : Nat} {outcome : TestOutcome} :
    Runs [.power, .fns, .lbs, .maps, .journal, .post, .xlat, .active, .staged, .ports, .dies, .repairs, .fabric, .cells, .marks, .out] s
    (execFrondRetest lb outcome s) := by
  unfold execFrondRetest
  exact runCmd_touches .refl (fun _ _ _ h => frondRetest_touches.after h)

theorem countersRead_touches {a1 : Option Nat} {a : List Byte} : CmdTouches [] s (countersRead a1 a s) := by
  unfold countersRead
  extract_lets
  split
  · exact .done .refl
  · exact .ite (.done .refl) (.done .refl)

theorem execCountersRead_touches {lb : Nat} : Runs [.fns, .lbs, .journal, .out] s (execCountersRead lb s) := by
  unfold execCountersRead
  exact runCmd_touches .refl (fun _ _ _ h => countersRead_touches.after h)

theorem moduleResetCmd_touches {who : Option Nat} {a1 : List Byte} :
    CmdTouches (allBut [.rackTime, .maps, .boot, .eid, .taps, .spdm]) s (moduleResetCmd who a1 s) := by
  unfold moduleResetCmd
  refine .gone (askReset_touches.after ?_)
  split
  · exact commandRecord_touches.widen
  · exact .refl

theorem execModuleReset_touches {lb : Nat} : Runs (allBut [.rackTime, .maps, .boot, .eid, .taps, .spdm]) s (execModuleReset lb s) :=
  runCmd_touches .refl fun o _ _ h => by
    refine .gone (askReset_touches.after ?_)
    cases o with
    | none => exact h
    | some lb => exact commandRecord_touches.after h

/-! ### Injection -/

theorem injected_touches {o : Origin} :
    Touches [.fns, .hostPorts, .lbs, .journal, .rings, .xlat, .dies, .fabric, .launches, .phs, .out] s (injected o s) := by
  unfold injected
  split
  · exact descProgress_touches.widen
  · exact launchCheck_touches.widen
  · exact .refl

theorem execInjectionStart_touches {die router pid : Nat} :
    Runs [.fns, .hostPorts, .lbs, .journal, .post, .rings, .xlat, .ports, .dies, .fabric, .launches, .phs, .out] s (execInjectionStart
    die router pid s) := by
  unfold execInjectionStart
  refine .ite ?_ (.next .refl)
  refine .next ?_
  split
  · exact injected_touches.after injectionStart_touches.widen
  · exact injectionStart_touches.widen

/-! ### Jtag -/

theorem onTap_touches {a1 : Nat} {f : Tap → Tap} : Touches [.taps] s (onTap a1 f s) := by
  unfold onTap
  exact .onMgmt .refl

theorem loadInstruction_touches {a1 i register : Nat} {bits : BitVec 64} :
    Touches [.taps, .out] s (loadInstruction a1 i register bits s) := by
  unfold loadInstruction
  exact emit_touches.after onTap_touches.widen

theorem onTapRow_touches {a1 : Nat} {f : State → State} (h : Touches F s t) (hf : ∀ x, Touches F s x → Touches F s (f x)) :
    Runs F s (onTapRow a1 f t) := by
  unfold onTapRow
  exact .ite (.next (.when h hf)) (.next h)

theorem execTestLogicReset_touches : Runs [.taps] s (execTestLogicReset s) := by
  unfold execTestLogicReset
  exact .next (.when .refl (fun _ h => .updates h (fun _ _ h => onTap_touches.after h)))

theorem execIdcode_touches {tap : Nat} : Runs [.taps, .out] s (execIdcode tap s) := by
  unfold execIdcode
  exact onTapRow_touches .refl (fun _ h => loadInstruction_touches.after h)

theorem execSamplePreload_touches {tap : Nat} {pins preload : BitVec 64} :
    Runs [.taps, .out] s (execSamplePreload tap pins preload s) := by
  unfold execSamplePreload
  exact onTapRow_touches .refl (fun _ h => onTap_touches.after (loadInstruction_touches.after h))

theorem boundaryInstruction_touches {i tap : Nat} : Touches [.taps, .out] s (boundaryInstruction i tap s) := by
  unfold boundaryInstruction
  exact .ite loadInstruction_touches.widen loadInstruction_touches.widen

theorem execExtest_touches {tap : Nat} : Runs [.taps, .out] s (execExtest tap s) := by
  unfold execExtest
  exact onTapRow_touches .refl (fun _ h => boundaryInstruction_touches.after h)

theorem execExtestPulse_touches {tap : Nat} : Runs [.taps, .out] s (execExtestPulse tap s) := by
  unfold execExtestPulse
  exact onTapRow_touches .refl (fun _ h => boundaryInstruction_touches.after h)

theorem execExtestTrain_touches {tap : Nat} : Runs [.taps, .out] s (execExtestTrain tap s) := by
  unfold execExtestTrain
  exact onTapRow_touches .refl (fun _ h => boundaryInstruction_touches.after h)

theorem execClamp_touches {tap : Nat} : Runs [.taps, .out] s (execClamp tap s) := by
  unfold execClamp
  exact onTapRow_touches .refl (fun _ h => boundaryInstruction_touches.after h)

theorem execHighz_touches {tap : Nat} : Runs [.taps, .out] s (execHighz tap s) := by
  unfold execHighz
  exact onTapRow_touches .refl (fun _ h => boundaryInstruction_touches.after h)

theorem execBypass_touches {tap code : Nat} : Runs [.taps, .out] s (execBypass tap code s) := by
  unfold execBypass
  exact onTapRow_touches .refl (fun _ h => .ite h (loadInstruction_touches.after h))

/-! ### LaneDiag -/

theorem diag_touches {n : Nat} {states : PortState → Bool} {param : Nat → Bool} {f : Nat → Nat → Nat → State → CmdOut} {lb : Nat}
    (h : Touches F s t) (hf : ∀ a b c x, Touches F t x → CmdTouches F t (f a b c x))
    (hK : [.fns, .lbs, .journal, .out].all F.contains = true := by exact rfl) : Runs F s (diag n states param f lb t) := by
  unfold diag
  exact runCmd_touches h (fun _ _ _ h => .ite (hf _ _ _ _ h) (.done h)) hK

theorem setLane_touches {p l : Nat} {f : Lane → Lane} : CmdTouches [.ports] s (setLane p l f s) := by
  unfold setLane
  exact .done onLane_touches.widen

theorem execStatus_touches {lb : Nat} : Runs [.fns, .lbs, .journal, .out] s (execStatus lb s) := by
  unfold execStatus
  exact diag_touches .refl (fun _ _ _ _ h => .done h)

theorem diagEnter_touches {p a1 v : Nat} : CmdTouches [.ports] s (diagEnter p a1 v s) := by
  unfold diagEnter
  exact .ite (.done .refl) (.done onPort_touches.widen)

theorem execDiagEnter_touches {lb : Nat} : Runs [.fns, .lbs, .journal, .ports, .out] s (execDiagEnter lb s) := by
  unfold execDiagEnter
  exact diag_touches .refl (fun _ _ _ _ h => diagEnter_touches.after h)

theorem tapsSet_touches {p l v : Nat} : CmdTouches [.ports] s (tapsSet p l v s) := by
  unfold tapsSet
  exact .ite setLane_touches.widen (.done .refl)

theorem execTxTapsSet_touches {lb : Nat} : Runs [.fns, .lbs, .journal, .ports, .out] s (execTxTapsSet lb s) := by
  unfold execTxTapsSet
  exact diag_touches .refl (fun _ _ _ _ h => tapsSet_touches.after h)

theorem prbsGen_touches {p l v : Nat} : CmdTouches [.ports, .free] s (prbsGen p l v s) := by
  unfold prbsGen
  exact .ite (setLane_touches.after (.ite_snd .refl freshNat_touches.widen)) (.done .refl)

theorem execPrbsGen_touches {lb : Nat} : Runs [.fns, .lbs, .journal, .ports, .out, .free] s (execPrbsGen lb s) := by
  unfold execPrbsGen
  exact diag_touches .refl (fun _ _ _ _ h => prbsGen_touches.after h)

theorem prbsCheck_touches {p l v : Nat} : CmdTouches [.ports] s (prbsCheck p l v s) := by
  unfold prbsCheck
  exact .ite setLane_touches.widen (.done .refl)

theorem execPrbsCheck_touches {lb : Nat} : Runs [.fns, .lbs, .journal, .ports, .out] s (execPrbsCheck lb s) := by
  unfold execPrbsCheck
  exact diag_touches .refl (fun _ _ _ _ h => prbsCheck_touches.after h)

theorem laneWord_touches {p l : Nat} {w : BitVec 64} : Touches [.ports, .out, .free] s (laneWord p l w s) := by
  unfold laneWord
  refine adapt_touches.after (.when (onLane_touches.after ?_) (fun _ h => emit_touches.after h))
  exact .ite_snd .refl (.ite_snd (freshNat_touches (bound := 2 ^ 64)).widen .refl)

theorem laneWords_touches {p l : Nat} {ws : List (BitVec 64)} : Touches [.ports, .out, .free] s (laneWords p l ws s) := by
  unfold laneWords
  exact .updates .refl (fun _ _ h => laneWord_touches.after h)

theorem prbsRead_touches {ws : List (BitVec 64)} {bitLock : Bool} {p l v : Nat} :
    CmdTouches [.ports, .out, .free] s (prbsRead ws bitLock p l v s) := by
  unfold prbsRead
  exact .done (.ite (onLane_touches.after (.ite laneWords_touches.widen onLane_touches.widen))
      (.ite laneWords_touches.widen onLane_touches.widen))

theorem execPrbsRead_touches {lb stream words : Nat} {bitLock : Bool} :
    Runs [.fns, .lbs, .journal, .ports, .out, .free] s (execPrbsRead lb stream words bitLock s) := by
  unfold execPrbsRead
  exact diag_touches .refl (fun _ _ _ _ h => prbsRead_touches.after h)

theorem execPatternLow_touches {lb : Nat} : Runs [.fns, .lbs, .journal, .ports, .out] s (execPatternLow lb s) := by
  unfold execPatternLow
  exact diag_touches .refl (fun _ _ _ _ h => setLane_touches.after h)

theorem execPatternHigh_touches {lb : Nat} : Runs [.fns, .lbs, .journal, .ports, .out] s (execPatternHigh lb s) := by
  unfold execPatternHigh
  exact diag_touches .refl (fun _ _ _ _ h => setLane_touches.after h)

theorem capture_touches {ws : List (BitVec 64)} {p l : Nat} : CmdTouches [.ports, .out, .free] s (capture ws p l s) := by
  unfold capture
  extract_lets
  split
  · exact .done laneWords_touches.widen
  · exact .done (freshNat_touches.after laneWords_touches.widen)

theorem execCapture_touches {lb : Nat} {words : List (BitVec 64)} :
    Runs [.fns, .lbs, .journal, .ports, .out, .free] s (execCapture lb words s) := by
  unfold execCapture
  exact diag_touches .refl (fun _ _ _ _ h => capture_touches.after h)

theorem execBitSlip_touches {lb : Nat} : Runs [.fns, .lbs, .journal, .ports, .out] s (execBitSlip lb s) := by
  unfold execBitSlip
  exact diag_touches .refl (fun _ _ _ _ h => setLane_touches.after h)

theorem execLoopback_touches {lb : Nat} : Runs [.fns, .lbs, .journal, .ports, .out] s (execLoopback lb s) := by
  unfold execLoopback
  exact diag_touches .refl (fun _ _ _ _ h => setLane_touches.after h)

theorem execEyeSummary_touches {lb : Nat} {eyes : List EyeReading} : Runs [.fns, .lbs, .journal, .out] s (execEyeSummary lb eyes s) := by
  unfold execEyeSummary
  exact diag_touches .refl (fun _ _ _ _ h => .done h)

theorem execEyeScan_touches {lb : Nat} {errors : List Nat} : Runs [.fns, .lbs, .journal, .out] s (execEyeScan lb errors s) := by
  unfold execEyeScan
  exact diag_touches .refl (fun _ _ _ _ h => .ite (.done h) (.done h))

theorem execRateLimit_touches {lb : Nat} : Runs [.fns, .lbs, .journal, .ports, .out] s (execRateLimit lb s) := by
  unfold execRateLimit
  exact diag_touches .refl (fun _ _ _ _ h => .ite (.done (onPort_touches.after h)) (.done h))

/-! ### Lanes -/

theorem setReady_touches {p : Nat} : Touches [.journal, .ports, .out, .free] s (setReady p s) := by
  unfold setReady
  exact .when (sendBeacons_touches.after onPort_touches.widen) (fun _ h => journalRule_quiet.after h)

theorem noteMissing_touches {p set_ m : Nat} {x : Port} :
    Touches [.maps, .journal, .post, .ports, .dies] s (noteMissing p set_ m x s) := by
  unfold noteMissing
  exact .ite (mapAdd_touches.after (onPort_touches.after onPort_touches.widen)) onPort_touches.widen

theorem sendTraining_touches {p l : Nat} : Touches [.out, .free] s (sendTraining p l s) := by
  unfold sendTraining
  exact emit_touches.after (emit_touches.after freshNat_touches.widen)

theorem detectPass_touches {p : Nat} : Touches [.maps, .journal, .post, .ports, .dies, .out, .free] s (detectPass p s) := by
  unfold detectPass
  exact .ite (.updates (noteMissing_touches.after onPort_touches.widen) (fun _ _ h => sendTraining_touches.after h)) .refl

theorem beaconsLost_touches {p l : Nat} : Touches [.ports, .out, .free] s (beaconsLost p l s) := by
  unfold beaconsLost
  exact .when onLane_touches.widen (fun _ h => sendBeacon_touches.after h)

theorem beacon_touches {p l : Nat} {w : BitVec 64} : Touches [.maps, .journal, .post, .ports, .dies, .out, .free] s (beacon p l w s) := by
  unfold beacon
  refine .ite .refl ?_
  split
  · exact beaconsLost_touches.widen
  · exact detectPass_touches.after (.when (.when (onPort_touches.after onLane_touches.widen) (fun _ h => sendBeacon_touches.after h))
      (fun _ h => setReady_touches.after h))

theorem execBeacon_touches {port lane : Nat} {word : BitVec 64} :
    Runs [.maps, .journal, .post, .ports, .dies, .out, .free] s (execBeacon port lane word s) := by
  unfold execBeacon
  exact runLane_touches .refl (fun _ h => beacon_touches.after h)

theorem readyTimer_touches {p : Nat} : Touches [.maps, .journal, .post, .ports, .dies, .out, .free] s (readyTimer p s) := by
  unfold readyTimer
  exact .ite (detectPass_touches.after setReady_touches.widen) .refl

theorem execReadyTimer_touches {port : Nat} : Runs [.maps, .journal, .post, .ports, .dies, .out, .free] s (execReadyTimer port s) := by
  unfold execReadyTimer
  exact runPort_touches .refl (fun _ h => readyTimer_touches.after h)

theorem patternPass_touches {p : Nat} : Touches [.ports] s (patternPass p s) := by
  unfold patternPass
  exact .ite onPort_touches.widen .refl

theorem nextRequest_touches {echo p l : Nat} : Touches [.ports, .free] s (nextRequest echo p l s) := by
  unfold nextRequest
  have h4 : Touches [.ports, .free] s (freshNat 4 s).2 := freshNat_touches.widen
  exact .ite .refl (onLane_touches.after (.foldl (b := (0, (freshNat 4 s).2)) Prod.snd h4
    fun b _ h => (freshNat_touches (s := b.2) (bound := 3)).after h))

theorem trainingFrame_touches {p l : Nat} {control status : BitVec 32} {own : Bool} :
    Touches [.journal, .ports, .out, .free] s (trainingFrame p l control status own s) := by
  unfold trainingFrame
  exact .ite .refl (patternPass_touches.after (sendTraining_touches.after (.when (nextRequest_touches.after
      (adapt_touches.after onLane_touches.widen)) (fun _ h => journalRule_quiet.after h))))

theorem execTrainingFrame_touches {port lane : Nat} {control status : BitVec 32} {ownTrained : Bool} :
    Runs [.journal, .ports, .out, .free] s (execTrainingFrame port lane control status ownTrained s) := by
  unfold execTrainingFrame
  exact runLane_touches .refl (fun _ h => trainingFrame_touches.after h)

theorem alignmentMarker_touches {p l : Nat} {w : BitVec 64} : Touches [.ports, .free] s (alignmentMarker p l w s) := by
  unfold alignmentMarker
  extract_lets
  split
  · exact .ite .refl (.ite (onLane_touches.after adapt_touches.widen) onLane_touches.widen)
  · exact .ite (onLane_touches.after adapt_touches.widen) .refl
  · exact .ite (onLane_touches.after (adapt_touches.after (.ite onPort_touches.widen .refl))) onLane_touches.widen
  · exact .ite (onLane_touches.after (adapt_touches.after (.ite onPort_touches.widen .refl))) onLane_touches.widen
  · exact .refl

theorem execAlignmentMarker_touches {port lane : Nat} {marker : BitVec 64} :
    Runs [.ports, .free] s (execAlignmentMarker port lane marker s) := by
  unfold execAlignmentMarker
  exact runLane_touches .refl (fun _ h => alignmentMarker_touches.after h)

theorem enterExchange_touches {p : Nat} : Touches [.ports] s (enterExchange p s) := by
  unfold enterExchange
  exact queueControl_touches.after onPort_touches.widen

theorem lockWindow_touches {p : Nat} {bad : Bool} {skewNs locked : Nat} :
    Touches [.ports, .free] s (lockWindow p bad skewNs locked s) := by
  unfold lockWindow
  exact .ite .refl (.ite (enterExchange_touches.after (.updates onPort_touches.widen (fun _ _ h => adapt_touches.after h)))
      (.updates onPort_touches.widen (fun _ _ h => adapt_touches.after h)))

theorem execLockFecWindow_touches {port : Nat} {uncorrectable : Bool} {skewNs locked : Nat} :
    Runs [.ports, .free] s (execLockFecWindow port uncorrectable skewNs locked s) := by
  unfold execLockFecWindow
  exact .ite (runPort_touches .refl (fun _ h => lockWindow_touches.after h)) (.next .refl)

theorem trainingTimeout_touches {p : Nat} : Touches [.journal, .post, .ports, .fabric] s (trainingTimeout p s) := by
  unfold trainingTimeout
  split
  · exact fallback_touches.widen
  · exact .refl

theorem execTrainingTimeout_touches {port : Nat} : Runs [.journal, .post, .ports, .fabric] s (execTrainingTimeout port s) := by
  unfold execTrainingTimeout
  exact runPort_touches .refl (fun _ h => trainingTimeout_touches.after h)

theorem idleEnd_touches {p : Nat} : Touches [.fns, .host, .lbs, .journal, .ports, .events, .out, .free] s (idleEnd p s) := by
  unfold idleEnd
  exact .ite .refl (.ite (widthDone_touches.after (.when onPort_touches.widen (fun _ h => journal_touches.after h)))
      enterDetect_touches.widen)

theorem execFallbackIdleEnd_touches {port : Nat} :
    Runs [.fns, .host, .lbs, .journal, .ports, .events, .out, .free] s (execFallbackIdleEnd port s) := by
  unfold execFallbackIdleEnd
  exact runPort_touches .refl (fun _ h => idleEnd_touches.after h)

theorem attempt_touches {p : Nat} : Touches [.fns, .lbs, .journal, .ports, .out, .free] s (attempt p s) := by
  unfold attempt
  exact .ite enterDetect_touches.widen .refl

theorem execBackoffAttempt_touches {port : Nat} : Runs [.fns, .lbs, .journal, .ports, .out, .free] s (execBackoffAttempt port s) := by
  unfold execBackoffAttempt
  exact runPort_touches .refl (fun _ h => attempt_touches.after h)

theorem laneLost_touches {p l training lastLane trigger : Nat} :
    Touches [.host, .journal, .post, .ports, .fabric, .events, .out] s (laneLost p l training lastLane trigger s) := by
  unfold laneLost
  refine .ite .refl ?_
  split
  · exact fallback_touches.widen
  · exact fallback_touches.widen
  · exact fallback_touches.widen
  · exact fallback_touches.widen
  · exact .ite fallback_touches.widen narrowTo_touches.widen
  · exact .refl

theorem losAssert_touches {p l : Nat} : Touches [.host, .journal, .post, .ports, .fabric, .events, .out, .free] s (losAssert p l s) := by
  unfold losAssert
  exact laneLost_touches.after (onLane_touches.after beaconsLost_touches.widen)

theorem execLosAssert_touches {port lane : Nat} :
    Runs [.host, .journal, .post, .ports, .fabric, .events, .out, .free] s (execLosAssert port lane s) := by
  unfold execLosAssert
  exact runLane_touches .refl (fun _ h => losAssert_touches.after h)

theorem losClear_touches {p l : Nat} : Touches [.fns, .lbs, .journal, .ports, .out, .free] s (losClear p l s) := by
  unfold losClear
  exact attempt_touches.after onLane_touches.widen

theorem execLosClear_touches {port lane : Nat} : Runs [.fns, .lbs, .journal, .ports, .out, .free] s (execLosClear port lane s) := by
  unfold execLosClear
  exact runLane_touches .refl (fun _ h => losClear_touches.after h)

theorem lossOfLock_touches {p l : Nat} : Touches [.host, .journal, .post, .ports, .fabric, .events, .out] s (lossOfLock p l s) := by
  unfold lossOfLock
  exact laneLost_touches.after onLane_touches.widen

theorem execLossOfLock_touches {port lane : Nat} :
    Runs [.host, .journal, .post, .ports, .fabric, .events, .out] s (execLossOfLock port lane s) := by
  unfold execLossOfLock
  exact runLane_touches .refl (fun _ h => lossOfLock_touches.after h)

theorem returnCheck_touches {p bitLocked : Nat} : Touches [.journal, .post, .ports, .fabric] s (returnCheck p bitLocked s) := by
  unfold returnCheck
  exact .ite .refl (.ite onPort_touches.widen fallback_touches.widen)

theorem execKeepaliveReturnCheck_touches {port bitLocked : Nat} :
    Runs [.journal, .post, .ports, .fabric] s (execKeepaliveReturnCheck port bitLocked s) := by
  unfold execKeepaliveReturnCheck
  exact runPort_touches .refl (fun _ h => returnCheck_touches.after h)

theorem execLaserFailure_touches {port lane : Nat} : Runs [.host, .journal, .ports, .events, .out] s (execLaserFailure port lane s) := by
  unfold execLaserFailure
  exact .ite (.next .refl) (runLane_touches .refl (fun _ h => journalRule_touches.after (onLane_touches.after h)))

/-! ### Link -/

theorem sendMarkers_touches {p : Nat} : Touches [.ports, .out] s (sendMarkers p s) := by
  unfold sendMarkers
  exact onPort_touches.after (.updates .refl (fun _ _ h => emit_touches.after (emit_touches.after h)))

theorem sendCodeword_touches {p message : Nat} : Touches [.out] s (sendCodeword p message s) := by
  unfold sendCodeword
  exact .updates .refl (fun _ _ h => emit_touches.after h)

theorem emitFlit_touches {p : Nat} {bytes : List Byte} : Touches [.ports, .out] s (emitFlit p bytes s) := by
  unfold emitFlit
  exact .ite (onPort_touches.after (onPort_touches.after emit_touches.widen)) (onPort_touches.after (sendCodeword_touches.after (.when
      (onPort_touches.after emit_touches.widen) (fun _ h => sendMarkers_touches.after h))))

theorem sendFlit_touches {p kind stream : Nat} {sop eop : Bool} {seq : Nat} {body : List Byte} :
    Touches [.ports, .out] s (sendFlit p kind stream sop eop seq body s) := by
  unfold sendFlit
  exact onPort_touches.after emitFlit_touches.widen

theorem sendPayload_touches {p : Nat} {f : TxFlit} : Touches [.ports, .out] s (sendPayload p f s) := by
  unfold sendPayload
  exact sendFlit_touches.widen

theorem startPacket_touches {p stream : Nat} : Touches [.ports, .fabric] s (startPacket p stream s) := by
  unfold startPacket
  refine .ite .refl ?_
  split
  · exact .refl
  · exact .ite .refl (onPort_touches.after dropFlight_touches.widen)

theorem streamFlit_touches {p stream : Nat} : OptTouches [.ports, .fabric, .out] s (streamFlit p stream s) := by
  unfold streamFlit
  extract_lets
  split
  · split
    · exact .ite .none (.some (.when (onPort_touches.after (sendPayload_touches.after startPacket_touches.widen))
        (fun _ h => countPort_touches.after h)))
    · exact .none
  · exact .none

theorem kaAnswer_touches {p : Nat} : Touches [.ports] s (kaAnswer p s) := by
  unfold kaAnswer
  exact .ite queueControl_touches.widen .refl

theorem controlSent_touches {p op : Nat} : Touches [.host, .journal, .ports, .disc, .events, .out] s (controlSent p op s) := by
  unfold controlSent
  split
  · exact onPort_touches.widen
  · exact .ite (enterActive_touches.after onPort_touches.widen) onPort_touches.widen
  · exact kaSwitch_touches.widen
  · exact .refl

theorem first?_touches {os : List (Option State)} (h : ∀ o ∈ os, OptTouches F s o) : OptTouches F s (first? os) := by
  induction os with
  | nil => exact .none
  | cons o os ih =>
    unfold first?
    split
    · exact h _ List.mem_cons_self
    · exact ih fun o ho => h o (List.mem_cons_of_mem _ ho)

theorem flitSend_touches {p : Nat} : Touches [.host, .journal, .ports, .fabric, .disc, .events, .out] s (flitSend p s) := by
  unfold flitSend
  refine .ite .refl ?_
  split
  · exact onPort_touches.after sendPayload_touches.widen
  · exact controlSent_touches.after (sendFlit_touches.after onPort_touches.widen)
  · refine .ite sendFlit_touches.widen (kaAnswer_touches.after (OptTouches.getD
      (.ite streamFlit_touches.widen ?_) sendFlit_touches.widen))
    refine first?_touches fun o ho => ?_
    simp only [List.mem_cons, List.not_mem_nil, or_false] at ho
    rcases ho with rfl | rfl | rfl
    · exact streamFlit_touches.widen
    · exact streamFlit_touches.widen
    · exact streamFlit_touches.widen

theorem execFlitSend_touches {port : Nat} : Runs [.host, .journal, .ports, .fabric, .disc, .events, .out] s (execFlitSend port s) := by
  unfold execFlitSend
  exact runPort_touches .refl (fun _ h => flitSend_touches.after h)

theorem rewind_touches {p k : Nat} : Touches [.journal, .post, .ports, .fabric] s (rewind p k s) := by
  unfold rewind
  exact .ite (fallback_touches.after countPort_touches.widen) (onPort_touches.after countPort_touches.widen)

theorem takeHeader_touches {p : Nat} {flit : List Byte} :
    Touches [.fns, .host, .lbs, .journal, .post, .ports, .fabric, .events, .out] s (takeHeader p flit s) := by
  unfold takeHeader
  refine .ite onPort_touches.widen ?_
  extract_lets
  split
  · exact fallback_touches.after onPort_touches.widen
  · exact narrowIfWaiting_touches.after (.ite (rewind_touches.after (onPort_touches.after onPort_touches.widen))
      (onPort_touches.after onPort_touches.widen))

theorem portDead_touches {p reason stream : Nat} {bytes : List Byte} :
    Touches [.journal, .post, .dies] s (portDead p reason stream bytes s) := by
  unfold portDead
  exact deadLetterRaw_touches.widen

theorem freeCredits_touches {p : Nat} {q : Pkt} {bytes : List Byte} : Touches [.ports] s (freeCredits p q bytes s) := by
  unfold freeCredits
  exact .ite onPort_touches.widen .refl

theorem packetIn_touches {p stream : Nat} {bytes : List Byte} :
    Touches [.time, .fns, .host, .lbs, .journal, .post, .ports, .dies, .fabric, .mine, .disc, .events, .out] s (packetIn p stream bytes s)
    := by
  unfold packetIn
  exact .ite (discoveryMessage_touches.after (freeCredits_touches.after countPort_touches.widen)) (.ite (freeCredits_touches.after
      (portDead_touches.after countPort_touches.widen)) (.ite (freeCredits_touches.after
      (portDead_touches.after countPort_touches.widen)) (addFlight_touches.after countPort_touches.widen)))

theorem packetEnd_touches {p stream : Nat} {r : RxPkt} :
    Touches [.time, .fns, .host, .lbs, .journal, .post, .ports, .dies, .fabric, .mine, .disc, .events, .out] s (packetEnd p stream r s) :=
    by
  unfold packetEnd
  refine .ite .refl ?_
  split
  · exact .ite packetIn_touches.widen portDead_touches.widen
  · exact portDead_touches.widen

/-- The old packet of a stream that a new one cuts short. -/
theorem acceptFlit_touches {p : Nat} {flit : List Byte} :
    Touches [.time, .fns, .host, .lbs, .journal, .post, .ports, .dies, .fabric, .mine, .disc, .events, .out] s (acceptFlit p flit s) := by
  unfold acceptFlit
  refine .ite ?_ ?_
  · extract_lets u
    have hu : Touches [.time, .fns, .host, .lbs, .journal, .post, .ports, .dies, .fabric, .mine, .disc, .events, .out] s u := by
      unfold u
      split
      · exact .ite .refl portDead_touches.widen
      · exact .refl
    split
    · exact .ite (packetEnd_touches.after (onPort_touches.after (portDead_touches.after hu))) (onPort_touches.after
        (portDead_touches.after hu))
    · exact .ite (packetEnd_touches.after (onPort_touches.after hu)) (onPort_touches.after hu)
  · split
    · exact .ite
        (.ite (packetEnd_touches.after (onPort_touches.after portDead_touches.widen)) (onPort_touches.after portDead_touches.widen))
        (.ite (packetEnd_touches.after onPort_touches.widen) onPort_touches.widen)
    · exact portDead_touches.widen

theorem payloadFlit_touches {p : Nat} {flit : List Byte} :
    Touches [.time, .fns, .host, .lbs, .journal, .post, .ports, .dies, .fabric, .mine, .disc, .events, .out] s (payloadFlit p flit s) := by
  unfold payloadFlit
  exact .ite (acceptFlit_touches.after onPort_touches.widen) (.ite onPort_touches.widen .refl)

theorem exitAnswered_touches {p : Nat} : Touches [.ports] s (exitAnswered p s) := by
  unfold exitAnswered
  exact onPort_touches.widen

theorem flitReceive_touches {p : Nat} {flit : List Byte} {uncorrectable : Bool} :
    Touches [.time, .fns, .host, .lbs, .journal, .post, .ports, .dies, .fabric, .mine, .disc, .events, .out] s (flitReceive p flit
    uncorrectable s) := by
  unfold flitReceive
  exact .ite (.ite (.ite countPort_touches.widen .refl) (.ite (countPort_touches.after (.ite onPort_touches.widen .refl))
      (.ite onPort_touches.widen .refl))) (.ite (.ite enterActive_touches.widen .refl) (.ite (onPort_touches.after (.ite_app
      (countPort_touches.after (.ite enterActive_touches.widen .refl)) (.ite enterActive_touches.widen .refl))) (.ite
      (exitAnswered_touches.after (takeHeader_touches.after (.ite enterActive_touches.widen .refl))) (.ite (payloadFlit_touches.after
      (exitAnswered_touches.after (takeHeader_touches.after (.ite enterActive_touches.widen .refl)))) (.ite (countPort_touches.after
      (exitAnswered_touches.after (takeHeader_touches.after (.ite enterActive_touches.widen .refl)))) (exitAnswered_touches.after
      (takeHeader_touches.after (.ite enterActive_touches.widen .refl))))))))

theorem codewordReceive_touches {p : Nat} {lanes symbols : List Nat} :
    Touches [.time, .fns, .host, .lbs, .journal, .post, .ports, .dies, .fabric, .mine, .disc, .events, .out] s (codewordReceive p lanes
    symbols s) := by
  unfold codewordReceive
  refine .updates (onPort_touches.after ?_) (fun _ _ h => flitReceive_touches.after h)
  split
  · exact .updates countPort_touches.widen (fun _ _ h => countPort_touches.after h)
  · exact .updates (countPort_touches.after onPort_touches.widen) (fun _ _ h => countPort_touches.after h)

theorem deskewStep_touches {p : Nat} :
    OptTouches [.time, .fns, .host, .lbs, .journal, .post, .ports, .dies, .fabric, .mine, .disc, .events, .out] s (deskewStep p s) := by
  unfold deskewStep
  refine .ite .none ?_
  refine .ite ?_ (.ite (.some (.updates .refl (fun _ _ h => onLane_touches.after h))) (.ite (.some (.updates .refl
      (fun _ _ h => onLane_touches.after h))) (.ite (.some (codewordReceive_touches.after (.updates .refl
      (fun _ _ h => onLane_touches.after h)))) .none)))
  split
  · exact .none
  · exact .ite (.some (onPort_touches.after (.updates .refl (fun _ _ h => onLane_touches.after h)))) (.some (.updates .refl
      (fun _ _ h => onLane_touches.after h)))

theorem deskew_touches {p a1 : Nat} :
    Touches [.time, .fns, .host, .lbs, .journal, .post, .ports, .dies, .fabric, .mine, .disc, .events, .out] s (deskew p a1 s) := by
  induction a1 generalizing p s with
  | zero => exact .refl
  | succ n ih =>
    unfold deskew
    split
    · exact ih.after ((deskewStep_touches.of_eq ‹_›).widen)
    · exact .refl

theorem symbolsReceive_touches {p l : Nat} {vs : List Nat} :
    Touches [.time, .fns, .host, .lbs, .journal, .post, .ports, .dies, .fabric, .mine, .disc, .events, .out] s (symbolsReceive p l vs s) :=
    by
  unfold symbolsReceive
  exact .ite .refl (deskew_touches.after onLane_touches.widen)

theorem execPayloadFlitReceive_touches {port : Nat} {received : Received} {uncorrectable : Bool} :
    Runs [.time, .fns, .host, .lbs, .journal, .post, .ports, .dies, .fabric, .mine, .disc, .events, .out] s (execPayloadFlitReceive port
    received uncorrectable s) := by
  unfold execPayloadFlitReceive
  refine runPort_touches .refl (fun _ h => ?_)
  split
  · exact flitReceive_touches.after (.when h (fun _ h => countPort_touches.after h))
  · exact .ite (symbolsReceive_touches.after h) h

theorem execReplayTimerExpiry_touches {port : Nat} : Runs [.journal, .post, .ports, .fabric] s (execReplayTimerExpiry port s) := by
  unfold execReplayTimerExpiry
  exact runPort_touches .refl (fun _ h => .ite (rewind_touches.after h) h)

theorem tryStart_touches {p : Nat} : Touches [.ports] s (tryStart p s) := by
  unfold tryStart
  exact .ite queueControl_touches.widen .refl

theorem linkRepeat_touches {p : Nat} {held : Bool} : Touches [.ports] s (linkRepeat p held s) := by
  unfold linkRepeat
  extract_lets
  split
  · exact tryStart_touches.after (.when (queueControl_touches.after onPort_touches.widen) (fun _ h => queueControl_touches.after h))
  · exact .when (.when (.when .refl (fun _ h => queueControl_touches.after h)) (fun _ h => queueControl_touches.after h))
      (fun _ h => queueControl_touches.after h)
  · exact .when (.when (.when .refl (fun _ h => queueControl_touches.after h)) (fun _ h => queueControl_touches.after h))
      (fun _ h => queueControl_touches.after h)
  · exact .refl

theorem execLinkControlRepeat_touches {port : PortHold} : Runs [.ports] s (execLinkControlRepeat port s) := by
  unfold execLinkControlRepeat
  exact runPort_touches .refl (fun _ h => linkRepeat_touches.after h)

theorem capArrive_touches {p : Nat} {b : List Byte} {rtt : Nat} : Touches [.journal, .post, .ports, .fabric] s (capArrive p b rtt s) := by
  unfold capArrive
  refine .ite .refl ?_
  split
  · exact fallback_touches.widen
  · exact .ite (fallback_touches.after onPort_touches.widen) (tryStart_touches.after onPort_touches.widen)

theorem execCap_touches {port : Nat} {body : List Byte} {roundTripNs : Nat} :
    Runs [.journal, .post, .ports, .fabric] s (execCap port body roundTripNs s) := by
  unfold execCap
  exact runPort_touches .refl (fun _ h => capArrive_touches.after h)

theorem startArrive_touches {p : Nat} : Touches [.host, .journal, .ports, .disc, .events, .out] s (startArrive p s) := by
  unfold startArrive
  exact .ite .refl (.ite (enterActive_touches.after onPort_touches.widen) onPort_touches.widen)

theorem execStart_touches {port : Nat} : Runs [.host, .journal, .ports, .disc, .events, .out] s (execStart port s) := by
  unfold execStart
  exact runPort_touches .refl (fun _ h => startArrive_touches.after h)

theorem narrowEnd_touches {p : Nat} : Touches [.fns, .host, .lbs, .journal, .ports, .events, .out] s (narrowEnd p s) := by
  unfold narrowEnd
  exact .when narrowIfWaiting_touches.widen (fun _ h => kaBegin_touches.after h)

theorem narrowArrive_touches {p m : Nat} : Touches [.journal, .post, .ports, .fabric] s (narrowArrive p m s) := by
  unfold narrowArrive
  exact .ite .refl (.ite fallback_touches.widen (queueControl_touches.after (.when onPort_touches.widen (fun _ h => journal_quiet.after
      (countPort_touches.after h)))))

theorem execNarrow_touches {port mask : Nat} : Runs [.journal, .post, .ports, .fabric] s (execNarrow port mask s) := by
  unfold execNarrow
  exact runPort_touches .refl (fun _ h => narrowArrive_touches.after h)

theorem narrowAck_touches {p m : Nat} :
    Touches [.fns, .host, .lbs, .journal, .post, .ports, .fabric, .events, .out] s (narrowAck p m s) := by
  unfold narrowAck
  exact .ite .refl (.ite fallback_touches.widen (narrowEnd_touches.after onPort_touches.widen))

theorem execNarrowAck_touches {port mask : Nat} :
    Runs [.fns, .host, .lbs, .journal, .post, .ports, .fabric, .events, .out] s (execNarrowAck port mask s) := by
  unfold execNarrowAck
  exact runPort_touches .refl (fun _ h => narrowAck_touches.after h)

theorem execNarrowTimeout_touches {port : Nat} : Runs [.journal, .post, .ports, .fabric] s (execNarrowTimeout port s) := by
  unfold execNarrowTimeout
  exact runPort_touches .refl (fun _ h => .ite (fallback_touches.after h) h)

theorem laneErrors_touches {p l : Nat} {uncorrectable : Bool} :
    Touches [.host, .journal, .post, .ports, .fabric, .events, .out] s (laneErrors p l uncorrectable s) := by
  unfold laneErrors
  exact .ite .refl (.ite narrowTo_touches.widen (.ite fallback_touches.widen journalRule_touches.widen))

theorem execLaneErrorThreshold_touches {port lane : Nat} {uncorrectable : Bool} :
    Runs [.host, .journal, .post, .ports, .fabric, .events, .out] s (execLaneErrorThreshold port lane uncorrectable s) := by
  unfold execLaneErrorThreshold
  exact runLane_touches .refl (fun _ h => laneErrors_touches.after h)

theorem kaEnter_touches {p : Nat} : Touches [.ports] s (kaEnter p s) := by
  unfold kaEnter
  exact .ite .refl (.ite kaSwitch_touches.widen (kaAnswer_touches.after onPort_touches.widen))

theorem execKaEnter_touches {port : Nat} : Runs [.ports] s (execKaEnter port s) := by
  unfold execKaEnter
  exact runPort_touches .refl (fun _ h => kaEnter_touches.after h)

theorem kaSwitchIfSent_touches {p : Nat} : Touches [.ports] s (kaSwitchIfSent p s) := by
  unfold kaSwitchIfSent
  exact .ite kaSwitch_touches.widen .refl

theorem execKaAck_touches {port : Nat} : Runs [.ports] s (execKaAck port s) := by
  unfold execKaAck
  exact runPort_touches .refl (fun _ h => kaSwitchIfSent_touches.after h)

theorem execKaEnterTimeout_touches {port : Nat} : Runs [.ports] s (execKaEnterTimeout port s) := by
  unfold execKaEnterTimeout
  exact runPort_touches .refl (fun _ h => kaSwitchIfSent_touches.after h)

theorem kaExit_touches {p : Nat} : Touches [.ports] s (kaExit p s) := by
  unfold kaExit
  exact .ite onPort_touches.widen (.ite (queueControl_touches.after onPort_touches.widen) .refl)

theorem execKaExit_touches {port : Nat} : Runs [.ports] s (execKaExit port s) := by
  unfold execKaExit
  exact runPort_touches .refl (fun _ h => kaExit_touches.after h)

theorem execEscapeCreditStall_touches {port : Nat} : Runs [.journal] s (execEscapeCreditStall port s) := by
  unfold execEscapeCreditStall
  exact runPort_touches .refl (fun _ h => .ite (journalRule_quiet.after h) h)

/-! ### Mctp -/

theorem assignAddress_touches {a : Nat} : Touches [.events, .mgmt] s (assignAddress a s) := by
  unfold assignAddress
  exact .when .refl (fun _ h => .onMgmt h)

theorem execSetdasa_touches {address : Nat} : Runs [.events, .mgmt] s (execSetdasa address s) := by
  unfold execSetdasa
  exact .next assignAddress_touches.widen

theorem execEntdaa_touches {address : Nat} : Runs [.events, .mgmt] s (execEntdaa address s) := by
  unfold execEntdaa
  exact .next (.when .refl (fun _ h => assignAddress_touches.after h))

theorem execRstdaa_touches : Runs [.events, .mgmt] s (execRstdaa s) := by
  unfold execRstdaa
  exact .next (.when .refl (fun _ h => .onMgmt h))

theorem execBusHeldLow_touches : Runs [.journal] s (execBusHeldLow s) := by
  unfold execBusHeldLow
  exact .next (.when .refl (fun _ h => journalRule_quiet.after h))

theorem mctpReply_touches {type command : Nat} {fs : List Fld} : Touches [.out] s (mctpReply type command fs s) := by
  unfold mctpReply
  exact emit_touches.widen

theorem setEid_touches {op eid : Nat} : Touches [.eid, .out] s (setEid op eid s) := by
  unfold setEid
  exact .ite .refl (.ite (mctpReply_touches.after (.onMgmt .refl)) mctpReply_touches.widen)

theorem execMctpSetEndpointId_touches {operation eid : Nat} : Runs [.eid, .out] s (execMctpSetEndpointId operation eid s) := by
  unfold execMctpSetEndpointId
  exact .next setEid_touches.widen

theorem onControl_touches {dest : Nat} {f : State → State} (h : Touches F s t) (hf : ∀ x, Touches F s x → Touches F s (f x)) :
    Runs F s (onControl dest f t) := by
  unfold onControl
  exact .next (.when h hf)

theorem execMctpGetEndpointId_touches {dest : Nat} : Runs [.out] s (execMctpGetEndpointId dest s) := by
  unfold execMctpGetEndpointId
  exact onControl_touches .refl (fun _ h => mctpReply_touches.after h)

theorem execMctpGetEndpointUuid_touches {dest : Nat} : Runs [.out] s (execMctpGetEndpointUuid dest s) := by
  unfold execMctpGetEndpointUuid
  exact onControl_touches .refl (fun _ h => mctpReply_touches.after h)

theorem execMctpGetVersionSupport_touches {dest messageType : Nat} : Runs [.out] s (execMctpGetVersionSupport dest messageType s) := by
  unfold execMctpGetVersionSupport
  exact onControl_touches .refl (fun _ h => .ite (mctpReply_touches.after h) (mctpReply_touches.after h))

theorem execMctpGetMessageTypeSupport_touches {dest : Nat} : Runs [.out] s (execMctpGetMessageTypeSupport dest s) := by
  unfold execMctpGetMessageTypeSupport
  exact onControl_touches .refl (fun _ h => mctpReply_touches.after h)

theorem execMctpGetVendorMsgSupport_touches {dest selector : Nat} : Runs [.out] s (execMctpGetVendorMsgSupport dest selector s) := by
  unfold execMctpGetVendorMsgSupport
  exact onControl_touches .refl (fun _ h => .ite (mctpReply_touches.after h) (mctpReply_touches.after h))

theorem controlUnsupported_touches {dest command : Nat} : Touches [.out] s (controlUnsupported dest command s) := by
  unfold controlUnsupported
  exact .when .refl (fun _ h => mctpReply_touches.after h)

theorem vendorCommand_touches {op : Nat} {mramOk : Bool} {a : List Byte} :
    CmdTouches [.maps, .journal, .post, .dies] s (vendorCommand op mramOk a s) := by
  unfold vendorCommand
  split
  · exact .done .refl
  · exact .done .refl
  · exact selftestReportRead_touches.widen
  · exact journalRead_touches.widen
  · split
    · exact mapRead_touches.widen
    · exact mapAddCmd_touches.widen
    · exact mapDeleteCmd_touches.widen
  · exact countersRead_touches.widen
  · exact .done .refl

theorem vendorReply_touches {a1 : List Byte} {e : Nat} {res : List Byte} : Touches [.out] s (vendorReply a1 e res s) := by
  unfold vendorReply
  exact emit_touches.widen

theorem vendorRecord_touches {a1 a : List Byte} {e : Nat} : Touches [.journal] s (vendorRecord a1 a e s) := by
  unfold vendorRecord
  exact .ite .refl journal_quiet.widen

theorem vendorMessage_touches {frame : List Byte} {mramOk : Bool} :
    Touches [.maps, .journal, .post, .dies, .out] s (vendorMessage frame mramOk s) := by
  unfold vendorMessage
  refine .ite .refl ?_
  extract_lets h a
  split
  · exact vendorReply_touches.widen
  · have hc := vendorCommand_touches (op := field h 0 2) (mramOk := mramOk) (a := a) (s := s)
    generalize vendorCommand (field h 0 2) mramOk a s = o at hc
    cases hc with
    | done h => exact vendorReply_touches.after (vendorRecord_touches.after (h.widen))
    | wait h => exact h.widen
    | gone h => exact h.widen

theorem execVendorDefinedMessage_touches {frame : List Byte} {mramOk : Bool} :
    Runs [.maps, .journal, .post, .dies, .out] s (execVendorDefinedMessage frame mramOk s) := by
  unfold execVendorDefinedMessage
  exact .next vendorMessage_touches.widen

/-! ### Pldm -/

theorem pldmReply_touches {command cc : Nat} {fs : List Fld} : Touches [.out] s (pldmReply command cc fs s) := by
  unfold pldmReply
  exact mctpReply_touches.widen

theorem pldmUnsupported_touches {command : Nat} : Touches [.out] s (pldmUnsupported command s) := by
  unfold pldmUnsupported
  exact pldmReply_touches.widen

theorem onPldm_touches {f : State → State} (h : Touches F s t) (hf : ∀ x, Touches F s x → Touches F s (f x)) :
    Runs F s (onPldm f t) := by
  unfold onPldm
  exact .next (.when h hf)

theorem updateNumeric_touches {rs : List (Nat × Int)} {id : Nat} : Touches [.events, .mgmt, .out] s (updateNumeric rs id s) := by
  unfold updateNumeric
  exact .ite (pldmRaise_touches.after (.onMgmt .refl)) (.onMgmt .refl)

theorem updateState_touches {id : Nat} : Touches [.events, .mgmt, .out] s (updateState id s) := by
  unfold updateState
  exact .ite (.onMgmt .refl) (pldmRaise_touches.after (.onMgmt .refl))

theorem sensorUpdate_touches {rs : List (Nat × Int)} : Touches [.events, .mgmt, .out] s (sensorUpdate rs s) := by
  unfold sensorUpdate
  exact .ite (.updates (.updates .refl (fun _ _ h => updateNumeric_touches.after h)) (fun _ _ h => updateState_touches.after h)) .refl

theorem execSensorUpdate_touches {readings : List (Nat × Int)} : Runs [.events, .mgmt, .out] s (execSensorUpdate readings s) := by
  unfold execSensorUpdate
  exact .next sensorUpdate_touches.widen

theorem getPdr_touches {handle : Nat} : Touches [.out] s (getPdr handle s) := by
  unfold getPdr
  extract_lets
  split <;> exact pldmReply_touches.widen

theorem execGetPdr_touches {handle : Nat} : Runs [.out] s (execGetPdr handle s) := by
  unfold execGetPdr
  exact onPldm_touches .refl (fun _ h => getPdr_touches.after h)

theorem execGetPdrRepositoryInfo_touches : Runs [.out] s (execGetPdrRepositoryInfo s) := by
  unfold execGetPdrRepositoryInfo
  exact onPldm_touches .refl (fun _ h => pldmReply_touches.after h)

theorem getSensorReading_touches {id : Nat} : Touches [.out] s (getSensorReading id s) := by
  unfold getSensorReading
  exact .ite pldmReply_touches.widen pldmReply_touches.widen

theorem execGetSensorReading_touches {sensor : Nat} : Runs [.out] s (execGetSensorReading sensor s) := by
  unfold execGetSensorReading
  exact onPldm_touches .refl (fun _ h => getSensorReading_touches.after h)

theorem setTid_touches {a1 : Nat} : Touches [.events, .mgmt, .out] s (setTid a1 s) := by
  unfold setTid
  exact .ite (pldmReply_touches.after (.onMgmt .refl)) pldmReply_touches.widen

theorem execSetTid_touches {tid : Nat} : Runs [.events, .mgmt, .out] s (execSetTid tid s) := by
  unfold execSetTid
  exact onPldm_touches .refl (fun _ h => setTid_touches.after h)

theorem getStateReadings_touches {id : Nat} : Touches [.out] s (getStateReadings id s) := by
  unfold getStateReadings
  exact .ite pldmReply_touches.widen pldmReply_touches.widen

theorem execGetStateSensorReadings_touches {sensor : Nat} : Runs [.out] s (execGetStateSensorReadings sensor s) := by
  unfold execGetStateSensorReadings
  exact onPldm_touches .refl (fun _ h => getStateReadings_touches.after h)

theorem execSetEventReceiver_touches {enable : Bool} {eid : Nat} : Runs [.events, .mgmt, .out] s (execSetEventReceiver enable eid s) := by
  unfold execSetEventReceiver
  exact onPldm_touches .refl (fun _ h => pldmReply_touches.after (.onMgmt h))

theorem pollEvent_touches : Touches [.events, .out] s (pollEvent s) := by
  unfold pollEvent
  split
  · exact emit_touches.after (.onMgmt .refl)
  · exact pldmReply_touches.widen

theorem execPollForPlatformEventMessage_touches : Runs [.events, .mgmt, .out] s (execPollForPlatformEventMessage s) := by
  unfold execPollForPlatformEventMessage
  exact onPldm_touches .refl (fun _ h => pollEvent_touches.after h)

theorem powerEffecter_touches {v : Nat} : Touches [.power, .fns, .lbs, .journal, .events, .mgmt, .out, .free] s (powerEffecter v s) := by
  unfold powerEffecter
  refine .ite pldmReply_touches.widen ?_
  refine .ite (pldmReply_touches.after (setLastPldm_touches.after (.onMgmt .refl))) ?_
  refine pldmReply_touches.after ?_
  split
  · exact setLastPldm_touches.after (.onMgmt .refl)
  · exact requestPower_touches.after (.onMgmt .refl)

theorem execPowerStateEffecter_touches {value : Nat} :
    Runs [.power, .fns, .lbs, .journal, .events, .mgmt, .out, .free] s (execPowerStateEffecter value s) := by
  unfold execPowerStateEffecter
  exact onPldm_touches .refl (fun _ h => powerEffecter_touches.after h)

theorem resetEffecter_touches {v : Nat} : Touches (allBut [.rackTime, .maps, .boot, .eid, .taps, .spdm]) s (resetEffecter v s) := by
  unfold resetEffecter
  exact .ite (askReset_touches.after (pldmReply_touches.after (.onMgmt .refl))) pldmReply_touches.widen

theorem execResetEffecter_touches {value : Nat} :
    Runs (allBut [.rackTime, .maps, .boot, .eid, .taps, .spdm]) s (execResetEffecter value s) := by
  unfold execResetEffecter
  exact onPldm_touches .refl (fun _ h => resetEffecter_touches.after h)

theorem safeEffecter_touches {v : Nat} : Touches [.power, .out] s (safeEffecter v s) := by
  unfold safeEffecter
  exact .ite (pldmReply_touches.after (.onPower .refl)) pldmReply_touches.widen

theorem execSafeStateEffecter_touches {value : Nat} : Runs [.power, .out] s (execSafeStateEffecter value s) := by
  unfold execSafeStateEffecter
  exact onPldm_touches .refl (fun _ h => safeEffecter_touches.after h)

theorem latchEffecter_touches {v : Nat} : Touches [.power, .events, .mgmt, .out] s (latchEffecter v s) := by
  unfold latchEffecter
  exact .ite pldmReply_touches.widen (pldmReply_touches.after (.when (.onMgmt .refl) (fun _ h => .onPower h)))

theorem execLatchClearEffecter_touches {value : Nat} : Runs [.power, .events, .mgmt, .out] s (execLatchClearEffecter value s) := by
  unfold execLatchClearEffecter
  exact onPldm_touches .refl (fun _ h => latchEffecter_touches.after h)

theorem effecterStates_touches {id : Nat} : Touches [.out] s (effecterStates id s) := by
  unfold effecterStates
  extract_lets
  split <;> exact pldmReply_touches.widen

theorem execGetStateEffecterStates_touches {effecter : Nat} : Runs [.out] s (execGetStateEffecterStates effecter s) := by
  unfold execGetStateEffecterStates
  exact onPldm_touches .refl (fun _ h => effecterStates_touches.after h)

theorem setUpdate_touches {n : Nat} : Touches [.events, .mgmt] s (setUpdate n s) := by
  unfold setUpdate
  exact .onMgmt .refl

theorem inUpdate_touches {command n : Nat} {f : State → State} (h :
    Touches F s t) (hf : ∀ x, Touches F s x → Touches F s (f x)) (hK : [.out].all F.contains = true := by exact rfl) :
    Touches F s (inUpdate command n f t) := by
  unfold inUpdate
  exact .ite (hf _ h) (pldmReply_touches.within h hK)

theorem execQueryDeviceIdentifiers_touches : Runs [.out] s (execQueryDeviceIdentifiers s) := by
  unfold execQueryDeviceIdentifiers
  exact onPldm_touches .refl (fun _ h => pldmReply_touches.after h)

theorem execGetFirmwareParameters_touches : Runs [.out] s (execGetFirmwareParameters s) := by
  unfold execGetFirmwareParameters
  exact onPldm_touches .refl (fun _ h => pldmReply_touches.after h)

theorem requestUpdate_touches : Touches [.events, .mgmt, .out] s (requestUpdate s) := by
  unfold requestUpdate
  exact .ite pldmReply_touches.widen (.ite pldmReply_touches.widen (pldmReply_touches.after (.onMgmt .refl)))

theorem execRequestUpdate_touches : Runs [.events, .mgmt, .out] s (execRequestUpdate s) := by
  unfold execRequestUpdate
  exact onPldm_touches .refl (fun _ h => requestUpdate_touches.after h)

theorem passComponents_touches {id : Nat} : Touches [.events, .mgmt, .out] s (passComponents id s) := by
  unfold passComponents
  exact inUpdate_touches .refl (fun _ h => pldmReply_touches.after (setUpdate_touches.after h))

theorem execPassComponentTable_touches {identifier : Nat} : Runs [.events, .mgmt, .out] s (execPassComponentTable identifier s) := by
  unfold execPassComponentTable
  exact onPldm_touches .refl (fun _ h => passComponents_touches.after h)

theorem updateComponent_touches {id len : Nat} : Touches [.fw, .events, .mgmt, .out] s (updateComponent id len s) := by
  unfold updateComponent
  exact inUpdate_touches .refl (fun _ h => .ite (pldmReply_touches.after h) (requestPiece_touches.after (pldmReply_touches.after
      (.onMgmt (onInactive_touches.after h)))))

theorem execUpdateComponent_touches {identifier length : Nat} : Runs [.fw, .events, .mgmt,
    .out] s (execUpdateComponent identifier length s) := by
  unfold execUpdateComponent
  exact onPldm_touches .refl (fun _ h => updateComponent_touches.after h)

theorem firmwareData_touches {data : List Byte} {ok : Bool} : Touches [.journal, .dies, .events, .mgmt,
    .out] s (firmwareData data ok s) := by
  unfold firmwareData
  exact .ite .refl (.ite requestPiece_touches.widen (.ite (mctpReply_touches.after (.onMgmt mramFailed_touches.widen)) (.when
      (.onMgmt .refl) (fun _ h => requestPiece_touches.after h))))

theorem execRequestFirmwareData_touches {data : List Byte} {mramOk : Bool} :
    Runs [.journal, .dies, .events, .mgmt, .out] s (execRequestFirmwareData data mramOk s) := by
  unfold execRequestFirmwareData
  exact onPldm_touches .refl (fun _ h => firmwareData_touches.after h)

theorem transferComplete_touches : Touches [.fw, .events, .mgmt, .out] s (transferComplete s) := by
  unfold transferComplete
  refine .ite .refl ?_
  extract_lets
  split
  · exact .onMgmt (markVerified_touches.after (mctpReply_touches.after onInactive_touches.widen))
  · exact .ite (onInactive_touches.after (.onMgmt (mctpReply_touches.after onInactive_touches.widen))) (.onMgmt
      (mctpReply_touches.after onInactive_touches.widen))

theorem execTransferComplete_touches : Runs [.fw, .events, .mgmt, .out] s (execTransferComplete s) := by
  unfold execTransferComplete
  exact onPldm_touches .refl (fun _ h => transferComplete_touches.after h)

theorem verifyComplete_touches : Touches [.events, .mgmt, .out] s (verifyComplete s) := by
  unfold verifyComplete
  exact .ite .refl (mctpReply_touches.after setUpdate_touches.widen)

theorem execVerifyComplete_touches : Runs [.events, .mgmt, .out] s (execVerifyComplete s) := by
  unfold execVerifyComplete
  exact onPldm_touches .refl (fun _ h => verifyComplete_touches.after h)

theorem applyComplete_touches : Touches [.events, .mgmt, .out] s (applyComplete s) := by
  unfold applyComplete
  exact .ite .refl (mctpReply_touches.after setUpdate_touches.widen)

theorem execApplyComplete_touches : Runs [.events, .mgmt, .out] s (execApplyComplete s) := by
  unfold execApplyComplete
  exact onPldm_touches .refl (fun _ h => applyComplete_touches.after h)

theorem activateFirmware_touches {ok2 ok4 : Bool} :
    Touches [.fns, .hostPorts, .host, .lbs, .fw, .journal, .boot, .post, .pins, .xlat, .dies, .fabric, .images, .res, .spdm, .events,
        .mgmt, .out]
    s (activateFirmware ok2 ok4 s) := by
  unfold activateFirmware
  exact inUpdate_touches .refl (fun _ h => .ite (pldmReply_touches.after h) (.ite h (pldmReply_touches.after (.onMgmt (.ite_snd
      (activateLive_touches.after h) (activateAtReset_touches.after h))))))

theorem execActivateFirmware_touches {step2Ok step4Ok : Bool} :
    Runs [.fns, .hostPorts, .host, .lbs, .fw, .journal, .boot, .post, .pins, .xlat, .dies, .fabric, .images, .res, .spdm, .events, .mgmt,
        .out] s
    (execActivateFirmware step2Ok step4Ok s) := by
  unfold execActivateFirmware
  exact onPldm_touches .refl (fun _ h => activateFirmware_touches.after h)

theorem execGetStatus_touches : Runs [.out] s (execGetStatus s) := by
  unfold execGetStatus
  exact onPldm_touches .refl (fun _ h => pldmReply_touches.after h)

theorem dropTransfer_touches : Touches [.fw, .events, .mgmt] s (dropTransfer s) := by
  unfold dropTransfer
  exact .ite (onInactive_touches.after (.onMgmt .refl)) .refl

theorem cancelComponent_touches : Touches [.fw, .events, .mgmt, .out] s (cancelComponent s) := by
  unfold cancelComponent
  exact .ite pldmReply_touches.widen (pldmReply_touches.after (setUpdate_touches.after dropTransfer_touches.widen))

theorem execCancelUpdateComponent_touches : Runs [.fw, .events, .mgmt, .out] s (execCancelUpdateComponent s) := by
  unfold execCancelUpdateComponent
  exact onPldm_touches .refl (fun _ h => cancelComponent_touches.after h)

theorem cancelUpdate_touches : Touches [.fw, .events, .mgmt, .out] s (cancelUpdate s) := by
  unfold cancelUpdate
  exact .ite pldmReply_touches.widen (pldmReply_touches.after (setUpdate_touches.after dropTransfer_touches.widen))

theorem execCancelUpdate_touches : Runs [.fw, .events, .mgmt, .out] s (execCancelUpdate s) := by
  unfold execCancelUpdate
  exact onPldm_touches .refl (fun _ h => cancelUpdate_touches.after h)

theorem execUpdateIdleTimeout_touches : Runs [.fw, .events, .mgmt] s (execUpdateIdleTimeout s) := by
  unfold execUpdateIdleTimeout
  exact .next (.ite (setUpdate_touches.after dropTransfer_touches.widen) .refl)

/-! ### Spdm -/

theorem onSpdm_touches {a1 : Nat} {f : Spdm → Spdm} : Touches [.spdm] s (onSpdm a1 f s) := by
  unfold onSpdm
  exact .onMgmt .refl

theorem spdmReply_touches {a1 code : Nat} {bytes : List Byte} : Touches [.out] s (spdmReply a1 code bytes s) := by
  unfold spdmReply
  exact .ite emit_touches.widen emit_touches.widen

theorem spdmError_touches {a1 e : Nat} : Touches [.events, .out] s (spdmError a1 e s) := by
  unfold spdmError
  exact spdmReply_touches.after countMgmt_touches.widen

theorem spdmAt_touches {a1 n : Nat} {f : State → State} (h :
    Touches F s t) (hf : ∀ x, Touches F s x → Touches F s (f x)) (hK : [.events, .out].all F.contains = true := by exact rfl) :
    Touches F s (spdmAt a1 n f t) := by
  unfold spdmAt
  exact .ite h (.ite (spdmError_touches.within h hK) (.ite (spdmError_touches.within h hK) (hf _ h)))

theorem onTransport_touches {a1 : Nat} {f : State → State} (h : Touches F s t) (hf : ∀ x, Touches F s x → Touches F s (f x)) :
    Runs F s (onTransport a1 f t) := by
  unfold onTransport
  exact .ite (.next (hf _ h)) (.next h)

theorem spdmVersion_touches {a1 : Nat} : Touches [.spdm, .out] s (spdmVersion a1 s) := by
  unfold spdmVersion
  exact .ite .refl (spdmReply_touches.after onSpdm_touches.widen)

theorem execSpdmGetVersion_touches {transport : Nat} : Runs [.spdm, .out] s (execSpdmGetVersion transport s) := by
  unfold execSpdmGetVersion
  exact onTransport_touches .refl (fun _ h => spdmVersion_touches.after h)

theorem spdmCapabilities_touches {a1 : Nat} : Touches [.spdm, .events, .out] s (spdmCapabilities a1 s) := by
  unfold spdmCapabilities
  exact spdmAt_touches .refl (fun _ h => spdmReply_touches.after (onSpdm_touches.after h))

theorem execSpdmGetCapabilities_touches {transport : Nat} : Runs [.spdm, .events, .out] s (execSpdmGetCapabilities transport s) := by
  unfold execSpdmGetCapabilities
  exact onTransport_touches .refl (fun _ h => spdmCapabilities_touches.after h)

theorem spdmAlgorithms_touches {a1 : Nat} {ecdsa sha : Bool} : Touches [.spdm, .events, .out] s (spdmAlgorithms a1 ecdsa sha s) := by
  unfold spdmAlgorithms
  exact spdmAt_touches .refl (fun _ h => .ite (spdmReply_touches.after (onSpdm_touches.after h)) (spdmError_touches.after h))

theorem execSpdmNegotiateAlgorithms_touches {transport : Nat} {ecdsaP384 sha384 : Bool} :
    Runs [.spdm, .events, .out] s (execSpdmNegotiateAlgorithms transport ecdsaP384 sha384 s) := by
  unfold execSpdmNegotiateAlgorithms
  exact onTransport_touches .refl (fun _ h => spdmAlgorithms_touches.after h)

theorem execSpdmGetDigests_touches {transport : Nat} : Runs [.events, .mgmt, .out] s (execSpdmGetDigests transport s) := by
  unfold execSpdmGetDigests
  exact onTransport_touches .refl (fun _ h => spdmAt_touches h (fun _ h => spdmReply_touches.after h))

theorem spdmCertificate_touches {a1 slot off len : Nat} : Touches [.events, .out] s (spdmCertificate a1 slot off len s) := by
  unfold spdmCertificate
  exact spdmAt_touches .refl (fun _ h => .ite (spdmError_touches.after h) (spdmReply_touches.after h))

theorem execSpdmGetCertificate_touches {transport slot offset length : Nat} :
    Runs [.events, .mgmt, .out] s (execSpdmGetCertificate transport slot offset length s) := by
  unfold execSpdmGetCertificate
  exact onTransport_touches .refl (fun _ h => spdmCertificate_touches.after h)

theorem freshNonce_touches : Touches [.free] s (freshNonce s).2 := .of_blend rfl

theorem spdmSigned_touches {a1 code : Nat} {nonce body : List Byte} : Touches [.out, .free] s (spdmSigned a1 code nonce body s) := by
  unfold spdmSigned
  exact spdmReply_touches.after freshNonce_touches.widen

theorem spdmChallenge_touches {a1 slot : Nat} {nonce : List Byte} : Touches [.events, .out, .free] s (spdmChallenge a1 slot nonce s) := by
  unfold spdmChallenge
  exact spdmAt_touches .refl (fun _ h => .ite (spdmError_touches.after h) (spdmSigned_touches.after h))

theorem execSpdmChallenge_touches {transport slot : Nat} {nonce : List Byte} :
    Runs [.events, .out, .free] s (execSpdmChallenge transport slot nonce s) := by
  unfold execSpdmChallenge
  exact onTransport_touches .refl (fun _ h => spdmChallenge_touches.after h)

theorem spdmMeasurements_touches {a1 i : Nat} {nonce : List Byte} : Touches [.events, .out, .free] s (spdmMeasurements a1 i nonce s) := by
  unfold spdmMeasurements
  exact spdmAt_touches .refl (fun _ h => .ite (spdmSigned_touches.after h) (.ite (spdmSigned_touches.after h) (.ite
      (spdmSigned_touches.after h) (spdmError_touches.after h))))

theorem execSpdmGetMeasurements_touches {transport index : Nat} {nonce : List Byte} :
    Runs [.events, .out, .free] s (execSpdmGetMeasurements transport index nonce s) := by
  unfold execSpdmGetMeasurements
  exact onTransport_touches .refl (fun _ h => spdmMeasurements_touches.after h)

theorem spdmUnsupported_touches {a1 : Nat} : Touches [.events, .out] s (spdmUnsupported a1 s) := by
  unfold spdmUnsupported
  exact .ite spdmError_touches.widen .refl

theorem doeSpdm_touches {a1 : Nat} {b : List Byte} : Touches [.spdm, .events, .out, .free] s (doeSpdm a1 b s) := by
  unfold doeSpdm
  split
  · exact spdmVersion_touches.widen
  · exact spdmCapabilities_touches.widen
  · exact spdmAlgorithms_touches.widen
  · exact spdmAt_touches .refl (fun _ h => spdmReply_touches.after h)
  · exact spdmCertificate_touches.widen
  · exact spdmChallenge_touches.widen
  · exact spdmMeasurements_touches.widen
  · exact spdmUnsupported_touches.widen

theorem doeDiscovery_touches {port i : Nat} : Touches [.out] s (doeDiscovery port i s) := by
  unfold doeDiscovery
  exact .ite .refl (.ite emit_touches.widen (.ite emit_touches.widen emit_touches.widen))

theorem execDoeObject_touches {port type : Nat} {body : List Byte} :
    Runs [.spdm, .events, .out, .free] s (execDoeObject port type body s) := by
  unfold execDoeObject
  exact .ite (.next .refl) (.ite (.next .refl) (.next (.ite doeDiscovery_touches.widen (.ite doeSpdm_touches.widen .refl))))

end Sys2Proof.Frames
end

section
/-! SUPPORT. The footprint of each command, and what a footprint leaves alone. -/

namespace Sys2Proof.Frames

open Sys2Proof.Machine Sys2Proof.Safety Sys2Proof.Laws

set_option Elab.async false

/-- What each command may change. -/
def footOf : Instr → List Part
  | .inputPowerUp .. | .cooldownExpiry .. => [.ladder, .power, .journal, .post]
  | .inputUndervoltage .. | .busBarInputFail .. =>
      [.ladder, .power, .fns, .host, .lbs, .journal, .rings, .xlat, .active, .staged, .ports, .dies, .fabric, .cells, .marks, .launches,
        .phs, .res, .events, .out, .free]
  | .coldReset => allBut [.fw, .maps, .boot, .out]
  | .mctpWatchdogExpiry | .heartbeatWatchdogExpiry | .entryRingsStopped | .budgetUpdate .. | .governorTick .. | .fastGuard ..
  | .thermalLimitDecrease .. | .thermalLimitIncrease .. | .thermalTrip .. => [.power]
  | .enableAssert | .enableDeassert | .powerRequest .. => [.power, .fns, .lbs, .journal, .out, .free]
  | .powerupPhaseB .. => [.power, .fns, .hostPorts, .host, .lbs, .journal, .post, .ports, .dies, .repairs, .fabric, .spdm, .events,
      .mgmt, .out]
  | .selftestWave .. | .selftestRetryPass .. | .phaseCTimeout | .moduleReset .. | .resetEffecter .. =>
      allBut [.rackTime, .maps, .boot, .eid, .taps, .spdm]
  | .powerupVerdict .. => allBut [.rackTime, .boot, .eid, .taps, .spdm]
  | .hostPortTraining .. => [.hostPorts]
  | .perstAssert .. | .hostLinkDown .. =>
      [.power, .time, .fns, .hostPorts, .host, .lbs, .frames, .fw, .journal, .post, .rings, .pins, .xlat, .dies, .fabric, .cells, .marks,
        .launches, .phs, .res, .disc, .events, .out, .free]
  | .configRequest .. | .msixUnmask .. =>
      [.power, .time, .fns, .hostPorts, .lbs, .fw, .journal, .post, .rings, .pins, .xlat, .dies, .fabric, .cells, .marks, .launches,
        .phs, .disc, .out, .free]
  | .busMasterEnableClear .. | .busMasterEnableSet .. =>
      [.fns, .hostPorts, .lbs, .fw, .journal, .post, .rings, .pins, .xlat, .dies, .fabric, .cells, .marks, .launches, .phs, .out, .free]
  | .initiateFlr .. | .vfEnableClear .. =>
      [.power, .time, .fns, .hostPorts, .lbs, .fw, .journal, .post, .rings, .pins, .xlat, .dies, .fabric, .marks, .launches, .phs, .disc,
        .out, .free]
  | .flrReadsDone .. =>
      [.fns, .hostPorts, .host, .lbs, .frames, .journal, .post, .rings, .pins, .xlat, .dies, .fabric, .cells, .marks, .launches, .phs,
        .res, .events, .out, .free]
  | .vfEnableSet .. | .priEnableToggle .. => [.fns]
  | .d3hotEntry .. =>
      [.fns, .hostPorts, .lbs, .fw, .journal, .post, .rings, .pins, .xlat, .dies, .fabric, .marks, .launches, .phs, .out, .free]
  | .d0Return .. | .descriptorSettle .. => [.fns, .lbs, .journal, .rings, .xlat, .dies, .fabric, .cells, .marks, .out]
  | .badSizeAccess .. | .unexpectedCompletion .. | .malformedTlp .. | .correctableLinkError .. => [.hostPorts, .journal, .out]
  | .registerWrite .. => [.power, .time, .fns, .hostPorts, .host, .lbs, .frames, .journal, .post, .rings, .disc, .out]
  | .hostReadCompletion .. | .completionTimeout .. | .poisonedCompletion .. =>
      [.fns, .hostPorts, .lbs, .fw, .journal, .post, .rings, .pins, .xlat, .dies, .fabric, .marks, .images, .launches, .phs, .res, .out,
        .free]
  | .atsInvalidationRequest .. => [.fns, .hostPorts, .lbs, .journal, .rings, .xlat, .fabric, .out]
  | .pageResponse .. => [.fns, .hostPorts, .lbs, .journal, .post, .rings, .xlat, .dies, .fabric, .marks, .launches, .phs, .out, .free]
  | .pageResponseTimeout .. => [.fns, .journal, .rings]
  | .doeObject .. => [.spdm, .events, .out, .free]
  | .lbDoorbell .. => [.lbs, .post, .out]
  | .lbAbort .. => [.power, .time, .fns, .lbs, .journal, .rings, .disc, .out]
  | .lbResultClear .. => [.lbs, .out]
  | .lbFrameWrite .. => [.hostPorts, .lbs, .frames, .journal, .out]
  | .commandStart .. => [.fns, .lbs, .frames, .out]
  | .nop .. | .getVersion .. | .getModuleInfo .. | .fnSetQuota .. | .fnQuery .. | .ringQuery .. | .imageQuery .. | .phQuery ..
  | .freeMapRead .. | .routeRead .. | .portQuery .. | .status .. | .eyeSummary .. | .eyeScan .. | .powerQuery .. | .rackTimeQuery ..
  | .selftestReportRead .. | .journalRead .. | .journalAppend .. | .repairMapRead .. | .countersRead .. | .fwQuery .. =>
      [.fns, .lbs, .journal, .out]
  | .ringAlloc .. => [.fns, .lbs, .journal, .rings, .fabric, .out]
  | .ringFree .. => [.fns, .lbs, .journal, .rings, .xlat, .fabric, .launches, .out]
  | .ringBind .. | .ringSetPhysical .. | .ringStart .. | .ringStop .. | .ringModerate .. => [.fns, .lbs, .journal, .rings, .out]
  | .ringConfig .. => [.fns, .lbs, .journal, .rings, .xlat, .out]
  | .ringAckLoss .. => [.fns, .lbs, .journal, .rings, .dies, .fabric, .out]
  | .ctxCreate .. => [.fns, .lbs, .journal, .ctxs, .out]
  | .ctxDestroy .. => [.fns, .lbs, .journal, .ctxs, .pins, .xlat, .out]
  | .ctxSetRoot .. => [.fns, .lbs, .journal, .rings, .ctxs, .xlat, .fabric, .out]
  | .tlbInvalidate .. | .tlbInvalidateBcast .. | .tableSync .. => [.fns, .lbs, .journal, .rings, .xlat, .fabric, .out]
  | .pinRange .. | .hotpageConfig .. => [.fns, .lbs, .journal, .xlat, .out]
  | .unpinRange .. => [.fns, .lbs, .journal, .pins, .out]
  | .keyLoad .. => [.fns, .lbs, .frames, .journal, .keys, .dies, .out]
  | .keyClear .. => [.fns, .lbs, .journal, .keys, .out]
  | .imageLoad .. => [.fns, .hostPorts, .lbs, .journal, .dies, .fabric, .images, .res, .out]
  | .imageDrop .. => [.fns, .lbs, .journal, .images, .out]
  | .phCreate .. => [.fns, .lbs, .journal, .pins, .dies, .fabric, .cells, .marks, .launches, .phs, .res, .out]
  | .phClaim .. => [.fns, .lbs, .journal, .phs, .out]
  | .phRelease .. | .phEvict .. | .loadCancel .. =>
      [.fns, .host, .lbs, .journal, .rings, .pins, .dies, .fabric, .cells, .marks, .launches, .phs, .res, .events, .out, .free]
  | .phStop .. => [.fns, .lbs, .journal, .fabric, .res, .out]
  | .routeStage .. => [.fns, .lbs, .journal, .staged, .out]
  | .routeCommit .. | .portDisable .. => [.fns, .lbs, .journal, .ports, .fabric, .out]
  | .routeSetDefine .. => [.fns, .lbs, .journal, .routeSets, .out]
  | .deflectLimit .. => [.fns, .lbs, .journal, .limit, .out]
  | .portSetWidth .. => [.fns, .host, .lbs, .maps, .journal, .post, .ports, .dies, .fabric, .events, .out, .free]
  | .portSpare .. => [.fns, .lbs, .maps, .journal, .post, .ports, .dies, .fabric, .out, .free]
  | .portEnable .. | .prbsGen .. | .prbsRead .. | .capture .. | .backoffAttempt .. | .losClear .. =>
      [.fns, .lbs, .journal, .ports, .out, .free]
  | .portRetrain .. => [.fns, .lbs, .journal, .post, .ports, .fabric, .out, .free]
  | .diagEnter .. | .txTapsSet .. | .prbsCheck .. | .patternLow .. | .patternHigh .. | .bitSlip .. | .loopback .. | .rateLimit .. =>
      [.fns, .lbs, .journal, .ports, .out]
  | .discoveryStart .. => [.fns, .host, .lbs, .journal, .mine, .disc, .events, .out]
  | .frondClockSet .. | .govWeightSet .. => [.power, .fns, .lbs, .journal, .out]
  | .rackTimeSet .. | .rackTimeSetTimeout => [.time, .fns, .lbs, .journal, .out]
  | .repairMapAdd .. | .repairMapDelete .. => [.fns, .lbs, .maps, .journal, .post, .dies, .out]
  | .tileRetire .. | .tileAutoRetire .. =>
      [.fns, .host, .lbs, .maps, .journal, .post, .rings, .dies, .repairs, .fabric, .launches, .phs, .res, .events, .out]
  | .frondFence .. | .clockLockFail .. | .wireFailure .. | .cryptoSelfCheck .. | .thermalSample .. | .engineError .. =>
      [.power, .fns, .host, .lbs, .maps, .journal, .post, .rings, .active, .staged, .dies, .repairs, .fabric, .launches, .phs, .res,
      .events, .out]
  | .frondRetest .. => [.power, .fns, .lbs, .maps, .journal, .post, .xlat, .active, .staged, .ports, .dies, .repairs, .fabric, .cells,
      .marks, .out]
  | .fwStage .. => [.fns, .hostPorts, .lbs, .fw, .journal, .out]
  | .fwVerify .. => [.fns, .lbs, .fw, .journal, .out]
  | .fwActivateAtReset .. => [.fns, .lbs, .fw, .journal, .boot, .dies, .out]
  | .fwActivateLive .. | .activateFirmware .. =>
      [.fns, .hostPorts, .host, .lbs, .fw, .journal, .boot, .post, .pins, .xlat, .dies, .fabric, .images, .res, .spdm, .events, .mgmt, .out]
  | .agentReload .. => [.fns, .lbs, .journal, .post, .out]
  | .failover .. => [.fns, .hostPorts, .host, .lbs, .fw, .journal, .post, .pins, .xlat, .dies, .fabric, .images, .res, .spdm, .events,
      .mgmt, .out]
  | .postmasterHeartbeat => [.power, .post]
  | .unplannedFailover =>
      [.fns, .hostPorts, .host, .lbs, .fw, .journal, .post, .rings, .pins, .xlat, .dies, .fabric, .cells, .marks, .images, .launches,
        .phs, .res, .spdm, .events, .mgmt, .out, .free]
  | .e0Restart .. => [.post]
  | .governorTransition =>
      allBut [.rackTime, .maps, .boot, .ctxs, .keys, .routeSets, .limit, .active, .staged, .images, .number, .mine, .eid, .taps, .spdm]
  | .entryLaunchesEnded => [.ladder, .power, .fns, .host, .lbs, .journal, .rings, .out, .free]
  | .entryInflightZero => allBut [.rackTime, .maps, .boot, .ctxs, .keys, .routeSets, .limit, .images, .number, .mine, .eid, .taps, .spdm]
  | .waitLimitExpiry | .transitionTimeout => [.power, .fns, .lbs, .journal, .rings, .out, .free]
  | .exitSequence =>
      [.ladder, .power, .fns, .hostPorts, .host, .lbs, .journal, .rings, .active, .staged, .ports, .dies, .repairs, .fabric, .cells, .marks,
        .launches, .phs, .res, .events, .out, .free]
  | .powerMonitorFail .. => [.power, .host, .journal, .events, .out]
  | .ppsEdge => [.rackTime, .time, .fns, .lbs, .frames, .journal, .out]
  | .ppsMissing | .escapeCreditStall .. | .busHeldLow => [.journal]
  | .referenceLoss => [.time, .host, .journal, .events, .out]
  | .holdoverExpiry | .timebaseFailover => [.time, .journal]
  | .referenceReturn => [.time]
  | .slewEnd => [.rackTime, .time, .journal]
  | .controlInject .. | .seamCrossing .. | .helloSend => [.fabric]
  | .beacon .. | .readyTimer .. => [.maps, .journal, .post, .ports, .dies, .out, .free]
  | .trainingFrame .. => [.journal, .ports, .out, .free]
  | .alignmentMarker .. | .lockFecWindow .. => [.ports, .free]
  | .trainingTimeout .. | .keepaliveReturnCheck .. | .replayTimerExpiry .. | .cap .. | .narrow .. | .narrowTimeout .. =>
      [.journal, .post, .ports, .fabric]
  | .fallbackIdleEnd .. => [.fns, .host, .lbs, .journal, .ports, .events, .out, .free]
  | .losAssert .. => [.host, .journal, .post, .ports, .fabric, .events, .out, .free]
  | .lossOfLock .. | .laneErrorThreshold .. => [.host, .journal, .post, .ports, .fabric, .events, .out]
  | .flitSend .. => [.host, .journal, .ports, .fabric, .disc, .events, .out]
  | .payloadFlitReceive .. | .hello .. | .report .. | .assign .. | .assignAck .. | .commit .. | .fail .. =>
      [.time, .fns, .host, .lbs, .journal, .post, .ports, .dies, .fabric, .mine, .disc, .events, .out]
  | .linkControlRepeat .. | .kaEnter .. | .kaAck .. | .kaEnterTimeout .. | .kaExit .. => [.ports]
  | .start .. => [.host, .journal, .ports, .disc, .events, .out]
  | .narrowAck .. => [.fns, .host, .lbs, .journal, .post, .ports, .fabric, .events, .out]
  | .routeDecision .. | .landingWaitExpiry .. => [.journal, .post, .ports, .dies, .fabric]
  | .injectionStart .. => [.fns, .hostPorts, .lbs, .journal, .post, .rings, .xlat, .ports, .dies, .fabric, .launches, .phs, .out]
  | .escapeWaitExpiry .. => [.dies]
  | .bankSwap => [.fns, .lbs, .journal, .active, .staged, .fabric, .out]
  | .commitDrainTimeout => [.fns, .lbs, .journal, .fabric, .out]
  | .dataPacketDelivery .. | .readRequestPacket .. | .atomicPacket .. | .receipt .. | .partialListArrival .. =>
      [.fns, .hostPorts, .host, .lbs, .journal, .post, .rings, .xlat, .dies, .fabric, .cells, .marks, .launches, .phs, .res, .events, .out,
        .free]
  | .holdDiscard .. | .parkExpiry .. | .journalFlush .. => [.journal, .dies]
  | .readResponsePacket .. =>
      [.fns, .hostPorts, .host, .lbs, .journal, .post, .rings, .xlat, .dies, .fabric, .cells, .marks, .images, .launches, .phs, .res,
        .events, .out, .free]
  | .atomicResponsePacket .. | .refusal .. | .tallySetPacket .. | .tallySetAck .. | .phStopPacket .. | .phStopDone .. | .invalidate ..
  | .invalidateDone .. | .relay .. | .relayDone .. | .stewardIrq .. =>
      [.fns, .host, .lbs, .journal, .post, .rings, .xlat, .dies, .fabric, .cells, .marks, .launches, .phs, .res, .events, .out, .free]
  | .mergeContextExpiry .. => [.rings, .dies]
  | .ringDoorbell .. => [.journal, .rings, .out]
  | .ringCqConsumed .. => [.rings, .out]
  | .intEventVector .. | .intSelect .. | .msixTableWrite .. => [.fns, .out]
  | .descriptorFetch .. => [.fns, .hostPorts, .journal, .rings, .xlat, .dies, .fabric, .out]
  | .descriptorStart .. => [.host, .rings, .xlat]
  | .ringError .. => [.fns, .journal, .rings, .out]
  | .nopDescriptor .. | .tallyWaitTimeout .. => [.rings]
  | .copy .. => [.fns, .hostPorts, .lbs, .journal, .rings, .xlat, .dies, .fabric, .out]
  | .atomic .. => [.rings, .xlat, .dies, .fabric]
  | .select .. => [.fns, .hostPorts, .lbs, .journal, .post, .rings, .xlat, .dies, .fabric, .cells, .marks, .launches, .phs, .out, .free]
  | .spectral .. => [.journal, .post, .rings, .xlat, .dies, .fabric, .marks, .out]
  | .launch .. => [.hostPorts, .rings, .xlat, .dies, .fabric, .launches, .phs, .res, .out]
  | .tallyWait .. => [.journal, .rings]
  | .tallySet .. => [.rings, .fabric]
  | .tallySetTimeout .. | .receiptTimeout .. | .unreachableTimeout .. | .moderationTimer .. => [.fns, .rings, .out]
  | .relayTimeout .. => [.fns, .rings, .fabric, .out]
  | .tableWalk .. => [.fns, .hostPorts, .lbs, .journal, .post, .rings, .pins, .xlat, .dies, .fabric, .marks, .launches, .phs, .out, .free]
  | .hotpageWindowEnd .. => [.fns, .journal, .rings, .xlat, .dies, .fabric, .out]
  | .stewardSubmit .. => [.rings, .res]
  | .launchGrant .. => [.journal, .dies, .fabric, .cells, .marks, .launches, .phs]
  | .streamReadTimeout .. => [.fns, .rings, .dies, .fabric, .launches, .phs, .out]
  | .tileCoreAccess .. | .tileFault .. | .entryTimeLimit .. => [.journal, .rings, .dies, .fabric, .cells, .marks, .launches, .phs, .free]
  | .launchEnd .. => [.rings, .dies, .fabric, .launches, .phs]
  | .residencyTargetReached .. => [.fns, .host, .lbs, .journal, .phs, .res, .events, .out]
  | .phCreateTimeout .. => [.fns, .host, .lbs, .journal, .rings, .dies, .fabric, .launches, .phs, .res, .events, .out]
  | .loadReadTimeout .. => [.host, .journal, .rings, .dies, .fabric, .launches, .phs, .res, .events, .out]
  | .stampError .. => [.host, .journal, .rings, .dies, .fabric, .cells, .marks, .launches, .phs, .res, .events, .out]
  | .sramScrub .. => [.journal, .dies, .marks]
  | .eccThreshold .. => [.host, .journal, .dies, .events, .out]
  | .edgeDieFailure .. | .contactImbalance .. =>
      allBut [.ladder, .rackTime, .boot, .ctxs, .keys, .routeSets, .limit, .number, .mine, .eid, .taps]
  | .linkKeyPhaseExpiry .. => [.keys]
  | .parityError .. => [.journal, .pins, .xlat, .dies, .fabric]
  | .overvoltageTrip .. => [.power, .free]
  | .shutdownPowerOff .. => allBut [.fw, .maps, .boot, .out, .free]
  | .electionQuiet => [.fabric, .disc]
  | .rootCompute => [.time, .fns, .host, .lbs, .journal, .fabric, .mine, .disc, .events, .out]
  | .commitTime => [.fns, .host, .lbs, .journal, .staged, .ports, .fabric, .number, .mine, .disc, .out]
  | .discoveryStepTimeout => [.fns, .host, .lbs, .journal, .fabric, .mine, .disc, .events, .out]
  | .mctpSetEndpointId .. => [.eid, .out]
  | .mctpGetEndpointId .. | .mctpGetEndpointUuid .. | .mctpGetVersionSupport .. | .mctpGetMessageTypeSupport ..
  | .mctpGetVendorMsgSupport .. | .getPdr .. | .getPdrRepositoryInfo | .getSensorReading .. | .getStateSensorReadings ..
  | .getStateEffecterStates .. | .queryDeviceIdentifiers | .getFirmwareParameters | .getStatus | .supervisorReadByte .. => [.out]
  | .vendorDefinedMessage .. => [.maps, .journal, .post, .dies, .out]
  | .setdasa .. | .entdaa .. | .rstdaa => [.events, .mgmt]
  | .setTid .. | .setEventReceiver .. | .pollForPlatformEventMessage | .requestUpdate | .passComponentTable .. | .verifyComplete
  | .applyComplete | .spdmGetDigests .. | .spdmGetCertificate .. | .sensorUpdate .. => [.events, .mgmt, .out]
  | .powerStateEffecter .. => [.power, .fns, .lbs, .journal, .events, .mgmt, .out, .free]
  | .safeStateEffecter .. => [.power, .out]
  | .latchClearEffecter .. => [.power, .events, .mgmt, .out]
  | .updateComponent .. | .transferComplete | .cancelUpdateComponent | .cancelUpdate => [.fw, .events, .mgmt, .out]
  | .requestFirmwareData .. => [.journal, .dies, .events, .mgmt, .out]
  | .updateIdleTimeout => [.fw, .events, .mgmt]
  | .spdmGetVersion .. => [.spdm, .out]
  | .spdmGetCapabilities .. | .spdmNegotiateAlgorithms .. => [.spdm, .events, .out]
  | .spdmChallenge .. | .spdmGetMeasurements .. => [.events, .out, .free]
  | .testLogicReset => [.taps]
  | .idcode .. | .samplePreload .. | .extest .. | .extestPulse .. | .extestTrain .. | .clamp .. | .highz .. | .bypass .. => [.taps, .out]
  | .operatorLibraryCall .. => [.hostPorts, .journal, .rings, .xlat, .dies, .fabric, .cells, .marks, .launches, .phs, .out, .free]
  | .stewardCoreAccess .. => [.journal, .post, .dies, .cells, .marks]
  | .stewardCoreException .. => [.journal, .res]
  | .standbyLost => [.host, .journal, .post, .events, .out]
  | .broadcastAnswerTimeout .. => [.fns, .lbs, .journal, .res, .out]
  | .escapeDrainAlarm .. => [.host, .journal, .events, .out]
  | .laserFailure .. => [.host, .journal, .ports, .events, .out]

/-- A command completes, and touches only its footprint. -/
theorem exec_runs (i : Instr) (s : State) : Runs (footOf i) s (exec i s) :=
  match i with
  | .inputPowerUp .. => execInputPowerUp_touches
  | .inputUndervoltage .. => execInputUndervoltage_touches
  | .coldReset => execColdReset_touches
  | .mctpWatchdogExpiry => execMctpWatchdogExpiry_touches
  | .heartbeatWatchdogExpiry => execHeartbeatWatchdogExpiry_touches
  | .enableAssert => execEnableAssert_touches
  | .enableDeassert => execEnableDeassert_touches
  | .powerupPhaseB .. => execPowerupPhaseB_touches
  | .selftestWave .. => execSelftestWave_touches
  | .selftestRetryPass .. => execSelftestRetryPass_touches
  | .powerupVerdict .. => execPowerupVerdict_touches
  | .phaseCTimeout => execPhaseCTimeout_touches
  | .hostPortTraining .. => execHostPortTraining_touches
  | .perstAssert .. => execPerstAssert_touches
  | .hostLinkDown .. => execHostLinkDown_touches
  | .configRequest .. => execConfigRequest_touches
  | .busMasterEnableClear .. => execBusMasterEnableClear_touches
  | .busMasterEnableSet .. => execBusMasterEnableSet_touches
  | .initiateFlr .. => execInitiateFlr_touches
  | .flrReadsDone .. => execFlrReadsDone_touches
  | .vfEnableSet .. => execVfEnableSet_touches
  | .vfEnableClear .. => execVfEnableClear_touches
  | .d3hotEntry .. => execD3hotEntry_touches
  | .d0Return .. => execD0Return_touches
  | .priEnableToggle .. => execPriEnableToggle_touches
  | .msixUnmask .. => execMsixUnmask_touches
  | .badSizeAccess .. => execBadSizeAccess_touches
  | .registerWrite .. => execRegisterWrite_touches
  | .hostReadCompletion .. => execHostReadCompletion_touches
  | .completionTimeout .. => execCompletionTimeout_touches
  | .poisonedCompletion .. => execPoisonedCompletion_touches
  | .unexpectedCompletion .. => execUnexpectedCompletion_touches
  | .malformedTlp .. => execMalformedTlp_touches
  | .atsInvalidationRequest .. => execAtsInvalidationRequest_touches
  | .pageResponse .. => execPageResponse_touches
  | .pageResponseTimeout .. => execPageResponseTimeout_touches
  | .doeObject .. => execDoeObject_touches
  | .lbDoorbell .. => execLbDoorbell_touches
  | .lbAbort .. => execLbAbort_touches
  | .lbResultClear .. => execLbResultClear_touches
  | .lbFrameWrite .. => execLbFrameWrite_touches
  | .commandStart .. => execCommandStart_touches
  | .nop .. => execNop_touches
  | .getVersion .. => execGetVersion_touches
  | .getModuleInfo .. => execGetModuleInfo_touches
  | .fnSetQuota .. => execFnSetQuota_touches
  | .fnQuery .. => execFnQuery_touches
  | .ringAlloc .. => execRingAlloc_touches
  | .ringFree .. => execRingFree_touches
  | .ringBind .. => execRingBind_touches
  | .ringConfig .. => execRingConfig_touches
  | .ringSetPhysical .. => execRingSetPhysical_touches
  | .ringStart .. => execRingStart_touches
  | .ringStop .. => execRingStop_touches
  | .ringQuery .. => execRingQuery_touches
  | .ringAckLoss .. => execRingAckLoss_touches
  | .ringModerate .. => execRingModerate_touches
  | .ctxCreate .. => execCtxCreate_touches
  | .ctxDestroy .. => execCtxDestroy_touches
  | .ctxSetRoot .. => execCtxSetRoot_touches
  | .tlbInvalidate .. => execTlbInvalidate_touches
  | .tlbInvalidateBcast .. => execTlbInvalidateBcast_touches
  | .tableSync .. => execTableSync_touches
  | .pinRange .. => execPinRange_touches
  | .unpinRange .. => execUnpinRange_touches
  | .keyLoad .. => execKeyLoad_touches
  | .keyClear .. => execKeyClear_touches
  | .hotpageConfig .. => execHotpageConfig_touches
  | .imageLoad .. => execImageLoad_touches
  | .imageDrop .. => execImageDrop_touches
  | .imageQuery .. => execImageQuery_touches
  | .phCreate .. => execPhCreate_touches
  | .phClaim .. => execPhClaim_touches
  | .phRelease .. => execPhRelease_touches
  | .phEvict .. => execPhEvict_touches
  | .phStop .. => execPhStop_touches
  | .phQuery .. => execPhQuery_touches
  | .freeMapRead .. => execFreeMapRead_touches
  | .routeStage .. => execRouteStage_touches
  | .routeCommit .. => execRouteCommit_touches
  | .routeRead .. => execRouteRead_touches
  | .routeSetDefine .. => execRouteSetDefine_touches
  | .deflectLimit .. => execDeflectLimit_touches
  | .portQuery .. => execPortQuery_touches
  | .portSetWidth .. => execPortSetWidth_touches
  | .portSpare .. => execPortSpare_touches
  | .portDisable .. => execPortDisable_touches
  | .portEnable .. => execPortEnable_touches
  | .portRetrain .. => execPortRetrain_touches
  | .status .. => execStatus_touches
  | .diagEnter .. => execDiagEnter_touches
  | .txTapsSet .. => execTxTapsSet_touches
  | .prbsGen .. => execPrbsGen_touches
  | .prbsCheck .. => execPrbsCheck_touches
  | .prbsRead .. => execPrbsRead_touches
  | .patternLow .. => execPatternLow_touches
  | .patternHigh .. => execPatternHigh_touches
  | .capture .. => execCapture_touches
  | .bitSlip .. => execBitSlip_touches
  | .loopback .. => execLoopback_touches
  | .eyeSummary .. => execEyeSummary_touches
  | .eyeScan .. => execEyeScan_touches
  | .rateLimit .. => execRateLimit_touches
  | .discoveryStart .. => execDiscoveryStart_touches
  | .powerRequest .. => execPowerRequest_touches
  | .powerQuery .. => execPowerQuery_touches
  | .frondClockSet .. => execFrondClockSet_touches
  | .govWeightSet .. => execGovWeightSet_touches
  | .rackTimeSet .. => execRackTimeSet_touches
  | .rackTimeQuery .. => execRackTimeQuery_touches
  | .selftestReportRead .. => execSelftestReportRead_touches
  | .journalRead .. => execJournalRead_touches
  | .journalAppend .. => execJournalAppend_touches
  | .repairMapRead .. => execRepairMapRead_touches
  | .repairMapAdd .. => execRepairMapAdd_touches
  | .repairMapDelete .. => execRepairMapDelete_touches
  | .tileRetire .. => execTileRetire_touches
  | .frondFence .. => execFrondFence_touches
  | .frondRetest .. => execFrondRetest_touches
  | .countersRead .. => execCountersRead_touches
  | .moduleReset .. => execModuleReset_touches
  | .fwQuery .. => execFwQuery_touches
  | .fwStage .. => execFwStage_touches
  | .fwVerify .. => execFwVerify_touches
  | .fwActivateAtReset .. => execFwActivateAtReset_touches
  | .fwActivateLive .. => execFwActivateLive_touches
  | .agentReload .. => execAgentReload_touches
  | .failover .. => execFailover_touches
  | .postmasterHeartbeat => execPostmasterHeartbeat_touches
  | .unplannedFailover => execUnplannedFailover_touches
  | .e0Restart .. => execE0Restart_touches
  | .governorTransition => execGovernorTransition_touches
  | .entryLaunchesEnded => execEntryLaunchesEnded_touches
  | .entryRingsStopped => execEntryRingsStopped_touches
  | .entryInflightZero => execEntryInflightZero_touches
  | .waitLimitExpiry => execWaitLimitExpiry_touches
  | .exitSequence => execExitSequence_touches
  | .budgetUpdate .. => execBudgetUpdate_touches
  | .governorTick .. => execGovernorTick_touches
  | .fastGuard .. => execFastGuard_touches
  | .busBarInputFail .. => execBusBarInputFail_touches
  | .powerMonitorFail .. => execPowerMonitorFail_touches
  | .ppsEdge => execPpsEdge_touches
  | .ppsMissing => execPpsMissing_touches
  | .referenceLoss => execReferenceLoss_touches
  | .holdoverExpiry => execHoldoverExpiry_touches
  | .referenceReturn => execReferenceReturn_touches
  | .slewEnd => execSlewEnd_touches
  | .timebaseFailover => execTimebaseFailover_touches
  | .controlInject .. => execControlInject_touches
  | .clockLockFail .. => execClockLockFail_touches
  | .beacon .. => execBeacon_touches
  | .readyTimer .. => execReadyTimer_touches
  | .trainingFrame .. => execTrainingFrame_touches
  | .alignmentMarker .. => execAlignmentMarker_touches
  | .lockFecWindow .. => execLockFecWindow_touches
  | .trainingTimeout .. => execTrainingTimeout_touches
  | .fallbackIdleEnd .. => execFallbackIdleEnd_touches
  | .backoffAttempt .. => execBackoffAttempt_touches
  | .losAssert .. => execLosAssert_touches
  | .losClear .. => execLosClear_touches
  | .lossOfLock .. => execLossOfLock_touches
  | .keepaliveReturnCheck .. => execKeepaliveReturnCheck_touches
  | .flitSend .. => execFlitSend_touches
  | .payloadFlitReceive .. => execPayloadFlitReceive_touches
  | .replayTimerExpiry .. => execReplayTimerExpiry_touches
  | .linkControlRepeat .. => execLinkControlRepeat_touches
  | .cap .. => execCap_touches
  | .start .. => execStart_touches
  | .narrow .. => execNarrow_touches
  | .narrowAck .. => execNarrowAck_touches
  | .narrowTimeout .. => execNarrowTimeout_touches
  | .laneErrorThreshold .. => execLaneErrorThreshold_touches
  | .kaEnter .. => execKaEnter_touches
  | .kaAck .. => execKaAck_touches
  | .kaEnterTimeout .. => execKaEnterTimeout_touches
  | .kaExit .. => execKaExit_touches
  | .escapeCreditStall .. => execEscapeCreditStall_touches
  | .routeDecision .. => execRouteDecision_touches
  | .injectionStart .. => execInjectionStart_touches
  | .landingWaitExpiry .. => execLandingWaitExpiry_touches
  | .seamCrossing .. => execSeamCrossing_touches
  | .escapeWaitExpiry .. => execEscapeWaitExpiry_touches
  | .bankSwap => execBankSwap_touches
  | .commitDrainTimeout => execCommitDrainTimeout_touches
  | .dataPacketDelivery .. => execDataPacketDelivery_touches
  | .holdDiscard .. => execHoldDiscard_touches
  | .readRequestPacket .. => execReadRequestPacket_touches
  | .readResponsePacket .. => execReadResponsePacket_touches
  | .atomicPacket .. => execAtomicPacket_touches
  | .atomicResponsePacket .. => execAtomicResponsePacket_touches
  | .receipt .. => execReceipt_touches
  | .refusal .. => execRefusal_touches
  | .tallySetPacket .. => execTallySetPacket_touches
  | .tallySetAck .. => execTallySetAck_touches
  | .phStopPacket .. => execPhStopPacket_touches
  | .phStopDone .. => execPhStopDone_touches
  | .invalidate .. => execInvalidate_touches
  | .invalidateDone .. => execInvalidateDone_touches
  | .relay .. => execRelay_touches
  | .relayDone .. => execRelayDone_touches
  | .stewardIrq .. => execStewardIrq_touches
  | .partialListArrival .. => execPartialListArrival_touches
  | .parkExpiry .. => execParkExpiry_touches
  | .mergeContextExpiry .. => execMergeContextExpiry_touches
  | .ringDoorbell .. => execRingDoorbell_touches
  | .ringCqConsumed .. => execRingCqConsumed_touches
  | .intEventVector .. => execIntEventVector_touches
  | .intSelect .. => execIntSelect_touches
  | .msixTableWrite .. => execMsixTableWrite_touches
  | .descriptorFetch .. => execDescriptorFetch_touches
  | .descriptorStart .. => execDescriptorStart_touches
  | .descriptorSettle .. => execDescriptorSettle_touches
  | .ringError .. => execRingError_touches
  | .nopDescriptor .. => execNopDescriptor_touches
  | .copy .. => execCopy_touches
  | .atomic .. => execAtomic_touches
  | .select .. => execSelect_touches
  | .spectral .. => execSpectral_touches
  | .launch .. => execLaunch_touches
  | .tallyWait .. => execTallyWait_touches
  | .tallyWaitTimeout .. => execTallyWaitTimeout_touches
  | .tallySet .. => execTallySet_touches
  | .tallySetTimeout .. => execTallySetTimeout_touches
  | .receiptTimeout .. => execReceiptTimeout_touches
  | .unreachableTimeout .. => execUnreachableTimeout_touches
  | .relayTimeout .. => execRelayTimeout_touches
  | .moderationTimer .. => execModerationTimer_touches
  | .tableWalk .. => execTableWalk_touches
  | .hotpageWindowEnd .. => execHotpageWindowEnd_touches
  | .stewardSubmit .. => execStewardSubmit_touches
  | .launchGrant .. => execLaunchGrant_touches
  | .streamReadTimeout .. => execStreamReadTimeout_touches
  | .tileCoreAccess .. => execTileCoreAccess_touches
  | .launchEnd .. => execLaunchEnd_touches
  | .tileFault .. => execTileFault_touches
  | .entryTimeLimit .. => execEntryTimeLimit_touches
  | .residencyTargetReached .. => execResidencyTargetReached_touches
  | .phCreateTimeout .. => execPhCreateTimeout_touches
  | .loadCancel .. => execLoadCancel_touches
  | .loadReadTimeout .. => execLoadReadTimeout_touches
  | .stampError .. => execStampError_touches
  | .sramScrub .. => execSramScrub_touches
  | .eccThreshold .. => execEccThreshold_touches
  | .tileAutoRetire .. => execTileAutoRetire_touches
  | .edgeDieFailure .. => execEdgeDieFailure_touches
  | .wireFailure .. => execWireFailure_touches
  | .contactImbalance .. => execContactImbalance_touches
  | .cryptoSelfCheck .. => execCryptoSelfCheck_touches
  | .linkKeyPhaseExpiry .. => execLinkKeyPhaseExpiry_touches
  | .parityError .. => execParityError_touches
  | .journalFlush .. => execJournalFlush_touches
  | .thermalSample .. => execThermalSample_touches
  | .thermalLimitDecrease .. => execThermalLimitDecrease_touches
  | .thermalLimitIncrease .. => execThermalLimitIncrease_touches
  | .thermalTrip .. => execThermalTrip_touches
  | .overvoltageTrip .. => execOvervoltageTrip_touches
  | .shutdownPowerOff g => execShutdownPowerOff_touches (a1 := g)
  | .cooldownExpiry .. => execCooldownExpiry_touches
  | .helloSend => execHelloSend_touches
  | .hello .. => execHello_touches
  | .electionQuiet => execElectionQuiet_touches
  | .report .. => execReport_touches
  | .rootCompute => execRootCompute_touches
  | .assign .. => execAssign_touches
  | .assignAck .. => execAssignAck_touches
  | .commit .. => execCommit_touches
  | .fail .. => execFail_touches
  | .commitTime => execCommitTime_touches
  | .discoveryStepTimeout => execDiscoveryStepTimeout_touches
  | .mctpSetEndpointId .. => execMctpSetEndpointId_touches
  | .mctpGetEndpointId .. => execMctpGetEndpointId_touches
  | .mctpGetEndpointUuid .. => execMctpGetEndpointUuid_touches
  | .mctpGetVersionSupport .. => execMctpGetVersionSupport_touches
  | .mctpGetMessageTypeSupport .. => execMctpGetMessageTypeSupport_touches
  | .mctpGetVendorMsgSupport .. => execMctpGetVendorMsgSupport_touches
  | .vendorDefinedMessage .. => execVendorDefinedMessage_touches
  | .setdasa .. => execSetdasa_touches
  | .entdaa .. => execEntdaa_touches
  | .rstdaa => execRstdaa_touches
  | .busHeldLow => execBusHeldLow_touches
  | .getPdr .. => execGetPdr_touches
  | .getPdrRepositoryInfo => execGetPdrRepositoryInfo_touches
  | .getSensorReading .. => execGetSensorReading_touches
  | .setTid .. => execSetTid_touches
  | .getStateSensorReadings .. => execGetStateSensorReadings_touches
  | .powerStateEffecter .. => execPowerStateEffecter_touches
  | .resetEffecter .. => execResetEffecter_touches
  | .safeStateEffecter .. => execSafeStateEffecter_touches
  | .latchClearEffecter .. => execLatchClearEffecter_touches
  | .getStateEffecterStates .. => execGetStateEffecterStates_touches
  | .setEventReceiver .. => execSetEventReceiver_touches
  | .pollForPlatformEventMessage => execPollForPlatformEventMessage_touches
  | .queryDeviceIdentifiers => execQueryDeviceIdentifiers_touches
  | .getFirmwareParameters => execGetFirmwareParameters_touches
  | .requestUpdate => execRequestUpdate_touches
  | .passComponentTable .. => execPassComponentTable_touches
  | .updateComponent .. => execUpdateComponent_touches
  | .requestFirmwareData .. => execRequestFirmwareData_touches
  | .transferComplete => execTransferComplete_touches
  | .verifyComplete => execVerifyComplete_touches
  | .applyComplete => execApplyComplete_touches
  | .activateFirmware .. => execActivateFirmware_touches
  | .getStatus => execGetStatus_touches
  | .cancelUpdateComponent => execCancelUpdateComponent_touches
  | .cancelUpdate => execCancelUpdate_touches
  | .updateIdleTimeout => execUpdateIdleTimeout_touches
  | .spdmGetVersion .. => execSpdmGetVersion_touches
  | .spdmGetCapabilities .. => execSpdmGetCapabilities_touches
  | .spdmNegotiateAlgorithms .. => execSpdmNegotiateAlgorithms_touches
  | .spdmGetDigests .. => execSpdmGetDigests_touches
  | .spdmGetCertificate .. => execSpdmGetCertificate_touches
  | .spdmChallenge .. => execSpdmChallenge_touches
  | .spdmGetMeasurements .. => execSpdmGetMeasurements_touches
  | .supervisorReadByte .. => execSupervisorReadByte_touches
  | .testLogicReset => execTestLogicReset_touches
  | .idcode .. => execIdcode_touches
  | .samplePreload .. => execSamplePreload_touches
  | .extest .. => execExtest_touches
  | .extestPulse .. => execExtestPulse_touches
  | .extestTrain .. => execExtestTrain_touches
  | .clamp .. => execClamp_touches
  | .highz .. => execHighz_touches
  | .bypass .. => execBypass_touches
  | .operatorLibraryCall .. => execOperatorLibraryCall_touches
  | .stewardCoreAccess .. => execStewardCoreAccess_touches
  | .stewardCoreException .. => execStewardCoreException_touches
  | .engineError .. => execEngineError_touches
  | .standbyLost => execStandbyLost_touches
  | .broadcastAnswerTimeout .. => execBroadcastAnswerTimeout_touches
  | .rackTimeSetTimeout => execRackTimeSetTimeout_touches
  | .transitionTimeout => execTransitionTimeout_touches
  | .sensorUpdate .. => execSensorUpdate_touches
  | .correctableLinkError .. => execCorrectableLinkError_touches
  | .escapeDrainAlarm .. => execEscapeDrainAlarm_touches
  | .laserFailure .. => execLaserFailure_touches

theorem exec_touches {i : Instr} {s t : State} (h : exec i s = .next t) : Touches (footOf i) s t := (exec_runs i s).touches h

/-! ### Components that a footprint leaves alone -/

/-- The components and parts of components that the frames name. -/
inductive Comp where
  | mem | rings | fabric | res | xlat | disc | mgmt | post | power | time | out | host
  | cells | active | staged | ports | dies | images | launches | phs | pins | mine | spdm | lbs | fw | maps | journal | fns | hostPorts | rackTime

/-- The component is as before. -/
def Comp.Kept : Comp → State → State → Prop
  | .mem, s, t => t.mem = s.mem
  | .rings, s, t => t.rings = s.rings
  | .fabric, s, t => t.fabric = s.fabric
  | .res, s, t => t.res = s.res
  | .xlat, s, t => t.xlat = s.xlat
  | .disc, s, t => t.disc = s.disc
  | .mgmt, s, t => t.mgmt = s.mgmt
  | .post, s, t => t.post = s.post
  | .power, s, t => t.power = s.power
  | .time, s, t => t.time = s.time
  | .out, s, t => t.out = s.out
  | .host, s, t => t.host = s.host
  | .cells, s, t => t.mem.cells = s.mem.cells
  | .active, s, t => t.fabric.active = s.fabric.active
  | .staged, s, t => t.fabric.staged = s.fabric.staged
  | .ports, s, t => t.fabric.ports = s.fabric.ports
  | .dies, s, t => t.fabric.dies = s.fabric.dies
  | .images, s, t => t.res.images = s.res.images
  | .launches, s, t => t.res.launches = s.res.launches
  | .phs, s, t => t.res.phs = s.res.phs
  | .pins, s, t => t.xlat.pins = s.xlat.pins
  | .mine, s, t => t.disc.mine = s.disc.mine
  | .spdm, s, t => t.mgmt.spdm = s.mgmt.spdm
  | .lbs, s, t => t.post.lbs = s.post.lbs
  | .fw, s, t => t.post.fw = s.post.fw
  | .maps, s, t => t.post.maps = s.post.maps
  | .journal, s, t => t.post.journal = s.post.journal
  | .fns, s, t => t.host.fns = s.host.fns
  | .hostPorts, s, t => t.host.ports = s.host.ports
  | .rackTime, s, t => t.time.rackTime = s.time.rackTime

/-- The parts that make up a component. -/
def Comp.parts : Comp → List Part
  | .mem => [.cells, .marks]
  | .rings => [.rings]
  | .fabric => [.keys, .routeSets, .limit, .active, .staged, .ports, .dies, .fabric]
  | .res => [.images, .launches, .phs, .res]
  | .xlat => [.ctxs, .pins, .xlat]
  | .disc => [.number, .mine, .disc]
  | .mgmt => [.eid, .taps, .spdm, .events, .mgmt]
  | .post => [.lbs, .fw, .maps, .journal, .boot, .post]
  | .power => [.ladder, .power]
  | .time => [.rackTime, .time]
  | .out => [.out]
  | .host => [.fns, .hostPorts, .host]
  | .cells => [.cells]
  | .active => [.active]
  | .staged => [.staged]
  | .ports => [.ports]
  | .dies => [.dies]
  | .images => [.images]
  | .launches => [.launches]
  | .phs => [.phs]
  | .pins => [.pins]
  | .mine => [.mine]
  | .spdm => [.spdm]
  | .lbs => [.lbs]
  | .fw => [.fw]
  | .maps => [.maps]
  | .journal => [.journal]
  | .fns => [.fns]
  | .hostPorts => [.hostPorts]
  | .rackTime => [.rackTime]

/-- A component whose parts agree is as before. -/
theorem Comp.kept_of_parts (c : Comp) {s t : State} (h : ∀ p ∈ c.parts, p.Same s t) : c.Kept s t := by
  cases c with
  | mem =>
    obtain ⟨hc, hm⟩ : t.mem.cells = s.mem.cells ∧ t.mem.marks = s.mem.marks := by simpa [parts, Part.Same] using h
    show t.mem = s.mem
    cases hs : s.mem
    cases ht : t.mem
    simp_all
  | fabric =>
    simp only [parts, List.forall_mem_cons, List.not_mem_nil, false_implies, implies_true, and_true, Part.Same] at h
    show t.fabric = s.fabric
    cases hs : s.fabric
    cases ht : t.fabric
    simp_all
  | res =>
    simp only [parts, List.forall_mem_cons, List.not_mem_nil, false_implies, implies_true, and_true, Part.Same] at h
    show t.res = s.res
    cases hs : s.res
    cases ht : t.res
    simp_all
  | xlat =>
    simp only [parts, List.forall_mem_cons, List.not_mem_nil, false_implies, implies_true, and_true, Part.Same] at h
    show t.xlat = s.xlat
    cases hs : s.xlat
    cases ht : t.xlat
    simp_all
  | disc =>
    simp only [parts, List.forall_mem_cons, List.not_mem_nil, false_implies, implies_true, and_true, Part.Same] at h
    show t.disc = s.disc
    cases hs : s.disc
    cases ht : t.disc
    simp_all
  | mgmt =>
    simp only [parts, List.forall_mem_cons, List.not_mem_nil, false_implies, implies_true, and_true, Part.Same] at h
    show t.mgmt = s.mgmt
    cases hs : s.mgmt
    cases ht : t.mgmt
    simp_all
  | post =>
    simp only [parts, List.forall_mem_cons, List.not_mem_nil, false_implies, implies_true, and_true, Part.Same] at h
    show t.post = s.post
    cases hs : s.post
    cases ht : t.post
    simp_all
  | power =>
    simp only [parts, List.forall_mem_cons, List.not_mem_nil, false_implies, implies_true, and_true, Part.Same] at h
    show t.power = s.power
    cases hs : s.power
    cases ht : t.power
    simp_all
  | time =>
    simp only [parts, List.forall_mem_cons, List.not_mem_nil, false_implies, implies_true, and_true, Part.Same] at h
    show t.time = s.time
    cases hs : s.time
    cases ht : t.time
    simp_all
  | host =>
    simp only [parts, List.forall_mem_cons, List.not_mem_nil, false_implies, implies_true, and_true, Part.Same] at h
    show t.host = s.host
    cases hs : s.host
    cases ht : t.host
    simp_all
  | _ => simpa [parts, Part.Same, Kept] using h

/-- Every component of a list is as before. -/
def Keeps : List Comp → State → State → Prop
  | [], _, _ => True
  | [c], s, t => c.Kept s t
  | c :: cs, s, t => c.Kept s t ∧ Keeps cs s t

/-- A footprint has no part of any of the components. -/
def spares (F : List Part) (cs : List Comp) : Bool := cs.all fun c => c.parts.all fun p => !F.contains p

theorem Touches.keeps {F : List Part} {s t : State} (h : Touches F s t) (cs : List Comp) (hF : spares F cs = true) : Keeps cs s t := by
  have hc : ∀ c ∈ cs, c.Kept s t := fun c hc => c.kept_of_parts fun p hp => h.same p (by
    have := List.all_eq_true.1 (List.all_eq_true.1 hF c hc) p hp
    simpa using this)
  clear hF
  induction cs with
  | nil => trivial
  | cons c cs ih =>
    cases cs with
    | nil => exact hc c List.mem_cons_self
    | cons d cs => exact ⟨hc c List.mem_cons_self, ih fun c h => hc c (List.mem_cons_of_mem _ h)⟩

/-- A row keeps the components that its footprint spares. -/
theorem row_keeps {i : Instr} (cs : List Comp) (h : spares (footOf i) cs = true) : ∀ s t, exec i s = .next t → Keeps cs s t :=
  fun _ _ ht => (exec_touches ht).keeps cs h

/-- Rows keep the components that their footprints spare. -/
theorem rows_keep {l : List Instr} (cs : List Comp) (h : l.all (fun i => spares (footOf i) cs) = true) :
    ∀ i ∈ l, ∀ s t, exec i s = .next t → Keeps cs s t :=
  fun i hi => row_keeps cs (List.all_eq_true.1 h i hi)

end Sys2Proof.Frames
end

section
/-! SUPPORT. The statements that hold of every command: what each step keeps, which rows change what, and the frames of the rows. -/

namespace Sys2Proof.Frames

open Sys2Proof.Machine Sys2Proof.Safety Sys2Proof.Laws

set_option Elab.async false

/-- A property that every steady change keeps is kept by every step. -/
theorem stepKeeps_of_steady {P : State → Prop} (hP : ∀ s t, Steady s t → P s → P t) (hq : ∀ s q, P s → P { s with pending := q }) :
    StepKeeps P := by
  intro s t hs h
  unfold step at h
  split at h
  · cases h
    exact hP _ _ idleTick_touches.steady hs
  · exact hP _ _ (exec_touches h).steady (hq _ _ hs)

/-- Settles O36: no operation leaves the memory's canonical form. -/
theorem stepKeepsCanonicalMemory : Obligations.StepKeepsCanonicalMemory := by
  unfold Obligations.StepKeepsCanonicalMemory
  exact stepKeeps_of_steady (fun _ _ h => h.memory) fun _ _ h => h

/-- Settles O37: the operations that move the ladder move it to one of P0 to P4, or off it. -/
theorem stepKeepsLegalLadder : Obligations.StepKeepsLegalLadder := by
  unfold Obligations.StepKeepsLegalLadder
  exact stepKeeps_of_steady (fun _ _ h => h.ladder) fun _ _ h => h

/-- Settles O38: a record is appended at the next index, and a loss of power drops the newest ones. -/
theorem stepKeepsJournal : Obligations.StepKeepsJournal := by
  unfold Obligations.StepKeepsJournal
  exact stepKeeps_of_steady (fun _ _ h => h.journal) fun _ _ h => h

/-- Settles O39: an index is only ever counted up. -/
theorem journalIndexesNeverReused : Obligations.JournalIndexesNeverReused := by
  unfold Obligations.JournalIndexesNeverReused
  exact fun _ _ _ h => (exec_touches h).steady.next

/-- Settles O40: every command completes, well-formed or not. -/
theorem wellFormedCommandsComplete : Obligations.WellFormedCommandsComplete := by
  unfold Obligations.WellFormedCommandsComplete
  intro i s _
  obtain ⟨t, ht, -⟩ := exec_runs i s
  exact ⟨t, ht⟩

/-- Settles O42: an output is only ever appended. -/
theorem commandsLeaveQueueAndOutputs : Obligations.CommandsLeaveQueueAndOutputs := by
  unfold Obligations.CommandsLeaveQueueAndOutputs
  intro i s t h
  obtain ⟨l, hl⟩ := (exec_touches h).steady.out
  exact ⟨(exec_touches h).steady.pending, l, hl.symm⟩

/-! ### Whose rows change what

Each table below says which rows have a part in their footprint. -/

theorem boot_in_footOf (i : Instr) : (mayActivate i || !(footOf i).contains .boot) = true := by
  cases i <;> rfl

theorem keys_in_footOf (i : Instr) : (clearsModule i || mayChangeKeys i || !(footOf i).contains .keys) = true := by
  cases i <;> rfl

theorem routeSets_in_footOf (i : Instr) : (clearsModule i || mayChangeRouteSets i || !(footOf i).contains .routeSets) = true := by
  cases i <;> rfl

theorem ctxs_in_footOf (i : Instr) : (clearsModule i || mayChangeContexts i || !(footOf i).contains .ctxs) = true := by
  cases i <;> rfl

theorem limit_in_footOf (i : Instr) : (clearsModule i || mayChangeLimit i || !(footOf i).contains .limit) = true := by
  cases i <;> rfl

theorem ladder_in_footOf (i : Instr) : (clearsModule i || movesLadder i || !(footOf i).contains .ladder) = true := by
  cases i <;> rfl

theorem taps_in_footOf (i : Instr) : (clearsModule i || movesTap i || !(footOf i).contains .taps) = true := by
  cases i <;> rfl

theorem number_in_footOf (i : Instr) (h : i ≠ .commitTime) : (clearsModule i || !(footOf i).contains .number) = true := by
  cases i
  case commitTime => exact absurd rfl h
  all_goals rfl

theorem eid_in_footOf (i : Instr) (h : ∀ o e, i ≠ .mctpSetEndpointId o e) : (clearsModule i || !(footOf i).contains .eid) = true := by
  cases i
  case mctpSetEndpointId o e => exact absurd rfl (h o e)
  all_goals rfl

/-- A part that only rows of two kinds touch agrees after a row of neither kind. -/
theorem same_of_table {p : Part} {i : Instr} {s t : State} {a b : Bool} (h : exec i s = .next t)
    (hp : (a || b || !(footOf i).contains p) = true) (ha : a = false) (hb : b = false) : p.Same s t :=
  (exec_touches h).same p (by simpa [ha, hb, -List.contains_eq_mem] using hp)

/-- Settles O43: only the rows that may activate firmware touch the boot selectors and the floor. -/
theorem onlyActivationChangesBootFloor : Obligations.OnlyActivationChangesBootFloor := by
  unfold Obligations.OnlyActivationChangesBootFloor
  exact fun i s t h => ⟨(exec_touches h).steady.floor, fun hi => same_of_table (a := false) h (boot_in_footOf i) rfl hi⟩

/-- Settles O44: each table is in the footprint of its own rows and of the clearing ones only. -/
theorem onlyKeyCommandsChangeKeys : Obligations.OnlyKeyCommandsChangeKeys := by
  unfold Obligations.OnlyKeyCommandsChangeKeys
  intro i s t h hc
  exact ⟨fun hi => same_of_table h (keys_in_footOf i) hc hi, fun hi => same_of_table h (routeSets_in_footOf i) hc hi,
    fun hi => same_of_table h (ctxs_in_footOf i) hc hi, fun hi => same_of_table h (limit_in_footOf i) hc hi⟩

/-- Settles O45: the ladder is in the footprint of its own rows and of the clearing ones only. -/
theorem onlyTheLadderMovesTheLadder : Obligations.OnlyTheLadderMovesTheLadder := by
  unfold Obligations.OnlyTheLadderMovesTheLadder
  exact fun i s t h hc hl => same_of_table h (ladder_in_footOf i) hc hl

/-- Settles O46: each name is in the footprint of its own rows and of the clearing ones only. -/
theorem onlyCommitChangesModuleNumber : Obligations.OnlyCommitChangesModuleNumber := by
  unfold Obligations.OnlyCommitChangesModuleNumber
  intro i s t h hc
  exact ⟨fun hi => same_of_table (a := false) h (number_in_footOf i hi) rfl hc,
      fun hi => same_of_table (a := false) h (eid_in_footOf i hi) rfl hc,
    fun hi => same_of_table h (taps_in_footOf i) hc hi⟩

/-! ### The frames of the rows, by family -/

/-- Settles O47: the footprint of each row spares the components that the row is said to leave alone. -/
theorem hostAndLetterboxFrame : Obligations.HostAndLetterboxFrame := by
  unfold Obligations.HostAndLetterboxFrame
  exact ⟨
    fun _ => row_keeps [.mem, .rings, .fabric, .res, .xlat, .disc, .mgmt, .post, .power, .time, .out, .fns] rfl,
    fun _ => rows_keep [.active, .staged, .ports, .images, .mine, .spdm, .maps, .rackTime] rfl,
    fun _ _ _ _ _ => row_keeps [.active, .staged, .ports, .images, .mine, .spdm, .maps, .rackTime] rfl,
    fun _ _ => rows_keep [.disc, .power, .time, .active, .staged, .ports, .images, .spdm, .maps] rfl,
    fun _ _ => row_keeps [.cells, .active, .staged, .ports, .images, .mine, .spdm, .maps, .rackTime] rfl,
    fun _ _ => row_keeps [.disc, .power, .time, .active, .staged, .ports, .images, .spdm, .fw, .maps] rfl,
    fun _ => row_keeps [.mem, .rings, .fabric, .res, .xlat, .disc, .mgmt, .post, .power, .time, .out, .hostPorts] rfl,
    fun _ => row_keeps [.cells, .active, .staged, .ports, .images, .mine, .spdm, .maps, .rackTime] rfl,
    fun _ _ => row_keeps [.disc, .power, .time, .cells, .active, .staged, .ports, .images, .spdm, .maps] rfl,
    fun _ _ => row_keeps [.res, .disc, .power, .time, .active, .staged, .ports, .pins, .spdm, .hostPorts, .fw, .maps] rfl,
    fun _ _ => row_keeps [.mem, .rings, .fabric, .res, .xlat, .disc, .mgmt, .post, .power, .time, .out, .hostPorts] rfl,
    fun _ _ _ => row_keeps [.active, .staged, .ports, .images, .mine, .spdm, .maps, .rackTime] rfl,
    fun _ _ _ _ _ _ => row_keeps [.mem, .rings, .fabric, .res, .xlat, .disc, .power, .time, .spdm, .fns, .lbs, .fw, .maps] rfl,
    fun _ _ _ _ _ _ _ => row_keeps [.mem, .fabric, .res, .xlat, .mine, .spdm, .fw, .maps, .rackTime] rfl,
    fun _ _ _ _ => row_keeps [.disc, .power, .time, .cells, .active, .staged, .ports, .spdm, .maps] rfl,
    fun _ _ => row_keeps [.disc, .power, .time, .cells, .active, .staged, .ports, .spdm, .maps] rfl,
    fun _ _ _ => row_keeps [.disc, .power, .time, .cells, .active, .staged, .ports, .spdm, .maps] rfl,
    fun _ _ => rows_keep [.mem, .rings, .fabric, .res, .xlat, .disc, .power, .time, .spdm, .fns, .lbs, .fw, .maps] rfl,
    fun _ => row_keeps [.mem, .rings, .fabric, .res, .xlat, .disc, .power, .time, .spdm, .fns, .lbs, .fw, .maps] rfl,
    fun _ _ _ _ _ => row_keeps [.mem, .res, .disc, .power, .time, .active, .staged, .ports, .dies, .pins, .spdm, .fw, .maps] rfl,
    fun _ _ _ _ => row_keeps [.disc, .power, .time, .cells, .active, .staged, .ports, .images, .pins, .spdm, .fw, .maps] rfl,
    fun _ _ _ => row_keeps [.mem, .fabric, .res, .xlat, .disc, .power, .time, .spdm, .hostPorts, .lbs, .fw, .maps] rfl,
    fun _ _ _ => row_keeps [.mem, .rings, .fabric, .res, .xlat, .disc, .host, .post, .power, .time] rfl,
    fun _ _ => row_keeps [.mem, .rings, .fabric, .res, .xlat, .disc, .mgmt, .host, .power, .time, .fw, .maps, .journal] rfl,
    fun _ _ => row_keeps [.mem, .fabric, .res, .xlat, .mine, .spdm, .hostPorts, .fw, .maps, .rackTime] rfl,
    fun _ _ _ => row_keeps [.mem, .rings, .fabric, .res, .xlat, .disc, .mgmt, .host, .power, .time, .fw, .maps, .journal] rfl,
    fun _ _ _ _ => row_keeps [.mem, .rings, .fabric, .res, .xlat, .disc, .power, .time, .spdm, .fns, .fw, .maps] rfl,
    fun _ => row_keeps [.mem, .rings, .fabric, .res, .xlat, .disc, .mgmt, .power, .time, .hostPorts, .fw, .maps, .journal] rfl,
    fun _ => rows_keep [.mem, .rings, .fabric, .res, .xlat, .disc, .power, .time, .spdm, .hostPorts, .fw, .maps] rfl⟩

/-- Settles O48: the footprint of each row spares the components that the row is said to leave alone. -/
theorem ringAndTranslationFrame : Obligations.RingAndTranslationFrame := by
  unfold Obligations.RingAndTranslationFrame
  exact ⟨
    fun _ => row_keeps [.mem, .res, .xlat, .disc, .power, .time, .active, .staged, .ports, .dies, .spdm, .hostPorts, .fw, .maps] rfl,
    fun _ => row_keeps [.mem, .pins, .disc, .power, .time, .active, .staged, .ports, .dies, .images, .phs, .spdm, .hostPorts, .fw,
      .maps] rfl,
    fun _ => rows_keep [.mem, .fabric, .res, .xlat, .disc, .power, .time, .spdm, .hostPorts, .fw, .maps] rfl,
    fun _ => row_keeps [.mem, .fabric, .res, .pins, .disc, .power, .time, .spdm, .hostPorts, .fw, .maps] rfl,
    fun _ => row_keeps [.mem, .rings, .fabric, .res, .xlat, .disc, .power, .time, .spdm, .hostPorts, .fw, .maps] rfl,
    fun _ => row_keeps [.mem, .rings, .fabric, .images, .launches, .phs, .xlat, .disc, .power, .time, .spdm, .hostPorts, .fw, .maps] rfl,
    fun _ => row_keeps [.mem, .res, .xlat, .disc, .power, .time, .active, .staged, .ports, .spdm, .hostPorts, .fw, .maps] rfl,
    fun _ => rows_keep [.mem, .rings, .fabric, .res, .disc, .power, .time, .pins, .spdm, .hostPorts, .fw, .maps] rfl,
    fun _ => rows_keep [.mem, .rings, .fabric, .res, .disc, .power, .time, .spdm, .hostPorts, .fw, .maps] rfl,
    fun _ => rows_keep [.mem, .res, .disc, .power, .time, .active, .staged, .ports, .dies, .pins, .spdm, .hostPorts, .fw, .maps] rfl,
    fun _ => row_keeps [.mem, .rings, .res, .xlat, .disc, .power, .time, .active, .staged, .ports, .spdm, .hostPorts, .fw, .maps] rfl,
    fun _ => row_keeps [.mem, .rings, .res, .xlat, .disc, .power, .time, .active, .staged, .ports, .dies, .spdm, .hostPorts, .fw,
      .maps] rfl,
    fun _ _ _ _ => row_keeps [.mem, .fabric, .res, .xlat, .disc, .power, .time, .spdm, .fns, .hostPorts, .lbs, .fw, .maps] rfl,
    fun _ _ _ _ => row_keeps [.mem, .fabric, .res, .xlat, .disc, .mgmt, .host, .post, .power, .time] rfl,
    fun _ _ _ => rows_keep [.mem, .rings, .fabric, .res, .xlat, .disc, .mgmt, .post, .power, .time, .hostPorts] rfl,
    fun _ _ _ _ _ => row_keeps [.mem, .rings, .fabric, .res, .xlat, .disc, .mgmt, .post, .power, .time, .hostPorts] rfl,
    fun _ => row_keeps [.mem, .res, .disc, .power, .time, .active, .staged, .ports, .pins, .spdm, .lbs, .fw, .maps] rfl,
    fun _ => row_keeps [.mem, .fabric, .res, .pins, .disc, .mgmt, .fns, .hostPorts, .post, .power, .time, .out] rfl,
    fun _ => row_keeps [.res, .disc, .power, .time, .active, .staged, .ports, .pins, .spdm, .hostPorts, .fw, .maps] rfl,
    fun _ _ => row_keeps [.mem, .fabric, .res, .xlat, .disc, .power, .time, .spdm, .hostPorts, .lbs, .fw, .maps] rfl,
    fun _ => row_keeps [.mem, .fabric, .res, .xlat, .disc, .mgmt, .post, .power, .time, .hostPorts] rfl,
    fun _ _ => rows_keep [.mem, .fabric, .res, .xlat, .disc, .mgmt, .host, .post, .power, .time, .out] rfl,
    fun _ _ => row_keeps [.mem, .res, .disc, .spdm, .fw, .maps, .power, .time, .active, .staged, .ports, .pins] rfl,
    fun _ _ => row_keeps [.mem, .res, .pins, .disc, .mgmt, .host, .post, .power, .time, .out, .active, .staged, .ports] rfl,
    fun _ _ => row_keeps [.res, .pins, .disc, .power, .time, .cells, .active, .staged, .ports, .spdm, .fns, .hostPorts, .lbs, .fw,
      .maps] rfl,
    fun _ _ => row_keeps [.mem, .disc, .mgmt, .post, .power, .time, .active, .staged, .ports, .images, .pins, .fns] rfl,
    fun _ _ => row_keeps [.mem, .fabric, .res, .xlat, .disc, .power, .time, .spdm, .fns, .hostPorts, .lbs, .fw, .maps] rfl,
    fun _ _ => row_keeps [.mem, .res, .xlat, .disc, .mgmt, .host, .post, .power, .time, .out, .active, .staged, .ports, .dies] rfl,
    fun _ _ => rows_keep [.mem, .fabric, .res, .xlat, .disc, .mgmt, .post, .power, .time, .hostPorts] rfl,
    fun _ _ => row_keeps [.mem, .res, .xlat, .disc, .mgmt, .post, .power, .time, .active, .staged, .ports, .dies, .hostPorts] rfl,
    fun _ _ _ => row_keeps [.mem, .fabric, .xlat, .disc, .mgmt, .host, .post, .power, .time, .out, .images, .phs, .launches] rfl,
    fun _ _ => row_keeps [.disc, .power, .time, .cells, .active, .staged, .ports, .images, .spdm, .fw, .maps] rfl,
    fun _ _ _ => row_keeps [.res, .disc, .spdm, .lbs, .fw, .maps, .power, .time, .active, .staged, .ports, .pins, .hostPorts] rfl⟩

/-- Settles O49: the footprint of each row spares the components that the row is said to leave alone. -/
theorem residencyFrame : Obligations.ResidencyFrame := by
  unfold Obligations.ResidencyFrame
  exact ⟨
    fun _ => row_keeps [.mem, .rings, .xlat, .disc, .power, .time, .active, .staged, .ports, .phs, .launches, .spdm, .fw, .maps] rfl,
    fun _ => row_keeps [.mem, .rings, .fabric, .xlat, .disc, .power, .time, .phs, .launches, .spdm, .hostPorts, .fw, .maps] rfl,
    fun _ => rows_keep [.mem, .rings, .fabric, .res, .xlat, .disc, .power, .time, .spdm, .hostPorts, .fw, .maps] rfl,
    fun _ => row_keeps [.rings, .disc, .power, .time, .active, .staged, .ports, .images, .spdm, .hostPorts, .fw, .maps] rfl,
    fun _ => rows_keep [.mem, .rings, .fabric, .xlat, .disc, .power, .time, .images, .launches, .spdm, .hostPorts, .fw, .maps] rfl,
    fun _ => rows_keep [.disc, .power, .time, .active, .staged, .ports, .images, .spdm, .hostPorts, .fw, .maps] rfl,
    fun _ => row_keeps [.mem, .rings, .xlat, .disc, .power, .time, .active, .staged, .ports, .dies, .images, .phs, .launches, .spdm,
      .hostPorts, .fw, .maps] rfl,
    fun _ _ => row_keeps [.rings, .xlat, .disc, .power, .time, .active, .staged, .ports, .images, .spdm, .fns, .hostPorts, .lbs, .fw,
      .maps] rfl,
    fun _ => row_keeps [.mem, .active, .staged, .ports, .xlat, .disc, .mgmt, .post, .power, .time, .images, .hostPorts] rfl,
    fun _ _ _ _ _ => row_keeps [.xlat, .disc, .power, .time, .active, .staged, .ports, .images, .spdm, .fns, .hostPorts, .lbs, .fw,
      .maps] rfl,
    fun _ => row_keeps [.mem, .active, .staged, .ports, .xlat, .disc, .mgmt, .host, .post, .power, .time, .out, .images] rfl,
    fun _ _ _ => row_keeps [.xlat, .disc, .power, .time, .active, .staged, .ports, .images, .spdm, .fns, .hostPorts, .lbs, .fw, .maps] rfl,
    fun _ _ => row_keeps [.xlat, .disc, .power, .time, .active, .staged, .ports, .images, .spdm, .fns, .hostPorts, .lbs, .fw, .maps] rfl,
    fun _ _ _ _ _ => row_keeps [.pins, .disc, .power, .time, .active, .staged, .ports, .images, .spdm, .fns, .lbs, .fw, .maps] rfl,
    fun _ _ _ _ => row_keeps [.rings, .res, .xlat, .disc, .power, .time, .active, .staged, .ports, .spdm, .fns, .hostPorts, .lbs, .fw,
      .maps] rfl,
    fun _ => row_keeps [.mem, .rings, .fabric, .xlat, .disc, .power, .time, .images, .phs, .launches, .spdm, .fns, .hostPorts, .lbs, .fw,
      .maps] rfl,
    fun _ => row_keeps [.mem, .active, .staged, .ports, .xlat, .disc, .power, .time, .images, .spdm, .hostPorts, .fw, .maps] rfl,
    fun _ _ => row_keeps [.mem, .xlat, .disc, .power, .time, .active, .staged, .ports, .images, .spdm, .fns, .hostPorts, .lbs, .fw,
      .maps] rfl,
    fun _ => row_keeps [.xlat, .disc, .power, .time, .active, .staged, .ports, .images, .spdm, .fns, .hostPorts, .lbs, .fw, .maps] rfl⟩

/-- Settles O50: the footprint of each row spares the components that the row is said to leave alone. -/
theorem fabricFrame : Obligations.FabricFrame := by
  unfold Obligations.FabricFrame
  exact ⟨
    fun _ => row_keeps [.mem, .rings, .res, .xlat, .disc, .power, .time, .active, .ports, .dies, .spdm, .hostPorts, .fw, .maps] rfl,
    fun _ => rows_keep [.mem, .rings, .res, .xlat, .disc, .power, .time, .active, .staged, .dies, .spdm, .hostPorts, .fw, .maps] rfl,
    fun _ => rows_keep [.mem, .rings, .fabric, .res, .xlat, .disc, .power, .time, .spdm, .hostPorts, .fw, .maps] rfl,
    fun _ => rows_keep [.mem, .rings, .res, .xlat, .disc, .power, .time, .active, .staged, .ports, .dies, .spdm, .hostPorts, .fw,
      .maps] rfl,
    fun _ => rows_keep [.mem, .rings, .res, .xlat, .disc, .power, .time, .active, .staged, .spdm, .hostPorts, .fw] rfl,
    fun _ _ _ _ => row_keeps [.mem, .rings, .res, .xlat, .disc, .power, .time, .active, .staged, .dies, .spdm, .hostPorts, .fw, .maps] rfl,
    fun _ _ => row_keeps [.mem, .rings, .active, .staged, .dies, .res, .xlat, .disc, .power, .time, .spdm, .hostPorts, .fw, .maps] rfl,
    fun _ _ => row_keeps [.mem, .rings, .fabric, .res, .xlat, .disc, .power, .time, .spdm, .hostPorts, .fw, .maps] rfl,
    fun _ _ => row_keeps [.mem, .rings, .fabric, .res, .xlat, .disc, .power, .time, .spdm, .hostPorts, .fw, .maps] rfl,
    fun _ _ _ => row_keeps [.mem, .rings, .res, .xlat, .disc, .power, .time, .active, .staged, .spdm, .fns, .hostPorts, .lbs, .fw] rfl,
    fun _ => row_keeps [.mem, .rings, .res, .xlat, .disc, .power, .time, .active, .staged, .spdm, .fns, .hostPorts, .lbs, .fw] rfl,
    fun _ _ _ _ _ => row_keeps [.mem, .rings, .res, .xlat, .disc, .power, .time, .active, .staged, .dies, .spdm, .fns, .hostPorts, .lbs,
      .fw, .maps] rfl,
    fun _ _ _ => row_keeps [.mem, .rings, .res, .xlat, .disc, .mgmt, .host, .post, .power, .time, .out, .active, .staged, .dies] rfl,
    fun _ _ _ _ => row_keeps [.mem, .rings, .res, .xlat, .disc, .mgmt, .host, .post, .power, .time, .out, .active, .staged, .dies] rfl,
    fun _ _ => rows_keep [.mem, .rings, .res, .xlat, .disc, .power, .time, .active, .staged, .dies, .spdm, .fns, .hostPorts, .lbs, .fw,
      .maps] rfl,
    fun _ => row_keeps [.mem, .rings, .res, .xlat, .mine, .power, .time, .active, .staged, .dies, .spdm, .fns, .hostPorts, .lbs, .fw,
      .maps] rfl,
    fun _ _ => rows_keep [.mem, .rings, .res, .xlat, .disc, .power, .time, .active, .staged, .dies, .spdm, .fns, .hostPorts, .lbs, .fw,
      .maps] rfl,
    fun _ _ => rows_keep [.mem, .rings, .res, .xlat, .disc, .power, .time, .active, .staged, .dies, .spdm, .hostPorts, .fw, .maps] rfl,
    fun _ => row_keeps [.mem, .rings, .res, .xlat, .mine, .spdm, .fns, .hostPorts, .lbs, .fw, .maps, .power, .time, .active, .staged,
      .dies] rfl,
    fun _ => row_keeps [.mem, .rings, .res, .xlat, .disc, .mgmt, .host, .post, .power, .time, .active, .staged, .dies] rfl,
    fun _ _ _ => row_keeps [.mem, .rings, .res, .xlat, .power, .active, .staged, .spdm, .hostPorts, .fw, .maps, .rackTime] rfl,
    fun _ => row_keeps [.mem, .rings, .res, .xlat, .disc, .mgmt, .host, .post, .power, .time, .out, .active, .staged, .dies] rfl,
    fun _ => rows_keep [.mem, .rings, .res, .xlat, .disc, .mgmt, .host, .post, .power, .time, .out, .active, .staged, .dies] rfl,
    fun _ _ _ => row_keeps [.mem, .rings, .res, .xlat, .disc, .power, .time, .active, .staged, .dies, .spdm, .fns, .hostPorts, .lbs, .fw,
      .maps] rfl,
    fun _ _ _ => row_keeps [.mem, .rings, .res, .xlat, .disc, .power, .time, .active, .staged, .dies, .spdm, .fns, .hostPorts, .lbs, .fw,
      .maps] rfl,
    fun _ => row_keeps [.mem, .rings, .fabric, .res, .xlat, .disc, .power, .time, .spdm, .fns, .hostPorts, .lbs, .fw, .maps] rfl,
    fun _ => row_keeps [.mem, .rings, .res, .xlat, .disc, .mgmt, .host, .post, .power, .time, .out, .active, .staged, .ports, .dies] rfl,
    fun _ _ => row_keeps [.mem, .rings, .res, .xlat, .disc, .power, .time, .active, .staged, .spdm, .fns, .hostPorts, .lbs, .fw, .maps] rfl,
    fun _ _ _ => row_keeps [.mem, .images, .pins, .disc, .power, .time, .active, .staged, .spdm, .fw, .maps] rfl,
    fun _ _ => row_keeps [.mem, .rings, .res, .xlat, .disc, .power, .time, .active, .staged, .spdm, .fns, .hostPorts, .lbs, .fw, .maps] rfl,
    fun _ _ => row_keeps [.mem, .rings, .res, .xlat, .disc, .mgmt, .host, .post, .power, .time, .out, .active, .staged, .ports, .dies] rfl,
    fun _ => row_keeps [.mem, .rings, .res, .xlat, .disc, .mgmt, .host, .post, .power, .time, .out, .active, .staged, .ports] rfl,
    fun _ => row_keeps [.mem, .rings, .res, .xlat, .disc, .power, .time, .active, .staged, .ports, .spdm, .fns, .hostPorts, .lbs, .fw,
      .maps] rfl,
    row_keeps [.mem, .rings, .res, .xlat, .disc, .power, .time, .ports, .dies, .spdm, .hostPorts, .fw, .maps] rfl,
    row_keeps [.mem, .rings, .res, .xlat, .disc, .power, .time, .active, .staged, .ports, .dies, .spdm, .hostPorts, .fw, .maps] rfl⟩

/-- Settles O51: the footprint of each row spares the components that the row is said to leave alone. -/
theorem powerAndRepairFrame : Obligations.PowerAndRepairFrame := by
  unfold Obligations.PowerAndRepairFrame
  exact ⟨
    fun _ _ _ => row_keeps [.mem, .rings, .fabric, .res, .xlat, .disc, .time, .spdm, .fns, .hostPorts, .lbs, .fw, .maps] rfl,
    fun _ => rows_keep [.disc, .time, .images, .pins, .spdm, .hostPorts, .fw, .maps] rfl,
    row_keeps [.fw, .maps] rfl,
    rows_keep [.mem, .rings, .fabric, .res, .xlat, .disc, .mgmt, .host, .post, .time, .out] rfl,
    rows_keep [.mem, .rings, .fabric, .res, .xlat, .disc, .time, .spdm, .hostPorts, .fw, .maps] rfl,
    rows_keep [.mem, .fabric, .res, .xlat, .disc, .time, .spdm, .hostPorts, .fw, .maps] rfl,
    fun _ _ => row_keeps [.mem, .rings, .res, .xlat, .disc, .time, .active, .staged, .fw, .maps] rfl,
    fun _ => rows_keep [.spdm, .maps, .rackTime] rfl,
    fun _ => row_keeps [.spdm, .rackTime] rfl,
    row_keeps [.spdm, .maps, .rackTime] rfl,
    fun _ => rows_keep [.mem, .rings, .fabric, .res, .xlat, .disc, .time, .spdm, .hostPorts, .fw, .maps] rfl,
    fun _ => rows_keep [.mem, .rings, .fabric, .res, .xlat, .disc, .power, .time, .spdm, .hostPorts, .fw, .maps] rfl,
    fun _ => row_keeps [.mem, .rings, .fabric, .res, .xlat, .disc, .power, .spdm, .hostPorts, .fw, .maps, .rackTime] rfl,
    fun _ _ => rows_keep [.mem, .rings, .res, .xlat, .disc, .power, .time, .active, .staged, .ports, .spdm, .hostPorts, .fw] rfl,
    fun _ => row_keeps [.mem, .xlat, .disc, .power, .time, .active, .staged, .ports, .images, .spdm, .hostPorts, .fw] rfl,
    fun _ => row_keeps [.mem, .xlat, .disc, .time, .ports, .images, .spdm, .hostPorts, .fw] rfl,
    fun _ _ => row_keeps [.rings, .res, .disc, .time, .pins, .spdm, .hostPorts, .fw] rfl,
    fun _ => row_keeps [.spdm, .maps, .rackTime] rfl,
    fun _ _ => row_keeps [.mem, .rings, .fabric, .res, .xlat, .disc, .power, .time, .spdm, .maps] rfl,
    fun _ => row_keeps [.mem, .rings, .fabric, .res, .xlat, .disc, .power, .time, .spdm, .hostPorts, .maps] rfl,
    fun _ => row_keeps [.mem, .rings, .active, .staged, .ports, .res, .xlat, .disc, .power, .time, .spdm, .hostPorts, .maps] rfl,
    fun _ _ _ => row_keeps [.mem, .rings, .active, .staged, .ports, .launches, .phs, .disc, .power, .time, .maps] rfl,
    fun _ => row_keeps [.mem, .rings, .active, .staged, .ports, .launches, .phs, .disc, .power, .time, .maps] rfl,
    row_keeps [.mem, .rings, .fabric, .res, .xlat, .disc, .mgmt, .host, .time, .out, .lbs, .fw, .maps, .journal] rfl,
    row_keeps [.disc, .power, .time, .active, .staged, .ports, .maps] rfl,
    fun _ => row_keeps [.mem, .rings, .fabric, .res, .xlat, .disc, .mgmt, .host, .power, .time, .out, .lbs, .fw, .maps, .journal] rfl,
    rows_keep [.mem, .rings, .fabric, .res, .xlat, .disc, .power, .time, .spdm, .fns, .hostPorts, .lbs, .fw, .maps] rfl,
    row_keeps [.active, .staged, .images, .mine, .spdm, .maps, .rackTime] rfl,
    row_keeps [.images, .mine, .spdm, .maps, .rackTime] rfl,
    row_keeps [.xlat, .disc, .time, .images, .spdm, .fw, .maps] rfl,
    fun _ _ => row_keeps [.mem, .rings, .fabric, .res, .xlat, .disc, .mgmt, .host, .post, .time, .out] rfl,
    fun _ => row_keeps [.mem, .rings, .fabric, .res, .xlat, .disc, .mgmt, .host, .post, .time, .out] rfl,
    fun _ => rows_keep [.mem, .rings, .fabric, .res, .xlat, .disc, .mgmt, .host, .post, .time, .out] rfl,
    fun _ => row_keeps [.mem, .rings, .fabric, .res, .xlat, .disc, .time, .spdm, .fns, .hostPorts, .lbs, .fw, .maps] rfl,
    fun _ _ => rows_keep [.mem, .xlat, .disc, .time, .ports, .images, .spdm, .hostPorts, .fw] rfl,
    row_keeps [.mem, .rings, .fabric, .res, .xlat, .disc, .power, .spdm, .hostPorts, .fw, .maps] rfl,
    rows_keep [.mem, .rings, .fabric, .res, .xlat, .disc, .power, .spdm, .fns, .hostPorts, .lbs, .fw, .maps, .rackTime] rfl,
    row_keeps [.mem, .rings, .fabric, .res, .xlat, .disc, .mgmt, .host, .post, .power, .out, .rackTime] rfl,
    row_keeps [.mem, .rings, .fabric, .res, .xlat, .disc, .power, .spdm, .fns, .hostPorts, .lbs, .fw, .maps] rfl,
    row_keeps [.mem, .rings, .fabric, .res, .xlat, .disc, .power, .spdm, .hostPorts, .fw, .maps, .rackTime] rfl,
    fun _ _ _ => row_keeps [.rings, .res, .xlat, .disc, .power, .time, .cells, .active, .staged, .ports, .spdm, .fns, .hostPorts, .lbs,
      .fw, .maps] rfl,
    fun _ => row_keeps [.mem, .rings, .res, .xlat, .disc, .power, .time, .active, .staged, .ports, .spdm, .fns, .hostPorts, .lbs, .fw,
      .maps] rfl,
    fun _ _ => row_keeps [.mem, .xlat, .disc, .power, .time, .active, .staged, .ports, .images, .spdm, .hostPorts, .fw] rfl,
    fun _ => row_keeps [.mine, .rackTime] rfl,
    fun _ _ _ _ => row_keeps [.mem, .images, .xlat, .disc, .time, .ports, .spdm, .hostPorts, .fw] rfl,
    fun _ _ => row_keeps [.mine, .rackTime] rfl,
    fun _ => row_keeps [.mem, .rings, .res, .xlat, .disc, .mgmt, .host, .post, .power, .time, .out, .active, .staged, .ports, .dies] rfl,
    fun _ _ _ => row_keeps [.mem, .rings, .res, .disc, .power, .time, .active, .staged, .ports, .spdm, .fns, .hostPorts, .lbs, .fw,
      .maps] rfl,
    fun _ => row_keeps [.mem, .rings, .res, .xlat, .disc, .power, .time, .active, .staged, .ports, .spdm, .fns, .hostPorts, .lbs, .fw,
      .maps] rfl,
    fun _ _ => row_keeps [.mem, .xlat, .disc, .time, .ports, .images, .spdm, .hostPorts, .fw] rfl,
    fun _ => row_keeps [.mem, .xlat, .disc, .time, .ports, .images, .spdm, .hostPorts, .fw] rfl,
    fun _ _ => rows_keep [.mem, .rings, .fabric, .res, .xlat, .disc, .mgmt, .host, .post, .time, .out] rfl,
    fun _ => row_keeps [.fw, .maps] rfl,
    fun _ => row_keeps [.mem, .rings, .fabric, .res, .xlat, .disc, .time, .spdm, .fns, .hostPorts, .lbs, .fw, .maps] rfl,
    fun _ => row_keeps [.mem, .rings, .fabric, .res, .xlat, .disc, .mgmt, .host, .post, .power, .time] rfl⟩

/-- Settles O53: the footprint of each row spares the components that the row is said to leave alone. -/
theorem discoveryAndManagementFrame : Obligations.DiscoveryAndManagementFrame := by
  unfold Obligations.DiscoveryAndManagementFrame
  exact ⟨
    fun _ => row_keeps [.mem, .rings, .fabric, .res, .xlat, .power, .time, .spdm, .hostPorts, .fw, .maps] rfl,
    row_keeps [.mem, .rings, .res, .xlat, .disc, .mgmt, .host, .post, .power, .time, .out, .active, .staged, .ports, .dies] rfl,
    fun _ _ => rows_keep [.mem, .rings, .res, .xlat, .power, .active, .staged, .spdm, .hostPorts, .fw, .maps, .rackTime] rfl,
    row_keeps [.mem, .rings, .res, .xlat, .mgmt, .host, .post, .power, .time, .out, .active, .staged, .ports, .dies, .mine] rfl,
    row_keeps [.mem, .rings, .res, .xlat, .power, .active, .staged, .ports, .dies, .spdm, .hostPorts, .fw, .maps, .rackTime] rfl,
    row_keeps [.mem, .rings, .res, .xlat, .power, .time, .active, .dies, .spdm, .hostPorts, .fw, .maps] rfl,
    row_keeps [.mem, .rings, .res, .xlat, .power, .time, .active, .staged, .ports, .dies, .spdm, .hostPorts, .fw, .maps] rfl,
    fun _ _ => rows_keep [.mem, .rings, .fabric, .res, .xlat, .disc, .host, .post, .power, .time, .spdm] rfl,
    fun _ => rows_keep [.mem, .rings, .fabric, .res, .xlat, .disc, .mgmt, .host, .post, .power, .time] rfl,
    fun _ _ => rows_keep [.mem, .rings, .fabric, .res, .xlat, .disc, .mgmt, .host, .post, .power, .time] rfl,
    fun _ _ => row_keeps [.mem, .rings, .res, .xlat, .disc, .power, .time, .active, .staged, .ports, .spdm, .fns, .hostPorts, .lbs,
      .fw] rfl,
    fun _ => rows_keep [.mem, .rings, .fabric, .res, .xlat, .disc, .host, .post, .power, .time, .out, .spdm] rfl,
    rows_keep [.mem, .rings, .fabric, .res, .xlat, .disc, .host, .post, .power, .time, .out, .spdm] rfl,
    row_keeps [.mem, .rings, .fabric, .res, .xlat, .disc, .power, .time, .spdm, .fns, .hostPorts, .lbs, .fw, .maps] rfl,
    rows_keep [.mem, .rings, .fabric, .res, .xlat, .disc, .mgmt, .host, .post, .power, .time] rfl,
    fun _ => rows_keep [.mem, .rings, .fabric, .res, .xlat, .disc, .host, .post, .power, .time, .spdm] rfl,
    fun _ => row_keeps [.mem, .rings, .fabric, .res, .xlat, .disc, .time, .spdm, .hostPorts, .fw, .maps] rfl,
    fun _ => row_keeps [.spdm, .maps, .rackTime] rfl,
    fun _ => row_keeps [.mem, .rings, .fabric, .res, .xlat, .disc, .mgmt, .host, .post, .time] rfl,
    fun _ => row_keeps [.mem, .rings, .fabric, .res, .xlat, .disc, .host, .post, .time, .spdm] rfl,
    fun _ _ => row_keeps [.mem, .rings, .fabric, .res, .xlat, .disc, .host, .post, .power, .time, .spdm] rfl,
    rows_keep [.mem, .rings, .fabric, .res, .xlat, .disc, .host, .post, .power, .time, .spdm] rfl,
    fun _ => row_keeps [.mem, .rings, .fabric, .res, .xlat, .disc, .host, .post, .power, .time, .spdm] rfl,
    fun _ _ => row_keeps [.mem, .rings, .fabric, .res, .xlat, .disc, .host, .power, .time, .spdm, .lbs, .maps, .journal] rfl,
    fun _ _ => row_keeps [.mem, .rings, .res, .xlat, .disc, .power, .time, .active, .staged, .ports, .spdm, .fns, .hostPorts, .lbs, .fw,
      .maps] rfl,
    rows_keep [.mem, .rings, .fabric, .res, .xlat, .disc, .host, .power, .time, .spdm, .lbs, .maps, .journal] rfl,
    fun _ _ => row_keeps [.mem, .rings, .active, .staged, .ports, .launches, .phs, .disc, .power, .time, .maps] rfl,
    row_keeps [.mem, .rings, .fabric, .res, .xlat, .disc, .host, .power, .time, .out, .spdm, .lbs, .maps, .journal] rfl,
    fun _ => rows_keep [.mem, .rings, .fabric, .res, .xlat, .disc, .host, .post, .power, .time] rfl,
    fun _ _ _ => row_keeps [.mem, .rings, .fabric, .res, .xlat, .disc, .host, .post, .power, .time] rfl,
    fun _ _ _ _ => row_keeps [.mem, .rings, .fabric, .res, .xlat, .disc, .host, .post, .power, .time, .spdm] rfl,
    fun _ _ _ => rows_keep [.mem, .rings, .fabric, .res, .xlat, .disc, .host, .post, .power, .time, .spdm] rfl,
    fun _ _ _ => row_keeps [.mem, .rings, .fabric, .res, .xlat, .disc, .host, .post, .power, .time, .spdm] rfl⟩

end Sys2Proof.Frames
end

section
/-! SUPPORT. Commands that name no existing unit (assumption 7): what each guard of the model answers outside its range, and with them the
statement that such a command changes nothing. -/

namespace Sys2Proof.Frames

open Sys2Proof.Machine Sys2Proof.Safety Sys2Proof.Laws

set_option Elab.async false

variable {s : State} {r : Res}

/-! ### The guards outside their ranges -/

theorem ite_out {c : Prop} [Decidable c] (h : decide c = false) : (if c then r else .next s) = .next s := if_neg (of_decide_eq_false h)

theorem bool_out {b : Bool} (h : b = false) : (if b then r else .next s) = .next s := by rw [h]; rfl

theorem le_out {a b : Nat} (h : decide (a < b) = false) : (if b ≤ a then .next s else r) = .next s :=
  if_pos (Nat.le_of_not_lt (of_decide_eq_false h))

theorem not_out {b : Bool} (h : b = false) : (if !b then .next s else r) = .next s := by rw [h]; rfl

theorem runCmd_out {op lb : Nat} {sel : List Byte → Bool} {f : Cmd} (h : decide (lb < 128) = false) : runCmd op sel f lb s = .next s :=
  le_out h

/-- What goes on after a command outside the letterboxes changes nothing either, where it asks for the running command. -/
theorem runningFresh_out {lb op : Nat} (h : decide (lb < 128) = false) : runningFresh s lb op = false := by
  simp [runningFresh, h]

theorem runThen_out {op lb : Nat} {f : Cmd} {after : List Byte → State → State} (h : decide (lb < 128) = false) :
    runThen op f after lb s = .next s := by
  simp [runThen, runCmd_out h, runningFresh_out h]

theorem diag_out {n lb : Nat} {states : PortState → Bool} {param : Nat → Bool} {f : Nat → Nat → Nat → State → CmdOut}
    (h : decide (lb < 128) = false) : diag n states param f lb s = .next s := runCmd_out h

theorem onLetterbox_out {lb : Nat} {f : State → State} (h : decide (lb < 128) = false) : onLetterbox lb f s = .next s := ite_out h

theorem onFunction_out {port fn : Nat} {f : Nat → State → State} (h : ringReg port fn = false) : onFunction port fn f s = .next s :=
  bool_out h

theorem onRingPage_out {port fn page : Nat} {f : Nat → State → State} (h : ringReg port fn = false) :
    onRingPage port fn page f s = .next s := not_out h

theorem onHostSide_out {port : Nat} {f : State → State} (h : decide (port < 2) = false) : onHostSide port f s = .next s := ite_out h

theorem onRead_out {port tag : Nat} {f : HostRead → State → State} {g : State → State} (h : decide (port < 2) = false) :
    onRead port tag f g s = .next s := onHostSide_out h

theorem onInput_out {input : Nat} {f : State → State} (h : decide (input < 2) = false) : onInput input f s = .next s := ite_out h

theorem runPort_out {p : Nat} {f : State → State} (h : decide (p < 96) = false) : runPort p f s = .next s := ite_out h

theorem runLane_out {p l : Nat} {f : State → State} (h : (decide (p < 96) && decide (l < 4)) = false) : runLane p l f s = .next s := by
  rcases Bool.and_eq_false_iff.1 h with hp | hl
  · exact (congrArg (ite _ · _) (runPort_out hp)).trans (ite_self _)
  · exact ite_out hl

theorem onDiscovery_out {op p : Nat} {bytes : List Byte} (h : decide (p < 96) = false) : onDiscovery op p bytes s = .next s := runPort_out h

theorem onSelectEngine_out {die engine : Nat} {f : State → State} (h : (decide (die < 84) && decide (engine < 2)) = false) :
    onSelectEngine die engine f s = .next s := if_pos (by simp at h; omega)

theorem onDesc_out {ring count ty : Nat} {f : Machine.Started → State → State} (h : validRing ring = false) :
    onDesc ring count ty f s = .next s := not_out h

theorem onUnsettled_out {ring count : Nat} {f : Machine.Started → State → State} (h : validRing ring = false) :
    onUnsettled ring count f s = .next s := not_out h

theorem onPigeonhole_out {p : Nat} {f : Ph → State → State} (h : decide (p < 4096) = false) : onPigeonhole p f s = .next s := le_out h

theorem onTransport_out {t : Nat} {f : State → State} (h : decide (t < 3) = false) : onTransport t f s = .next s := ite_out h

theorem onTapRow_out {t : Nat} {f : State → State} (h : decide (t < 16) = false) : onTapRow t f s = .next s := ite_out h

/-! ### The rows -/

/-- Settles O41: a row's guard answers the state as it is outside its range. -/
theorem illFormedCommandsChangeNothing : Obligations.IllFormedCommandsChangeNothing := by
  unfold Obligations.IllFormedCommandsChangeNothing
  intro i s h
  cases i with
  | nop lb => exact (runCmd_out h : execNop lb s = _)
  | getVersion lb => exact (runCmd_out h : execGetVersion lb s = _)
  | getModuleInfo lb => exact (runCmd_out h : execGetModuleInfo lb s = _)
  | fnSetQuota lb => exact (runCmd_out h : execFnSetQuota lb s = _)
  | fnQuery lb => exact (runCmd_out h : execFnQuery lb s = _)
  | ringAlloc lb => exact (runCmd_out h : execRingAlloc lb s = _)
  | ringFree lb => exact (runCmd_out h : execRingFree lb s = _)
  | ringBind lb => exact (runCmd_out h : execRingBind lb s = _)
  | ringConfig lb => exact (runCmd_out h : execRingConfig lb s = _)
  | ringSetPhysical lb => exact (runCmd_out h : execRingSetPhysical lb s = _)
  | ringStart lb => exact (runCmd_out h : execRingStart lb s = _)
  | ringQuery lb => exact (runCmd_out h : execRingQuery lb s = _)
  | ringAckLoss lb => exact (runCmd_out h : execRingAckLoss lb s = _)
  | ringModerate lb => exact (runCmd_out h : execRingModerate lb s = _)
  | ctxCreate lb => exact (runCmd_out h : execCtxCreate lb s = _)
  | ctxDestroy lb => exact (runCmd_out h : execCtxDestroy lb s = _)
  | unpinRange lb => exact (runCmd_out h : execUnpinRange lb s = _)
  | keyClear lb => exact (runCmd_out h : execKeyClear lb s = _)
  | hotpageConfig lb => exact (runCmd_out h : execHotpageConfig lb s = _)
  | imageDrop lb => exact (runCmd_out h : execImageDrop lb s = _)
  | imageQuery lb => exact (runCmd_out h : execImageQuery lb s = _)
  | phCreate lb => exact (runCmd_out h : execPhCreate lb s = _)
  | phClaim lb => exact (runCmd_out h : execPhClaim lb s = _)
  | phRelease lb => exact (runCmd_out h : execPhRelease lb s = _)
  | phEvict lb => exact (runCmd_out h : execPhEvict lb s = _)
  | phQuery lb => exact (runCmd_out h : execPhQuery lb s = _)
  | freeMapRead lb => exact (runCmd_out h : execFreeMapRead lb s = _)
  | routeStage lb => exact (runCmd_out h : execRouteStage lb s = _)
  | routeCommit lb => exact (runCmd_out h : execRouteCommit lb s = _)
  | routeRead lb => exact (runCmd_out h : execRouteRead lb s = _)
  | routeSetDefine lb => exact (runCmd_out h : execRouteSetDefine lb s = _)
  | deflectLimit lb => exact (runCmd_out h : execDeflectLimit lb s = _)
  | portQuery lb => exact (runCmd_out h : execPortQuery lb s = _)
  | portSetWidth lb => exact (runCmd_out h : execPortSetWidth lb s = _)
  | portSpare lb => exact (runCmd_out h : execPortSpare lb s = _)
  | portDisable lb => exact (runCmd_out h : execPortDisable lb s = _)
  | portEnable lb => exact (runCmd_out h : execPortEnable lb s = _)
  | portRetrain lb => exact (runCmd_out h : execPortRetrain lb s = _)
  | discoveryStart lb => exact (runCmd_out h : execDiscoveryStart lb s = _)
  | powerRequest lb => exact (runCmd_out h : execPowerRequest lb s = _)
  | powerQuery lb => exact (runCmd_out h : execPowerQuery lb s = _)
  | frondClockSet lb => exact (runCmd_out h : execFrondClockSet lb s = _)
  | govWeightSet lb => exact (runCmd_out h : execGovWeightSet lb s = _)
  | rackTimeSet lb => exact (runCmd_out h : execRackTimeSet lb s = _)
  | rackTimeQuery lb => exact (runCmd_out h : execRackTimeQuery lb s = _)
  | selftestReportRead lb => exact (runCmd_out h : execSelftestReportRead lb s = _)
  | journalRead lb => exact (runCmd_out h : execJournalRead lb s = _)
  | journalAppend lb => exact (runCmd_out h : execJournalAppend lb s = _)
  | repairMapRead lb => exact (runCmd_out h : execRepairMapRead lb s = _)
  | repairMapAdd lb mramOk => exact (runCmd_out h : execRepairMapAdd lb mramOk s = _)
  | repairMapDelete lb mramOk => exact (runCmd_out h : execRepairMapDelete lb mramOk s = _)
  | tileRetire lb => exact (runCmd_out h : execTileRetire lb s = _)
  | frondFence lb => exact (runCmd_out h : execFrondFence lb s = _)
  | frondRetest lb outcome => exact (runCmd_out h : execFrondRetest lb outcome s = _)
  | countersRead lb => exact (runCmd_out h : execCountersRead lb s = _)
  | moduleReset lb => exact (runCmd_out h : execModuleReset lb s = _)
  | fwQuery lb => exact (runCmd_out h : execFwQuery lb s = _)
  | fwVerify lb => exact (runCmd_out h : execFwVerify lb s = _)
  | fwActivateAtReset write => exact (runCmd_out h : execFwActivateAtReset write s = _)
  | ctxSetRoot lb => exact (runThen_out h : execCtxSetRoot lb s = _)
  | tlbInvalidate lb => exact (runThen_out h : execTlbInvalidate lb s = _)
  | tlbInvalidateBcast lb => exact (runThen_out h : execTlbInvalidateBcast lb s = _)
  | tableSync lb => exact (runThen_out h : execTableSync lb s = _)
  | pinRange lb => exact (runThen_out h : execPinRange lb s = _)
  | status lb => exact (diag_out h : execStatus lb s = _)
  | diagEnter lb => exact (diag_out h : execDiagEnter lb s = _)
  | txTapsSet lb => exact (diag_out h : execTxTapsSet lb s = _)
  | prbsGen lb => exact (diag_out h : execPrbsGen lb s = _)
  | prbsCheck lb => exact (diag_out h : execPrbsCheck lb s = _)
  | prbsRead lb stream words bitLock => exact (diag_out h : execPrbsRead lb stream words bitLock s = _)
  | patternLow lb => exact (diag_out h : execPatternLow lb s = _)
  | patternHigh lb => exact (diag_out h : execPatternHigh lb s = _)
  | capture lb words => exact (diag_out h : execCapture lb words s = _)
  | bitSlip lb => exact (diag_out h : execBitSlip lb s = _)
  | loopback lb => exact (diag_out h : execLoopback lb s = _)
  | eyeSummary lb eyes => exact (diag_out h : execEyeSummary lb eyes s = _)
  | eyeScan lb errors => exact (diag_out h : execEyeScan lb errors s = _)
  | rateLimit lb => exact (diag_out h : execRateLimit lb s = _)
  | lbDoorbell lb value => exact (onLetterbox_out h : execLbDoorbell lb value s = _)
  | lbAbort lb value => exact (onLetterbox_out h : execLbAbort lb value s = _)
  | lbResultClear lb value hwSet => exact (onLetterbox_out h : execLbResultClear lb value hwSet s = _)
  | configRequest port fn write reg value => exact (onFunction_out h : execConfigRequest port fn write reg value s = _)
  | busMasterEnableClear port fn => exact (onFunction_out h : execBusMasterEnableClear port fn s = _)
  | busMasterEnableSet port fn => exact (onFunction_out h : execBusMasterEnableSet port fn s = _)
  | initiateFlr port fn => exact (onFunction_out h : execInitiateFlr port fn s = _)
  | flrReadsDone port fn => exact (onFunction_out h : execFlrReadsDone port fn s = _)
  | d3hotEntry port fn => exact (onFunction_out h : execD3hotEntry port fn s = _)
  | d0Return port fn => exact (onFunction_out h : execD0Return port fn s = _)
  | priEnableToggle port fn => exact (onFunction_out h : execPriEnableToggle port fn s = _)
  | atsInvalidationRequest port fn pasid va length => exact (onFunction_out h : execAtsInvalidationRequest port fn pasid va length s = _)
  | pageResponse port fn index code => exact (onFunction_out h : execPageResponse port fn index code s = _)
  | pageResponseTimeout port fn index => exact (onFunction_out h : execPageResponseTimeout port fn index s = _)
  | ringDoorbell port fn page value => exact (onRingPage_out h : execRingDoorbell port fn page value s = _)
  | ringCqConsumed port fn page value => exact (onRingPage_out h : execRingCqConsumed port fn page value s = _)
  | hostPortTraining port => exact (onHostSide_out h : execHostPortTraining port s = _)
  | perstAssert port => exact (onHostSide_out h : execPerstAssert port s = _)
  | hostLinkDown port => exact (onHostSide_out h : execHostLinkDown port s = _)
  | vfEnableSet port => exact (onHostSide_out h : execVfEnableSet port s = _)
  | vfEnableClear port => exact (onHostSide_out h : execVfEnableClear port s = _)
  | malformedTlp port => exact (onHostSide_out h : execMalformedTlp port s = _)
  | hostReadCompletion port tag status data => exact (onRead_out h : execHostReadCompletion port tag status data s = _)
  | completionTimeout port tag => exact (onRead_out h : execCompletionTimeout port tag s = _)
  | poisonedCompletion port tag data => exact (onRead_out h : execPoisonedCompletion port tag data s = _)
  | unexpectedCompletion port tag => exact (onRead_out h : execUnexpectedCompletion port tag s = _)
  | busBarInputFail input => exact (onInput_out h : execBusBarInputFail input s = _)
  | readyTimer port => exact (runPort_out h : execReadyTimer port s = _)
  | trainingTimeout port => exact (runPort_out h : execTrainingTimeout port s = _)
  | fallbackIdleEnd port => exact (runPort_out h : execFallbackIdleEnd port s = _)
  | backoffAttempt port => exact (runPort_out h : execBackoffAttempt port s = _)
  | keepaliveReturnCheck port bitLocked => exact (runPort_out h : execKeepaliveReturnCheck port bitLocked s = _)
  | flitSend port => exact (runPort_out h : execFlitSend port s = _)
  | replayTimerExpiry port => exact (runPort_out h : execReplayTimerExpiry port s = _)
  | linkControlRepeat port => exact (runPort_out h : execLinkControlRepeat port s = _)
  | cap port body roundTripNs => exact (runPort_out h : execCap port body roundTripNs s = _)
  | start port => exact (runPort_out h : execStart port s = _)
  | narrow port mask => exact (runPort_out h : execNarrow port mask s = _)
  | narrowAck port mask => exact (runPort_out h : execNarrowAck port mask s = _)
  | narrowTimeout port => exact (runPort_out h : execNarrowTimeout port s = _)
  | kaEnter port => exact (runPort_out h : execKaEnter port s = _)
  | kaAck port => exact (runPort_out h : execKaAck port s = _)
  | kaEnterTimeout port => exact (runPort_out h : execKaEnterTimeout port s = _)
  | kaExit port => exact (runPort_out h : execKaExit port s = _)
  | escapeCreditStall port => exact (runPort_out h : execEscapeCreditStall port s = _)
  | beacon port lane word => exact (runLane_out h : execBeacon port lane word s = _)
  | trainingFrame port lane control status ownTrained => exact (runLane_out h : execTrainingFrame port lane control status ownTrained s = _)
  | alignmentMarker port lane marker => exact (runLane_out h : execAlignmentMarker port lane marker s = _)
  | losAssert port lane => exact (runLane_out h : execLosAssert port lane s = _)
  | losClear port lane => exact (runLane_out h : execLosClear port lane s = _)
  | lossOfLock port lane => exact (runLane_out h : execLossOfLock port lane s = _)
  | laneErrorThreshold port lane uncorrectable => exact (runLane_out h : execLaneErrorThreshold port lane uncorrectable s = _)
  | hello port packet => exact (onDiscovery_out h : execHello port packet s = _)
  | report port packet => exact (onDiscovery_out h : execReport port packet s = _)
  | assign port packet => exact (onDiscovery_out h : execAssign port packet s = _)
  | assignAck port packet => exact (onDiscovery_out h : execAssignAck port packet s = _)
  | commit port packet => exact (onDiscovery_out h : execCommit port packet s = _)
  | fail port packet => exact (onDiscovery_out h : execFail port packet s = _)
  | parkExpiry die engine index => exact (onSelectEngine_out h : execParkExpiry die engine index s = _)
  | mergeContextExpiry die engine group => exact (onSelectEngine_out h : execMergeContextExpiry die engine group s = _)
  | nopDescriptor ring count => exact (onDesc_out h : execNopDescriptor ring count s = _)
  | copy ring count => exact (onDesc_out h : execCopy ring count s = _)
  | atomic ring count => exact (onDesc_out h : execAtomic ring count s = _)
  | select ring count => exact (onDesc_out h : execSelect ring count s = _)
  | spectral ring count => exact (onDesc_out h : execSpectral ring count s = _)
  | launch ring count => exact (onDesc_out h : execLaunch ring count s = _)
  | tallyWait ring count => exact (onDesc_out h : execTallyWait ring count s = _)
  | tallyWaitTimeout ring count => exact (onDesc_out h : execTallyWaitTimeout ring count s = _)
  | tallySet ring count => exact (onDesc_out h : execTallySet ring count s = _)
  | tallySetTimeout ring count => exact (onDesc_out h : execTallySetTimeout ring count s = _)
  | relayTimeout ring count => exact (onDesc_out h : execRelayTimeout ring count s = _)
  | receiptTimeout ring count => exact (onUnsettled_out h : execReceiptTimeout ring count s = _)
  | unreachableTimeout ring count => exact (onUnsettled_out h : execUnreachableTimeout ring count s = _)
  | residencyTargetReached pigeonhole => exact (onPigeonhole_out h : execResidencyTargetReached pigeonhole s = _)
  | phCreateTimeout pigeonhole => exact (onPigeonhole_out h : execPhCreateTimeout pigeonhole s = _)
  | loadCancel pigeonhole => exact (onPigeonhole_out h : execLoadCancel pigeonhole s = _)
  | loadReadTimeout pigeonhole record => exact (onPigeonhole_out h : execLoadReadTimeout pigeonhole record s = _)
  | stampError pigeonhole => exact (onPigeonhole_out h : execStampError pigeonhole s = _)
  | spdmGetVersion transport => exact (onTransport_out h : execSpdmGetVersion transport s = _)
  | spdmGetCapabilities transport => exact (onTransport_out h : execSpdmGetCapabilities transport s = _)
  | spdmNegotiateAlgorithms transport ecdsaP384 sha384 => exact (onTransport_out h : execSpdmNegotiateAlgorithms transport ecdsaP384 sha384 s = _)
  | spdmGetDigests transport => exact (onTransport_out h : execSpdmGetDigests transport s = _)
  | spdmGetCertificate transport slot offset length => exact (onTransport_out h : execSpdmGetCertificate transport slot offset length s = _)
  | spdmChallenge transport slot nonce => exact (onTransport_out h : execSpdmChallenge transport slot nonce s = _)
  | spdmGetMeasurements transport index nonce => exact (onTransport_out h : execSpdmGetMeasurements transport index nonce s = _)
  | idcode tap => exact (onTapRow_out h : execIdcode tap s = _)
  | samplePreload tap pins preload => exact (onTapRow_out h : execSamplePreload tap pins preload s = _)
  | extest tap => exact (onTapRow_out h : execExtest tap s = _)
  | extestPulse tap => exact (onTapRow_out h : execExtestPulse tap s = _)
  | extestTrain tap => exact (onTapRow_out h : execExtestTrain tap s = _)
  | clamp tap => exact (onTapRow_out h : execClamp tap s = _)
  | highz tap => exact (onTapRow_out h : execHighz tap s = _)
  | bypass tap code => exact (onTapRow_out h : execBypass tap code s = _)
  | inputUndervoltage input => exact (ite_out h : execInputUndervoltage input s = _)
  | commandStart lb => exact (ite_out h : execCommandStart lb s = _)
  | moderationTimer ring => exact (ite_out h : execModerationTimer ring s = _)
  | edgeDieFailure edge => exact (ite_out h : execEdgeDieFailure edge s = _)
  | overvoltageTrip input millivolts => exact (ite_out h : execOvervoltageTrip input millivolts s = _)
  | controlInject point => exact (bool_out h : execControlInject point s = _)
  | routeDecision die router => exact (bool_out h : execRouteDecision die router s = _)
  | seamCrossing die output => exact (bool_out h : execSeamCrossing die output s = _)
  | descriptorFetch ring => exact (bool_out h : execDescriptorFetch ring s = _)
  | descriptorStart ring => exact (bool_out h : execDescriptorStart ring s = _)
  | descriptorSettle ring => exact (bool_out h : execDescriptorSettle ring s = _)
  | sramScrub die word found => exact (bool_out h : execSramScrub die word found s = _)
  | eccThreshold die => exact (bool_out h : execEccThreshold die s = _)
  | contactImbalance die withinLimits => exact (bool_out h : execContactImbalance die withinLimits s = _)
  | thermalTrip die celsius => exact (bool_out h : execThermalTrip die celsius s = _)
  | escapeDrainAlarm die => exact (bool_out h : execEscapeDrainAlarm die s = _)
  | doeObject port type body => exact (le_out h : execDoeObject port type body s = _)
  | clockLockFail frond retryOk => exact (le_out h : execClockLockFail frond retryOk s = _)
  | stewardSubmit core array descriptor => exact (le_out h : execStewardSubmit core array descriptor s = _)
  | launchGrant pigeonhole launch => exact (le_out h : execLaunchGrant pigeonhole launch s = _)
  | cryptoSelfCheck frond passed => exact (le_out h : execCryptoSelfCheck frond passed s = _)
  | thermalLimitDecrease frond => exact (le_out h : execThermalLimitDecrease frond s = _)
  | thermalLimitIncrease frond => exact (le_out h : execThermalLimitIncrease frond s = _)
  | stewardCoreAccess core write address bytes => exact (le_out h : execStewardCoreAccess core write address bytes s = _)
  | stewardCoreException core => exact (le_out h : execStewardCoreException core s = _)
  | broadcastAnswerTimeout lb => exact (le_out h : execBroadcastAnswerTimeout lb s = _)
  | holdDiscard die index => exact (not_out h : execHoldDiscard die index s = _)
  | intEventVector port fn value => exact (not_out h : execIntEventVector port fn value s = _)
  | intSelect port fn value => exact (not_out h : execIntSelect port fn value s = _)
  | tableWalk unit walk => exact (not_out h : execTableWalk unit walk s = _)
  | hotpageWindowEnd port fn context => exact (not_out h : execHotpageWindowEnd port fn context s = _)
  | ringStop lb =>
    show execRingStop lb s = _
    simp [execRingStop, runCmd_out h, runningFresh_out h]
  | keyLoad lb =>
    show execKeyLoad lb s = _
    simp [execKeyLoad, runCmd_out h, runningFresh_out h]
  | imageLoad lb =>
    show execImageLoad lb s = _
    simp [execImageLoad, runCmd_out h, runningFresh_out h]
  | phStop lb =>
    show execPhStop lb s = _
    simp [execPhStop, runCmd_out h, runningFresh_out h]
  | fwStage lb mramOk =>
    show execFwStage lb mramOk s = _
    simp [execFwStage, runCmd_out h, runningFresh_out h]
  | agentReload lb =>
    show execAgentReload lb s = _
    rw [execAgentReload, runCmd_out h]
    exact congrArg _ (if_pos (.inl (Nat.le_of_not_lt (of_decide_eq_false h))))
  | msixUnmask port fn what =>
    show execMsixUnmask port fn what s = _
    unfold execMsixUnmask
    rcases Bool.and_eq_false_iff.1 h with h | h
    · rw [onFunction_out h]
      exact ite_self _
    · cases what with
      | vector v => exact if_pos (by simpa [unmaskWf] using h)
      | _ => exact nomatch h
  | badSizeAccess port fn bar offset size write =>
    show execBadSizeAccess port fn bar offset size write s = _
    rcases Bool.and_eq_false_iff.1 h with h | h
    · rw [execBadSizeAccess, onFunction_out h, ite_self]
    · exact if_pos (by simpa using h)
  | registerWrite port fn bar offset size value hwSet =>
    show execRegisterWrite port fn bar offset size value hwSet s = _
    rcases Bool.and_eq_false_iff.1 h with h | h
    · rw [execRegisterWrite, onFunction_out h, ite_self]
    · exact if_pos (by simpa using h)
  | lbFrameWrite lb offset size value =>
    have hlb : ¬ lb < 128 := of_decide_eq_false h
    show execLbFrameWrite lb offset size value s = _
    simp [execLbFrameWrite, onLetterbox, hlb]
  | fwActivateLive lb ok2 ok4 =>
    show execFwActivateLive lb ok2 ok4 s = _
    rw [execFwActivateLive, runCmd_out h, ite_self]
  | failover lb =>
    show execFailover lb s = _
    rw [execFailover, runCmd_out h, ite_self]
  | powerMonitorFail frond =>
    cases frond with
    | none => exact nomatch h
    | some f => exact (le_out h : execPowerMonitorFail (some f) s = _)
  | lockFecWindow port u skew locked =>
    show execLockFecWindow port u skew locked s = _
    rcases Bool.and_eq_false_iff.1 h with h | h
    · rw [execLockFecWindow, runPort_out h, ite_self]
    · exact ite_out h
  | injectionStart die router pid => exact (bool_out h : execInjectionStart die router pid s = _)
  | msixTableWrite port fn vector field value =>
    show execMsixTableWrite port fn vector field value s = _
    rcases Bool.and_eq_false_iff.1 h with h | h
    · exact not_out h
    · rw [execMsixTableWrite, le_out h, ite_self]
  | ringError ring reason =>
    show execRingError ring reason s = _
    rcases Bool.and_eq_false_iff.1 h with h | h
    · exact if_pos (.inl (Nat.le_of_not_lt (of_decide_eq_false h)))
    · rw [execRingError, ite_out h, ite_self]
  | tileCoreAccess frond tile write offset bytes =>
    show execTileCoreAccess frond tile write offset bytes s = _
    exact if_pos (by simp [Instr.wf] at h; omega)
  | tileFault launch tile code =>
    show execTileFault launch tile code s = _
    exact if_pos (by simp [Instr.wf] at h; omega)
  | linkKeyPhaseExpiry slot =>
    show execLinkKeyPhaseExpiry slot s = _
    exact if_pos (by simp [Instr.wf] at h; omega)
  | tileAutoRetire frond tile =>
    show execTileAutoRetire frond tile s = _
    exact if_neg (by simp [Instr.wf] at h; omega)
  | wireFailure die link group wire =>
    show execWireFailure die link group wire s = _
    exact if_neg (by simp [Instr.wf] at h ⊢; grind)
  | parityError kind die index =>
    show execParityError kind die index s = _
    exact if_neg (by simpa [Instr.wf] using h)
  | engineError frond unit =>
    show execEngineError frond unit s = _
    rcases Bool.and_eq_false_iff.1 h with h | h
    · exact if_pos (.inl (Nat.le_of_not_lt (of_decide_eq_false h)))
    · exact if_pos (.inr (by simpa using h))
  | laserFailure port lane =>
    show execLaserFailure port lane s = _
    rcases Bool.and_eq_false_iff.1 h with h | h
    · rw [execLaserFailure, runLane_out h, ite_self]
    · exact if_pos (by simpa using h)
  | correctableLinkError port kind =>
    show execCorrectableLinkError port kind s = _
    rcases Bool.and_eq_false_iff.1 h with h | h
    · rw [execCorrectableLinkError, onHostSide_out h, ite_self]
    · exact le_out h
  | payloadFlitReceive port received u =>
    show execPayloadFlitReceive port received u s = _
    rcases Bool.and_eq_false_iff.1 h with h | h
    · exact runPort_out h
    · cases received with
      | flit bytes => exact nomatch h
      | symbols lane values =>
        simp only [execPayloadFlitReceive, runPort, h]
        exact ite_self _
  | inputPowerUp | coldReset | mctpWatchdogExpiry | heartbeatWatchdogExpiry | enableAssert | enableDeassert | powerupPhaseB
  | selftestWave | selftestRetryPass | powerupVerdict | phaseCTimeout | postmasterHeartbeat | unplannedFailover | e0Restart
  | governorTransition | entryLaunchesEnded | entryRingsStopped | entryInflightZero | waitLimitExpiry | exitSequence | budgetUpdate
  | governorTick | fastGuard | ppsEdge | ppsMissing | referenceLoss | holdoverExpiry | referenceReturn | slewEnd | timebaseFailover
  | landingWaitExpiry | escapeWaitExpiry | bankSwap | commitDrainTimeout | dataPacketDelivery | readRequestPacket | readResponsePacket
  | atomicPacket | atomicResponsePacket | receipt | refusal | tallySetPacket | tallySetAck | phStopPacket | phStopDone | invalidate
  | invalidateDone | relay | relayDone | stewardIrq | partialListArrival | streamReadTimeout | launchEnd | entryTimeLimit
  | journalFlush | thermalSample | shutdownPowerOff | cooldownExpiry | helloSend | electionQuiet | rootCompute | commitTime
  | discoveryStepTimeout | mctpSetEndpointId | mctpGetEndpointId | mctpGetEndpointUuid | mctpGetVersionSupport
  | mctpGetMessageTypeSupport | mctpGetVendorMsgSupport | vendorDefinedMessage | setdasa | entdaa | rstdaa | busHeldLow | getPdr
  | getPdrRepositoryInfo | getSensorReading | setTid | getStateSensorReadings | powerStateEffecter | resetEffecter | safeStateEffecter
  | latchClearEffecter | getStateEffecterStates | setEventReceiver | pollForPlatformEventMessage | queryDeviceIdentifiers
  | getFirmwareParameters | requestUpdate | passComponentTable | updateComponent | requestFirmwareData | transferComplete
  | verifyComplete | applyComplete | activateFirmware | getStatus | cancelUpdateComponent | cancelUpdate | updateIdleTimeout
  | supervisorReadByte | testLogicReset | operatorLibraryCall | standbyLost | rackTimeSetTimeout | transitionTimeout | sensorUpdate => exact nomatch h

end Sys2Proof.Frames
end

section
/-! SUPPORT. A RING_STOP that was aborted before it acted: the stops that its letterbox waits for go on without it (R125), on every ring. -/

namespace Sys2Proof.Frames

open Sys2Proof.Machine Sys2Proof.Safety

/-- A letterbox with a started RING_STOP of ring 3 whose abort has come, and a ring 5 that the same letterbox is marked as stopping. -/
def stopOfTwo : State :=
  onLb 0 (fun _ => { state := .running, abort := true, cmd := putTab [] 0 (leBytes 2 0x107 ++ leBytes 6 0 ++ leBytes 2 2 ++ leBytes 6 0 ++ [3, 0]) })
    (onRing 5 (fun g => { g with stopLb := some 0 }) (onRing 3 (fun g => { g with state := .running }) {}))

/-- Refutes O54: the aborted RING_STOP of ring 3 takes ring 5's mark away too. -/
theorem not_otherRingsAndLetterboxesStay : ¬ Obligations.OtherRingsAndLetterboxesStay := by
  unfold Obligations.OtherRingsAndLetterboxesStay
  rintro ⟨-, -, -, -, hstop, -⟩
  have h := congrArg Ring.stopLb (hstop stopOfTwo _ 0 5 rfl (by decide))
  exact absurd h (by decide +kernel)

end Sys2Proof.Frames
end

section
/-! SUPPORT. A read request among the packets that a die holds. Delivery lets a held packet go by its op alone, and writes the body of every one that is not an
atomic and not a list; the range of a read request (`touched`) is what it asks to read, so the bytes written lie outside it. -/

namespace Sys2Proof.Frames

open Sys2Proof.Machine Sys2Proof.Safety Sys2Proof.Laws Sys2Proof.Tests

/-- A read request of no byte whose body holds sevens. -/
def readOfNothing : Pkt :=
  { writePkt 0 false with op := 1, offset := 0xFFF00, body := List.replicate 2 0 ++ List.replicate 62 7 }

/-- The die of an arriving write holds that read request. -/
def holdsRead : State :=
  onDie 1 (fun x => { x with holds := [{ pkt := readOfNothing, loc := .eject 1 }] }) (arrived (writePkt 0 false) .none (unlocked {}))

/-- A byte behind the read request's offset. -/
def cellOfRead : Nat := scratchKey 1 0 0xFFF05

/-- An executable form of the clause that fails: the write is delivered, and the byte behind the read request's offset changes. -/
theorem delivery_writes_heldRead :
    (match exec (.dataPacketDelivery 9) holdsRead with
      | .next t => t.mem.get cellOfRead != holdsRead.mem.get cellOfRead
      | _ => false) = true := by decide +kernel

theorem ok_of_toOption {ε α : Type} {e : Except ε α} {x : α} (h : e.toOption = some x) : e = .ok x := by
  cases e with
  | error r => exact nomatch h
  | ok y => exact congrArg Except.ok (Option.some.inj h)

/-- Refutes O55: a delivered write lets the held read request go, which stores its body though it names no byte. -/
theorem not_storesReachOnlyTheirBytes : ¬ Obligations.StoresReachOnlyTheirBytes := by
  unfold Obligations.StoresReachOnlyTheirBytes
  rintro ⟨hdel, -⟩
  have hrun := delivery_writes_heldRead
  split at hrun
  next t ht =>
    have heq := hdel 9 holdsRead t { pkt := writePkt 0 false, loc := .eject 1 } 1 (writePkt 0 false) cellOfRead _
      (List.mem_cons_self ..) (by decide +kernel) rfl
      (ok_of_toOption (by decide +kernel)) (by decide +kernel) ht (by decide +kernel) (by decide +kernel)
    simp [heq] at hrun
  · exact absurd hrun (by decide)

end Sys2Proof.Frames
end

section
/-! SUPPORT. A step: with a command it runs the command, without one it lets one reference period pass; and the values at reset. -/

namespace Sys2Proof.Rows

open Sys2Proof.Machine Sys2Proof.Safety Sys2Proof.Laws Sys2Proof.Frames

set_option Elab.async false

/-- Settles O33: the queue is not empty. -/
theorem stepRunsFront : Obligations.StepRunsFront := by
  intro c rest s h
  simp only [step, h]

/-- `t` differs from `s`, of the fabric, only in what its dies have counted as time. -/
def OnlyWaits (s t : State) : Prop :=
  t.fabric = { s.fabric with dies := t.fabric.dies } ∧ ∀ d, dieOf t d = { dieOf s d with waits := (dieOf t d).waits }

theorem onlyWaits_fabricTick (s : State) : OnlyWaits s (fabricTick s) := by
  refine updates_inv (OnlyWaits s) _ (fun a t h => ?_) _ _ ⟨rfl, fun _ => rfl⟩
  obtain ⟨hfabric, hdies⟩ := h
  refine ⟨by rw [onDie_fabric, hfabric], fun d => ?_⟩
  by_cases hd : d = a.1
  · rw [hd, dieOf_onDie, hdies a.1]
  · rw [dieOf_onDie_ne _ _ _ _ hd]
    exact hdies d

/-- Time passes in the fabric's dies and in the time base; the time base keeps the fabric. -/
theorem onlyWaits_idleTick (s : State) : OnlyWaits s (idleTick s) := by
  have h : OnlyWaits s (if postUp s then fabricTick s else s) := by
    split
    · exact onlyWaits_fabricTick s
    · exact ⟨rfl, fun _ => rfl⟩
  have hfabric : (idleTick s).fabric = (if postUp s then fabricTick s else s).fabric := timeTick_touches.keeps [.fabric] rfl
  simpa only [OnlyWaits, dieOf, hfabric] using h

/-- Settles O34: without a command a step is `idleTick`, whose footprint spares the components named. -/
theorem stepIdleTicks : Obligations.StepIdleTicks := by
  intro s h
  obtain ⟨hmem, hrings, hxlat, hres, hpower, hfns⟩ :=
    (idleTick_touches (s := s)).keeps [.mem, .rings, .xlat, .res, .power, .fns] rfl
  obtain ⟨hfabric, hdies⟩ := onlyWaits_idleTick s
  exact ⟨by simp only [step, h, idleTick], hmem, hrings, hxlat, hres, hpower, hfns, hfabric, hdies⟩

/-- Settles O35: every table is empty at reset, so a numbered part reads its initial value. -/
theorem resetState : Obligations.ResetState :=
  ⟨rfl, nofun, rfl, rfl, fun _ => ⟨rfl, rfl, rfl, rfl⟩, fun _ => rfl, fun _ _ => rfl, fun _ => ⟨rfl, rfl, rfl, rfl, rfl, rfl⟩, rfl, fun _ => rfl⟩

end Sys2Proof.Rows
end

section
/-! SUPPORT. What the registers of a letterbox do (R111 to R113). -/

namespace Sys2Proof.Rows

open Sys2Proof.Machine Sys2Proof.Safety Sys2Proof.Laws Sys2Proof.Frames Sys2Proof.Proofs

set_option Elab.async false

/-- A doorbell in Idle accepts the command in its order. -/
theorem doorbell_idle {s : State} {lb value : Nat} (hv : bit value 0 = true) (hs : (lbOf s lb).state = .idle) :
    doorbell lb value s = onLb lb (fun l => { l with state := .accepted, order := s.post.nextOrder, phase := .fresh, failover := false })
      (onPost (fun p => { p with nextOrder := s.post.nextOrder + 1 }) s) := by
  simp [doorbell, hv, hs]

theorem exec_lbAbort_open {s : State} {lb : Nat} {value : Nat} (hlb : lb < 128) (ho : barOpen s lb = true) (hv : bit value 0 = true) :
    exec (.lbAbort lb value) s = .next (abortCommand lb s) := by
  change onLetterbox lb _ s = _
  rw [onLetterbox_open _ hlb ho, if_pos hv]

theorem abortCommand_accepted {s : State} {lb : Nat} (hs : (lbOf s lb).state = .accepted) :
    abortCommand lb s = postFrameError lb eAborted s := by
  simp only [abortCommand, hs]

/-- The error of a command that has not started is posted as its result. -/
theorem posted_postFrameError {s : State} {lb e : Nat} (hd : (lbOf s lb).discard = false) (he : e < 65536) :
    Posted (postFrameError lb e s) lb e := by
  simp only [postFrameError, hd, Bool.false_eq_true, if_false, Posted, resultCode, lbOf_msix, lbOf_onLb, true_and]
  exact resultCode_frame _ _ _ _ _ _ he

theorem exec_lbResultClear_open {s : State} {lb : Nat} (value : Nat) (hw : Bool) (hlb : lb < 128) (ho : barOpen s lb = true) :
    exec (.lbResultClear lb value hw) s = .next (resultClear lb value hw s) :=
  onLetterbox_open _ hlb ho

theorem exec_commandStart_valid {s : State} {lb : Nat} (hlb : lb < 128) : exec (.commandStart lb) s = .next (commandStart lb s) :=
  if_pos hlb

/-- The frame check looks, of a letterbox, at its command frame alone. -/
theorem frameCheck_onLb {f : Letterbox → Letterbox} (hcmd : ∀ l, (f l).cmd = l.cmd) (s : State) (lb : Nat) :
    frameCheck (onLb lb f s) lb = frameCheck s lb := by
  have hargs : cmdArgs (f (lbOf s lb)) = cmdArgs (lbOf s lb) := by simp only [cmdArgs, cmdLength, cmdHeader, hcmd]
  rw [frameCheck, frameCheck, lbOf_onLb, hargs, cmdHeader, cmdHeader, hcmd]
  rfl

theorem commandStart_checked {s : State} {lb : Nat} (h : mayStartCmd s lb = true) (hf : frameCheck s lb = none) :
    commandStart lb s = onLb lb (fun l => { l with
      state := .running, phase := .fresh, safePoints := 0, progress := 0, buffer := [], startedAt := s.time.rackTime }) s := by
  simp only [commandStart, h, if_true]
  rw [frameCheck_onLb (fun _ => by rfl), hf]

/-- Settles O1, register by register. -/
theorem letterboxRowsComplete : Obligations.LetterboxRowsComplete := by
  refine ⟨fun s lb value hlb ho hv hs => ?_, fun s lb value hlb ho hv hs hd => ?_, fun s lb value hlb ho hv hs => ?_,
    fun s lb offset size value hlb ho hsize hal hend hs => ?_, fun s lb hlb hm hf => ?_⟩
  · exact ⟨_, exec_lbDoorbell_open value hlb ho, by simp [doorbell_idle hv hs]⟩
  · exact ⟨_, exec_lbAbort_open hlb ho hv, by rw [abortCommand_accepted hs]; exact posted_postFrameError hd (by decide)⟩
  · exact ⟨_, exec_lbResultClear_open value false hlb ho, by simp [resultClear, hv, hs]⟩
  · exact ⟨_, exec_lbFrameWrite_open value hlb ho hsize hal hend, by simp [frameWrite, hs]⟩
  · exact ⟨_, exec_commandStart_valid hlb, by simp [commandStart_checked hm hf]⟩

end Sys2Proof.Rows
end

section
/-! SUPPORT. How started commands answer: with their data (R114), with the effect of their meaning, or by waiting. -/

namespace Sys2Proof.Rows

open Sys2Proof.Machine Sys2Proof.Safety Sys2Proof.Laws Sys2Proof.Frames

set_option Elab.async false

/-! ### Packed fields -/

/-- The number of bytes that fields of these sizes take from offset `a` on, each at its natural alignment. -/
def packSize (a : Nat) : List Nat → Nat
  | [] => 0
  | n :: t => roundUp a (max 1 (min n 8)) - a + n + packSize (roundUp a (max 1 (min n 8)) + n) t

@[simp] theorem length_leBytes (n v : Nat) : (leBytes n v).length = n := by
  induction n generalizing v with
  | zero => rfl
  | succ n ih => rw [leBytes, List.length_cons, ih]

theorem length_packFrom (a : Nat) (fs : List Fld) : (packFrom a fs).length = packSize a (fs.map Fld.size) := by
  induction fs generalizing a with
  | nil => rfl
  | cons f t ih => simp [packFrom, packSize, ih, Nat.add_assoc]

/-- Fields of known sizes take a known number of bytes. -/
theorem length_pack {fs : List Fld} (sizes : List Nat) (h : fs.map Fld.size = sizes) : (pack fs).length = packSize 0 sizes := by
  rw [← h]
  exact length_packFrom 0 fs

/-! ### Answers -/

section
variable {i : Instr} {s s' : State} {lb op e : Nat} {sel : List Byte → Bool} {f : Cmd} {r : List Byte} {Q : State → Prop}

/-- The next state of a command, found through the function that it runs. -/
theorem gives_of {x : Res} (hx : exec i s = x) (h : ∃ t, x = .next t ∧ Q t) : Gives i s Q := by
  rwa [← hx] at h

/-- A started command whose meaning is done leaves its letterbox with the result. -/
theorem runCmd_done (h : Started s lb op) (hs : sel (cmdArgs (lbOf s lb)) = true)
    (hf : f (some lb) (cmdArgs (lbOf s lb)) s = .done e r s') (hl : lbOf s' lb = lbOf s lb) :
    runCmd op sel f lb s = .next (postResult lb e r s') := by
  rw [runCmd_started h hs, hf]
  obtain ⟨-, -, -, -, -, habort⟩ := h
  simp [finish, hl, habort]

/-- A started command whose meaning waits leaves its letterbox waiting. -/
theorem runCmd_wait (h : Started s lb op) (hs : sel (cmdArgs (lbOf s lb)) = true)
    (hf : f (some lb) (cmdArgs (lbOf s lb)) s = .wait s') (hl : lbOf s' lb = lbOf s lb) :
    runCmd op sel f lb s = .next (onLb lb (fun l => { l with phase := .waiting }) s') := by
  rw [runCmd_started h hs, hf]
  obtain ⟨-, -, -, -, -, habort⟩ := h
  simp [finish, hl, habort]

/-- A started command whose meaning is done answers, and its data can be read from its letterbox. -/
theorem answers_of (hx : exec i s = runCmd op sel f lb s) (h : Started s lb op) (hs : sel (cmdArgs (lbOf s lb)) = true)
    (hf : f (some lb) (cmdArgs (lbOf s lb)) s = .done e r s') (hl : lbOf s' lb = lbOf s lb) (he : e < 65536)
    (hQ : (e ≠ eAborted → r.length ≤ 2032 → resultData (postResult lb e r s') lb r.length = r) → Q (postResult lb e r s')) :
    Answers i lb e s Q := by
  have hd : (lbOf s' lb).discard = false := by
    obtain ⟨-, -, -, -, hdiscard, -⟩ := h
    rw [hl, hdiscard]
  exact ⟨_, hx.trans (runCmd_done h hs hf hl), posted_postResult r hd he, hQ (resultData_postResult r hd)⟩

/-- As `answers_of`, for a command that ends ok with data that fit in the result frame. -/
theorem answers_with (hx : exec i s = runCmd op anyArgs f lb s) (h : Started s lb op)
    (hf : f (some lb) (cmdArgs (lbOf s lb)) s = .done 0 r s') (hl : lbOf s' lb = lbOf s lb) (hr : r.length ≤ 2032)
    (hQ : resultData (postResult lb 0 r s') lb r.length = r → Q (postResult lb 0 r s')) : Answers i lb 0 s Q :=
  answers_of hx h rfl hf hl (by decide) fun hdata => hQ (hdata (by decide) hr)

/-- A started command that only answers with data. -/
theorem answers_data (hx : exec i s = runCmd op anyArgs f lb s) (h : Started s lb op)
    (hf : f (some lb) (cmdArgs (lbOf s lb)) s = .done 0 r s) (hr : r.length ≤ 2032) :
    Answers i lb 0 s fun t => resultData t lb r.length = r :=
  answers_with hx h hf rfl hr id

/-- A started command that ends ok, for what it does. -/
theorem answers_effect (hx : exec i s = runCmd op anyArgs f lb s) (h : Started s lb op)
    (hf : f (some lb) (cmdArgs (lbOf s lb)) s = .done 0 r s') (hl : lbOf s' lb = lbOf s lb) (hQ : Q (postResult lb 0 r s')) :
    Answers i lb 0 s Q :=
  answers_of hx h rfl hf hl (by decide) fun _ => hQ

end

end Sys2Proof.Rows
end

section
/-! SUPPORT. The module and function commands (R94 to R99, R114). -/

namespace Sys2Proof.Rows

open Sys2Proof.Machine Sys2Proof.Safety Sys2Proof.Laws Sys2Proof.Frames

set_option Elab.async false

theorem length_versionBytes (s : State) : (versionBytes s).length = 24 := by
  rw [versionBytes, length_pack [4, 1, 2, 2, 2, 2, 2, 2, 2, 2, 2] rfl]
  decide

theorem length_infoBytes (s : State) : (infoBytes s).length = 14 := by
  rw [infoBytes, length_pack [2, 1, 1, 1, 4, 1, 1] rfl]
  decide

/-- A result changes no quota. -/
theorem quotas_postResult (lb e : Nat) (r : List Byte) (s : State) (k : Nat) :
    (fnOf (postResult lb e r s) k).quotaRings = (fnOf s k).quotaRings
      ∧ (fnOf (postResult lb e r s) k).quotaContexts = (fnOf s k).quotaContexts
      ∧ (fnOf (postResult lb e r s) k).quotaClaims = (fnOf s k).quotaClaims := by
  obtain ⟨_, _, _, _, h⟩ := fnOf_postResult lb e r s k
  rw [h]
  exact ⟨rfl, rfl, rfl⟩

theorem fnSetQuota_within {s : State} {lb k : Nat} (hk : k = lb / 64 * 64 + argOf s lb 4 0)
    (hrings : quotaSum s k Fn.quotaRings + argOf s lb 4 1 ≤ 1024)
    (hctxs : quotaSum s k Fn.quotaContexts + argOf s lb 4 2 ≤ 4096) (hclaims : argOf s lb 4 3 ≤ 4096) :
    fnSetQuota (some lb) (cmdArgs (lbOf s lb)) s = ok0 (onFn k (fun f => { f with
      quotaRings := argOf s lb 4 1, quotaContexts := argOf s lb 4 2, quotaClaims := argOf s lb 4 3 }) s) := by
  subst hk
  simp only [argOf] at hrings hctxs hclaims
  simp [fnSetQuota, argOf, Nat.not_lt.2 hrings, Nat.not_lt.2 hctxs, Nat.not_lt.2 hclaims]

theorem fnQuery_pf0 {s : State} {lb n : Nat} (hpf : lb % 64 = 0) (hn : n = argOf s lb 5 0) (h1 : 1 ≤ n) (h63 : n ≤ 63)
    (hen : fnEnabled s (lb + n) = true) :
    fnQuery (some lb) (cmdArgs (lbOf s lb)) s = .done 0 (pack [u16 (ringQuota s (lb + n)), u16 (ringsHeldBy s (lb + n)),
      u16 (contextQuota s (lb + n)), u16 (contextsOf s (lb + n)), u16 (claimQuota s (lb + n)), u16 (claimsOf s (lb + n)),
      u16 1, u16 1]) s := by
  have hlb : lb / 64 * 64 = lb := by omega
  rw [argOf] at hn
  simp only [fnQuery, Option.getD_some, ← hn, if_neg (Nat.ne_of_gt h1), hlb, hen]
  rw [if_neg (by simp; omega)]

/-- Settles O2, command by command. -/
theorem moduleCommandsComplete : Obligations.ModuleCommandsComplete := by
  refine ⟨fun s lb h => ?_, fun s lb h => ?_, fun s lb h => ?_, fun s lb k h hk hr hc hq => ?_,
    fun s lb n h hpf hn h1 h63 hen => ?_⟩
  · exact answers_effect (f := fun _ _ s => ok0 s) rfl h rfl rfl (by simp)
  · exact answers_data (f := fun _ _ s => .done 0 (versionBytes s) s) rfl h rfl (by simp [length_versionBytes])
  · exact answers_data (f := fun _ _ s => .done 0 (infoBytes s) s) rfl h rfl (by simp [length_infoBytes])
  · refine answers_effect (f := fnSetQuota) rfl h (fnSetQuota_within hk hr hc hq) rfl ?_
    obtain ⟨hrings, hctxs, hclaims⟩ := quotas_postResult lb 0 [] (onFn k (fun f => { f with
      quotaRings := argOf s lb 4 1, quotaContexts := argOf s lb 4 2, quotaClaims := argOf s lb 4 3 }) s) k
    exact ⟨by rw [hrings, fnOf_onFn], by rw [hctxs, fnOf_onFn], by rw [hclaims, fnOf_onFn]⟩
  · refine answers_with (f := fnQuery) rfl h (fnQuery_pf0 hpf hn h1 h63 hen) rfl (by rw [length_pack [2, 2, 2, 2, 2, 2, 2, 2] rfl]; decide) ?_
    rw [length_pack [2, 2, 2, 2, 2, 2, 2, 2] rfl]
    exact id

end Sys2Proof.Rows
end

section
/-! SUPPORT. What a letterbox and the rings keep over the answers of other commands, and the ring commands (R39, R135 to R160). -/

namespace Sys2Proof.Rows

open Sys2Proof.Machine Sys2Proof.Safety Sys2Proof.Laws Sys2Proof.Frames Sys2Proof.Proofs

set_option Elab.async false

/-! ### Letterboxes that a later event answers -/

/-- A result in one letterbox leaves the others alone. -/
theorem lbOf_postResult_ne {lb l : Nat} (e : Nat) (r : List Byte) (s : State) (h : l ≠ lb) : lbOf (postResult lb e r s) l = lbOf s l := by
  simp only [postResult]
  split <;> simp [lbOf_onLb_ne _ _ _ _ h]

/-- Only a waiting command is answered by a later event. -/
theorem lbOf_postWaiting {l : Nat} (lb op e : Nat) (r : List Byte) {s : State} (h : (lbOf s l).phase ≠ .waiting) :
    lbOf (postWaiting lb op e r s) l = lbOf s l := by
  unfold postWaiting
  split
  · next hw =>
    refine lbOf_postResult_ne e r s fun hl => ?_
    subst hl
    simp [waitingOn, h] at hw
  · rfl

theorem sendInvalidate_post (m ctx va len : Nat) (s : State) : (sendInvalidate m ctx va len s).post = s.post :=
  updates_keeps State.post (fun _ s => sendControl _ s) (fun _ _ => rfl) [0, 8] s

/-- An ended invalidation leaves a letterbox whose command does not wait alone. -/
theorem lbOf_invalidated {w : InvFor} {s : State} {l : Nat} (h : (lbOf s l).phase ≠ .waiting) : lbOf (invalidated w s) l = lbOf s l := by
  cases w with
  | remote src ctx => rfl
  | ats k => rfl
  | command lb =>
    have hsent : ∀ (ts : List Nat) (c va len : Nat), lbOf (updates ts (fun m s => sendInvalidate m c va len s) s) l = lbOf s l :=
      fun ts c va len => updates_keeps (lbOf · l) _ (fun m s => by simp only [lbOf, sendInvalidate_post]) ts s
    simp only [invalidated]
    split
    · next hw =>
      have hne : l ≠ lb := fun hl => by
        subst hl
        simp [waitingOn, h] at hw
      split
      · rw [lbOf_postWaiting _ _ _ _ (by rwa [hsent]), hsent]
      · rw [lbOf_onLb_ne _ _ _ _ hne, hsent]
    · exact lbOf_postWaiting _ _ _ _ h

theorem lbOf_settleWaits {s : State} {l : Nat} (h : (lbOf s l).phase ≠ .waiting) : lbOf (settleWaits s) l = lbOf s l := by
  unfold settleWaits
  refine updates_inv (fun t => lbOf t l = lbOf s l) _ (fun e t ht => ?_) _ _ rfl
  exact (lbOf_invalidated (by rw [← ht] at h; exact h)).trans ht

theorem phase_of_started {s : State} {lb op : Nat} (h : Started s lb op) : (lbOf s lb).phase ≠ .waiting := by
  obtain ⟨-, -, hphase, -⟩ := h
  rw [hphase]
  decide

/-! ### Rings -/

@[simp] theorem ringOf_onLb (k r : Nat) (f : Letterbox → Letterbox) (s : State) : ringOf (onLb k f s) r = ringOf s r := rfl

section
variable {s : State} {lb r : Nat}

/-- A ring command of the ring's owner acts on it. -/
theorem withRing_own {op : Nat} (f : Nat → List Byte → State → CmdOut) (hr : r = argOf s lb op 0) (ho : ownRing s (some lb) r = true) :
    withRing op f (some lb) (cmdArgs (lbOf s lb)) s = f r (cmdArgs (lbOf s lb)) s := by
  subst hr
  exact if_pos ho

theorem ringAlloc_free {n : Nat} {free : List Nat} (hn : n = argOf s lb 0x0101 0) (hany : argOf s lb 0x0101 1 = 0xFF)
    (hfree : free = ((List.range 1024).filter fun r => (ringOf s r).state == .free && dieUp s (96 + r / 64)).take n)
    (hlen : free.length = n) (hq : ringsHeldBy s lb + n ≤ ringQuota s lb) :
    ringAlloc (some lb) (cmdArgs (lbOf s lb)) s = .done 0 (pack (free.map u16)) (updates free (fun r s => onRing r (fun _ =>
      { state := .allocated, owner := lb, slot := if lb % 64 = 0 then 0 else 0xFF }) (dropRingTags r s)) s) := by
  rw [argOf] at hn hany
  simp only [ringAlloc, Option.getD_some, ← hn, hany, if_true, ← hfree, hlen]
  rw [if_neg (by omega)]

theorem ringBind_bound {k : Nat} (hr : r = argOf s lb 0x0103 0) (hk : k = lb / 64 * 64 + argOf s lb 0x0103 1) (hlt : r < 1024)
    (hfree : (ringOf s r).state ≠ .free) (hport : (ringOf s r).owner / 64 = lb / 64) (hen : fnEnabled s k = true)
    (hlive : ringLive (ringOf s r).state = false)
    (hslot : k % 64 = 0 ∨ (s.rings.any fun e => e.1 != r && e.2.state != .free && e.2.owner == k && e.2.slot == argOf s lb 0x0103 2) = false)
    (hpasid : (ringOf s r).ctx = 0 ∨ (fnOf s k).pasid = true) :
    ∃ g, ringBind (some lb) (cmdArgs (lbOf s lb)) s = ok0 (onRing r g s) ∧
      ∀ x, (g x).owner = k ∧ (g x).slot = argOf s lb 0x0103 2 ∧ (g x).vector = argOf s lb 0x0103 3 := by
  rw [argOf] at hr hk
  rw [argOf] at hslot
  simp only [ringBind, Option.getD_some, ← hr, ← hk, hlive, hen]
  rw [if_neg (by simp [hlt, hfree, hport]), if_neg (by simpa using hslot.resolve_left), if_neg (by simpa using fun _ h => hpasid.resolve_left h)]
  refine ⟨_, rfl, fun x => ?_⟩
  split <;> simp [argOf]

theorem ringConfig_own {c : Ctx} (hst : (ringOf s r).state = .allocated ∨ (ringOf s r).state = .stopped)
    (hc : tfind s.xlat.ctxs (argOf s lb 0x0104 3) = some c) (howner : c.owner = (ringOf s r).owner)
    (hpasid : argOf s lb 0x0104 3 = 0 ∨ (fnOf s c.owner).pasid = true) :
    ringConfig r (cmdArgs (lbOf s lb)) s = ok0 (onRing r (fun g => {
        state := .stopped, owner := g.owner, slot := g.slot, vector := g.vector, physical := g.physical, runs := g.runs
        mode := argOf s lb 0x0104 1, key := argOf s lb 0x0104 2, ctx := argOf s lb 0x0104 3, entries := argOf s lb 0x0104 4
        cqEntries := argOf s lb 0x0104 5, base := argOf s lb 0x0104 6, cqBase := argOf s lb 0x0104 7 })
      (onXlat (fun x => { x with hot := x.hot.map fun h => if h.ring = r then { h with due := [] } else h }) s)) := by
  rw [argOf] at hc hpasid
  rw [howner] at hpasid
  simp only [ringConfig, hc, howner]
  rw [if_neg (by simp), if_neg (by simpa using hpasid.resolve_left), if_neg (by simpa using hst.resolve_left)]
  rfl

/-- A ring as RING_START leaves it before what holds rings is looked at. -/
def startedRing (g : Ring) : Ring := { g with state := .running, reason := 0, fetched := [], fetching := false, ran := true }

/-- A running ring that is looked at again runs on or is held, and nothing else of it changes. -/
theorem ringRestate_running (hg : (ringOf s r).state = .running) :
    ∃ st, (st = .running ∨ st = .held) ∧ ringRestate r s = onRing r (fun g => { g with state := st }) s := by
  refine ⟨if ringHeldBy s (ringOf s r) || (ringOf s r).awaitDoorbell then .held else .running, by split <;> simp, ?_⟩
  simp [ringRestate, hg, ringLive]

theorem find_replaced {x : RunTo} {l : List RunTo} (h : l.any (fun y => y.dest == x.dest) = true) :
    (l.map fun y => if y.dest = x.dest then x else y).find? (fun y => y.dest == x.dest) = some x := by
  induction l with
  | nil => simp at h
  | cons y ys ih =>
    by_cases hy : y.dest = x.dest
    · simp [hy]
    · simp only [List.any_cons, Bool.or_eq_true, beq_iff_eq, hy, false_or] at h
      simp [hy, ih h]

/-- A record that has been kept is the one that is found. -/
theorem runOf_setRun (x : RunTo) (g : Ring) : runOf (setRun x g) x.dest = x := by
  simp only [runOf, setRun]
  by_cases h : (g.runs.any fun y => y.dest == x.dest) = true
  · rw [if_pos h, find_replaced h]
  · have hnone : g.runs.find? (fun y => y.dest == x.dest) = none := by simpa using h
    rw [if_neg h, List.find?_append, hnone]
    simp

theorem dest_runOf (g : Ring) (k : Nat) : (runOf g k).dest = k := by
  unfold runOf
  split
  · next h => simpa using List.find?_some h
  · rfl

/-- Without a started descriptor nothing is held that could be released. -/
theorem releaseHeld_nil (h : (ringOf s r).started = []) : releaseHeld r s = s := by
  simp [releaseHeld, h, updates]

/-- The record of a run whose loss the host has acknowledged: the next run begins (R155). -/
def ackedRun (x : RunTo) : RunTo := { x with lost := false, awaiting := false, run := (x.run + 1) % 32, sent := 0 }

/-- A ring with this record kept, its loss bit clear when no run is lost any more. -/
def withRun (x : RunTo) (g : Ring) : Ring :=
  { setRun x g with status := if (setRun x g).runs.any RunTo.lost then (setRun x g).status else setBit (setRun x g).status 3 false }

theorem ringAckLoss_lost {k : Nat} (hk : k = destKey (BitVec.ofNat 32 (argOf s lb 0x0109 1))) (hlost : (runOf (ringOf s r) k).lost = true)
    (hst : (ringOf s r).started = []) :
    ∃ d, ringAckLoss r (cmdArgs (lbOf s lb)) s = .done 0 d (onRing r (withRun (ackedRun (runOf (ringOf s r) k))) s) := by
  rw [argOf] at hk
  have hheld : releaseHeld r (onRing r (withRun (ackedRun (runOf (ringOf s r) k))) s)
      = onRing r (withRun (ackedRun (runOf (ringOf s r) k))) s := releaseHeld_nil (by simp [withRun, setRun, hst])
  simp only [ringAckLoss, ← hk, hlost, Bool.not_true, Bool.false_eq_true, if_false]
  exact ⟨_, congrArg (CmdOut.done 0 _) hheld⟩

theorem runOf_withRun_acked (g : Ring) (k : Nat) : runOf (withRun (ackedRun (runOf g k)) g) k = ackedRun (runOf g k) := by
  have h := runOf_setRun (ackedRun (runOf g k)) g
  rwa [show (ackedRun (runOf g k)).dest = k from dest_runOf g k] at h

/-- A ring that is not stopped yet waits for its started descriptors in the letterbox. -/
theorem ringStop_live (hr : r = argOf s lb 0x0107 0) (ho : ownRing s (some lb) r = true) (hlive : ringLive (ringOf s r).state = true) :
    ringStop (some lb) (cmdArgs (lbOf s lb)) s =
      .wait (onRing r (fun g => { g with state := .stopped, fetched := [], fetching := false, stopLb := some lb }) s) := by
  rw [ringStop, withRing_own _ hr ho, if_pos hlive]

/-- The check of a stop answers the letterbox and forgets it; the ring's state and descriptors stay. -/
theorem ringOf_stopCheck (s : State) (r : Nat) :
    (ringOf (stopCheck r s) r).state = (ringOf s r).state ∧ (ringOf (stopCheck r s) r).head = (ringOf s r).head
      ∧ (ringOf (stopCheck r s) r).started = (ringOf s r).started := by
  simp only [stopCheck]
  split
  · split
    · simp [ringOf]
    · simp
  · simp

theorem gives_ringStop (h : Started s lb 0x0107) (hr : r = argOf s lb 0x0107 0) (ho : ownRing s (some lb) r = true)
    (hlive : ringLive (ringOf s r).state = true) :
    Gives (.ringStop lb) s fun t => (ringOf t r).state = .stopped ∧ (ringOf t r).head = (ringOf s r).head
      ∧ (ringOf t r).started = (ringOf s r).started := by
  refine gives_of (x := execRingStop lb s) rfl ?_
  have harg : arg 0x0107 (cmdArgs (lbOf s lb)) 0 = r := hr.symm
  rw [execRingStop, runCmd_wait h rfl (ringStop_live hr ho hlive) rfl, harg]
  refine ⟨_, rfl, ?_⟩
  split
  · simp [ringOf_stopCheck]
  · simp

end

/-- Settles O3, command by command. -/
theorem ringCommandsComplete : Obligations.RingCommandsComplete := by
  refine ⟨fun s lb n free h hn hany hfree hlen hq => ?_, fun s lb r h hr ho hlive => ?_,
    fun s lb r k h hr hk hlt hfree hport hen _ hlive hslot hpasid => ?_,
    fun s lb r c h hr ho hst _ _ _ _ _ hc howner hpasid => ?_, fun s lb r h hr ho => ?_, fun s lb r h hr ho hst hctx => ?_,
    fun s lb r h hr ho hlive => gives_ringStop h hr ho hlive, fun s lb r d h hr ho hd => ?_, fun s lb r k h hr hk ho hlost hst => ?_,
    fun s lb r h hr ho => ?_⟩
  · refine answers_effect rfl h (ringAlloc_free hn hany hfree hlen hq) ?_ fun r hr => ?_
    · exact updates_keeps (lbOf · lb) _ (by intros; rfl) _ _
    · rw [ringOf_postResult]
      exact updates_mem (fun r t => (ringOf t r).state = .allocated ∧ (ringOf t r).owner = lb) _ (by simp) (fun a b t ht => by
        by_cases hab : a = b
        · simp [hab]
        · rwa [ringOf_onRing_ne _ _ _ _ hab]) free s r hr
  · refine answers_effect rfl h (r := []) ((withRing_own _ hr ho).trans (if_neg (by simp [hlive]))) (lbOf_settleWaits (phase_of_started h)) ?_
    rw [ringOf_postResult, ringOf, freeRing, (settleWaits_rings_mem _).1]
    simp
  · obtain ⟨g, hbind, hg⟩ := ringBind_bound hr hk hlt hfree hport hen hlive hslot hpasid
    exact answers_effect rfl h hbind rfl (by simpa using hg _)
  · refine answers_effect rfl h (r := []) ((withRing_own _ hr ho).trans (ringConfig_own hst hc howner hpasid)) rfl ?_
    simp
  · refine answers_effect rfl h (r := []) (withRing_own _ hr ho) rfl ?_
    simp [argOf]
  · obtain ⟨st, hstate, heq⟩ := ringRestate_running (s := onRing r startedRing s) (r := r) (by simp [startedRing])
    refine answers_effect rfl h (r := []) (s' := ringRestate r (onRing r startedRing s)) ((withRing_own _ hr ho).trans ?_) ?_ ?_
    · rw [if_neg, if_pos hst]
      · rfl
      · rw [Option.isNone_iff_eq_none, ← Option.not_isSome_iff_eq_none, hctx]
        rcases hst with hst | hst <;> simp [hst]
    · rw [heq]
      rfl
    · rw [ringOf_postResult, heq]
      simpa [startedRing] using hstate
  · have hlen : d.length = 20 := by
      rw [hd, length_pack [1, 4, 4, 4, 4] rfl]
      decide
    refine answers_with rfl h ((withRing_own _ hr ho).trans (hd ▸ rfl)) rfl (by omega) fun hdata => ⟨hlen ▸ hdata, by simp⟩
  · obtain ⟨d, hack⟩ := ringAckLoss_lost hk hlost hst
    refine answers_effect rfl h ((withRing_own _ hr ho).trans hack) rfl ?_
    rw [ringOf_postResult, ringOf_onRing, runOf_withRun_acked]
    exact ⟨rfl, rfl, rfl⟩
  · refine answers_effect rfl h (r := []) (withRing_own _ hr ho) rfl ?_
    simp [argOf]

end Sys2Proof.Rows
end

section
/-! SUPPORT. The test access ports (R424, R425). -/

namespace Sys2Proof.Rows

open Sys2Proof.Machine Sys2Proof.Safety Sys2Proof.Laws Sys2Proof.Frames

set_option Elab.async false

@[simp] theorem tapOf_onTap (t : Nat) (f : Tap → Tap) (s : State) : tapOf (onTap t f s) t = f (tapOf s t) := by
  simp [tapOf, onTap]

theorem tapOf_onTap_ne {t k : Nat} (f : Tap → Tap) (s : State) (h : k ≠ t) : tapOf (onTap t f s) k = tapOf s k := by
  simp [tapOf, onTap, tget_tmod_ne _ _ _ h]

@[simp] theorem onTap_out (t : Nat) (f : Tap → Tap) (s : State) : (onTap t f s).out = s.out := rfl
@[simp] theorem onTap_power (t : Nat) (f : Tap → Tap) (s : State) : (onTap t f s).power = s.power := rfl
@[simp] theorem tapOf_emit (o : Out) (t : Nat) (s : State) : tapOf (emit o s) t = tapOf s t := rfl

section
variable {s : State} {tap : Nat}

/-- A powered TAP takes its instruction. -/
theorem onTapRow_powered (f : State → State) (ht : tap < 16) (hp : testPowered s = true) : onTapRow tap f s = .next (f s) := by
  simp [onTapRow, ht, hp, Machine.when]

theorem loadInstruction_out (i register : Nat) (bits : BitVec 64) :
    (loadInstruction tap i register bits s).out = s.out ++ [.jtag tap register bits] := rfl

theorem tapOf_loadInstruction (i register : Nat) (bits : BitVec 64) :
    tapOf (loadInstruction tap i register bits s) tap = { tapOf s tap with instruction := i } := by
  simp [loadInstruction]

/-- A module whose boundary instructions act is powered. -/
theorem testPowered_of_boundaryActs {i : Nat} (h : boundaryActs s i = true) : testPowered s = true := by
  simp only [boundaryActs, Bool.and_eq_true, Bool.or_eq_true, beq_iff_eq] at h
  rcases h.2 with hb | hb <;> simp [testPowered, postUp, hb]

/-- A boundary instruction that acts drives the pins. -/
theorem pinsDriven_loadInstruction {i : Nat} (register : Nat) (bits : BitVec 64) (h : boundaryActs s i = true) :
    pinsDriven (loadInstruction tap i register bits s) tap = i := by
  rw [pinsDriven, tapOf_loadInstruction]
  exact if_pos h

theorem gives_boundary_register {i : Instr} {n : Nat} (hx : exec i s = onTapRow tap (boundaryInstruction n tap) s) (ht : tap < 16)
    (h : boundaryActs s n = true) (hn : n ≤ 5) :
    Gives i s fun t => t.out = s.out ++ [.jtag tap 2 (tapOf s tap).boundary] ∧ pinsDriven t tap = n := by
  refine gives_of hx ⟨_, onTapRow_powered _ ht (testPowered_of_boundaryActs h), ?_⟩
  rw [boundaryInstruction, if_pos ⟨h, hn⟩]
  exact ⟨rfl, pinsDriven_loadInstruction _ _ h⟩

theorem gives_boundary_bypass {i : Instr} {n : Nat} (hx : exec i s = onTapRow tap (boundaryInstruction n tap) s) (ht : tap < 16)
    (h : boundaryActs s n = true) (hn : 5 < n) : Gives i s fun t => t.out = s.out ++ [.jtag tap 0 0] ∧ pinsDriven t tap = n := by
  refine gives_of hx ⟨_, onTapRow_powered _ ht (testPowered_of_boundaryActs h), ?_⟩
  rw [boundaryInstruction, if_neg (by omega)]
  exact ⟨rfl, pinsDriven_loadInstruction _ _ h⟩

/-- A reset of the test ports reaches every one of the 16. -/
theorem instruction_testLogicReset (ht : tap < 16) :
    (tapOf (updates (List.range 16) (fun t => onTap t fun x => { x with instruction := 1 }) s) tap).instruction = 1 := by
  refine updates_mem (fun k t => (tapOf t k).instruction = 1) (fun t => onTap t fun x => { x with instruction := 1 }) (by simp)
    (fun a b t h => ?_) _ s tap (List.mem_range.2 ht)
  by_cases hab : a = b
  · simp [hab]
  · rwa [tapOf_onTap_ne _ _ hab]

end

/-- Settles O5, port by port. -/
theorem testPortRowsComplete : Obligations.TestPortRowsComplete := by
  refine ⟨fun s tap hp ht => ?_, fun s tap ht hp => ?_, fun s tap pins preload ht hp => ?_,
    fun s tap ht h => gives_boundary_register rfl ht h (by decide), fun s tap ht h => gives_boundary_register rfl ht h (by decide),
    fun s tap ht h => gives_boundary_register rfl ht h (by decide), fun s tap ht h => gives_boundary_bypass rfl ht h (by decide),
    fun s tap ht h => gives_boundary_bypass rfl ht h (by decide), fun s tap code ht hp hlt hcode => ?_⟩
  · exact ⟨_, rfl, by simpa only [hp, Machine.when, if_true] using instruction_testLogicReset ht⟩
  · exact gives_of rfl ⟨_, onTapRow_powered _ ht hp, rfl, by rw [tapOf_loadInstruction]⟩
  · exact gives_of rfl ⟨_, onTapRow_powered _ ht hp, rfl, by rw [tapOf_onTap]⟩
  · refine gives_of rfl ⟨_, onTapRow_powered _ ht hp, ?_⟩
    rw [if_neg (by omega), Nat.mod_eq_of_lt hlt]
    exact ⟨rfl, by rw [tapOf_loadInstruction]⟩

end Sys2Proof.Rows
end

section
/-! SUPPORT. The management bus and MCTP control messages (R407 to R413). -/

namespace Sys2Proof.Rows

open Sys2Proof.Machine Sys2Proof.Safety Sys2Proof.Laws Sys2Proof.Frames

set_option Elab.async false

/-- The little-endian bytes of a number spell what fits in them. -/
theorem leNat_leBytes (n v : Nat) : leNat (leBytes n v) = v % 256 ^ n := by
  induction n generalizing v with
  | zero => simp [leBytes, leNat, Nat.mod_one]
  | succ n ih =>
    rw [leBytes, leNat, ih, BitVec.toNat_ofNat, show 256 ^ (n + 1) = 256 * 256 ^ n from Nat.pow_succ', Nat.mod_mul]
    omega

section
variable {s : State}

theorem assignAddress_up {a : Nat} (hu : mgmtUp s = true) (ha : a < 128) :
    assignAddress a s = onMgmt (fun m => { m with i3c := true, dynamic := a }) s := by
  simp only [assignAddress, hu, Machine.when, if_true, Nat.mod_eq_of_lt ha]

/-- A control request to the endpoint is answered. -/
theorem onControl_answers {dest : Nat} (f : State → State) (h : controlAnswers s dest = true) : onControl dest f s = .next (f s) := by
  simp only [onControl, h, Machine.when, if_true]

theorem setEid_valid {op eid : Nat} (hu : mgmtUp s = true) (hop : op ≤ 1) (h8 : 8 ≤ eid) (h254 : eid ≤ 254) :
    setEid op eid s = mctpReply 0 1 [u8 0, u8 0, u8 eid, u8 0] (onMgmt (fun m => { m with eid := eid }) s) := by
  simp [setEid, hu, hop, h8, h254]

/-- The frame of a GET_MODULE_INFO with no argument. -/
def infoFrame (tag : Nat) : List Byte := leBytes 2 3 ++ leBytes 2 0 ++ leBytes 4 tag ++ leBytes 8 0

theorem field_infoFrame_tag {tag : Nat} (h : tag < 2 ^ 32) : field (infoFrame tag) 4 4 = tag := by
  rw [show field (infoFrame tag) 4 4 = leNat (leBytes 4 tag) from rfl, leNat_leBytes]
  exact Nat.mod_eq_of_lt h

theorem vendorCheck_infoFrame (tag : Nat) : vendorCheck (infoFrame tag) [] = none := rfl

theorem vendorMessage_info {tag : Nat} (h : endpointReady s = true) (htag : tag < 2 ^ 32) :
    vendorMessage (infoFrame tag) true s = emit (.mctp 0x7E 0 (resultFrame 3 0 tag false 0 (infoBytes s))) s := by
  have hpad : padTo 16 (infoFrame tag) = infoFrame tag := rfl
  have hargs : ((infoFrame tag).drop 16).take (field (infoFrame tag) 8 2) = [] := rfl
  have hop : field (infoFrame tag) 0 2 = 3 := rfl
  simp only [vendorMessage, h, hpad, hargs, vendorCheck_infoFrame, Bool.not_true, Bool.false_eq_true, if_false, hop]
  simp only [vendorCommand, vendorRecord, vendorReply, hop, field_infoFrame_tag htag]
  rfl

end

/-- Settles O6, message by message. -/
theorem busRowsComplete : Obligations.BusRowsComplete := by
  refine ⟨fun s a hu ha => ⟨_, rfl, ?_⟩, fun s a hu ha hi => ⟨_, rfl, ?_⟩, fun s hu => ⟨_, rfl, ?_⟩, fun s hu => ⟨_, rfl, ?_⟩,
    fun s op eid hu hop h8 h254 => ⟨_, rfl, ?_⟩, fun s dest h => gives_of rfl ⟨_, onControl_answers _ h, rfl⟩,
    fun s dest h => gives_of rfl ⟨_, onControl_answers _ h, rfl⟩,
    fun s dest ty h hty => gives_of rfl ⟨_, onControl_answers _ h, if_pos (by simpa using hty)⟩,
    fun s dest h => gives_of rfl ⟨_, onControl_answers _ h, rfl⟩, fun s dest h => gives_of rfl ⟨_, onControl_answers _ h, rfl⟩,
    fun s tag h htag => ⟨_, rfl, vendorMessage_info h htag⟩⟩
  · rw [assignAddress_up hu ha]
    exact ⟨rfl, rfl⟩
  · simp only [hi, Bool.not_false, Machine.when, if_true, assignAddress_up hu ha, onMgmt_mgmt, and_self]
  · simp only [hu, Machine.when, if_true, onMgmt_mgmt, and_self]
  · simp only [hu, Machine.when, if_true, journalRule, journal_next, true_and]
    simp [journal, journalFrom]
  · rw [setEid_valid hu hop h8 h254]
    exact ⟨rfl, rfl⟩

end Sys2Proof.Rows
end

section
/-! SUPPORT. PLDM monitoring and control (R414 to R417, R435). -/

namespace Sys2Proof.Rows

open Sys2Proof.Machine Sys2Proof.Safety Sys2Proof.Laws Sys2Proof.Frames

set_option Elab.async false

/-- A request to an endpoint with an ID is answered. -/
theorem onPldm_ready {s : State} (f : State → State) (h : endpointReady s = true) : onPldm f s = .next (f s) := by
  simp only [onPldm, h, Machine.when, if_true]

/-! ### Sensors -/

/-- The measured and derived state that readings look at, apart from the mirror itself. -/
def SameReadings (s t : State) : Prop :=
  t.power = s.power ∧ t.fabric = s.fabric ∧ t.time = s.time ∧ t.post = s.post

theorem SameReadings.trans {s t u : State} (h : SameReadings s t) (g : SameReadings t u) : SameReadings s u :=
  ⟨g.1.trans h.1, g.2.1.trans h.2.1, g.2.2.1.trans h.2.2.1, g.2.2.2.trans h.2.2.2⟩

@[simp] theorem pldmRaise_mirror (b : List Byte) (s : State) : (pldmRaise b s).mgmt.mirror = s.mgmt.mirror := by
  unfold pldmRaise Machine.when countMgmt
  split <;> split <;> simp

@[simp] theorem pldmRaise_stateLast (b : List Byte) (s : State) : (pldmRaise b s).mgmt.stateLast = s.mgmt.stateLast := by
  unfold pldmRaise Machine.when countMgmt
  split <;> split <;> simp

theorem sameReadings_pldmRaise (b : List Byte) (s : State) : SameReadings s (pldmRaise b s) := by
  simp [SameReadings]

/-- The update of a numeric sensor stores its present reading. -/
theorem updateNumeric_mirror (rs : List (Nat × Int)) (id : Nat) (s : State) :
    (updateNumeric rs id s).mgmt.mirror = tset s.mgmt.mirror id (numericReading s rs id) := by
  simp only [updateNumeric]
  rw [apply_ite (fun t : State => t.mgmt.mirror)]
  simp

theorem sameReadings_updateNumeric (rs : List (Nat × Int)) (id : Nat) (s : State) : SameReadings s (updateNumeric rs id s) := by
  simp [SameReadings, updateNumeric]

theorem updateState_mirror (id : Nat) (s : State) :
    (updateState id s).mgmt.mirror = tset s.mgmt.mirror id ((stateReading s id : Int), 0) := by
  simp only [updateState]
  split <;> simp

theorem updateState_stateLast (id : Nat) (s : State) :
    (updateState id s).mgmt.stateLast = tset s.mgmt.stateLast id (stateReading s id) := by
  simp only [updateState]
  split <;> simp

theorem sameReadings_updateState (id : Nat) (s : State) : SameReadings s (updateState id s) := by
  simp [SameReadings, updateState]

/-- A reading looks at its own mirror entry and at nothing else that an update changes. -/
theorem numericReading_congr {s t : State} (rs : List (Nat × Int)) {id : Nat} (h : SameReadings s t)
    (hm : tget ((0, 1) : Reading) t.mgmt.mirror id = tget (0, 1) s.mgmt.mirror id) : numericReading t rs id = numericReading s rs id := by
  obtain ⟨hpower, hfabric, htime, hpost⟩ := h
  cases s
  cases t
  simp only at hpower hfabric htime hpost hm
  subst hpower hfabric htime hpost
  simp only [numericReading, givenReading, hm]
  rfl

theorem stateReading_congr {s t : State} {id : Nat} (h : SameReadings s t) : stateReading t id = stateReading s id := by
  obtain ⟨hpower, hfabric, htime, hpost⟩ := h
  cases s
  cases t
  simp only at hpower hfabric htime hpost
  subst hpower hfabric htime hpost
  rfl

/-- The update of different numeric sensors stores each one's reading of the state before. -/
theorem updates_numeric (rs : List (Nat × Int)) {ids : List Nat} (hids : ids.Nodup) (s : State) :
    SameReadings s (updates ids (updateNumeric rs) s) ∧ ∀ id, tget (0, 1) (updates ids (updateNumeric rs) s).mgmt.mirror id =
      if id ∈ ids then numericReading s rs id else tget (0, 1) s.mgmt.mirror id := by
  induction ids generalizing s with
  | nil => exact ⟨⟨rfl, rfl, rfl, rfl⟩, fun _ => rfl⟩
  | cons a ids ih =>
    obtain ⟨ha, hids⟩ := List.nodup_cons.1 hids
    have hsame := sameReadings_updateNumeric rs a s
    obtain ⟨hrest, hmirror⟩ := ih hids (updateNumeric rs a s)
    refine ⟨hsame.trans hrest, fun id => (hmirror id).trans ?_⟩
    by_cases hid : id = a
    · subst hid
      simp [ha, updateNumeric_mirror]
    · have hkept : tget (0, 1) (updateNumeric rs a s).mgmt.mirror id = tget (0, 1) s.mgmt.mirror id := by
        rw [updateNumeric_mirror, tget_tset_ne _ _ _ hid]
      rw [numericReading_congr rs hsame hkept, hkept]
      simp [hid]

/-- The update of state sensors stores each one's state, in the mirror and as the last one. -/
theorem updates_state (ids : List Nat) (s : State) (id : Nat) :
    tget (0, 1) (updates ids updateState s).mgmt.mirror id
        = (if id ∈ ids then ((stateReading s id : Int), 0) else tget (0, 1) s.mgmt.mirror id)
      ∧ tget 0 (updates ids updateState s).mgmt.stateLast id = if id ∈ ids then stateReading s id else tget 0 s.mgmt.stateLast id := by
  induction ids generalizing s with
  | nil => exact ⟨rfl, rfl⟩
  | cons a ids ih =>
    obtain ⟨hmirror, hlast⟩ := ih (updateState a s)
    rw [stateReading_congr (sameReadings_updateState a s)] at hmirror hlast
    refine ⟨hmirror.trans ?_, hlast.trans ?_⟩
    · rw [updateState_mirror]
      by_cases hid : id = a
      · simp [hid]
      · simp [hid, tget_tset_ne _ _ _ hid]
    · rw [updateState_stateLast]
      by_cases hid : id = a
      · simp [hid]
      · simp [hid, tget_tset_ne _ _ _ hid]

theorem nodup_numericIds : numericIds.Nodup := by
  rw [numericIds]
  exact List.nodup_range.filter _

theorem not_mem_stateIds {id : Nat} (h : id ∈ numericIds) : id ∉ stateIds := by
  rw [numericIds, List.mem_filter, List.mem_range] at h
  rw [stateIds, List.mem_filter, List.mem_map]
  rintro ⟨⟨k, -, hk⟩, -⟩
  omega

/-- The update of all sensors stores every reading (R414). -/
theorem sensorUpdate_stores {s : State} (rs : List (Nat × Int)) (hu : mgmtUp s = true) :
    (∀ id ∈ numericIds, tget ((0, 1) : Reading) (sensorUpdate rs s).mgmt.mirror id = numericReading s rs id) ∧
      ∀ id ∈ stateIds, tget 0 (sensorUpdate rs s).mgmt.stateLast id = stateReading s id
        ∧ tget ((0, 1) : Reading) (sensorUpdate rs s).mgmt.mirror id = ((stateReading s id : Int), 0) := by
  obtain ⟨hsame, hmirror⟩ := updates_numeric rs nodup_numericIds s
  rw [sensorUpdate, if_pos hu]
  refine ⟨fun id hid => ?_, fun id hid => ?_⟩
  · rw [(updates_state _ _ id).1, if_neg (not_mem_stateIds hid), hmirror, if_pos hid]
  · obtain ⟨hm, hl⟩ := updates_state stateIds (updates numericIds (updateNumeric rs) s) id
    rw [if_pos hid, stateReading_congr hsame] at hm hl
    exact ⟨hl, hm⟩

/-! ### Effecters -/

section
variable {s : State}

/-- The end of a power request is told to whoever made it; of the power state only the last outcome changes. -/
theorem requestDone_power (q : PowerReq) (e : Nat) (s : State) : ∃ c, (requestDone q e s).power = { s.power with lastPldm := c } := by
  unfold requestDone
  split
  · exact ⟨s.power.lastPldm, by simp⟩
  · unfold setLastPldm
    split
    · exact ⟨_, rfl⟩
    · exact ⟨_, rfl⟩
  · exact ⟨s.power.lastPldm, rfl⟩

/-- A request for a power state waits, whatever it supersedes. -/
theorem requestPower_power (q : PowerReq) (s : State) :
    ∃ c, (requestPower q s).power = { s.power with pending := some q, lastPldm := c } := by
  simp only [requestPower]
  split
  · obtain ⟨c, hc⟩ := requestDone_power _ eSuperseded (onPower (fun p => { p with pending := some q }) s)
    exact ⟨c, hc⟩
  · exact ⟨s.power.lastPldm, rfl⟩

theorem requestPower_mgmt (q : PowerReq) (s : State) : (requestPower q s).mgmt = s.mgmt :=
  requestPower_touches.keeps [.mgmt] rfl

theorem startFirmware_power (s : State) : ∃ b, (startFirmware s).power = { s.power with romRecovery := b } := by
  unfold startFirmware
  refine ⟨(bootSlot s 0).isNone, ?_⟩
  rw [updates_keeps State.power _ (by simp), updates_keeps State.power _ (by simp)]
  unfold Machine.when
  split <;> simp

/-- A module reset leaves the module in P4 in standby, with what is volatile gone (R80). -/
theorem moduleReset_clears (s : State) : (moduleReset s).power.boot = .standby ∧ (moduleReset s).power.state = some 4
    ∧ (moduleReset s).rings = [] ∧ (moduleReset s).post.lbs = [] ∧ (moduleReset s).mem = {} ∧ (moduleReset s).xlat = {} := by
  unfold moduleReset
  generalize hu : onMgmt _ (clearModule s) = u
  have hboot : u.power.boot = .standby := by rw [← hu]; rfl
  have hstate : u.power.state = some 4 := by rw [← hu]; rfl
  have hlbs : u.post.lbs = [] := by rw [← hu]; rfl
  have hrings : u.rings = [] := by rw [← hu]; rfl
  have hmem : u.mem = {} := by rw [← hu]; rfl
  have hxlat : u.xlat = {} := by rw [← hu]; rfl
  obtain ⟨b, hpower⟩ := startFirmware_power u
  obtain ⟨hrings', hlbs', hmem', hxlat'⟩ := (startFirmware_touches (s := u)).keeps [.rings, .lbs, .mem, .xlat] rfl
  exact ⟨by rw [hpower, hboot], by rw [hpower, hstate], hrings'.trans hrings, hlbs'.trans hlbs, hmem'.trans hmem, hxlat'.trans hxlat⟩

theorem effReset_linkDown (port : Nat) (s : State) : (linkDown port s).mgmt.effReset = s.mgmt.effReset := by
  have h := (linkDown_touches (s := s) (port := port)).same .mgmt rfl
  simp only [Part.Same, Mgmt.mk.injEq] at h
  simp only [h]

theorem effReset_moduleReset (s : State) : (moduleReset s).mgmt.effReset = s.mgmt.effReset := by
  have h : ∀ u, (startFirmware u).mgmt = u.mgmt := fun u => startFirmware_touches.keeps [.mgmt] rfl
  rw [moduleReset, h]
  change (linkDown 1 (linkDown 0 s)).mgmt.effReset = _
  rw [effReset_linkDown, effReset_linkDown]

/-- Outside self-test a powered module is reset at once. -/
theorem askReset_settled (hb : s.power.boot = .serving ∨ s.power.boot = .safe) : askReset s = moduleReset s := by
  rcases hb with hb | hb <;> simp only [askReset, hb]

/-- During self-test a reset waits for the wave's end. -/
theorem askReset_testing {n : Nat} (hb : s.power.boot = .waves n ∨ s.power.boot = .retried) :
    askReset s = onPower (fun p => { p with resetPending := true }) s := by
  rcases hb with hb | hb <;> simp only [askReset, hb]

/-- Effecter 0x0502 after its answer. -/
theorem resetEffecter_one (s : State) :
    resetEffecter 1 s = askReset (pldmReply 0x39 0 [] (onMgmt (fun m => { m with effReset := 1 }) s)) := rfl

theorem powerEffecter_allowed {value target : Nat} (hv : value ≤ 6) (ht : target = if value = 5 then 3 else if value = 6 then 4 else value)
    (hsafe : inSafe s = false) (hreq : requestError s target = none) :
    powerEffecter value s = pldmReply 0x39 0 []
      (requestPower { target := target, release := decide (5 ≤ value), waitMs := 10, source := .pldm }
        (onMgmt (fun m => { m with effPower := value }) s)) := by
  subst ht
  have hsafe' : inSafe (onMgmt (fun m => { m with effPower := value }) s) = false := hsafe
  have hreq' : requestError (onMgmt (fun m => { m with effPower := value }) s)
      (if value = 5 then 3 else if value = 6 then 4 else value) = none := hreq
  simp only [powerEffecter, if_neg (Nat.not_lt.2 hv), hsafe', hreq', Bool.false_eq_true, if_false]

theorem getPdr_found {handle id : Nat} (h : numericIds[max handle 1 - 1]? = some id) :
    getPdr handle s = pldmReply 0x51 0
      ([u32 (if max handle 1 < numericIds.length then max handle 1 + 1 else 0), u32 (max handle 1)] ++ pdrFields id) s := by
  unfold getPdr
  generalize numericIds = ids at h ⊢
  simp only [h]

theorem effecterStates_of {effecter v : Nat} (h : (effecter = 0x500 ∧ v = s.mgmt.effPower) ∨ (effecter = 0x502 ∧ v = s.mgmt.effReset)
      ∨ (effecter = 0x503 ∧ v = b2n s.power.safeArmed) ∨ (effecter = 0x504 ∧ v = s.mgmt.effLatch)) :
    effecterStates effecter s = pldmReply 0x3A 0 [u8 1, u8 v, u8 v] s := by
  rcases h with ⟨rfl, rfl⟩ | ⟨rfl, rfl⟩ | ⟨rfl, rfl⟩ | ⟨rfl, rfl⟩ <;> rfl

end

/-- Settles O7, request by request. -/
theorem monitoringRowsComplete : Obligations.MonitoringRowsComplete := by
  refine ⟨fun s handle id h hid => gives_of rfl ⟨_, onPldm_ready _ h, getPdr_found hid⟩,
    fun s h => gives_of rfl ⟨_, onPldm_ready _ h, rfl⟩,
    fun s sensor h hs => gives_of rfl ⟨_, onPldm_ready _ h, if_pos hs⟩,
    fun s sensor h hs => gives_of rfl ⟨_, onPldm_ready _ h, if_pos hs⟩,
    fun s effecter v h hv => gives_of rfl ⟨_, onPldm_ready _ h, effecterStates_of hv⟩,
    fun s tid h h1 hlt => gives_of rfl ⟨_, onPldm_ready _ h, ?_⟩,
    fun s enable eid h => gives_of rfl ⟨_, onPldm_ready _ h, rfl, rfl, rfl⟩,
    fun s h => gives_of rfl ⟨_, onPldm_ready _ h, fun e rest he => ?_, fun he => by simp only [pollEvent, he]⟩,
    fun s value target h hv ht hsafe hreq => gives_of rfl ⟨_, onPldm_ready _ h, ?_⟩,
    fun s h hb => gives_of rfl ⟨_, onPldm_ready _ h, ?_⟩,
    fun s n h hb => gives_of rfl ⟨_, onPldm_ready _ h, ?_⟩,
    fun s value h hv => gives_of rfl ⟨_, onPldm_ready _ h, ?_⟩,
    fun s h => gives_of rfl ⟨_, onPldm_ready _ h, ?_⟩,
    fun s rs hu => ⟨_, rfl, sensorUpdate_stores rs hu⟩⟩
  · rw [setTid, if_pos ⟨h1, hlt⟩]
    exact ⟨rfl, rfl⟩
  · simp only [pollEvent, he]
    exact ⟨rfl, rfl⟩
  · obtain ⟨c, hpower⟩ := requestPower_power { target := target, release := decide (5 ≤ value), waitMs := 10, source := .pldm }
      (onMgmt (fun m => { m with effPower := value }) s)
    rw [powerEffecter_allowed hv ht hsafe hreq]
    simp [requestPower_mgmt, hpower]
  · rw [resetEffecter_one, askReset_settled (by exact hb)]
    exact ⟨effReset_moduleReset _, moduleReset_clears _⟩
  · rw [resetEffecter_one, askReset_testing (by exact hb)]
    exact ⟨rfl, rfl, rfl, rfl, rfl⟩
  · rw [safeEffecter, if_pos hv]
    exact ⟨rfl, rfl⟩
  · rw [latchEffecter, if_neg (by decide)]
    cases allCool s <;> simp [Machine.when, pldmReply_out, leBytes, u8]

end Sys2Proof.Rows
end

section
/-! SUPPORT. PLDM firmware update (R419, R420). -/

namespace Sys2Proof.Rows

open Sys2Proof.Machine Sys2Proof.Safety Sys2Proof.Laws Sys2Proof.Frames

set_option Elab.async false

section
variable {s : State}

/-- A request in the state of the update that it belongs to acts. -/
theorem inUpdate_at {command n : Nat} (f : State → State) (h : s.mgmt.update = n) : inUpdate command n f s = f s :=
  if_pos h

theorem requestUpdate_idle (h : s.mgmt.update = 0) (hbusy : storeBusy s = false) :
    requestUpdate s = pldmReply 0x10 0 []
      (onMgmt (fun m => { m with update := 1, updateData := [], updateLength := 0, updateResult := 0 }) s) := by
  simp [requestUpdate, h, hbusy]

theorem updateComponent_fits {length : Nat} (h : s.mgmt.update = 2) (hlen : length ≤ firmwareMax) :
    updateComponent 1 length s = requestPiece (pldmReply 0x14 0 [u8 0]
      (onMgmt (fun m => { m with update := 3, updateLength := length, updateData := [], updateResult := 0 }) (onInactive (fun _ => {}) s))) := by
  rw [updateComponent, inUpdate_at _ h, if_neg (by omega)]

theorem firmwareData_piece {data : List Byte} (h : s.mgmt.update = 3) (hlt : s.mgmt.updateData.length < s.mgmt.updateLength)
    (hdata : data.length = min 1024 (s.mgmt.updateLength - s.mgmt.updateData.length)) :
    (firmwareData data true s).mgmt.updateData = s.mgmt.updateData ++ data := by
  simp only [firmwareData]
  rw [if_neg (by omega), if_neg (by omega), if_neg (by decide)]
  unfold Machine.when
  split <;> simp

/-- A whole transfer is answered and goes on to verification, whatever the checks of the image find. -/
theorem transferComplete_whole (h : s.mgmt.update = 3) (hle : s.mgmt.updateLength ≤ s.mgmt.updateData.length) :
    (transferComplete s).mgmt.update = 4 ∧ (transferComplete s).out = s.out ++ [.mctp 1 0x16 (leBytes 1 0)] := by
  unfold transferComplete
  rw [if_neg (by omega)]
  dsimp only
  split
  · simp [mctpReply_out, u8]
  · split <;> simp [mctpReply_out, u8]

theorem dropTransfer_loading (h : 3 ≤ s.mgmt.update) : (dropTransfer s).mgmt.updateData = [] := by
  simp [dropTransfer, h]

/-- An activation that need not wait ends the update. -/
theorem activateFirmware_ends {ok2 ok4 : Bool} {d : List Byte} (h : s.mgmt.update = 2) (hd : verifiedImage s = some d)
    (hready : s.post.standby = false ∨ handoverReady s none = true) : (activateFirmware ok2 ok4 s).mgmt.update = 0 := by
  rw [activateFirmware, inUpdate_at _ h, if_neg (by simp [hd])]
  dsimp only
  rw [if_neg]
  · simp
  · rcases hready with hr | hr <;> simp [hr]

end

/-- Settles O8, request by request. -/
theorem updateRowsComplete : Obligations.UpdateRowsComplete := by
  refine ⟨fun s h => gives_of rfl ⟨_, onPldm_ready _ h, rfl⟩, fun s h => gives_of rfl ⟨_, onPldm_ready _ h, rfl⟩,
    fun s h hu hb => gives_of rfl ⟨_, onPldm_ready _ h, ?_⟩, fun s h hu => gives_of rfl ⟨_, onPldm_ready _ h, ?_⟩,
    fun s length h hu hlen => gives_of rfl ⟨_, onPldm_ready _ h, ?_⟩,
    fun s data h hu hlt hdata => gives_of rfl ⟨_, onPldm_ready _ h, firmwareData_piece hu hlt hdata⟩,
    fun s h hu hle => gives_of rfl ⟨_, onPldm_ready _ h, transferComplete_whole hu hle⟩,
    fun s h hu hr => gives_of rfl ⟨_, onPldm_ready _ h, ?_⟩, fun s h hu => gives_of rfl ⟨_, onPldm_ready _ h, ?_⟩,
    fun s ok2 ok4 d h hu hd hready => gives_of rfl ⟨_, onPldm_ready _ h, activateFirmware_ends hu hd hready⟩,
    fun s h => gives_of rfl ⟨_, onPldm_ready _ h, rfl⟩, fun s h hu => gives_of rfl ⟨_, onPldm_ready _ h, ?_⟩,
    fun s h hu => gives_of rfl ⟨_, onPldm_ready _ h, ?_⟩, fun s hm hu => ⟨_, rfl, ?_⟩⟩
  · rw [requestUpdate_idle hu hb]
    exact ⟨rfl, rfl⟩
  · rw [passComponents, inUpdate_at _ hu]
    exact ⟨rfl, rfl⟩
  · rw [updateComponent_fits hu hlen]
    simp
  · rw [verifyComplete, if_neg (by omega), if_pos hr, if_pos hr]
    exact ⟨rfl, rfl⟩
  · rw [applyComplete, if_neg (by omega)]
    exact ⟨rfl, rfl⟩
  · rw [cancelComponent, if_neg (by omega)]
    exact ⟨rfl, dropTransfer_loading hu⟩
  · rw [cancelUpdate, if_neg (by omega)]
    exact ⟨rfl, dropTransfer_loading hu⟩
  · rw [if_pos ⟨hm, hu⟩]
    exact ⟨rfl, dropTransfer_loading (by omega)⟩

end Sys2Proof.Rows
end

section
/-! SUPPORT. SPDM attestation and DOE discovery (R109, R421 to R423). -/

namespace Sys2Proof.Rows

open Sys2Proof.Machine Sys2Proof.Safety Sys2Proof.Laws Sys2Proof.Frames

set_option Elab.async false

section
variable {s : State} {t : Nat}

theorem onTransport_valid (f : State → State) (ht : t < 3) : onTransport t f s = .next (f s) := if_pos ht

/-- After its steps of negotiation a request is taken. -/
theorem spdmAt_negotiated {n : Nat} (f : State → State) (ho : spdmOpen s t = true) (hr : (spdmOf s t).resync = false)
    (hn : n ≤ (spdmOf s t).negotiated) : spdmAt t n f s = f s := by
  simp [spdmAt, ho, hr, Nat.not_lt.2 hn]

theorem spdmOf_spdmReply (c : Nat) (b : List Byte) (s : State) : spdmOf (spdmReply t c b s) t = spdmOf s t := by
  simp [spdmOf]

theorem spdmOf_onSpdm (f : Spdm → Spdm) (s : State) : spdmOf (onSpdm t f s) t = f (spdmOf s t) := by
  simp [spdmOf, onSpdm]

theorem spdmVersion_open (ho : spdmOpen s t = true) :
    spdmVersion t s = spdmReply t 0x04 (pack [u8 1, u16 0x1200]) (onSpdm t (fun _ => { negotiated := 1, resync := false }) s) := by
  simp only [spdmVersion, ho, Bool.not_true, Bool.false_eq_true, if_false]

theorem spdmSigned_free (c : Nat) (nonce body : List Byte) (s : State) : (spdmSigned t c nonce body s).free = s.free + 1 := by
  simp only [spdmSigned, spdmReply_free, freshNonce]

end

/-- Settles O9, request by request. -/
theorem attestationRowsComplete : Obligations.AttestationRowsComplete := by
  refine ⟨fun s t ht ho => gives_of rfl ⟨_, onTransport_valid _ ht, ?_⟩,
    fun s t ht ho hr hn => gives_of rfl ⟨_, onTransport_valid _ ht, ?_⟩,
    fun s t ht ho hr hn => gives_of rfl ⟨_, onTransport_valid _ ht, ?_⟩,
    fun s t ht ho hr hn => gives_of rfl ⟨_, onTransport_valid _ ht, spdmAt_negotiated _ ho hr hn⟩,
    fun s t off len ht ho hr hn hoff => gives_of rfl ⟨_, onTransport_valid _ ht, ?_⟩,
    fun s t nonce ht ho hr hn => gives_of rfl ⟨_, onTransport_valid _ ht, ?_⟩,
    fun s t i nonce ht ho hr hn h1 h6 => gives_of rfl ⟨_, onTransport_valid _ ht, ?_⟩,
    fun s port hp ho => ⟨_, (if_neg (Nat.not_le.2 hp)).trans (if_neg (by decide)), ?_⟩⟩
  · rw [spdmVersion_open ho, spdmOf_spdmReply, spdmOf_onSpdm]
  · rw [spdmCapabilities, spdmAt_negotiated _ ho hr hn, spdmOf_spdmReply, spdmOf_onSpdm]
    exact Nat.le_max_right _ _
  · rw [spdmAlgorithms, spdmAt_negotiated _ ho hr hn, if_pos (by decide), spdmOf_spdmReply, spdmOf_onSpdm]
  · rw [spdmCertificate, spdmAt_negotiated _ ho hr hn, if_neg (by simpa using hoff)]
  · have hs : spdmChallenge t 0 nonce s = spdmSigned t 0x03 nonce chainDigest s := by
      rw [spdmChallenge, spdmAt_negotiated _ ho hr hn, if_neg (by simp)]
    exact ⟨hs, by rw [hs, spdmSigned_free]⟩
  · rw [spdmMeasurements, spdmAt_negotiated _ ho hr hn, if_neg (by omega), if_pos h6]
  · rw [if_pos rfl, doeDiscovery, ho, if_neg (by decide), if_pos (by decide)]
    rfl

end Sys2Proof.Rows
end

section
/-! SUPPORT. Power-up, resets and self-test (R71 to R89). -/

namespace Sys2Proof.Rows

open Sys2Proof.Machine Sys2Proof.Safety Sys2Proof.Laws Sys2Proof.Frames

set_option Elab.async false

section
variable {s : State}

theorem readLatch_power (s : State) : (readLatch s).power = s.power := readLatch_touches.keeps [.power] rfl

theorem phaseA_power (s : State) : ∃ b, (phaseA s).power = { s.power with
    romRecovery := b, boot := .standby, state := some 4, mctpOpen := true, alertMctp := false
    alertSupervisor := !s.power.supervisorOk, latchPending := s.power.latch.cause != 0 } := by
  obtain ⟨b, hb⟩ := startFirmware_power s
  exact ⟨b, by simp [phaseA, openEndpoint, readLatch_power, hb]⟩

theorem powerOn_starts {board : BoardStart} (hb : board.processorStarts = true) (s : State) : powerOn board s =
    phaseA (onPower (fun p => { p with supervisorOk := board.supervisorOk, enable := board.enableAbove }) s) := if_pos hb

theorem powerOn_dead {board : BoardStart} (hb : board.processorStarts = false) (s : State) : powerOn board s =
    onPower (fun p => { p with boot := .unpowered, supervisorOk := board.supervisorOk, enable := board.enableAbove }) s :=
  if_neg (by simp [hb])

theorem inputPowerUp_dark {a b : Bool} {board : BoardStart} (hu : s.power.boot = .unpowered) (hA : s.power.inA = false)
    (hB : s.power.inB = false) (hab : (a || b) = true) :
    inputPowerUp a b board s = powerOn board (onPower (fun p => { p with inA := a, inB := b }) s) := by
  simp only [inputPowerUp]
  rw [if_pos ⟨hu, by simp [hA, hB], hab⟩]
  simp [onPower, hA, hB]

theorem inputPowerUp_dead {a b : Bool} {board : BoardStart} (hu : s.power.boot = .unpowered)
    (hb : board.processorStarts = false) : (inputPowerUp a b board s).power.boot = .unpowered
      ∧ (inputPowerUp a b board s).power.inA = (s.power.inA || a) ∧ (inputPowerUp a b board s).power.inB = (s.power.inB || b)
      ∧ (inputPowerUp a b board s).power.mctpOpen = s.power.mctpOpen := by
  simp only [inputPowerUp]
  split
  · rw [powerOn_dead hb]
    exact ⟨rfl, rfl, rfl, rfl⟩
  · exact ⟨hu, rfl, rfl, rfl⟩

theorem inputUnder_down {i : Nat} (hp : postUp s = false) :
    (inputUnder i s).power.inA = (if i = 0 then false else s.power.inA)
      ∧ (inputUnder i s).power.inB = (if i = 0 then s.power.inB else false) := by
  simp only [inputUnder, hp, Bool.false_eq_true, if_false]
  by_cases hi : i = 0 <;> simp only [hi, if_true, if_false] <;> split <;> exact ⟨rfl, rfl⟩

/-- What stands when power comes back in a cold reset. -/
def restored (s : State) : State := clearAll { s with power := { s.power with inA := true, inB := true, latch := {} } }

theorem powerOn_restored (board : BoardStart) (s : State) :
    (if board.processorStarts then
      (powerOn board (restored s)).power.boot = .standby ∧ (powerOn board (restored s)).power.state = some 4
    else (powerOn board (restored s)).power.boot = .unpowered)
    ∧ (powerOn board (restored s)).power.inA = true ∧ (powerOn board (restored s)).power.inB = true
    ∧ (powerOn board (restored s)).power.enable = board.enableAbove ∧ (powerOn board (restored s)).power.latch = {} := by
  cases hb : board.processorStarts with
  | true =>
    obtain ⟨b, h⟩ := phaseA_power
      (onPower (fun p => { p with supervisorOk := board.supervisorOk, enable := board.enableAbove }) (restored s))
    rw [powerOn_starts hb, h]
    exact ⟨⟨rfl, rfl⟩, rfl, rfl, rfl, rfl⟩
  | false =>
    rw [powerOn_dead hb]
    exact ⟨rfl, rfl, rfl, rfl, rfl⟩

theorem powerOn_volatile (board : BoardStart) (s : State) : (powerOn board s).rings = s.rings
    ∧ (powerOn board s).mem = s.mem ∧ (powerOn board s).time = s.time := by
  have h := powerOn_touches (b := board) (s := s)
  exact ⟨h.keeps [.rings] rfl, h.keeps [.mem] rfl, h.keeps [.time] rfl⟩

theorem coldReset_dark (hA : s.power.inA = false) (hB : s.power.inB = false) :
    coldReset s = powerOn (freshBoard s).1 (restored (freshBoard s).2) := by
  simp only [coldReset]
  rw [if_neg (by simp [hA, hB])]
  rfl

theorem mctpClosed (hi : (s.power.inA || s.power.inB) = true) (hb : s.power.boot ≠ .shutdown) (hm : s.power.mctpOpen = false) :
    ((s.power.inA || s.power.inB) && s.power.boot != .shutdown && !s.power.mctpOpen) = true := by simp [hi, hb, hm]

theorem enableHigh_low (he : s.power.enable = false) :
    (enableHigh s).power.enable = true ∧ (enableHigh s).power.latchPending = false := by
  simp only [enableHigh, he, Bool.false_eq_true, if_false]
  split
  · obtain ⟨c, hc⟩ := requestPower_power { target := 0, release := false, waitMs := 10, source := .enable }
      (onPower (fun p => { p with enable := true, latchPending := false }) s)
    rw [hc]
    exact ⟨rfl, rfl⟩
  · exact ⟨rfl, rfl⟩

/-- What a fall of ENABLE asks for. -/
def lowRequest : PowerReq := { target := 4, release := false, waitMs := 10, source := .enable }

theorem enableLow_serving {n : Nat} (he : s.power.enable = true) (hb : s.power.boot = .serving) (hs : s.power.state = some n)
    (hn : n ≠ 4) : enableLow s =
      journal 0x2002 4 2 false [] (requestPower lowRequest (onPower (fun p => { p with enable := false }) s)) := by
  simp [enableLow, he, hb, hs, hn, lowRequest]

theorem enableLow_testing {n : Nat} (he : s.power.enable = true) (hb : s.power.boot = .retried ∨ s.power.boot = .waves n) :
    enableLow s = journal 0x2002 4 2 false []
      (onPower (fun p => { p with enable := false, enableDropped := true }) s) := by
  rcases hb with hb | hb <;> simp [enableLow, he, hb, onPower]

theorem phaseB_boot {r0 r8 : TestOutcome} (hb : s.power.boot = .standby) (he : s.power.enable = true)
    (hl : s.power.latchPending = false) (ha : s.power.alertSupervisor = false) (ht : tapHolds s = false)
    (hA : s.power.inA = true) (hB : s.power.inB = true) : (phaseB r0 r8 s).power.boot = .waves 0 := by
  simp only [phaseB]
  rw [if_neg (by simp [hb, he, hl, ha, ht]), if_neg (by simp [hA, hB]), trainHost_touches.keeps [.power] rfl,
    trainHost_touches.keeps [.power] rfl]
  rfl

theorem orStop_none {f : State → State} (h : testStops s = none) : orStop f s = f s := by simp only [orStop, h]

theorem selftestWave_boot {n : Nat} {rs : List TestResult} (hb : s.power.boot = .waves n) (hn : n < 9)
    (ht : testStops s = none) : (selftestWave rs s).power.boot = .waves (n + 1) := by
  simp only [selftestWave, hb]
  rw [if_neg (Nat.not_le.2 hn), orStop_none ht]
  rfl

theorem selftestRetry_boot {rs : List TestResult} (hb : s.power.boot = .waves 9) (hu : (untestedMembers s).isEmpty = false)
    (ht : testStops s = none) : (selftestRetry rs s).power.boot = .retried := by
  simp only [selftestRetry]
  rw [if_neg (by simp [hb, hu]), orStop_none ht]
  rfl

theorem journal_keepsPower (c k p : Nat) (e : Bool) (fs : List Fld) (s : State) : (journal c k p e fs s).power = s.power :=
  journal_power ..

theorem reachState_power (n : Nat) (s : State) : (reachState n s).power = { s.power with state := some n } := by
  rw [reachState, modEvent_power, fnEventAll_touches.keeps [.power] rfl, journal_power]
  rfl

theorem markAll_power (s : State) : (markAll s).power = s.power := markAll_touches.keeps [.power] rfl

theorem beginEpoch_power (e n : Nat) (s : State) : (beginEpoch e n s).power = s.power := beginEpoch_touches.keeps [.power] rfl

theorem enablePorts_power (ps : List Nat) (s : State) : (updates ps enablePort s).power = s.power :=
  updates_keeps State.power _ (fun _ _ => enablePort_touches.keeps [.power] rfl) ps s

theorem writeFindings_power (ok : Bool) (s : State) : (writeFindings ok s).power = s.power :=
  writeFindings_touches.keeps [.power] rfl

theorem enterService_power (hA : s.power.inA = true) (hB : s.power.inB = true) :
    (enterService s).power.boot = .serving ∧ (enterService s).power.state = some 0 ∧ (enterService s).power.ready = true := by
  simp only [enterService, hA, hB, Bool.and_self, Bool.not_true, when, Bool.false_eq_true, if_false, beginEpoch_power, enablePorts_power, journal_power,
    onPower_power, reachState_power, onHost_power, markAll_power]
  exact ⟨trivial, trivial, trivial⟩

theorem dropBudgets_power (s : State) : ∃ f, (dropBudgets s).power = { s.power with fronds := f } :=
  updates_inv (fun t => ∃ f, t.power = { s.power with fronds := f }) _
    (fun _ _ ⟨_, h⟩ => ⟨_, by rw [onFrondPower_power, h]⟩) _ s ⟨_, rfl⟩

theorem enterSafe_power (r : Nat) (s : State) : ∃ p, (enterSafe r s).power = p ∧ p.boot = .safe ∧ p.safeReason = r
    ∧ p.state = some 3 ∧ p.frondsOn = false := by
  refine ⟨_, rfl, ?_⟩
  have hm (s : State) : (updates allFronds (fun f => markDie f false 2 false) s).power = s.power :=
    updates_keeps State.power (fun f => markDie f false 2 false) (fun _ _ => markDie_touches.keeps [.power] rfl) _ s
  have hc (s : State) : (updates allFronds clearDie s).power = s.power :=
    updates_keeps State.power _ (fun _ _ => clearDie_touches.keeps [.power] rfl) _ s
  simp only [enterSafe, enablePorts_power, journalRule_power, onHost_power, hm, markAll_power, hc]
  obtain ⟨f, hf⟩ := dropBudgets_power (onPower (fun p => { p with
    boot := .safe, state := some 3, safeReason := r, safeArmed := false, frondsOn := false, frondClocksOn := false
    verdict := 0, enableDropped := false, resetPending := false }) s)
  rw [hf]
  exact ⟨rfl, rfl, rfl, rfl⟩

theorem verdict_service {ok : Bool} (hb : s.power.boot = .retried ∨ s.power.boot = .waves 9 ∧ untestedMembers s = [])
    (ht : testStops s = none)
    (hr : safeReason (selectedMap s).isNone (onMem (fun _ => {}) (writeFindings ok s)) = none) :
    verdict ok s = enterService (onMem (fun _ => {}) (writeFindings ok s)) := by
  have hg : ¬ (s.power.boot ≠ .retried ∧ !(s.power.boot == .waves 9 && (untestedMembers s).isEmpty)) := by
    rcases hb with hb | ⟨hb, hu⟩
    · simp [hb]
    · simp [hb, hu]
  simp only [verdict]
  rw [if_neg hg, orStop_none ht]
  simp only [hr]

theorem phaseCTimeout_testing {n : Nat} (hb : s.power.boot = .retried ∨ s.power.boot = .waves n) (ht : testStops s = none) :
    execPhaseCTimeout s = .next (enterSafe 5 s) := by
  rcases hb with hb | hb <;> simp only [execPhaseCTimeout, hb, orStop_none ht]

end

/-- Settles O10, row by row. -/
theorem powerUpRowsComplete : Obligations.PowerUpRowsComplete := by
  refine ⟨fun s a b board hu hA hB hab hp => gives_of rfl ⟨_, rfl, ?_⟩,
    fun s a b board hu hp => gives_of rfl ⟨_, rfl, inputPowerUp_dead hu hp⟩,
    fun s i hi hp => gives_of rfl ⟨_, if_pos hi, ?_⟩,
    fun s board hA hB hb => gives_of rfl ⟨_, congrArg Host.Outcome.next (coldReset_dark hA hB), ?_⟩,
    fun s hi hb hm => gives_of rfl ⟨_, congrArg Host.Outcome.next (if_pos (mctpClosed hi hb hm)), rfl⟩,
    fun s hp => gives_of rfl ⟨_, congrArg Host.Outcome.next (if_pos hp), rfl⟩,
    fun s he => gives_of rfl ⟨_, rfl, enableHigh_low he⟩,
    fun s n he hb hs hn => gives_of rfl ⟨_, congrArg Host.Outcome.next (enableLow_serving he hb hs hn), ?_⟩,
    fun s n he hb => gives_of rfl ⟨_, congrArg Host.Outcome.next (enableLow_testing he hb), ?_⟩,
    fun s r0 r8 hb he hl ha ht hA hB => gives_of rfl ⟨_, rfl, phaseB_boot hb he hl ha ht hA hB⟩,
    fun s n rs hb hn ht => gives_of rfl ⟨_, rfl, selftestWave_boot hb hn ht⟩,
    fun s rs hb hu ht => gives_of rfl ⟨_, rfl, selftestRetry_boot hb hu ht⟩,
    fun s ok hb ht hA hB hr => gives_of rfl ⟨_, congrArg Host.Outcome.next (verdict_service hb ht hr), enterService_power ?_ ?_⟩,
    fun s n hb ht => gives_of rfl ⟨_, phaseCTimeout_testing hb ht, ?_⟩⟩
  · obtain ⟨c, hc⟩ := phaseA_power (onPower (fun p => { p with supervisorOk := board.supervisorOk, enable := board.enableAbove })
      (onPower (fun p => { p with inA := a, inB := b }) s))
    rw [inputPowerUp_dark hu hA hB hab, powerOn_starts hp, hc]
    exact ⟨rfl, rfl, rfl, rfl, rfl, rfl, rfl⟩
  · obtain ⟨hA, hB⟩ := inputUnder_down (i := i) hp
    split
    case isTrue h0 => exact ⟨hA.trans (if_pos h0), hB.trans (if_pos h0)⟩
    case isFalse h0 => exact ⟨hB.trans (if_neg h0), hA.trans (if_neg h0)⟩
  · obtain ⟨h1, h2, h3, h4, h5⟩ := powerOn_restored (freshBoard s).1 (freshBoard s).2
    obtain ⟨hr, hm, ht⟩ := powerOn_volatile (freshBoard s).1 (restored (freshBoard s).2)
    rw [hb]
    exact ⟨h1, h2, h3, h4, h5, hr, hm, ht⟩
  · obtain ⟨c, hc⟩ := requestPower_power lowRequest (onPower (fun p => { p with enable := false }) s)
    rw [journal_power, hc]
    exact ⟨rfl, rfl⟩
  · rw [journal_power, journal_next]
    exact ⟨rfl, rfl, rfl, rfl⟩
  · rw [onMem_power, writeFindings_power, hA]
  · rw [onMem_power, writeFindings_power, hB]
  · obtain ⟨p, hp, h⟩ := enterSafe_power 5 s
    rw [hp]
    obtain ⟨h1, h2, h3, h4⟩ := h
    exact ⟨h1, h2, h3, h4⟩

end Sys2Proof.Rows
end

section
/-! SUPPORT. The power governor (R46 to R59). -/

namespace Sys2Proof.Rows

open Sys2Proof.Machine Sys2Proof.Safety Sys2Proof.Laws Sys2Proof.Frames

set_option Elab.async false

theorem nodup_of_map {α β : Type} {g : α → β} {l : List α} (h : (l.map g).Nodup) : l.Nodup :=
  (List.pairwise_map.1 h).imp fun hne he => hne (congrArg g he)

theorem eq_of_nodup_map {α β : Type} {g : α → β} {l : List α} {a b : α} (h : (l.map g).Nodup) (ha : a ∈ l) (hb : b ∈ l)
    (he : g a = g b) : a = b := by
  induction l with
  | nil => exact nomatch ha
  | cons c l ih =>
    obtain ⟨hc, hl⟩ := List.nodup_cons.1 h
    rcases List.mem_cons.1 ha with rfl | ha'
    · rcases List.mem_cons.1 hb with rfl | hb'
      · rfl
      · exact absurd (List.mem_map.2 ⟨b, hb', he.symm⟩) hc
    · rcases List.mem_cons.1 hb with rfl | hb'
      · exact absurd (List.mem_map.2 ⟨a, ha', he⟩) hc
      · exact ih hl ha' hb'

/-- An update of every element of a list acts on a view as its update of the one element that the view shows. -/
theorem updates_at {α β : Type} (p : State → β) (f : α → State → State) (g : β → β) {l : List α} {a : α} (hl : l.Nodup)
    (ha : a ∈ l) (hself : ∀ s, p (f a s) = g (p s)) (hother : ∀ b ∈ l, b ≠ a → ∀ s, p (f b s) = p s) (s : State) :
    p (updates l f s) = g (p s) := by
  have keeps : ∀ (m : List α) (u : State), (∀ b ∈ m, b ∈ l ∧ b ≠ a) → p (updates m f u) = p u := by
    intro m
    induction m with
    | nil => exact fun _ _ => rfl
    | cons b m ih =>
      intro u hm
      obtain ⟨hb, hba⟩ := hm b (List.mem_cons_self ..)
      exact (ih (f b u) fun c hc => hm c (List.mem_cons_of_mem _ hc)).trans (hother b hb hba u)
  obtain ⟨m, n, rfl⟩ := List.append_of_mem ha
  have hnd := List.perm_middle.nodup_iff.1 hl
  obtain ⟨hna, -⟩ := List.nodup_cons.1 hnd
  have hsplit : updates (m ++ a :: n) f s = updates n f (f a (updates m f s)) := by simp [updates]
  have hne : ∀ b ∈ m ++ n, b ∈ m ++ a :: n ∧ b ≠ a := fun b hb =>
    ⟨(List.mem_append.1 hb).elim (List.mem_append_left _) fun h => List.mem_append_right _ (List.mem_cons_of_mem _ h),
      fun h => hna (h ▸ hb)⟩
  rw [hsplit, keeps n _ fun b hb => hne b (List.mem_append_right _ hb), hself,
    keeps m _ fun b hb => hne b (List.mem_append_left _ hb)]

theorem allFronds_nodup : allFronds.Nodup := List.nodup_range

/-- The fronds that a command names: one, or all of them. -/
theorem askedFronds_nodup (f : Nat) : (if f = 255 then allFronds else [f]).Nodup := by
  split
  · exact allFronds_nodup
  · simp

theorem frondsInService_nodup (s : State) : (frondsInService s).Nodup := allFronds_nodup.filter _

theorem budgetFronds_nodup (s : State) : (budgetFronds s).Nodup := by
  unfold budgetFronds
  split
  · exact frondsInService_nodup s
  · exact List.nodup_nil

theorem mem_allFronds {f : Nat} : f ∈ allFronds ↔ f < 84 := List.mem_range

section
variable {s : State}

/-! ### Transitions -/

theorem transDone_power (e : Nat) (s : State) : ∃ c, (transDone e s).power = { s.power with trans := none, lastPldm := c } := by
  unfold transDone
  split
  next t ht =>
    obtain ⟨c, hc⟩ := requestDone_power t.req e (setTrans none s)
    exact ⟨c, hc⟩
  next ht => exact ⟨s.power.lastPldm, by rw [← ht]⟩

theorem restateAll_power (s : State) : (restateAll s).power = s.power := restateAll_touches.keeps [.power] rfl

theorem holdRings_power (on : Bool) (s : State) : (holdRings on s).power = { s.power with ringsHeld := on } := by
  rw [holdRings, restateAll_power]
  rfl

theorem atStep_now {st : Step49} {q : PowerReq} {f : PowerReq → State → State} (h : s.power.trans = some { req := q, step := st }) :
    atStep st f s = .next (f q s) := by
  simp only [atStep, h, if_true]

theorem transitionStart_deeper {q : PowerReq} (hp : s.power.pending = some q) (ht : s.power.trans = none)
    (hs : s.power.state = some 0) (hb : s.power.boot = .serving) (hq : requestError s q.target = none) (h0 : q.target ≠ 0) :
    transitionStart s = setTrans (some { req := q, step := .waitLaunches }) (journalRule 1 4 0 false 49 [u8 q.target]
      (onPower (fun p => { p with pending := none, launchesHeld := true }) s)) := by
  have hq' : requestError (onPower (fun p => { p with pending := none }) s) q.target = none := hq
  simp only [transitionStart, hp, ht, hs]
  rw [if_neg (by simp [hb])]
  simp only [hq']
  rw [if_neg h0, if_neg (Nat.not_lt_zero _)]
  rfl

/-- Steps 2 and 3 of an entry that goes beyond P1. -/
def launchesEnded (q : PowerReq) (s : State) : State :=
  setTrans (some { req := q, step := .waitRings })
    (holdRings true (reachState 1 (onPower (fun p => { p with arraysGated := true }) s)))

theorem entryLaunchesEnded_done {q : PowerReq} (ht : s.power.trans = some { req := q, step := .waitLaunches })
    (hl : s.res.launches = []) (hd : launchStarted s = false) (hp : (s.res.phs.any fun e => e.2.state == .loading) = false)
    (h1 : q.target ≠ 1) : execEntryLaunchesEnded s = .next (launchesEnded q s) := by
  rw [execEntryLaunchesEnded, atStep_now ht, if_neg (by simp [hl, hd, hp]), if_neg h1]
  rfl

theorem launchesEnded_power (q : PowerReq) (s : State) : (launchesEnded q s).power = { s.power with
    arraysGated := true, state := some 1, ringsHeld := true, trans := some { req := q, step := .waitRings } } := by
  simp only [launchesEnded, setTrans, onPower_power, holdRings_power, reachState_power]

theorem enterP2_power (s : State) : (enterP2 s).power = { s.power with
    portsKept := true, frondClocksOn := false, state := some 2 } := by
  have hk (l : List Nat) (s : State) : (updates l (fun p s => kaBegin p s) s).power = s.power :=
    updates_keeps State.power _ (fun _ _ => kaBegin_touches.keeps [.power] rfl) l s
  have hm (l : List Nat) (s : State) : (updates l (fun f s => markDie f false 2 false s) s).power = s.power :=
    updates_keeps State.power _ (fun _ _ => markDie_touches.keeps [.power] rfl) l s
  have hs (l : List Nat) (s : State) : (updates l (fun c s => onSteward c (fun x => { x with parked := true }) s) s).power = s.power :=
    updates_keeps State.power _ (fun _ _ => onSteward_power ..) l s
  simp only [enterP2, reachState_power, onPower_power, hm, hs, hk]

theorem enterDeep_two (release : Bool) (h : s.power.state = some 2) : enterDeep 2 release s = s := by
  simp [enterDeep, h]

theorem entryInflightZero_two {q : PowerReq} (ht : s.power.trans = some { req := q, step := .waitInflight })
    (hn : inFlightCount s = 0) (h2 : q.target = 2) : execEntryInflightZero s = .next (transDone 0 (enterP2 s)) := by
  have hs : (enterP2 s).power.state = some 2 := by rw [enterP2_power]
  rw [execEntryInflightZero, atStep_now ht, if_neg (Classical.not_not.2 hn), h2, enterDeep_two _ hs]

theorem entryRingsStopped_done {q : PowerReq} (ht : s.power.trans = some { req := q, step := .waitRings })
    (hr : (s.rings.any fun e => e.2.started.any fun d => d.status.isNone) = false) :
    execEntryRingsStopped s = .next (setTrans (some { req := q, step := .waitInflight }) s) := by
  rw [execEntryRingsStopped, atStep_now ht, if_neg (Bool.eq_false_iff.1 hr)]

theorem exitSequence_now {q : PowerReq} (ht : s.power.trans = some { req := q, step := .exiting }) (h0 : q.target = 0) :
    execExitSequence s = .next (transDone 0 (exitTo 0 s)) := by
  rw [execExitSequence, atStep_now ht, h0]

/-- The request that returns the module to P0. -/
def backRequest : PowerReq := { target := 0, release := false, waitMs := 10, source := .input }

theorem transFail_power {n : Nat} (e : Nat) (hs : s.power.state = some n) : (transFail e s).power.state = some n
    ∧ (if n = 0 then (transFail e s).power.trans = none ∧ (transFail e s).power.launchesHeld = false
          ∧ (transFail e s).power.ringsHeld = false
      else (transFail e s).power.trans = some { req := backRequest, step := .exiting }) := by
  obtain ⟨c, hc⟩ := transDone_power e s
  by_cases h0 : n = 0
  · have ht : transFail e s = holdRings false (onPower (fun p => { p with launchesHeld := false }) (transDone e s)) := by
      simp only [transFail]
      rw [if_pos (by rw [hc, ← h0]; exact hs)]
    rw [if_pos h0, ht, holdRings_power, onPower_power, hc]
    exact ⟨hs, rfl, rfl, rfl⟩
  · have ht : transFail e s = setTrans (some { req := backRequest, step := .exiting }) (transDone e s) := by
      simp only [transFail]
      rw [if_neg (by rw [hc]; simpa [hs] using h0)]
      rfl
    rw [if_neg h0, ht, setTrans, onPower_power, hc]
    exact ⟨hs, rfl⟩

theorem waitLimit_fails {q : PowerReq} {st : Step49} (ht : s.power.trans = some { req := q, step := st })
    (hst : st = .waitLaunches ∨ st = .waitRings) : execWaitLimitExpiry s = .next (transFail eBusy s) := by
  simp only [execWaitLimitExpiry, ht, if_pos hst]

theorem timeout_fails {q : PowerReq} {st : Step49} (ht : s.power.trans = some { req := q, step := st })
    (hst : st = .waitInflight ∨ st = .exiting) : execTransitionTimeout s =
      .next (transFail eTimeout (journalRule 1 3 0 false 49 [u8 q.target] s)) := by
  simp only [execTransitionTimeout, ht, if_pos hst]

theorem reload_power (h c : Nat) (s : State) : (reload h c s).power = s.power := reload_touches.keeps [.power] rfl

theorem assignCores_power (h : Nat) (i : Image) (l : List Nat) (s : State) : (assignCores h i l s).power = s.power :=
  assignCores_touches.keeps [.power] rfl

theorem reloadRecorded_power (s : State) : (reloadRecorded s).power = { s.power with recorded := [] } := by
  refine (updates_keeps State.power _ (fun h s => ?_) _ _).trans rfl
  split
  · split
    · rw [reload_power]
      split
      · rw [assignCores_power]
      · rfl
    · rfl
  · rfl

theorem leaveP1_power (s : State) : (leaveP1 s).power = { s.power with
    arraysGated := false, launchesHeld := false, ringsHeld := false, state := some 0 } := by
  simp only [leaveP1, reachState_power, holdRings_power, onPower_power]

theorem exitTo_fromP1 (h : s.power.state = some 1) : exitTo 0 s = leaveP1 (reloadRecorded s) := by
  have hr : (reloadRecorded s).power.state = some 1 := by rw [reloadRecorded_power]; exact h
  simp [exitTo, h, hr]

/-! ### Budgets and issue fractions -/

theorem frondPowerOf_budgets {l : List (Nat × Rat)} {f : Nat} {w : Rat} (hl : (l.map Prod.fst).Nodup) (hf : (f, w) ∈ l) (s : State) :
    frondPowerOf (updates l (fun b s => onFrondPower b.1 (fun x => { x with budget := b.2 }) s) s) f =
      { frondPowerOf s f with budget := w } := by
  refine updates_at (fun t => frondPowerOf t f) _ (fun x => { x with budget := w }) (nodup_of_map hl) hf
    (fun s => frondPowerOf_onFrondPower ..) (fun b hb hne s => frondPowerOf_onFrondPower_ne _ _ _ _ ?_) s
  exact fun h => hne (eq_of_nodup_map hl hb hf h.symm)

theorem budgetsOf_nodup (s : State) : ((budgetsOf s).map Prod.fst).Nodup := by
  have h : (budgetsOf s).map Prod.fst = budgetFronds s := by simp [budgetsOf, Function.comp_def]
  rw [h]
  exact budgetFronds_nodup s

theorem trimPool_inputMw (p : Power) : (trimPool p).inputMw = p.inputMw ∧ (trimPool p).state = p.state := by
  unfold trimPool
  split
  · exact ⟨rfl, rfl⟩
  · split <;> exact ⟨rfl, rfl⟩

/-- The power state after the input reading of a budget update. -/
def metered (input : Nat) (s : State) : State := onPower (fun p => trimPool { p with inputBad := false, inputMw := input }) s

theorem budgetUpdate_inP0 (input : Nat) (hs : s.power.state = some 0) : budgetUpdate input true s =
    updates (budgetsOf (metered input s)) (fun b s => onFrondPower b.1 (fun f => { f with budget := b.2 }) s) (metered input s) := by
  have hm : onPower (fun p => trimPool { p with inputMw := input })
      (onPower (fun p => { p with inputBad := p.inputBad && !true }) s) = metered input s := by
    simp [metered, onPower]
  simp only [budgetUpdate, if_true, hm]
  rw [if_neg]
  obtain ⟨-, h⟩ := trimPool_inputMw { s.power with inputBad := false, inputMw := input }
  exact Classical.not_not.2 (h.trans hs)

theorem frondPowerOf_governorTick {powers : List (Option Nat)} {f mw : Nat} (hs : s.power.state = some 0) (hf : f ∈ budgetFronds s)
    (hp : powers[f]? = some (some mw)) : frondPowerOf (governorTick powers s) f = issueStep (frondPowerOf s f) mw := by
  rw [governorTick, if_neg (Classical.not_not.2 hs)]
  refine updates_at (fun t => frondPowerOf t f) _ (fun x => issueStep x mw) (budgetFronds_nodup s) hf (fun s => ?_)
    (fun b hb hne s => ?_) s
  · simp only [hp, frondPowerOf_onFrondPower]
  · split
    · exact frondPowerOf_onFrondPower_ne _ _ _ _ hne.symm
    · rfl

/-- One setting of every frond of a list. -/
theorem frondPowerOf_updates {l : List Nat} {f : Nat} (g : FrondPower → FrondPower) (hl : l.Nodup) (hf : f ∈ l) (s : State) :
    frondPowerOf (updates l (fun f s => onFrondPower f g s) s) f = g (frondPowerOf s f) :=
  updates_at (fun t => frondPowerOf t f) _ g hl hf (fun _ => frondPowerOf_onFrondPower ..)
    (fun _ _ hne _ => frondPowerOf_onFrondPower_ne _ _ _ _ hne.symm) s

/-- A frond's power with its clock changed at a rack time. -/
def clocked (mhz now : Nat) (x : FrondPower) : FrondPower := { x with oldClockMhz := x.clockMhz, clockMhz := mhz, changedAt := now }

theorem frondPowerOf_setClocks {l : List Nat} {f mhz : Nat} (hl : l.Nodup) (hf : f ∈ l) (s : State) :
    frondPowerOf (updates l (setClock mhz) s) f = clocked mhz s.time.rackTime (frondPowerOf s f) := by
  have h := updates_at (fun t => (frondPowerOf t f, t.time.rackTime)) (setClock mhz) (fun x => (clocked mhz x.2 x.1, x.2)) hl hf
    (fun s => by simp [setClock, clocked, onFrondPower_time])
    (fun b hb hne s => by simp [setClock, frondPowerOf_onFrondPower_ne _ _ _ _ hne.symm, onFrondPower_time]) s
  exact congrArg Prod.fst h

/-! ### The drop to P3 -/

/-- Step 8's pigeonholes, in their order. -/
def p3Order (s : State) : List Nat := (sortBy (fun a b => decide (a.2.order < b.2.order)) s.res.phs).map Prod.fst

/-- Step 8 after the pigeonholes, and those of them that it records. -/
def suspended (r : Bool) (s : State) : State := updates (p3Order s) (suspendPh r) s
def recordedOf (r : Bool) (s : State) : List Nat :=
  (p3Order s).filter fun h => match phOf (suspended r s) h with | some p => p.state == .suspended | none => false

theorem enterP3_power (r : Bool) (s : State) : (enterP3 r s).power.state = some 3 ∧ (enterP3 r s).power.frondsOn = false := by
  have hc (s : State) : (updates allFronds clearDie s).power = s.power :=
    updates_keeps State.power _ (fun _ _ => clearDie_touches.keeps [.power] rfl) _ s
  have hd (q : Nat → Bool) (s : State) : (dropPackets q s).power = s.power := rfl
  simp only [enterP3, reachState_power, hc, hd]
  obtain ⟨b, hb⟩ := dropBudgets_power (onPower (fun p => { p with recorded := recordedOf r s, frondsOn := false }) (suspended r s))
  exact ⟨trivial, congrArg Power.frondsOn hb⟩

theorem dropToP3_served {n : Nat} (hb : s.power.boot = .serving) (hs : s.power.state = some n) (hn : n < 3) :
    (dropToP3 s).power.state = some 3 ∧ (dropToP3 s).power.frondsOn = false := by
  obtain ⟨c, hc⟩ := transDone_power eSuperseded s
  have hs' : (transDone eSuperseded s).power.state = some n := by rw [hc]; exact hs
  have hb' : (transDone eSuperseded s).power.boot = .serving := by rw [hc]; exact hb
  simp only [dropToP3, hs']
  rw [if_neg (by simp [hb', hn])]
  exact enterP3_power ..

/-! ### Fences -/

theorem repairs_kept {F : List Part} {t : State} (h : Touches F s t) (d : Nat) (hF : F.contains .repairs = false := by exact rfl) :
    repairsOf (dieOf t d) = repairsOf (dieOf s d) := h.same .repairs hF d

theorem dies_kept {F : List Part} {t : State} (h : Touches F s t) (d : Nat) (hF : F.contains .dies = false := by exact rfl) :
    dieOf t d = dieOf s d := congrArg (fun x : Tab Die => tget ({} : Die) x d) (h.same .dies hF)

theorem fenced_of_repairs {x y : Die} (h : repairsOf x = repairsOf y) : x.fenced = y.fenced := congrArg (fun r => r.2.2.1) h

theorem wires_of_repairs {x y : Die} (h : repairsOf x = repairsOf y) : x.badWires = y.badWires ∧ x.linksOut = y.linksOut :=
  ⟨congrArg (fun r => r.2.2.2.2.2.1) h, congrArg (fun r => r.2.2.2.2.2.2.1) h⟩

theorem mapAdd_fabric (es : List (BitVec 64)) (s : State) : (mapAdd es s).fabric = s.fabric := by
  simp only [mapAdd, writeMap, if_true]
  split
  · rfl
  · exact (updates_keeps State.fabric _ (by intros; rfl) _ _).trans rfl

/-- A fence before it clears what its die holds. -/
def fencing (f : Nat) (mesh : Bool) (s : State) : State :=
  let hs := (s.res.phs.filter fun e => (phFronds e.2).contains f).map Prod.fst
  s |> markDie f false 1 mesh
    |> onDie f (fun x => { x with fenced := true, meshOff := mesh })
    |> updates hs (fun h s => losePh h 396 (frondCtlPc (moduleNumber s) f) s)
    |> updates hs (fun h s => match phOf s h with | some p => clearLocks p s | none => s)
    |> endContexts f
    |> when mesh (frondOff f)

theorem fenceFrond_new (mesh : Bool) {f : Nat} (hf : (dieOf s f).fenced = false) : (fenceFrond f mesh s).2 = (fencing f mesh s
      |> onDie f (fun x => { x with locks := [], badLocks := [], badKeys := [], merges := [], parks := [], tallies := [], holds := [] })
      |> onFrondPower f (fun x => { x with clockMhz := 500, oldClockMhz := 500, budget := 0 })
      |> mapAdd [mapEntry 0x05 f 0 0 0 0]
      |> fun t => modEvent 2 (journalFrom (frondCtlPc (moduleNumber s) f) 0xA004 2 0 true [u8 f, u8 (b2n mesh)] t)) := by
  simp only [fenceFrond, hf, Bool.false_eq_true, if_false]
  rfl

theorem repairsOf_fencing (f : Nat) (mesh : Bool) (s : State) (d : Nat) : repairsOf (dieOf (fencing f mesh s) d) =
    repairsOf (dieOf (onDie f (fun x => { x with fenced := true, meshOff := mesh }) s) d) := by
  have h1 (s : State) : repairsOf (dieOf (when mesh (frondOff f) s) d) = repairsOf (dieOf s d) := by
    unfold when
    split
    · exact repairs_kept frondOff_touches d
    · rfl
  have h2 (l : List Nat) (s : State) : repairsOf (dieOf (updates l (fun h s => match phOf s h with
      | some p => clearLocks p s | none => s) s) d) = repairsOf (dieOf s d) := by
    refine updates_keeps (fun t => repairsOf (dieOf t d)) _ (fun h s => ?_) l s
    split
    · exact repairs_kept clearLocks_touches d
    · rfl
  have h3 (l : List Nat) (s : State) : repairsOf (dieOf (updates l (fun h s => losePh h 396 (frondCtlPc (moduleNumber s) f) s) s) d) =
      repairsOf (dieOf s d) :=
    updates_keeps (fun t => repairsOf (dieOf t d)) _ (fun _ _ => repairs_kept losePh_touches d) l s
  simp only [fencing, h1, repairs_kept endContexts_touches d, h2, h3]
  rfl

theorem fenceFrond_die (mesh : Bool) {f : Nat} (hf : (dieOf s f).fenced = false) :
    (dieOf (fenceFrond f mesh s).2 f).fenced = true ∧ (dieOf (fenceFrond f mesh s).2 f).tallies = []
      ∧ ∀ d, (dieOf (fenceFrond f mesh s).2 d).badWires = (dieOf s d).badWires
        ∧ (dieOf (fenceFrond f mesh s).2 d).linksOut = (dieOf s d).linksOut := by
  have hk (t : State) (d : Nat) : dieOf (modEvent 2 (journalFrom (frondCtlPc (moduleNumber s) f) 0xA004 2 0 true [u8 f, u8 (b2n mesh)]
      (mapAdd [mapEntry 0x05 f 0 0 0 0] (onFrondPower f (fun x => { x with clockMhz := 500, oldClockMhz := 500, budget := 0 }) t)))) d =
      dieOf t d := by
    rw [dies_kept modEvent_touches, dies_kept journalFrom_touches, dieOf, mapAdd_fabric]
    rfl
  rw [fenceFrond_new mesh hf]
  simp only [hk, dieOf_onDie]
  have hr := repairsOf_fencing f mesh s f
  rw [dieOf_onDie] at hr
  refine ⟨fenced_of_repairs hr, trivial, fun d => ?_⟩
  have hd : (dieOf (onDie f (fun x => { x with fenced := true, meshOff := mesh }) s) d).badWires = (dieOf s d).badWires
      ∧ (dieOf (onDie f (fun x => { x with fenced := true, meshOff := mesh }) s) d).linksOut = (dieOf s d).linksOut := by
    by_cases h : d = f
    · rw [h, dieOf_onDie]
      exact ⟨rfl, rfl⟩
    · rw [dieOf_onDie_ne _ _ _ _ h]
      exact ⟨rfl, rfl⟩
  obtain ⟨hw, hl⟩ := wires_of_repairs (repairsOf_fencing f mesh s d)
  rw [← hd.1, ← hd.2, ← hw, ← hl]
  by_cases h : d = f
  · rw [h, dieOf_onDie]
    exact ⟨rfl, rfl⟩
  · rw [dieOf_onDie_ne _ _ _ _ h]
    exact ⟨rfl, rfl⟩

/-- A fence leaves its frond fenced. -/
theorem fence_fenced (f : Nat) (mesh : Bool) (s : State) : (dieOf (fence f mesh s) f).fenced = true := by
  cases hf : (dieOf s f).fenced with
  | false => exact (fenceFrond_die mesh hf).1
  | true =>
    simp only [fence, fenceFrond, hf, if_true, when]
    split
    · rw [fenced_of_repairs (repairs_kept frondOff_touches f), dieOf_onDie, fenced_of_repairs (repairs_kept markDie_touches f)]
      exact hf
    · exact hf


end

/-- What POWER_REQUEST asks for. -/
def powerAsked (s : State) (lb : Nat) : PowerReq :=
  { target := argOf s lb 0x0501 0, release := argOf s lb 0x0501 1 == 1
    waitMs := if argOf s lb 0x0501 2 = 0 then 10 else argOf s lb 0x0501 2, source := .letterbox lb }

/-- Settles O11, row by row. -/
theorem governorRowsComplete : Obligations.GovernorRowsComplete := by
  refine ⟨fun s q hp ht hs hb hq h0 => gives_of rfl ⟨_, congrArg Host.Outcome.next (transitionStart_deeper hp ht hs hb hq h0), ?_⟩,
    fun s q ht hl hd hp h1 => gives_of rfl ⟨_, entryLaunchesEnded_done ht hl hd hp h1, ?_⟩,
    fun s q ht hr => gives_of rfl ⟨_, entryRingsStopped_done ht hr, rfl⟩,
    fun s q ht hn h2 => gives_of rfl ⟨_, entryInflightZero_two ht hn h2, ?_⟩,
    fun s q st n ht hst hs => gives_of rfl ⟨_, waitLimit_fails ht hst, transFail_power _ hs⟩,
    fun s q st n ht hst hs h0 => gives_of rfl ⟨_, timeout_fails ht hst, ?_⟩,
    fun s q ht hs h0 => gives_of rfl ⟨_, exitSequence_now ht h0, ?_⟩,
    fun s input f w hs hf => gives_of rfl ⟨_, congrArg Host.Outcome.next (budgetUpdate_inP0 input hs), ?_⟩,
    fun s powers f mw hs hf hp => gives_of rfl ⟨_, rfl, frondPowerOf_governorTick hs hf hp⟩,
    fun s input f hi hf => gives_of rfl ⟨_, congrArg Host.Outcome.next (if_pos hi), ?_⟩,
    fun s input n hi hb hs hn => gives_of rfl ⟨_, (if_pos hi).trans (congrArg Host.Outcome.next (if_pos (by simp [postUp, hb]))), ?_⟩,
    fun s f hf => gives_of rfl ⟨_, if_neg (Nat.not_le.2 hf), ?_⟩,
    fun s => gives_of rfl ⟨_, rfl, ?_⟩,
    fun s f hf => gives_of rfl ⟨_, if_neg (Nat.not_le.2 hf), ?_⟩,
    fun s f hf => gives_of rfl ⟨_, if_neg (Nat.not_le.2 hf), fence_fenced ..⟩,
    fun s lb h hp hq => ?_,
    fun s lb h => ?_,
    fun s lb f h hf ha => ?_,
    fun s lb f h hf ha => ?_⟩
  · rw [setTrans, onPower_power, journalRule_power]
    exact ⟨rfl, rfl, rfl, hs⟩
  · rw [launchesEnded_power]
    exact ⟨rfl, rfl, rfl, rfl⟩
  · obtain ⟨c, hc⟩ := transDone_power 0 (enterP2 s)
    rw [hc, enterP2_power]
    exact ⟨rfl, rfl, rfl, rfl⟩
  · obtain ⟨h1, h2⟩ := transFail_power (s := journalRule 1 3 0 false 49 [u8 q.target] s) eTimeout (by rw [journalRule_power]; exact hs)
    rw [if_neg h0] at h2
    exact ⟨h2, h1⟩
  · obtain ⟨c, hc⟩ := transDone_power 0 (exitTo 0 s)
    rw [hc, exitTo_fromP1 hs, leaveP1_power]
    exact ⟨rfl, rfl, rfl, rfl⟩
  · have hk : (updates (budgetsOf (metered input s)) (fun b s => onFrondPower b.1 (fun f => { f with budget := b.2 }) s)
        (metered input s)).power.inputMw = (metered input s).power.inputMw :=
      updates_keeps (fun t => t.power.inputMw) _ (fun _ _ => by rw [onFrondPower_power]) _ _
    rw [frondPowerOf_budgets (budgetsOf_nodup _) (by exact hf), hk]
    obtain ⟨hm, -⟩ := trimPool_inputMw { s.power with inputBad := false, inputMw := input }
    exact ⟨rfl, hm⟩
  · rw [frondPowerOf_updates _ allFronds_nodup (mem_allFronds.2 hf)]
  · refine dropToP3_served (n := n) ?_ ?_ hn <;> rw [journal_power, onPower_power]
    · split <;> exact hb
    · split <;> exact hs
  · rw [journal_next, frondPowerOf, journal_power]
    exact ⟨congrArg FrondPower.monitorBad (frondPowerOf_onFrondPower ..), congrArg FrondPower.issue (frondPowerOf_onFrondPower ..), rfl⟩
  · rw [journal_next, journal_power]
    exact ⟨rfl, rfl⟩
  · rw [if_pos rfl, journal_next, frondPowerOf, journal_power]
    exact ⟨congrArg FrondPower.clockMhz (frondPowerOf_onFrondPower ..), rfl⟩
  · have hr : powerRequest (some lb) (cmdArgs (lbOf s lb)) s = .wait (onPower (fun p => { p with pending := some (powerAsked s lb) }) s) := by
      simp only [powerRequest]
      rw [show requestError s (arg 0x0501 (cmdArgs (lbOf s lb)) 0) = none from hq]
      simp only [requestPower, hp]
      rfl
    refine gives_of (x := execPowerRequest lb s) rfl ⟨_, runCmd_wait h rfl hr rfl, rfl, ?_⟩
    obtain ⟨-, hrun, -⟩ := h
    rw [lbOf_onLb]
    exact ⟨rfl, hrun⟩
  · exact answers_data (f := fun _ _ s => .done 0 (powerQueryBytes s) s) rfl h rfl (by rw [powerQueryBytes, length_pack [1, 1, 4, 4] rfl]; decide)
  · have hlt : f < 84 := mem_allFronds.1 (List.mem_filter.1 hf).1
    have hd : dieUp s f = true := (List.mem_filter.1 hf).2
    have hm : ∃ t, frondClockSet (some lb) (cmdArgs (lbOf s lb)) s = ok0 t ∧ lbOf t lb = lbOf s lb
        ∧ frondPowerOf t f = clocked (argOf s lb 0x0503 1) s.time.rackTime (frondPowerOf s f) := by
      rcases ha with ha | ha <;> simp only [frondClockSet, show arg 0x0503 (cmdArgs (lbOf s lb)) 0 = _ from ha]
      · rw [if_neg (by omega), if_neg (by simp [hd])]
        exact ⟨_, rfl, rfl, frondPowerOf_onFrondPower ..⟩
      · exact ⟨_, if_pos trivial, updates_keeps (fun t => lbOf t lb) (setClock _) (fun _ _ => rfl) _ s,
          frondPowerOf_setClocks (frondsInService_nodup s) hf s⟩
    obtain ⟨t, ht, hl, hp⟩ := hm
    refine answers_effect (f := frondClockSet) rfl h (r := []) ht hl ?_
    rw [frondPowerOf_postResult, hp]
    exact ⟨rfl, rfl, rfl⟩
  · have hp (t : State) (hf : f ∈ (if argOf s lb 0x0504 0 = 0xFF then allFronds else [argOf s lb 0x0504 0])) :=
      frondPowerOf_updates (fun x => { x with weight := argOf s lb 0x0504 1 }) (f := f)
        (l := if argOf s lb 0x0504 0 = 0xFF then allFronds else [argOf s lb 0x0504 0])
        (askedFronds_nodup _) hf t
    refine answers_effect (f := govWeightSet) rfl h (r := []) rfl (updates_keeps (fun t => lbOf t lb) _ (by intros; rfl) _ s) ?_
    rw [frondPowerOf_postResult]
    refine congrArg FrondPower.weight (hp s ?_)
    rcases ha with ha | ha
    · rw [if_neg (by omega), ha]
      exact List.mem_singleton_self f
    · rw [if_pos ha]
      exact mem_allFronds.2 hf

end Sys2Proof.Rows
end

section
/-! SUPPORT. Rack time (R61 to R66). -/

namespace Sys2Proof.Rows

open Sys2Proof.Machine Sys2Proof.Safety Sys2Proof.Laws Sys2Proof.Frames

set_option Elab.async false

section
variable {s t : State} {lb op e : Nat}

theorem waitingOn_of_waits (h : Waits s lb op) (hl : lbOf t lb = lbOf s lb) : waitingOn t lb op = true := by
  obtain ⟨-, hrun, hphase, hop, -⟩ := h
  simp [waitingOn, isRunning, hl, hrun, hphase, hop]

/-- A command that waits gets the result posted to it. -/
theorem postWaiting_waits (h : Waits s lb op) (hl : lbOf t lb = lbOf s lb) (e : Nat) (r : List Byte) :
    postWaiting lb op e r t = postResult lb e r t := if_pos (waitingOn_of_waits h hl)

theorem posted_waits (h : Waits s lb op) (hl : lbOf t lb = lbOf s lb) (r : List Byte) (he : e < 65536) :
    Posted (postWaiting lb op e r t) lb e := by
  rw [postWaiting_waits h hl]
  obtain ⟨-, -, -, -, hdiscard, -⟩ := h
  exact posted_postResult r (by rw [hl]; exact hdiscard) he

/-! ### The timebase -/

theorem onClock_up (f : State → State) (h : postUp s = true) : onClock f s = .next (f s) := by
  simp [onClock, when, h]

theorem applyLoad_forward {l : RackLoad} {v : Nat} (hv : l.seconds * ticksPerSecond = v) (h : s.time.rackTime ≤ v) :
    (applyLoad l s).time = { s.time with
      rackTime := v, loadedSinceReset := true, slew := 0, slewPeriods := 0, step := none
      freeRunning := s.time.freeRunning && s.time.slew == 0 && s.time.step.isNone } := by
  simp only [applyLoad, hv]
  rw [if_neg (Nat.not_lt.2 h), postWaiting?_time]
  rfl

/-- The check of R63 and the realignment that may be due, after the loads of an edge. -/
def phaseChecked (s : State) : State :=
  let off := s.time.rackTime % ticksPerSecond
  if off = 0 then onTime (fun t => { t with badPhase := 0, badPhaseCount := 0 }) s
  else
    journal 0x1002 1 0 false [u64 off] (onTime (fun t => { t with
      badPhase := off, badPhaseCount := if t.badPhaseCount ≠ 0 ∧ t.badPhase = off then t.badPhaseCount + 1 else 1 }) s)
def realigned (s : State) : State := if s.time.awaitingPps ∨ 3 ≤ s.time.badPhaseCount then realign s else s

theorem updates_one {α : Type} (a : α) (f : α → State → State) (s : State) : updates [a] f s = f a s := rfl

theorem ppsEdge_eq (s : State) : ppsEdge s = realigned (phaseChecked (updates (s.time.loads.filter (loadDue s)) applyLoad
    (onTime (fun t => { t with loads := t.loads.filter fun l => !loadDue s l }) s))) := rfl

theorem phaseChecked_good (h : s.time.rackTime % ticksPerSecond = 0) :
    phaseChecked s = onTime (fun t => { t with badPhase := 0, badPhaseCount := 0 }) s := if_pos h

theorem realigned_not (ha : s.time.awaitingPps = false) (hb : s.time.badPhaseCount < 3) : realigned s = s :=
  if_neg (by simp [ha, hb])

/-- At a second's edge, with no realignment due, the check of R63 finds nothing. -/
theorem goodEdge_time (hoff : s.time.rackTime % ticksPerSecond = 0) (ha : s.time.awaitingPps = false) :
    (realigned (phaseChecked s)).time = { s.time with badPhase := 0, badPhaseCount := 0 } := by
  rw [phaseChecked_good hoff, realigned_not (s := onTime (fun t => { t with badPhase := 0, badPhaseCount := 0 }) s) ha (Nat.zero_lt_succ 2)]
  rfl

theorem goodEdge_load {t : Timebase} (hs : s.time = t) (hv : t.rackTime % ticksPerSecond = 0) (ha : t.awaitingPps = false) :
    (realigned (phaseChecked s)).time = { t with badPhase := 0, badPhaseCount := 0 } := by
  subst hs
  exact goodEdge_time hv ha

theorem ppsEdge_loaded {l : RackLoad} {v : Nat} (hv : l.seconds * ticksPerSecond = v) (hl : s.time.loads = [l])
    (hd : loadDue s l = true) (hr : s.time.rackTime ≤ v) (ha : s.time.awaitingPps = false) :
    (ppsEdge s).time.rackTime = v ∧ (ppsEdge s).time.loads = [] ∧ (ppsEdge s).time.loadedSinceReset = true
      ∧ (ppsEdge s).time.badPhaseCount = 0 := by
  have ht := applyLoad_forward (s := onTime (fun t => { t with loads := [] }) s) hv hr
  have hdue : s.time.loads.filter (loadDue s) = [l] := by simp [hl, hd]
  have hrest : onTime (fun t => { t with loads := t.loads.filter fun l => !loadDue s l }) s =
      onTime (fun t => { t with loads := [] }) s := by simp [onTime, hl, hd]
  have he := goodEdge_load ht (hv ▸ Nat.mul_mod_left _ _) ha
  rw [ppsEdge_eq, hdue, hrest, updates_one, he]
  exact ⟨rfl, rfl, rfl, rfl⟩

theorem rackTimeSet_accepted (hr : argOf s lb 0x0505 0 * ticksPerSecond < 2 ^ 64) :
    rackTimeSet (some lb) (cmdArgs (lbOf s lb)) s = .wait (onTime (fun t => { t with
      loads := t.loads ++ [{ seconds := argOf s lb 0x0505 0, acceptedAt := t.rackTime, assigned := false, lb := some lb }] }) s) :=
  if_neg (Nat.not_le.2 hr)

theorem rackTimeSetTimeout_drops {l : RackLoad} {rest : List RackLoad} (hl : s.time.loads = l :: rest) (ha : l.assigned = false)
    (hlb : l.lb = some lb) : rackTimeSetTimeout s =
      postWaiting lb 0x0505 eTimeout [] (onTime (fun t => { t with loads := rest }) s) := by
  have he : eraseFirst (fun x : RackLoad => !x.assigned) s.time.loads = rest := by simp [hl, eraseFirst, ha]
  have hf : s.time.loads.find? (fun l => !l.assigned) = some l := by simp [hl, ha]
  simp only [rackTimeSetTimeout, hf, hlb, postWaiting?]
  rw [onTime, he]
  rfl

end

/-- Settles O12, row by row. -/
theorem timeRowsComplete : Obligations.TimeRowsComplete := by
  refine ⟨fun s l hu hl hd hr ha => gives_of rfl ⟨_, onClock_up _ hu, ppsEdge_loaded rfl hl hd hr ha⟩,
    fun s hu => gives_of rfl ⟨_, onClock_up _ hu, ?_⟩,
    fun s hu hh => gives_of rfl ⟨_, (onClock_up _ hu).trans (congrArg Host.Outcome.next (if_neg (by simp [hh]))), ?_⟩,
    fun s hu hh hf => gives_of rfl ⟨_, (onClock_up _ hu).trans (congrArg Host.Outcome.next (if_pos ⟨hh, by simp [hf]⟩)), ?_⟩,
    fun s hu hh => gives_of rfl ⟨_, (onClock_up _ hu).trans (congrArg Host.Outcome.next (if_pos hh)), rfl, rfl⟩,
    fun s hs => gives_of rfl ⟨_, congrArg Host.Outcome.next (if_neg hs), ?_⟩,
    fun s hu he => gives_of rfl ⟨_, (onClock_up _ hu).trans (congrArg Host.Outcome.next (if_neg (by simp [he]))), ?_⟩,
    fun s lb h hr => gives_of (x := execRackTimeSet lb s) rfl ⟨_, runCmd_wait h rfl (rackTimeSet_accepted hr) rfl, rfl, ?_, rfl⟩,
    fun s lb h => ?_,
    fun s l rest lb hl ha hlb hw => gives_of rfl ⟨_, congrArg Host.Outcome.next (rackTimeSetTimeout_drops hl ha hlb),
      ?_, ?_⟩⟩
  · rw [journal_next, journal_time]
    exact ⟨rfl, rfl⟩
  · rw [journal_next, journal_time]
    exact ⟨rfl, rfl, rfl⟩
  · rw [journal_next, journal_time]
    exact ⟨rfl, rfl⟩
  · rw [aligned, journal_time]
    exact ⟨rfl, rfl, rfl⟩
  · rw [journalRule_time]
    exact ⟨rfl, rfl⟩
  · rw [lbOf_onLb]
  · have hn : pack [u64 (postmark s.time).toNat] = leBytes 8 (postmark s.time).toNat := by simp [pack, packFrom, u64, roundUp]
    have hl : (leBytes 8 (postmark s.time).toNat).length = 8 := length_leBytes ..
    have ha := answers_data (i := .rackTimeQuery lb) (f := fun _ _ s => .done 0 (pack [u64 (postmark s.time).toNat]) s) rfl h rfl
      (by rw [hn, hl]; decide)
    rwa [hn, hl] at ha
  · exact posted_waits (t := onTime (fun t => { t with loads := rest }) s) hw rfl [] (by decide)
  · exact congrArg Timebase.loads (postWaiting_time ..)

end Sys2Proof.Rows
end

section
/-! SUPPORT. The repair and diagnostic commands (R79 to R81, R385 to R408, R418). -/

namespace Sys2Proof.Rows

open Sys2Proof.Machine Sys2Proof.Safety Sys2Proof.Laws Sys2Proof.Frames

set_option Elab.async false

section
variable {s : State}

/-! ### Reports and the journal -/

theorem length_recordBytes (r : JRec) : (recordBytes r).length = 64 := by
  simp [recordBytes, length_leBytes, padTo]
  omega

theorem length_recordsBytes (rs : List JRec) : (rs.flatMap recordBytes).length = 64 * rs.length := by
  induction rs with
  | nil => rfl
  | cons r rs ih =>
    have h : ((r :: rs).flatMap recordBytes).length = 64 + (rs.flatMap recordBytes).length := by
      rw [List.flatMap_cons, List.length_append, length_recordBytes]
    have hc : (r :: rs).length = rs.length + 1 := rfl
    omega

theorem length_packWords (ws : List Nat) : (pack (ws.map u64)).length = 8 * ws.length := by
  have h : ∀ n, (packFrom (8 * n) (ws.map u64)).length = 8 * ws.length := by
    induction ws with
    | nil => intro n; rfl
    | cons w ws ih =>
      intro n
      have hr : roundUp (8 * n) 8 = 8 * n := by unfold roundUp; omega
      have hn : 8 * n + 8 = 8 * (n + 1) := by omega
      simp [packFrom, u64, hr, hn, length_leBytes, ih]
      omega
  exact h 0

/-! ### The repair map -/

theorem writeMap_true (s : State) : (writeMap true s).post.entries = s.post.entries ∧ (writeMap true s).fabric = s.fabric
    ∧ (writeMap true s).post.lbs = s.post.lbs := by
  simp only [writeMap, if_true]
  split
  · exact ⟨rfl, rfl, rfl⟩
  · exact ⟨updates_keeps (fun t => t.post.entries) _ (by intros; rfl) _ _, updates_keeps State.fabric _ (by intros; rfl) _ _,
      updates_keeps (fun t => t.post.lbs) _ (by intros; rfl) _ _⟩

theorem mapRemove_fabric (q : BitVec 64 → Bool) (s : State) : (mapRemove q s).fabric = s.fabric := by
  simp only [mapRemove]
  split
  · exact (writeMap_true _).2.1
  · rfl

/-- A map of the entries `es` is in MRAM and in use. -/
def mapped (es : List (BitVec 64)) (s : State) : State := writeMap true (onPost (fun p => { p with entries := es }) s)

theorem mapped_entries (es : List (BitVec 64)) (s : State) : (mapped es s).post.entries = es := (writeMap_true _).1

theorem mapped_lb (es : List (BitVec 64)) (s : State) (lb : Nat) : lbOf (mapped es s) lb = lbOf s lb := by
  obtain ⟨-, -, h⟩ := writeMap_true (onPost (fun p => { p with entries := es }) s)
  simp only [lbOf, mapped, h]
  rfl

/-! ### Tiles -/

theorem retired_of_repairs {x y : Die} (h : repairsOf x = repairsOf y) : x.retired = y.retired := congrArg (fun r => r.1) h

/-- A tile marked as retired, before what it held moves. -/
def tileMarked (f t : Nat) (s : State) : State := onDie f (fun x => { x with retired := t :: x.retired.filter (· != t) }) s

theorem retired_lostTile (f t d : Nat) (s : State) :
    (dieOf (onDie f (fun x => { x with lostTiles := t :: x.lostTiles.filter (· != t) }) s) d).retired = (dieOf s d).retired := by
  by_cases h : d = f
  · rw [h, dieOf_onDie]
  · rw [dieOf_onDie_ne _ _ _ _ h]

theorem retireTile_retired (f t : Nat) (s : State) :
    (dieOf (retireTile f t s) f).retired = t :: (dieOf s f).retired.filter (· != t) := by
  have hlaunch (hs : List Nat) (u : State) (pc : Postcode) : (dieOf (updates hs (fun h s => match phOf s h with
      | some p => returnLaunches h (fun x => (logicalAt p f t).any (inLaunch s x)) pc s
      | none => s) u) f).retired = (dieOf u f).retired := by
    refine updates_keeps (fun u => (dieOf u f).retired) _ (fun h u => ?_) hs u
    split
    · exact retired_of_repairs (repairs_kept returnLaunches_touches f)
    · rfl
  have hbind (hs : List Nat) (u : State) : (dieOf (updates hs (rebindTile f t) u) f).retired = (dieOf u f).retired :=
    updates_keeps (fun u => (dieOf u f).retired) _ (fun _ _ => retired_of_repairs (repairs_kept rebindTile_touches f)) hs u
  have hlose (hs : List Nat) (u : State) (pc : Postcode) :
      (dieOf (updates hs (fun h s => losePh h 395 pc s) u) f).retired = (dieOf u f).retired :=
    updates_keeps (fun u => (dieOf u f).retired) _ (fun _ _ => retired_of_repairs (repairs_kept losePh_touches f)) hs u
  have hmap (es : List (BitVec 64)) (u : State) : dieOf (mapAdd es u) f = dieOf u f := by rw [dieOf, mapAdd_fabric]; rfl
  have hmark : (dieOf (tileMarked f t s) f).retired = t :: (dieOf s f).retired.filter (· != t) := by rw [tileMarked, dieOf_onDie]
  simp only [retireTile]
  rw [dies_kept journalFrom_touches, hmap, dieOf_onDie]
  dsimp only
  split
  · rw [hbind]
    exact (hlaunch _ _ _).trans hmark
  · split
    · rw [hlose]
      exact (hlaunch _ _ _).trans hmark
    · rw [retired_lostTile, hlose]
      exact (hlaunch _ _ _).trans hmark

/-! ### Fronds -/

theorem onDie_fenced {d f : Nat} {g : Die → Die} (hg : ∀ x, (g x).fenced = x.fenced) (s : State) :
    (dieOf (onDie d g s) f).fenced = (dieOf s f).fenced := by
  by_cases h : f = d
  · rw [h, dieOf_onDie, hg]
  · rw [dieOf_onDie_ne _ _ _ _ h]

theorem linksOut_fenced {d f l : Nat} (s : State) : (dieOf (onDie d (fun y =>
    if y.linksOut.contains l then y else { y with linksOut := l :: y.linksOut }) s) f).fenced = (dieOf s f).fenced :=
  onDie_fenced (fun x => by split <;> rfl) s

theorem linkOut_fenced (d l f : Nat) (s : State) : (dieOf (linkOut d l s) f).fenced = (dieOf s f).fenced := by
  simp only [linkOut]
  split
  · exact (linksOut_fenced _).trans (linksOut_fenced s)
  · exact linksOut_fenced s

theorem badWire_fenced (d l g w : Nat) (i : Bool) (f : Nat) (s : State) :
    (dieOf (badWire d l g w i s) f).fenced = (dieOf s f).fenced := by
  simp only [badWire]
  split
  · rfl
  · split
    · exact linkOut_fenced ..
    · by_cases h : f = (linkName d l i).1
      · rw [h, dieOf_onDie]
      · rw [dieOf_onDie_ne _ _ _ _ h]

/-- Only an entry of kind 0x05 fences. -/
theorem applyEntry_fenced {e : BitVec 64} (he : entryKind e ≠ 5) (f : Nat) (s : State) :
    (dieOf (applyEntry e s) f).fenced = (dieOf s f).fenced := by
  simp only [applyEntry]
  split
  · rfl
  · split
    · split
      · exact badWire_fenced ..
      · rfl
    · split
      · exact linkOut_fenced ..
      · rfl
    · split
      · exact onDie_fenced (by intros; rfl) s
      · rfl
    · split
      · exact onDie_fenced (by intros; rfl) s
      · rfl
    · next h => exact absurd h he
    · split
      · rfl
      · rfl
    · split
      · exact congrArg Die.fenced (dies_kept exchangePorts_touches f)
      · rfl
    · split
      · exact onDie_fenced (by intros; rfl) s
      · rfl
    · exact congrArg Die.fenced (dies_kept journalRule_touches f)

theorem foundBy_kind {q : Nat → Bool} {d : Nat} {es : List (BitVec 64)} {e : BitVec 64} (he : e ∈ foundBy q d es) :
    entryKind e ≠ 5 := by
  have h := (List.mem_filter.1 he).2
  intro h5
  simp [h5] at h

theorem updates_of_mem {α β : Type} (p : State → β) {f : α → State → State} {l : List α} (h : ∀ a ∈ l, ∀ s, p (f a s) = p s)
    (s : State) : p (updates l f s) = p s := by
  induction l generalizing s with
  | nil => rfl
  | cons a l ih =>
    exact (ih (fun b hb => h b (List.mem_cons_of_mem _ hb)) (f a s)).trans (h a (List.mem_cons_self ..) s)

theorem unfence_ends {f : Nat} {es : List (BitVec 64)} (he : ∀ e ∈ es, entryKind e ≠ 5) (s : State) :
    (dieOf (unfence f es s) f).fenced = false ∧ (frondPowerOf (unfence f es s) f).clockMhz = 900 := by
  have hmap (es : List (BitVec 64)) (u : State) : dieOf (mapAdd es u) f = dieOf u f := by rw [dieOf, mapAdd_fabric]; rfl
  have hmark (b : Bool) (u : State) : dieOf (when b (markDie f true 0 false) u) f = dieOf u f := by
    unfold when
    split
    · exact dies_kept markDie_touches f
    · rfl
  have hpower (b : Bool) (u : State) : frondPowerOf (when b (markDie f true 0 false) u) f = frondPowerOf u f := by
    unfold when
    split <;> rfl
  simp only [unfence]
  rw [hmark, hpower, frondPowerOf_onFrondPower, dies_kept onFrondPower_touches]
  refine ⟨?_, rfl⟩
  unfold when
  split
  · rw [hmap, updates_of_mem (fun u => (dieOf u f).fenced) (fun e hm u => applyEntry_fenced (he e hm) f u), dieOf_onDie]
  · rw [dieOf_onDie]

theorem dieUp_clearDie (f d : Nat) (s : State) : dieUp (clearDie f s) d = dieUp s d := by
  have h := repairs_kept (clearDie_touches (s := s) (d := f)) d
  have hfailed : (dieOf (clearDie f s) d).failed = (dieOf s d).failed := congrArg (fun r => r.2.2.2.2.1) h
  rw [dieUp, dieUp, hfailed, fenced_of_repairs h]

/-! ### What a command's own letterbox keeps -/

theorem lbs_kept {F : List Part} {t : State} (h : Touches F s t) (lb : Nat) (hF : F.contains .lbs = false := by exact rfl) :
    lbOf t lb = lbOf s lb := congrArg (fun x : Tab Letterbox => tget ({} : Letterbox) x lb) (h.same .lbs hF)

theorem lbOf_postWaiting? {l : Nat} (lb : Option Nat) (op e : Nat) (r : List Byte) (h : (lbOf s l).phase ≠ .waiting) :
    lbOf (postWaiting? lb op e r s) l = lbOf s l := by
  cases lb with
  | none => rfl
  | some lb => exact lbOf_postWaiting _ _ _ _ h

theorem lbOf_losePh {l : Nat} (h cause : Nat) (pc : Postcode) (hl : (lbOf s l).phase ≠ .waiting) :
    lbOf (losePh h cause pc s) l = lbOf s l := by
  unfold losePh
  split
  · rfl
  · next p hp =>
    have hret : lbOf (returnAll h pc s) l = lbOf s l := lbs_kept returnAll_touches l
    split
    · exact hret
    · have hlose : lbOf (onPh h (fun p => { p with lb := none }) (phLose h cause (returnAll h pc s))) l = lbOf s l :=
        (lbs_kept (phLose_touches (s := returnAll h pc s)) l).trans hret
      exact (lbOf_postWaiting? _ _ _ _ (by rw [hlose]; exact hl)).trans hlose

theorem lbOf_losePhs {l : Nat} (cause : Nat) (pc : State → Postcode) (hs : List Nat) (hl : (lbOf s l).phase ≠ .waiting) :
    lbOf (updates hs (fun h s => losePh h cause (pc s) s) s) l = lbOf s l :=
  updates_inv (fun t => lbOf t l = lbOf s l) _ (fun h t ht => (lbOf_losePh h cause (pc t) (by rw [ht]; exact hl)).trans ht) hs s rfl

theorem lbOf_mapAdd (es : List (BitVec 64)) (l : Nat) (s : State) : lbOf (mapAdd es s) l = lbOf s l := by
  obtain ⟨-, -, h⟩ := writeMap_true (addEntries es s)
  simp only [lbOf, mapAdd, h]
  rfl

theorem lbOf_fenceFrond {l f : Nat} (hf : (dieOf s f).fenced = false) (hl : (lbOf s l).phase ≠ .waiting) :
    lbOf (fenceFrond f false s).2 l = lbOf s l := by
  have hclear (hs : List Nat) (s : State) : lbOf (updates hs (fun h s => match phOf s h with
      | some p => clearLocks p s | none => s) s) l = lbOf s l := by
    refine updates_keeps (fun t => lbOf t l) _ (fun h s => ?_) hs s
    split
    · exact lbs_kept clearLocks_touches l
    · rfl
  rw [fenceFrond_new false hf, lbs_kept modEvent_touches, lbs_kept journalFrom_touches, lbOf_mapAdd, lbs_kept onFrondPower_touches,
    lbs_kept onDie_repairs]
  simp only [fencing, when, Bool.false_eq_true, if_false]
  have hmark : lbOf (onDie f (fun x => { x with fenced := true, meshOff := false }) (markDie f false 1 false s)) l = lbOf s l :=
    (lbs_kept onDie_repairs l).trans (lbs_kept markDie_touches l)
  rw [lbs_kept endContexts_touches]
  refine (hclear _ _).trans ?_
  rw [lbOf_losePhs 396 (fun s => frondCtlPc (moduleNumber s) f) _ (by rw [hmark]; exact hl)]
  exact hmark

/-! ### The meanings of the commands -/

theorem retireTile_lb {f t l : Nat} (hfree : spareFree s f t = true) : lbOf (retireTile f t s) l = lbOf s l := by
  have hlaunch (hs : List Nat) (u : State) (pc : Postcode) : lbOf (updates hs (fun h s => match phOf s h with
      | some p => returnLaunches h (fun x => (logicalAt p f t).any (inLaunch s x)) pc s
      | none => s) u) l = lbOf u l := by
    refine updates_keeps (fun u => lbOf u l) _ (fun h u => ?_) hs u
    split
    · exact lbs_kept returnLaunches_touches l
    · rfl
  have hbind (hs : List Nat) (u : State) : lbOf (updates hs (rebindTile f t) u) l = lbOf u l :=
    updates_keeps (fun u => lbOf u l) _ (fun _ _ => lbs_kept rebindTile_touches l) hs u
  simp only [retireTile, hfree, if_true]
  rw [lbs_kept journalFrom_touches, lbOf_mapAdd, lbs_kept onDie_repairs, hbind]
  exact (hlaunch _ _ _).trans rfl

theorem unfence_lb (f l : Nat) (es : List (BitVec 64)) (s : State) : lbOf (unfence f es s) l = lbOf s l := by
  have hmark (b : Bool) (u : State) : lbOf (when b (markDie f true 0 false) u) l = lbOf u l := by
    unfold when
    split <;> rfl
  have hremove (q : BitVec 64 → Bool) (u : State) : lbOf (mapRemove q u) l = lbOf u l := by
    simp only [mapRemove]
    split
    · simp only [lbOf, (writeMap_true _).2.2]
      rfl
    · rfl
  simp only [unfence]
  rw [hmark, lbs_kept onFrondPower_touches]
  unfold when
  split
  · rw [lbOf_mapAdd, updates_keeps (fun u => lbOf u l) _ (fun _ _ => lbs_kept applyEntry_touches l), lbs_kept onDie_repairs, hremove]
  · rw [lbs_kept onDie_repairs, hremove]

variable {lb : Nat}

/-- Without an abort, a fenced frond's test gives its outcome where a neighbour is in service. -/
theorem frondRetest_cleared {f : Nat} (o : TestOutcome) (h : Started s lb 0x0607) (hf : f = argOf s lb 0x0607 0)
    (hfence : (dieOf s f).fenced = true) : frondRetest o (some lb) (cmdArgs (lbOf s lb)) s =
      if !(dieNeighbours f).any (dieUp s) then .done 0 (pack [u8 2]) (clearDie f s)
      else match o with
        | .pass => .done 0 (pack [u8 0]) (unfence f [] (clearDie f s))
        | .repaired es => .done 0 (pack [u8 1]) (unfence f (foundBy (dieUp (clearDie f s)) f es) (clearDie f s))
        | .failed _ => .done 0 (pack [u8 2]) (clearDie f s) := by
  have ha : arg 0x0607 (cmdArgs (lbOf s lb)) 0 = f := hf.symm
  have hup : dieUp (clearDie f s) = dieUp s := funext fun d => dieUp_clearDie f d s
  have hlb : lbOf (clearDie f s) lb = lbOf s lb := lbs_kept clearDie_touches lb
  obtain ⟨-, -, -, -, -, habort⟩ := h
  simp only [frondRetest, ha, hlb, habort, hup]
  refine (if_neg (by simp [hfence])).trans ((if_neg (by decide)).trans ?_)
  cases o <;> rfl

end

theorem packByte (v : Nat) : pack [u8 v] = leBytes 1 v := by simp [pack, packFrom, u8, roundUp]

theorem entries_postResult (lb e : Nat) (r : List Byte) (s : State) : (postResult lb e r s).post.entries = s.post.entries := by
  have h := (postResult_touches (s := s) (lb := lb) (errCode := e) (res := r)).same .post rfl
  simp only [Part.Same, Post.mk.injEq] at h
  simp only [h]

/-- The entries that a REPAIR_MAP_EDIT of operation 0 reads. -/
def mapPart (s : State) (lb : Nat) : List Byte :=
  pack (((s.post.entries.drop (argOf s lb 0x0604 2)).take (argOf s lb 0x0604 1)).map fun e => u64 e.toNat)

/-- Settles O13, command by command. -/
theorem repairCommandsComplete : Obligations.RepairCommandsComplete := by
  refine ⟨fun s lb part h hr hp => ?_, fun s lb recs d h hold hnext hrecs hd hn => ?_, fun s lb h => ?_, fun s lb h h0 hr hn => ?_,
    fun s lb h h1 hl => ?_, fun s lb h h2 hm => ?_, fun s lb f k h hf hk hfree => ?_, fun s lb f h hf hfence => ?_,
    fun s lb f o h hf hfence hn ho => ?_, fun s lb f o h hf hfence hor => ?_, fun s lb last c h hlast hc hr hn => ?_,
    fun s lb h hb => ?_⟩
  · have hm : selftestReportRead (some lb) (cmdArgs (lbOf s lb)) s =
        .done 0 (pack [u32 (reportBytes s).length, u16 part.length] ++ part) s := by
      rw [hp]
      exact if_neg (Nat.not_lt.2 hr)
    have hlen : (pack [u32 (reportBytes s).length, u16 part.length] ++ part).length = 6 + part.length := by
      rw [List.length_append, length_pack [4, 2] rfl]
      rfl
    have hpart : part.length ≤ 2026 := by rw [hp]; exact List.length_take_le ..
    refine answers_with (f := selftestReportRead) rfl h hm rfl (by rw [hlen]; omega) fun hdata => ⟨?_, postResult_power .., postResult_mem ..⟩
    rw [← hlen]
    exact hdata
  · have hm : journalRead (some lb) (cmdArgs (lbOf s lb)) s = .done 0 d s := by
      rw [hd, hrecs]
      exact if_neg (by simpa using ⟨hold, hnext⟩)
    have hlen : d.length ≤ 2032 := by
      have hrl : recs.length ≤ 31 := by
        rw [hrecs]
        exact Nat.le_trans (List.length_take_le ..) hn
      rw [hd, List.length_append, length_recordsBytes, length_pack [1, 8] rfl]
      have hp : packSize 0 [1, 8] = 16 := by decide
      omega
    exact answers_with (f := journalRead) rfl h hm rfl hlen fun hdata => ⟨hdata, postResult_power .., postResult_mem ..⟩
  · have hm : journalAppend (some lb) (cmdArgs (lbOf s lb)) s =
        .done 0 (leBytes 8 s.post.journal.next) (textRecord lb ((cmdArgs (lbOf s lb)).take 48) s) := by
      have hp : pack [u64 s.post.journal.next] = leBytes 8 s.post.journal.next := by simp [pack, packFrom, u64, roundUp]
      rw [journalAppend, hp]
      rfl
    have hlen : (leBytes 8 s.post.journal.next).length = 8 := length_leBytes ..
    refine answers_with (f := journalAppend) rfl h hm (lbs_kept textRecord_touches lb) (by rw [hlen]; decide) fun hdata => ?_
    rwa [hlen] at hdata
  · have hm : mapRead (some lb) (cmdArgs (lbOf s lb)) s = .done 0 (mapPart s lb) s := if_neg (Nat.not_lt.2 hr)
    have hlen : (mapPart s lb).length ≤ 2032 := by
      have hw := length_packWords (((s.post.entries.drop (argOf s lb 0x0604 2)).take (argOf s lb 0x0604 1)).map BitVec.toNat)
      have ht : ((s.post.entries.drop (argOf s lb 0x0604 2)).take (argOf s lb 0x0604 1)).length ≤ 250 :=
        Nat.le_trans (List.length_take_le ..) hn
      rw [List.map_map, List.length_map] at hw
      exact Nat.le_trans (Nat.le_of_eq hw) (by omega)
    exact answers_of (f := mapRead) rfl h (beq_iff_eq.2 h0) hm rfl (by decide) fun hdata => hdata (by decide) hlen
  · refine answers_of (f := mapAddCmd true) (s' := mapped (s.post.entries ++ [mapArg (cmdArgs (lbOf s lb))]) s) (r := []) rfl h
      (beq_iff_eq.2 h1) (if_neg (Nat.not_le.2 hl)) (mapped_lb ..) (by decide) fun _ => ?_
    rw [entries_postResult, mapped_entries]
    rfl
  · refine answers_of (f := mapDeleteCmd true) (s' := mapped (eraseFirst (· == mapArg (cmdArgs (lbOf s lb))) s.post.entries) s) (r := [])
      rfl h (beq_iff_eq.2 h2) (if_pos hm) (mapped_lb ..) (by decide) fun _ => ?_
    rw [entries_postResult, mapped_entries]
    rfl
  · subst hf hk
    refine answers_effect (f := tileRetireCmd) rfl h (if_pos hfree) (retireTile_lb hfree) ?_
    rw [dieOf_postResult]
    exact retireTile_retired ..
  · subst hf
    refine answers_effect (f := frondFenceCmd) rfl h (if_neg (ne_true_of_eq_false hfence)) (lbOf_fenceFrond hfence (phase_of_started h)) ?_
    obtain ⟨h1, h2, -⟩ := fenceFrond_die false hfence
    rw [dieOf_postResult]
    exact ⟨h1, h2⟩
  · have hm := frondRetest_cleared o h hf hfence
    have hend (es : List (BitVec 64)) (v : Nat) (he : ∀ e ∈ es, entryKind e ≠ 5)
        (hv : frondRetest o (some lb) (cmdArgs (lbOf s lb)) s = .done 0 (pack [u8 v]) (unfence f es (clearDie f s))) :
        Answers (.frondRetest lb o) lb 0 s fun t => (dieOf t f).fenced = false ∧ (frondPowerOf t f).clockMhz = 900
          ∧ resultData t lb 1 = leBytes 1 v := by
      rw [packByte] at hv
      refine answers_with (f := frondRetest o) rfl h hv ((unfence_lb ..).trans (lbs_kept clearDie_touches lb))
        (by rw [length_leBytes]; decide) fun hdata => ?_
      rw [length_leBytes] at hdata
      rw [dieOf_postResult, frondPowerOf_postResult]
      obtain ⟨h1, h2⟩ := unfence_ends he (clearDie f s)
      exact ⟨h1, h2, hdata⟩
    rw [hn] at hm
    cases o with
    | pass => exact hend [] 0 (by simp) hm
    | repaired es => exact hend _ 1 (fun e he => foundBy_kind he) hm
    | failed m => exact absurd rfl (ho m)
  · have hm : frondRetest o (some lb) (cmdArgs (lbOf s lb)) s = .done 0 (pack [u8 2]) (clearDie f s) := by
      rw [frondRetest_cleared o h hf hfence]
      rcases hor with hn | ⟨m, rfl⟩
      · rw [hn]
        rfl
      · split <;> rfl
    rw [packByte] at hm
    refine answers_with (f := frondRetest o) rfl h hm (lbs_kept clearDie_touches lb) (by rw [length_leBytes]; decide) fun hdata => ?_
    rw [length_leBytes] at hdata
    rw [dieOf_postResult, fenced_of_repairs (repairs_kept clearDie_touches f)]
    exact ⟨hfence, hdata⟩
  · have hd : ∃ g, counterGroup s (argOf s lb 0x0608 0) = some (last, g) ∧
        ((List.range (argOf s lb 0x0608 2)).map fun i => g (argOf s lb 0x0608 1 + i)) =
          (List.range (argOf s lb 0x0608 2)).map fun i => c (argOf s lb 0x0608 1 + i) := by
      obtain ⟨⟨l, g⟩, hg, hl⟩ := Option.map_eq_some_iff.1 hlast
      rw [hg] at hc
      exact ⟨g, hg.trans (by rw [← hl]), Option.some.inj hc⟩
    obtain ⟨g, hg, hgc⟩ := hd
    have hm : countersRead (some lb) (cmdArgs (lbOf s lb)) s =
        .done 0 (pack ((List.range (argOf s lb 0x0608 2)).map fun i => u64 (c (argOf s lb 0x0608 1 + i)))) s := by
      have hmap : ((List.range (argOf s lb 0x0608 2)).map fun i => u64 (g (argOf s lb 0x0608 1 + i))) =
          (List.range (argOf s lb 0x0608 2)).map fun i => u64 (c (argOf s lb 0x0608 1 + i)) := by
        have h := congrArg (List.map u64) hgc
        rw [List.map_map, List.map_map] at h
        exact h
      rw [← hmap]
      simp only [countersRead]
      rw [show counterGroup s (arg 0x0608 (cmdArgs (lbOf s lb)) 0) = some (last, g) from hg]
      exact if_neg (by change ¬ last < argOf s lb 0x0608 1 + argOf s lb 0x0608 2 - 1; omega)
    have hlen : (pack ((List.range (argOf s lb 0x0608 2)).map fun i => u64 (c (argOf s lb 0x0608 1 + i)))).length ≤ 2032 := by
      have hw := length_packWords ((List.range (argOf s lb 0x0608 2)).map fun i => c (argOf s lb 0x0608 1 + i))
      rw [List.map_map, List.length_map, List.length_range] at hw
      exact Nat.le_trans (Nat.le_of_eq hw) (by omega)
    exact answers_data (f := countersRead) rfl h hm hlen
  · have hx : execModuleReset lb s = .next (askReset (commandRecord lb 0 s)) := runCmd_started h rfl
    have hb' : (commandRecord lb 0 s).power.boot = .serving := by rw [commandRecord_power]; exact hb
    refine gives_of (x := execModuleReset lb s) rfl ⟨_, hx, ?_⟩
    rw [askReset_settled (.inl hb')]
    exact moduleReset_clears _

end Sys2Proof.Rows
end

section
/-! SUPPORT. The firmware and failover commands and rows (R123 to R133). -/

namespace Sys2Proof.Rows

open Sys2Proof.Machine Sys2Proof.Safety Sys2Proof.Laws Sys2Proof.Frames

set_option Elab.async false

section
variable {s : State}

/-! ### Boot selectors -/

theorem after32_next (n : Nat) : after32 ((n + 1) % 2 ^ 32) n = true := by
  simp only [after32, Bool.and_eq_true, decide_eq_true_eq]
  omega

theorem after32_prev (n : Nat) : after32 n ((n + 1) % 2 ^ 32) = false := by
  simp only [after32, Bool.and_eq_false_iff, decide_eq_false_iff_not]
  omega

/-- The copy of a boot selector that is written, and what is written there. -/
def nextCopy (s : State) (d : Nat) : Nat := match newerSelector s d with | some i => 1 - i | none => 0
def nextSelector (s : State) (d slot : Nat) : BootSel :=
  let b : BootSel := { slot := slot
                       sequence := ((match newerSelector s d with | some i => (selectorOf s d i).sequence | none => 0) + 1) % 2 ^ 32 }
  { b with crc := b.check }

theorem writeSelector_eq (d slot : Nat) (s : State) : writeSelector true d slot s =
    onPost (fun p => { p with boot := tset p.boot (2 * d + nextCopy s d) (nextSelector s d slot) }) s := rfl

theorem nextSelector_valid (s : State) (d slot : Nat) : (nextSelector s d slot).valid = true := by
  simp [nextSelector, BootSel.valid, BootSel.check]

theorem selectorOf_write_self (d slot : Nat) (s : State) :
    selectorOf (writeSelector true d slot s) d (nextCopy s d) = nextSelector s d slot := by
  rw [writeSelector_eq]
  exact tget_tset_self ..

theorem selectorOf_write_ne {d slot e i : Nat} (s : State) (h : 2 * e + i ≠ 2 * d + nextCopy s d) :
    selectorOf (writeSelector true d slot s) e i = selectorOf s e i := by
  rw [writeSelector_eq]
  exact tget_tset_ne _ _ _ h

theorem newerSelector_lt {i : Nat} (d : Nat) (h : newerSelector s d = some i) : i < 2 ∧ (selectorOf s d i).valid = true
    ∧ ((selectorOf s d (1 - i)).valid = true →
      after32 (selectorOf s d 1).sequence (selectorOf s d 0).sequence = decide (i = 1)) := by
  simp only [newerSelector] at h
  split at h
  · next hv =>
    obtain ⟨ha, hb⟩ := Bool.and_eq_true_iff.1 hv
    split at h
    · next hx =>
      cases h
      exact ⟨by decide, hb, fun _ => hx⟩
    · next hx =>
      cases h
      exact ⟨by decide, ha, fun _ => Bool.eq_false_iff.2 hx⟩
  · next hv =>
    split at h
    · next ha =>
      cases h
      exact ⟨by decide, ha, fun hb => absurd (Bool.and_eq_true_iff.2 ⟨ha, hb⟩) hv⟩
    · next ha =>
      split at h
      · next hb =>
        cases h
        exact ⟨by decide, hb, fun ha' => absurd ha' ha⟩
      · cases h

/-- The slot just written is the active one. -/
theorem activeSlot_write (d slot : Nat) (s : State) : activeSlot (writeSelector true d slot s) d = slot := by
  have hself := selectorOf_write_self d slot s
  have hvalid := nextSelector_valid s d slot
  have hne := @selectorOf_write_ne d slot d
  have hnew : newerSelector (writeSelector true d slot s) d = some (nextCopy s d) := by
    cases hn : newerSelector s d with
    | none =>
      have hc : nextCopy s d = 0 := by simp only [nextCopy, hn]
      rw [hc] at hself ⊢
      have h1 : selectorOf (writeSelector true d slot s) d 1 = selectorOf s d 1 := hne s (by omega)
      have hb : (selectorOf s d 1).valid = false := by
        simp only [newerSelector] at hn
        cases hb : (selectorOf s d 1).valid <;> simp_all
        split at hn <;> simp_all
      simp [newerSelector, hself, h1, hb, hvalid]
    | some i =>
      obtain ⟨hi, hv, -⟩ := newerSelector_lt d hn
      have hc : nextCopy s d = 1 - i := by simp only [nextCopy, hn]
      have hq : (nextSelector s d slot).sequence = ((selectorOf s d i).sequence + 1) % 2 ^ 32 := by simp only [nextSelector, hn]
      rw [hc] at hself ⊢
      have hi' : selectorOf (writeSelector true d slot s) d i = selectorOf s d i := hne s (by omega)
      obtain rfl | rfl : i = 0 ∨ i = 1 := by omega
      · simp only [newerSelector, hself, hi', hv, hvalid, Bool.and_self, if_true, hq, after32_next]
      · simp only [newerSelector, hself, hi', hv, hvalid, Bool.and_self, if_true, hq, after32_prev]
        rfl
  simp only [activeSlot, hnew, hself]
  rfl

theorem activeSlot_write_ne {d slot e : Nat} (s : State) (h : e ≠ d) :
    activeSlot (writeSelector true d slot s) e = activeSlot s e := by
  have hc : nextCopy s d < 2 := by
    unfold nextCopy
    split
    · omega
    · decide
  have h0 : selectorOf (writeSelector true d slot s) e 0 = selectorOf s e 0 := selectorOf_write_ne s (by omega)
  have h1 : selectorOf (writeSelector true d slot s) e 1 = selectorOf s e 1 := selectorOf_write_ne s (by omega)
  have hn : newerSelector (writeSelector true d slot s) e = newerSelector s e := by simp only [newerSelector, h0, h1]
  simp only [activeSlot, hn]
  split
  · next i hi =>
    obtain ⟨hlt, -⟩ := newerSelector_lt e hi
    obtain rfl | rfl : i = 0 ∨ i = 1 := by omega
    · rw [h0]
    · rw [h1]
  · rfl

theorem mramDies_nodup (s : State) : (mramDies s).Nodup := List.Pairwise.filter _ (show List.Nodup _ by decide)

/-- One die's inactive slot becomes its active one. -/
def selectSlot (d : Nat) (s : State) : State :=
  writeSelector true d (inactiveSlot s d) (onSlot d (inactiveSlot s d) (fun x => { x with state := 3 })
    (onSlot d (1 - inactiveSlot s d) (fun x => if x.state = 3 then { x with state := 1 } else x) s))

theorem selectStaged_eq (b : List Byte) (s : State) : selectStaged b s =
    updates (mramDies s) selectSlot (onPost (fun p => { p with floor := max p.floor (securityVersion b) }) s) := rfl

theorem activeSlot_selectSlot (d : Nat) (s : State) : activeSlot (selectSlot d s) d = 1 - activeSlot s d := activeSlot_write ..

theorem activeSlot_selectSlot_ne {d e : Nat} (h : e ≠ d) (s : State) : activeSlot (selectSlot d s) e = activeSlot s e :=
  (activeSlot_write_ne _ h).trans rfl

/-- The staged slots become the active ones. -/
theorem activeSlot_selectStaged {d : Nat} (b : List Byte) (hd : d ∈ mramDies s) :
    activeSlot (selectStaged b s) d = inactiveSlot s d := by
  rw [selectStaged_eq, updates_at (fun t => activeSlot t d) selectSlot (fun n => 1 - n) (mramDies_nodup s) hd
    (activeSlot_selectSlot d) (fun _ _ hne => activeSlot_selectSlot_ne hne.symm)]
  rfl

theorem floor_selectStaged (b : List Byte) (s : State) : (selectStaged b s).post.floor = max s.post.floor (securityVersion b) :=
  updates_keeps (fun t => t.post.floor) selectSlot (fun _ _ => rfl) _ _

theorem selectStaged_lb (b : List Byte) (l : Nat) (s : State) : lbOf (selectStaged b s) l = lbOf s l :=
  lbs_kept selectStaged_touches l

/-- What the rest of the postmaster's state holds. -/
theorem post_kept {F : List Part} {t : State} (h : Touches F s t) (hF : F.contains .post = false := by exact rfl) :
    t.post.onE8 = s.post.onE8 ∧ t.post.standby = s.post.standby ∧ t.post.e0Fenced = s.post.e0Fenced
      ∧ t.post.agents = s.post.agents ∧ t.post.running = s.post.running ∧ t.post.restartTried = s.post.restartTried := by
  have hp := h.same .post hF
  simp only [Part.Same, Post.mk.injEq] at hp
  simp only [hp, and_self]

theorem boot_kept {F : List Part} {t : State} (h : Touches F s t) (hF : F.contains .boot = false := by exact rfl) :
    t.post.boot = s.post.boot ∧ t.post.floor = s.post.floor := h.same .boot hF

theorem activeSlot_of_boot {t : State} (h : t.post.boot = s.post.boot) (d : Nat) : activeSlot t d = activeSlot s d := by
  have hsel (i : Nat) : selectorOf t d i = selectorOf s d i := by rw [selectorOf, selectorOf, h]
  have hnew : newerSelector t d = newerSelector s d := by simp only [newerSelector, hsel]
  simp only [activeSlot, hnew, hsel]

theorem mramDies_of_repairs {t : State} (h : ∀ d, repairsOf (dieOf t d) = repairsOf (dieOf s d)) : mramDies t = mramDies s := by
  have hf (d : Nat) : (dieOf t d).failed = (dieOf s d).failed := congrArg (fun r => r.2.2.2.2.1) (h d)
  simp only [mramDies, hf]

/-! ### A planned handover and the command that asked for it -/

/-- What a handover leaves of a letterbox that waits for nothing. -/
def Alike (x y : Letterbox) : Prop := x.state = y.state ∧ x.phase = y.phase ∧ x.discard = y.discard ∧ x.abort = y.abort

theorem Alike.refl (x : Letterbox) : Alike x x := ⟨rfl, rfl, rfl, rfl⟩

theorem Alike.trans {x y z : Letterbox} (h : Alike x y) (g : Alike y z) : Alike x z := by
  obtain ⟨h1, h2, h3, h4⟩ := h
  obtain ⟨g1, g2, g3, g4⟩ := g
  exact ⟨h1.trans g1, h2.trans g2, h3.trans g3, h4.trans g4⟩

theorem alike_of_eq {x y : Letterbox} (h : x = y) : Alike x y := h ▸ .refl x

theorem alike_onLbs {f : Letterbox → Letterbox} (hf : ∀ x, Alike (f x) x) (ks : List Nat) (l : Nat) (s : State) :
    Alike (lbOf (updates ks (fun k => onLb k f) s) l) (lbOf s l) := by
  refine updates_inv (fun t => Alike (lbOf t l) (lbOf s l)) _ (fun k t ht => ?_) ks s (.refl _)
  by_cases h : l = k
  · rw [h, lbOf_onLb]
    exact (hf _).trans (h ▸ ht)
  · rw [lbOf_onLb_ne _ _ _ _ h]
    exact ht

theorem lbOf_imageNext {k l : Nat} (hl : (lbOf s l).phase ≠ .waiting) : lbOf (imageNext k s) l = lbOf s l := by
  unfold imageNext
  dsimp only
  split
  · rfl
  · split
    · unfold imageDone
      dsimp only
      split <;> exact lbOf_postWaiting _ _ _ _ hl
    · split
      · split
        · exact lbOf_postWaiting _ _ _ _ hl
        · split
          · exact lbs_kept hostRead_touches l
          · rfl
      · exact (lbs_kept sendSealed_touches l).trans (lbs_kept newTag_touches l)

theorem lbOf_stageEnd {k l e : Nat} (hl : (lbOf s l).phase ≠ .waiting) : lbOf (stageEnd k e s) l = lbOf s l := by
  unfold stageEnd
  dsimp only
  split
  · exact (lbOf_postWaiting _ _ _ _ (by rwa [lbs_kept onInactive_touches])).trans (lbs_kept onInactive_touches l)
  · exact (lbOf_postWaiting _ _ _ _ (by rwa [lbs_kept onInactive_touches])).trans (lbs_kept onInactive_touches l)

theorem lbOf_stageNext {k l : Nat} (hl : (lbOf s l).phase ≠ .waiting) : lbOf (stageNext k s) l = lbOf s l := by
  unfold stageNext
  dsimp only
  split
  · rfl
  · split
    · exact lbOf_stageEnd hl
    · split
      · exact lbOf_stageEnd hl
      · split
        · exact lbs_kept hostRead_touches l
        · rfl

theorem lbOf_pinNext {k l : Nat} (hk : l ≠ k) (hl : (lbOf s l).phase ≠ .waiting) : lbOf (pinNext k s) l = lbOf s l := by
  unfold pinNext
  dsimp only
  split
  · exact (lbOf_postWaiting _ _ _ _ (by rwa [lbOf_onLb_ne _ _ _ _ hk])).trans (lbOf_onLb_ne _ _ _ _ hk)
  · split
    · next h => exact lbs_kept (startWalk_touches _ h) l
    · rfl

theorem lbOf_pinSafePoint {k l : Nat} (hk : l ≠ k) (hl : (lbOf s l).phase ≠ .waiting) :
    lbOf (pinSafePoint k s) l = lbOf s l := by
  unfold pinSafePoint
  extract_lets x ctx keep at_ u
  have hu : lbOf u l = lbOf s l :=
    (updates_keeps (fun t => lbOf t l) (unpinPage ctx) (fun _ _ => lbs_kept unpinPage_touches l) _ _).trans
      (lbs_kept dropPinWalks_touches l)
  have hb := lbOf_onLb_ne k l (fun x => { x with waitingFor := keep, progress := at_ }) u hk
  exact (lbOf_pinNext hk (by rwa [hb, hu])).trans (hb.trans hu)

/-- A letterbox that waits for nothing has no safe point to go back to. -/
theorem lbOf_fromSafePoint {k l : Nat} (hl : (lbOf s l).phase ≠ .waiting) : lbOf (fromSafePoint k s) l = lbOf s l := by
  by_cases hk : l = k
  · have hw (op : Nat) : waitingOn s k op = false := by
      subst hk
      simp [waitingOn, hl]
    simp [fromSafePoint, hw]
  · have hcut (n : Nat) := lbOf_onLb_ne k l (fun x => { x with buffer := x.buffer.take (x.buffer.length / n * n) }) s hk
    unfold fromSafePoint
    dsimp only
    split
    · exact (lbOf_imageNext (by rwa [hcut])).trans (hcut _)
    · split
      · exact (lbOf_stageNext (by rwa [hcut])).trans (hcut _)
      · split
        · exact lbOf_pinSafePoint hk hl
        · rfl

theorem alike_moveRole (b : Bool) (l : Nat) (s : State) : Alike (lbOf (moveRole b s) l) (lbOf s l) := by
  unfold moveRole
  exact alike_onLbs (by intro x; exact ⟨rfl, rfl, rfl, rfl⟩) _ l _

theorem alike_announceRole (l : Nat) (s : State) : Alike (lbOf (announceRole s) l) (lbOf s l) := by
  unfold announceRole
  rw [lbs_kept modEvent_touches, lbs_kept fnEventAll_touches, lbs_kept countMgmt_touches, lbs_kept resumeUpdate_touches]
  have hmgmt (f : Mgmt → Mgmt) (u : State) : lbOf (onMgmt f u) l = lbOf u l := rfl
  rw [hmgmt, lbs_kept journal_touches]
  exact (alike_onLbs (by intro x; exact ⟨rfl, rfl, rfl, rfl⟩) _ l s)

theorem alike_plannedHandover {l : Nat} (b : Bool) (hl : (lbOf s l).phase ≠ .waiting) :
    Alike (lbOf (plannedHandover b s) l) (lbOf s l) := by
  have hm := alike_moveRole b l s
  refine (alike_announceRole l _).trans ((alike_of_eq ?_).trans hm)
  refine updates_inv (fun t => lbOf t l = lbOf (moveRole b s) l) _ (fun k t ht => ?_) _ _ rfl
  refine (lbOf_fromSafePoint ?_).trans ht
  rw [ht, hm.2.1]
  exact hl

/-- After a planned handover the role stands where it was sent, and nothing of the firmware store's selection has moved. -/
theorem plannedHandover_role (b : Bool) (s : State) : (plannedHandover b s).post.onE8 = b
    ∧ (plannedHandover b s).post.standby = s.post.standby ∧ (plannedHandover b s).post.running = s.post.running
    ∧ (plannedHandover b s).post.boot = s.post.boot ∧ (plannedHandover b s).post.floor = s.post.floor
    ∧ mramDies (plannedHandover b s) = mramDies s := by
  have hsafe (ks : List Nat) (u : State) : Touches [.fns, .hostPorts, .lbs, .fw, .journal, .pins, .xlat, .dies, .fabric, .images, .res,
      .out] u (updates ks fromSafePoint u) := .updates .refl fun _ _ h => fromSafePoint_touches.after h
  have hall : Touches [.fns, .hostPorts, .host, .lbs, .fw, .journal, .pins, .xlat, .dies, .fabric, .images, .res, .spdm, .events, .mgmt,
      .out] (moveRole b s) (plannedHandover b s) := announceRole_touches.after (hsafe _ _).widen
  obtain ⟨h1, h2, -, -, h3, -⟩ := post_kept hall
  obtain ⟨h4, h5⟩ := boot_kept hall
  have hr : (moveRole b s).post.onE8 = b ∧ (moveRole b s).post.standby = s.post.standby
      ∧ (moveRole b s).post.running = s.post.running ∧ (moveRole b s).post.boot = s.post.boot
      ∧ (moveRole b s).post.floor = s.post.floor := by
    unfold moveRole
    refine ⟨?_, ?_, ?_, ?_, ?_⟩
    · exact updates_keeps (fun t => t.post.onE8) _ (by intros; rfl) _ _
    · exact updates_keeps (fun t => t.post.standby) _ (by intros; rfl) _ _
    · exact updates_keeps (fun t => t.post.running) _ (by intros; rfl) _ _
    · exact updates_keeps (fun t => t.post.boot) _ (by intros; rfl) _ _
    · exact updates_keeps (fun t => t.post.floor) _ (by intros; rfl) _ _
  obtain ⟨r1, r2, r3, r4, r5⟩ := hr
  exact ⟨h1.trans r1, h2.trans r2, h3.trans r3, h4.trans r4, h5.trans r5,
    mramDies_of_repairs fun d => (repairs_kept hall d).trans (repairs_kept moveRole_touches d)⟩

/-! ### Answers of a command whose letterbox shows a handover -/

variable {i : Instr} {s' : State} {lb op e : Nat} {sel : List Byte → Bool} {f : Cmd} {r : List Byte} {Q : State → Prop}

/-- As `answers_of`, where the letterbox itself may have changed. -/
theorem answers_alike (hx : exec i s = runCmd op sel f lb s) (h : Started s lb op) (hs : sel (cmdArgs (lbOf s lb)) = true)
    (hf : f (some lb) (cmdArgs (lbOf s lb)) s = .done e r s') (hl : Alike (lbOf s' lb) (lbOf s lb)) (he : e < 65536)
    (hQ : (e ≠ eAborted → r.length ≤ 2032 → resultData (postResult lb e r s') lb r.length = r) → Q (postResult lb e r s')) :
    Answers i lb e s Q := by
  have hrun := runCmd_started (f := f) h hs
  obtain ⟨-, -, -, -, hdiscard, habort⟩ := h
  obtain ⟨-, -, hd, ha⟩ := hl
  have hd' : (lbOf s' lb).discard = false := hd.trans hdiscard
  have ha' : (lbOf s' lb).abort = false := ha.trans habort
  refine ⟨_, hx.trans hrun, ?_⟩
  simp only [hf, finish, ha', Bool.false_eq_true, false_and, and_false, if_false]
  exact ⟨posted_postResult r hd' he, hQ (resultData_postResult r hd')⟩

/-! ### The meanings of the commands -/

theorem mramDies_ne_nil {b : List Byte} (hv : verifiedImage s = some b) : ∃ d ds, mramDies s = d :: ds := by
  cases hm : mramDies s with
  | nil => simp [verifiedImage, hm] at hv
  | cons d ds => exact ⟨d, ds, rfl⟩

theorem activateAtReset_ok {b : List Byte} (hv : verifiedImage s = some b) : activateAtReset true s = (0, selectStaged b s) := by
  obtain ⟨d, ds, hm⟩ := mramDies_ne_nil hv
  simp [activateAtReset, hv, hm]

theorem activateAtReset_torn {b : List Byte} (hv : verifiedImage s = some b) : ∃ d, activateAtReset false s =
    (eMram, mramFailed d (writeSelector false d (inactiveSlot s d) s)) := by
  obtain ⟨d, ds, hm⟩ := mramDies_ne_nil hv
  exact ⟨d, by simp [activateAtReset, hv, hm]⟩

/-- The firmware of die `d` runs its inactive slot's image. -/
def runStaged (b : List Byte) (d : Nat) (s : State) : State :=
  onPost (fun p => { p with running := tset p.running d (inactiveSlot s d, b) }) s

/-- Live activation to its end. -/
def liveActivated (b : List Byte) (s : State) : State :=
  selectStaged b (runStaged b 0 (plannedHandover true (runStaged b 1 s)))

theorem activateLive_ok {b : List Byte} (hv : verifiedImage s = some b) (hsafe : inSafe s = false) (hs : s.post.standby = true)
    (he : s.post.onE8 = false) : activateLive true true s = (0, liveActivated b s) := by
  simp only [activateLive, hv]
  rw [if_neg (by simp [hsafe, hs, he]), if_neg (by decide)]
  exact if_pos trivial

theorem runStaged_keeps (b : List Byte) (d : Nat) (s : State) : (runStaged b d s).post.onE8 = s.post.onE8
    ∧ (runStaged b d s).post.standby = s.post.standby ∧ (runStaged b d s).post.boot = s.post.boot
    ∧ mramDies (runStaged b d s) = mramDies s ∧ ∀ l, lbOf (runStaged b d s) l = lbOf s l := ⟨rfl, rfl, rfl, rfl, fun _ => rfl⟩

theorem liveActivated_post (b : List Byte) (s : State) : (∀ d ∈ mramDies s, activeSlot (liveActivated b s) d = inactiveSlot s d)
    ∧ (liveActivated b s).post.onE8 = true ∧ (liveActivated b s).post.standby = s.post.standby := by
  obtain ⟨h1, h2, -, h4, -, h6⟩ := plannedHandover_role true (runStaged b 1 s)
  obtain ⟨-, q2, q3, q4, -⟩ := runStaged_keeps b 1 s
  unfold liveActivated
  generalize plannedHandover true (runStaged b 1 s) = u at h1 h2 h4 h6 ⊢
  obtain ⟨r1, r2, r3, r4, -⟩ := runStaged_keeps b 0 u
  obtain ⟨p1, p2, -⟩ := post_kept (selectStaged_touches (image := b) (s := runStaged b 0 u))
  refine ⟨fun d hd => ?_, p1.trans (r1.trans h1), p2.trans (r2.trans (h2.trans q2))⟩
  rw [activeSlot_selectStaged b (by rw [r4, h6, q4]; exact hd), inactiveSlot, inactiveSlot,
    activeSlot_of_boot (r3.trans (h4.trans q3))]

theorem liveActivated_lb {b : List Byte} {l : Nat} (hl : (lbOf s l).phase ≠ .waiting) :
    Alike (lbOf (liveActivated b s) l) (lbOf s l) := by
  obtain ⟨-, -, -, -, hrun⟩ := runStaged_keeps b 1 s
  have hp := alike_plannedHandover (s := runStaged b 1 s) true (by rw [hrun l]; exact hl)
  unfold liveActivated
  generalize plannedHandover true (runStaged b 1 s) = u at hp ⊢
  obtain ⟨-, -, -, -, hrun'⟩ := runStaged_keeps b 0 u
  rw [selectStaged_lb, hrun' l]
  exact hrun l ▸ hp

theorem journalDeferred_keeps (s : State) : (journalDeferred s).post.agents = s.post.agents ∧ (journalDeferred s).post.lbs = s.post.lbs :=
  ⟨(updates_keeps (fun t => t.post.agents) _ (by intros; rfl) _ _).trans rfl,
    (updates_keeps (fun t => t.post.lbs) _ (by intros; rfl) _ _).trans rfl⟩

theorem unplannedFailover_role (hu : s.post.onE8 = false) (hs : s.post.standby = true) : (unplannedFailover s).post.onE8 = true
    ∧ (unplannedFailover s).post.e0Fenced = true ∧ (unplannedFailover s).post.standby = false := by
  let u := onPost (fun p => { p with e0Fenced := true, restartTried := false, standby := false }) s
  have hm : (moveRole true u).post.onE8 = true ∧ (moveRole true u).post.e0Fenced = true ∧ (moveRole true u).post.standby = false := by
    unfold moveRole
    refine ⟨?_, ?_, ?_⟩
    · exact updates_keeps (fun t => t.post.onE8) _ (by intros; rfl) _ _
    · exact updates_keeps (fun t => t.post.e0Fenced) _ (by intros; rfl) _ _
    · exact updates_keeps (fun t => t.post.standby) _ (by intros; rfl) _ _
  have hd (u : State) : (journalDeferred u).post.onE8 = u.post.onE8 ∧ (journalDeferred u).post.e0Fenced = u.post.e0Fenced
      ∧ (journalDeferred u).post.standby = u.post.standby :=
    ⟨(updates_keeps (fun t => t.post.onE8) _ (by intros; rfl) _ _).trans rfl,
      (updates_keeps (fun t => t.post.e0Fenced) _ (by intros; rfl) _ _).trans rfl,
      (updates_keeps (fun t => t.post.standby) _ (by intros; rfl) _ _).trans rfl⟩
  have hs' (ks : List Nat) (u : State) : Touches [.fns, .hostPorts, .host, .lbs, .fw, .journal, .rings, .pins, .xlat, .dies, .fabric,
      .cells, .marks, .images, .launches, .phs, .res, .events, .out, .free] u (updates ks settleRunning u) :=
    .updates .refl fun _ _ h => settleRunning_touches.after h
  have hx : unplannedFailover s = announceRole (journalDeferred (updates (s.post.lbs.map Prod.fst) settleRunning (moveRole true u))) :=
    if_neg (by simp [hu, hs])
  obtain ⟨m1, m2, m3⟩ := hm
  obtain ⟨d1, d2, d3⟩ := hd (updates (s.post.lbs.map Prod.fst) settleRunning (moveRole true u))
  obtain ⟨a1, a2, a3, -⟩ := post_kept (announceRole_touches
    (s := journalDeferred (updates (s.post.lbs.map Prod.fst) settleRunning (moveRole true u))))
  obtain ⟨s1, s2, s3, -⟩ := post_kept (hs' (s.post.lbs.map Prod.fst) (moveRole true u))
  rw [hx]
  exact ⟨a1.trans (d1.trans (s1.trans m1)), a3.trans (d2.trans (s3.trans m2)), a2.trans (d3.trans (s2.trans m3))⟩

/-! ### FW_STAGE -/

theorem fwSlotOf_onSlot_self (d i : Nat) (f : FwSlot → FwSlot) (s : State) : fwSlotOf (onSlot d i f s) d i = f (fwSlotOf s d i) :=
  tget_tset_self ..

theorem inactiveSlot_lt (s : State) (d : Nat) : inactiveSlot s d < 2 := by unfold inactiveSlot; omega

/-- The inactive slots are emptied. -/
theorem fwSlotOf_emptied {d : Nat} (hd : d ∈ mramDies s) : fwSlotOf (onInactive (fun _ => {}) s) d (inactiveSlot s d) = {} := by
  have hi (u : State) (e : Nat) (f : FwSlot → FwSlot) (j : Nat) : inactiveSlot (onSlot e j f u) = inactiveSlot u := rfl
  have h := updates_at (fun t => (fwSlotOf t d (inactiveSlot t d), inactiveSlot t d)) (fun d s => onSlot d (inactiveSlot s d) (fun _ => {}) s)
    (fun x => ({}, x.2)) (mramDies_nodup s) hd (fun u => by rw [hi, fwSlotOf_onSlot_self]) (fun e he hne u => ?_) s
  · have h2 : inactiveSlot (onInactive (fun _ => {}) s) d = inactiveSlot s d := congrArg Prod.snd h
    have h1 : fwSlotOf (onInactive (fun _ => {}) s) d (inactiveSlot (onInactive (fun _ => {}) s) d) = {} := congrArg Prod.fst h
    rwa [h2] at h1
  · have h1 := inactiveSlot_lt u e
    have h2 := inactiveSlot_lt u d
    refine Prod.ext ?_ rfl
    exact tget_tset_ne _ _ _ (by rw [hi]; omega)

/-- What FW_STAGE leaves at its start, and the read that it then issues. -/
def stageStarted (lb : Nat) (ok : Bool) (s : State) : State :=
  onLb lb (fun l => { l with phase := .waiting })
    (onLb lb (fun l => { l with mramBad := !ok }) (onInactive (fun _ => {}) s))

theorem execFwStage_started {lb : Nat} {ok : Bool} {c : Ctx} (h : Started s lb 0x0702) (hh : storeHeld s = false)
    (hc : tfind s.xlat.ctxs (argOf s lb 0x0702 0) = some c) (ho : c.owner = lb) :
    execFwStage lb ok s = .next (stageNext lb (stageStarted lb ok s)) := by
  have hm : fwStageStart ok (some lb) (cmdArgs (lbOf s lb)) s =
      .wait (onLb lb (fun l => { l with mramBad := !ok }) (onInactive (fun _ => {}) s)) := by
    have hcf : tfind s.xlat.ctxs (arg 0x0702 (cmdArgs (lbOf s lb)) 0) = some c := hc
    simp only [fwStageStart, hcf]
    rw [if_neg (by rw [hh]; decide), if_neg (by simp [ho])]
    rfl
  have hf : runningFresh s lb 0x0702 = true := by
    obtain ⟨hlt, hrun, hphase, hop, -, -⟩ := h
    simp [runningFresh, hlt, hrun, hphase, hop]
  have hrun : runCmd 0x0702 anyArgs (fwStageStart ok) lb s = .next (stageStarted lb ok s) := by
    rw [runCmd_started h rfl, hm]
    obtain ⟨-, -, -, -, -, habort⟩ := h
    have hl : (lbOf (onLb lb (fun l => { l with mramBad := !ok }) (onInactive (fun _ => {}) s)) lb).abort = false := by
      rw [lbOf_onLb]
      exact (congrArg Letterbox.abort (lbs_kept onInactive_touches lb)).trans habort
    simp only [finish, hl, Bool.false_eq_true, false_and, if_false]
    rfl
  simp only [execFwStage, hrun, hf, if_true]

theorem stageStarted_lb (lb : Nat) (ok : Bool) (s : State) : lbOf (stageStarted lb ok s) lb =
    { lbOf s lb with phase := .waiting, mramBad := !ok } := by
  rw [stageStarted, lbOf_onLb, lbOf_onLb, lbs_kept onInactive_touches]

theorem stageStarted_keeps (lb : Nat) (ok : Bool) (s : State) : (stageStarted lb ok s).host = s.host
    ∧ (stageStarted lb ok s).power = s.power ∧ (stageStarted lb ok s).out = s.out
    ∧ (stageStarted lb ok s).post.fw = (onInactive (fun _ => {}) s).post.fw := by
  have h := onInactive_touches (s := s) (f := fun _ => {})
  exact ⟨h.keeps [.host] rfl, h.keeps [.power] rfl, h.keeps [.out] rfl, rfl⟩

theorem stageNext_reads {lb tag at_ n : Nat} (hw : waitingOn s lb 0x0702 = true) (hbuf : (lbOf s lb).buffer = [])
    (hat : at_ = argOf s lb 0x0702 2) (hlen : 0 < argOf s lb 0x0702 1)
    (hn : n = pieceLen at_ (argOf s lb 0x0702 1) (fnOf s lb).maxRead) (hbusy : stageBusy s lb = false) (hcan : canRead s lb = true)
    (hsafe : inSafe s = false) (htag : tfree (hostPortOf s (lb / 64)).reads 0 16384 = some tag) : stageNext lb s =
      emit (.dmaRead (lb / 64) (lb % 64) tag at_ n (pasidFor s lb (argOf s lb 0x0702 0)) false)
        (onHostPort (lb / 64) (fun x => { x with
          reads := tset x.reads tag { fn := lb, addr := at_, len := n, purpose := .firmware lb 0 } }) s) := by
  have hissue : mayIssue (fnOf s lb) = true := by
    simp only [canRead, Bool.and_eq_true] at hcan
    exact hcan.1.1
  subst hat hn
  simp only [stageNext, hbuf, List.length_nil]
  rw [if_neg (by simp [hw, hbusy]), if_neg (show ¬ arg 0x0702 (cmdArgs (lbOf s lb)) 1 ≤ 0 from Nat.not_le.2 hlen),
    if_neg (by simp [hissue]), if_pos hcan]
  simp only [hostRead, htag, stagePasid, hsafe, Bool.false_eq_true, if_false, Nat.add_zero, Nat.sub_zero]
  rfl

theorem verifyStaged_error {e : Nat} (h : verifyStaged s = .error e) : e < 65536 := by
  simp only [verifyStaged] at h
  split at h
  · cases h
    decide
  · split at h
    · cases h
      decide
    · split at h
      · cases h
        decide
      · cases h

theorem execAgentReload_done {lb e : Nat} (h : Started s lb 0x0705) (he : e = argOf s lb 0x0705 0) (hw : edgeWorks s e = true) :
    ∃ t, execAgentReload lb s = .next t ∧ (lbOf t lb) = lbOf (postResult lb 0 []
        (onPost (fun p => { p with agents := tset p.agents e (runningImage s) }) s)) lb
      ∧ tget [] t.post.agents e = runningImage s := by
  subst he
  have hm : agentReload (some lb) (cmdArgs (lbOf s lb)) s = .done 0 []
      (onPost (fun p => { p with agents := tset p.agents (argOf s lb 0x0705 0) (runningImage s) }) s) := if_neg (by
    rw [show edgeWorks s (arg 0x0705 (cmdArgs (lbOf s lb)) 0) = true from hw]
    decide)
  have hrun := runCmd_done (sel := anyArgs) h rfl hm rfl
  have hagents (u : State) : tget [] (postResult lb 0 [] u).post.agents (argOf s lb 0x0705 0) = tget [] u.post.agents (argOf s lb 0x0705 0) := by
    obtain ⟨-, -, -, ha, -⟩ := post_kept (postResult_touches (s := u) (lb := lb) (errCode := 0) (res := []))
    rw [ha]
  simp only [execAgentReload, hrun]
  refine ⟨_, rfl, ?_, ?_⟩
  · split
    · rfl
    · simp only [lbOf, (journalDeferred_keeps _).2]
  · split
    · exact (hagents _).trans (tget_tset_self ..)
    · rw [(journalDeferred_keeps _).1]
      exact (hagents _).trans (tget_tset_self ..)

end

/-- Settles O14, command by command and row by row. -/
theorem firmwareCommandsComplete : Obligations.FirmwareCommandsComplete := by
  refine ⟨fun s lb h => ?_, fun s lb tag at_ n ok c h hh hsafe hc ho hbuf hat hlen hn hbusy hcan htag => ?_,
    fun s lb h hh => ?_, fun s lb b h h0 hh hv => ?_, fun s lb b h h0 hh hv => ?_, fun s lb b h h1 hh hv hsafe hst he hready => ?_,
    fun s lb e h he hw => ?_, fun s lb h hst hready => ?_, fun s hu => gives_of rfl ⟨_, congrArg Host.Outcome.next (if_pos hu), rfl, rfl⟩,
    fun s hu he hst => gives_of rfl ⟨_, congrArg Host.Outcome.next (if_pos hu), unplannedFailover_role he hst⟩,
    fun s he hf hr hw => gives_of rfl ⟨_, congrArg Host.Outcome.next ((if_neg (by simp [he, hf, hr])).trans (if_pos ⟨rfl, hw⟩)),
      rfl, rfl, rfl, he⟩,
    fun s hst => gives_of rfl ⟨_, congrArg Host.Outcome.next (if_pos hst), ?_⟩⟩
  · have hlen : (fwQueryBytes s).length ≤ 2032 := by
      rw [fwQueryBytes, length_pack [4, 4, 1, 4, 4, 1, 4, 4, 1, 4, 4, 1, 4] rfl]
      decide
    exact answers_with (f := fun _ _ s => .done 0 (fwQueryBytes s) s) rfl h rfl rfl hlen fun hdata =>
      ⟨postResult_touches.keeps [.fw] rfl, hdata⟩
  · refine gives_of rfl ⟨_, execFwStage_started h hh hc ho, ?_⟩
    have hl := stageStarted_lb lb ok s
    obtain ⟨hhost, hpower, hout, hfw⟩ := stageStarted_keeps lb ok s
    obtain ⟨-, hrun, -, hop, -, -⟩ := h
    have hwait : waitingOn (stageStarted lb ok s) lb 0x0702 = true := by
      have hc : cmdOpcode (lbOf (stageStarted lb ok s) lb) = 0x0702 := by rw [hl]; exact hop
      simp [waitingOn, isRunning, hl, hrun, ← hc]
    have hargs (k : Nat) : argOf (stageStarted lb ok s) lb 0x0702 k = argOf s lb 0x0702 k := by rw [argOf, hl]; rfl
    have hfn : fnOf (stageStarted lb ok s) lb = fnOf s lb := by rw [fnOf, hhost]; rfl
    have hport : hostPortOf (stageStarted lb ok s) (lb / 64) = hostPortOf s (lb / 64) := by rw [hostPortOf, hhost]; rfl
    rw [stageNext_reads (at_ := at_) (n := n) (s := stageStarted lb ok s) hwait (by rw [hl]; exact hbuf) (by rw [hargs]; exact hat) (by rw [hargs]; exact hlen)
      (by rw [hargs, hfn]; exact hn) (by rw [stageBusy, hport]; exact hbusy) (by rw [canRead, hport, hfn]; exact hcan)
      (by rw [inSafe, hpower]; exact hsafe) (by rw [hport]; exact htag), hargs]
    have hpas : pasidFor (stageStarted lb ok s) lb (argOf s lb 0x0702 0) = pasidFor s lb (argOf s lb 0x0702 0) := by
      rw [pasidFor, hfn]
      rfl
    refine ⟨(congrArg Letterbox.state hl).trans hrun, congrArg Letterbox.phase hl, congrArg Letterbox.mramBad hl, fun d hd => ?_,
      ?_, ?_⟩
    · exact (congrArg (fun x : Tab FwSlot => tget ({} : FwSlot) x (2 * d + inactiveSlot s d)) hfw).trans (fwSlotOf_emptied hd)
    · exact (congrArg (fun x : HostPort => tfind x.reads tag) (hostPortOf_onHostPort ..)).trans (tfind_tset_self ..)
    · rw [hpas, ← hout]
      rfl
  · have hready : ¬ storeHeld s = true ∧ ¬ abortAsked s (some lb) = true := by
      obtain ⟨-, -, -, -, -, habort⟩ := h
      exact ⟨by rw [hh]; decide, by simp [abortAsked, habort]⟩
    cases hv : verifyStaged s with
    | ok b =>
      have hm : fwVerify (some lb) (cmdArgs (lbOf s lb)) s = .done 0 (pack [u32 (imageVersion b)]) (markVerified s) := by
        simp only [fwVerify]
        rw [if_neg hready.1, if_neg hready.2]
        simp only [hv]
      exact answers_effect (f := fwVerify) rfl h hm (lbs_kept markVerified_touches lb) (postResult_touches.keeps [.fw] rfl)
    | error e =>
      have hm : fwVerify (some lb) (cmdArgs (lbOf s lb)) s = .done e [] s := by
        simp only [fwVerify]
        rw [if_neg hready.1, if_neg hready.2]
        simp only [hv]
        rfl
      exact answers_of (f := fwVerify) rfl h rfl hm rfl (verifyStaged_error hv) fun _ => postResult_touches.keeps [.fw] rfl
  · refine answers_of (f := fwActivateReset true) (s' := selectStaged b s) (r := []) rfl h (beq_iff_eq.2 h0) ?_ (selectStaged_lb ..) (by decide)
      fun _ => ?_
    · simp only [fwActivateReset]
      rw [if_neg (by rw [hh]; decide), activateAtReset_ok hv]
      rfl
    · obtain ⟨hb, hf⟩ := boot_kept (postResult_touches (s := selectStaged b s) (lb := lb) (errCode := 0) (res := []))
      refine ⟨fun d hd => ?_, hf.trans (floor_selectStaged b s)⟩
      rw [activeSlot_of_boot hb, activeSlot_selectStaged b hd]
  · obtain ⟨d, hd⟩ := activateAtReset_torn hv
    refine answers_of (f := fwActivateReset false) (s' := mramFailed d (writeSelector false d (inactiveSlot s d) s)) (r := []) rfl h
      (beq_iff_eq.2 h0) ?_ (lbs_kept mramFailed_touches lb) (by decide) fun _ => ?_
    · simp only [fwActivateReset]
      rw [if_neg (by rw [hh]; decide), hd]
      rfl
    · have ht := postResult_touches (s := mramFailed d (writeSelector false d (inactiveSlot s d) s)) (lb := lb) (errCode := eMram) (res := [])
      have hm := mramFailed_touches (d := d) (s := writeSelector false d (inactiveSlot s d) s)
      obtain ⟨-, hf⟩ := boot_kept ht
      obtain ⟨-, hf'⟩ := boot_kept hm
      exact ⟨hf.trans (hf'.trans rfl), (ht.keeps [.fw] rfl : _).trans ((hm.keeps [.fw] rfl : _).trans rfl)⟩
  · have hm : fwActivateLive true true (some lb) (cmdArgs (lbOf s lb)) s = .done 0 [] (liveActivated b s) := by
      obtain ⟨-, -, -, -, -, habort⟩ := h
      simp only [fwActivateLive]
      rw [if_neg (by rw [hh]; decide), if_neg (by simp [abortAsked, habort]), activateLive_ok hv hsafe hst he]
      rfl
    have hx : exec (.fwActivateLive lb true true) s = runCmd 0x0704 (isMode 1) (fwActivateLive true true) lb s :=
      if_neg (by simp [hready])
    refine answers_alike hx h (beq_iff_eq.2 h1) hm (liveActivated_lb (phase_of_started h)) (by decide) fun _ => ?_
    obtain ⟨hb, -⟩ := boot_kept (postResult_touches (s := liveActivated b s) (lb := lb) (errCode := 0) (res := []))
    obtain ⟨p1, p2, -⟩ := post_kept (postResult_touches (s := liveActivated b s) (lb := lb) (errCode := 0) (res := []))
    obtain ⟨l1, l2, l3⟩ := liveActivated_post b s
    exact ⟨fun d hd => (activeSlot_of_boot hb d).trans (l1 d hd), p1.trans l2, p2.trans (l3.trans hst)⟩
  · obtain ⟨t, ht, hlb, hagents⟩ := execAgentReload_done h he hw
    refine gives_of (x := execAgentReload lb s) rfl ⟨t, ht, ?_, hagents⟩
    obtain ⟨-, -, -, -, hdiscard, -⟩ := h
    have hp := posted_postResult (s := onPost (fun p => { p with agents := tset p.agents e (runningImage s) }) s) (lb := lb) (e := 0) []
      hdiscard (by decide)
    simp only [Posted, resultCode] at hp ⊢
    rwa [hlb]
  · have hm : failoverCmd (some lb) (cmdArgs (lbOf s lb)) s =
        .done 0 (leBytes 1 (if s.post.onE8 then 0 else 8)) (plannedHandover (!s.post.onE8) s) := by
      simp only [failoverCmd]
      rw [if_neg (by simp [hst]), packByte]
      cases s.post.onE8 <;> rfl
    have hx : exec (.failover lb) s = runCmd 0x0706 anyArgs failoverCmd lb s := if_neg (by simp [hready])
    refine answers_alike hx h rfl hm (alike_plannedHandover _ (phase_of_started h)) (by decide) fun hdata => ?_
    have hlen : (leBytes 1 (if s.post.onE8 then 0 else 8)).length = 1 := length_leBytes ..
    obtain ⟨r1, r2, -⟩ := plannedHandover_role (!s.post.onE8) s
    obtain ⟨p1, p2, -⟩ := post_kept (postResult_touches (s := plannedHandover (!s.post.onE8) s) (lb := lb) (errCode := 0)
      (res := leBytes 1 (if s.post.onE8 then 0 else 8)))
    have hd := hdata (by decide) (by rw [hlen]; decide)
    rw [hlen] at hd
    exact ⟨p1.trans r1, p2.trans (r2.trans hst), hd⟩
  · obtain ⟨p1, p2, -⟩ := post_kept (journal_touches (s := onPost (fun p => { p with standby := false }) s) (code := 0x4003) (cls := 2)
      (plane := 0) (pldm := true) (fs := []))
    exact ⟨p2, p1⟩

end Sys2Proof.Rows
end

section
/-! SUPPORT. Sensors, throttle and shutdown (R401 to R404, R426). -/

namespace Sys2Proof.Rows

open Sys2Proof.Machine Sys2Proof.Safety Sys2Proof.Laws Sys2Proof.Frames

set_option Elab.async false

section
variable {s : State}

/-! ### Sensors -/

theorem sensorOf_onSensor (d i : Nat) (f : Sensor → Sensor) (s : State) : sensorOf (onSensor d i f s) d i = f (sensorOf s d i) :=
  tget_tset_self ..

theorem powered_onSensor (d i : Nat) (f : Sensor → Sensor) (s : State) (e : Nat) : powered (onSensor d i f s) e = powered s e := rfl

theorem powered_journalFrom (pc : Postcode) (c k p : Nat) (e : Bool) (fs : List Fld) (s : State) (d : Nat) :
    powered (journalFrom pc c k p e fs s) d = powered s d := by
  simp only [powered, dieOf, journalFrom_power, journalFrom_fabric]

theorem powered_takeReading (r : SensorReading) (s : State) (d : Nat) : powered (takeReading r s) d = powered s d := by
  have hb (s : State) : powered (takeReading.badReading r s) d = powered s d := by
    unfold takeReading.badReading
    split
    · rfl
    · rw [powered_journalFrom]
      rfl
  unfold takeReading
  split
  · rfl
  · split
    · split
      · rfl
      · exact hb s
    · exact hb s

theorem takeReading_inRange {r : SensorReading} {t : Int} (hp : powered s r.die = true) (ht : r.tenths = some t) (hlo : -400 ≤ t)
    (hhi : t ≤ 1500) : sensorOf (takeReading r s) r.die r.index = { tenths := t, condition := 0 } := by
  simp only [takeReading, hp, Bool.not_true, Bool.false_eq_true, if_false, ht]
  rw [if_pos ⟨hlo, hhi⟩, sensorOf_onSensor]

theorem takeReading_outOfRange {r : SensorReading} {t : Int} (hp : powered s r.die = true) (ht : r.tenths = some t)
    (h : t < -400 ∨ 1500 < t) : (sensorOf (takeReading r s) r.die r.index).condition = 2 := by
  simp only [takeReading, hp, Bool.not_true, Bool.false_eq_true, if_false, ht]
  rw [if_neg (by omega), takeReading.badReading]
  split
  next hc => exact hc
  · rw [sensorOf, journalFrom_power]
    exact congrArg Sensor.condition (sensorOf_onSensor ..)

theorem limited_power {rule obj window : Nat} {f : State → State} (hf : ∀ u, (f u).power = u.power) (s : State) :
    (limited rule obj window f s).power = s.power := by
  unfold limited
  split
  · rw [hf]
    exact limitMark_touches.keeps [.power] rfl
  · rfl

/-- A throttle changes no sensor. -/
theorem throttleDie_sensors (d : Nat) (s : State) : (throttleDie d s).power.sensors = s.power.sensors := by
  have hw (b : Bool) (s : State) : (when b (modEvent 4) s).power = s.power := by
    unfold Machine.when
    split <;> simp
  have hj (w : Nat) (pc : Postcode) (fs : List Fld) (s : State) : (limited 401 d w (journalFrom pc 0xA006 1 0 false fs) s).power =
      s.power := limited_power (fun u => journalFrom_power pc 0xA006 1 0 false fs u) s
  by_cases h : d < 84 <;> simp only [throttleDie, h, if_true, if_false] <;> split
  · exact (congrArg Power.sensors ((hw ..).trans (hj ..))).trans rfl
  · split <;> rfl
  · exact (congrArg Power.sensors ((hw ..).trans (hj ..))).trans rfl
  · split <;> rfl

/-- A fence before it clears what its die holds keeps the power state. -/
theorem fencing_touches {f : Nat} {mesh : Bool} :
    Touches [.fns, .host, .lbs, .maps, .journal, .post, .rings, .active, .staged, .dies, .repairs, .fabric, .launches, .phs,
        .res, .events, .out] s (fencing f mesh s) := by
  unfold fencing
  refine .when (endContexts_touches.after (.updates (.updates (onDie_repairs.after markDie_touches.widen)
    (fun _ _ h => losePh_touches.after h)) (fun _ _ h => ?_))) (fun _ h => frondOff_touches.after h)
  split
  · exact clearLocks_touches.after h
  · exact h

theorem fencing_power (f : Nat) (mesh : Bool) (s : State) : (fencing f mesh s).power = s.power :=
  fencing_touches.keeps [.power] rfl

theorem mapAdd_power (es : List (BitVec 64)) (s : State) : (mapAdd es s).power = s.power := by
  simp only [mapAdd, writeMap, if_true]
  split
  · rfl
  · exact (updates_keeps State.power _ (by intros; rfl) _ _).trans rfl

/-- A fence changes no sensor. -/
theorem fence_sensors (f : Nat) (mesh : Bool) (s : State) : (fence f mesh s).power.sensors = s.power.sensors := by
  have hoff (s : State) : (frondOff f s).power = s.power := frondOff_touches.keeps [.power] rfl
  unfold fence
  cases hf : (dieOf s f).fenced with
  | false =>
    rw [fenceFrond_new mesh hf]
    simp only [modEvent_power, journalFrom_power, mapAdd_power, onFrondPower_power, onDie_power, fencing_power]
  | true =>
    simp only [fenceFrond, hf, if_true, Machine.when]
    split
    · rw [hoff, onDie_power, markDie_touches.keeps [.power] rfl]
    · rfl

/-- The last reading of the list stands at its sensor when the row has ended. -/
theorem sensorOf_thermalSample (rs : List SensorReading) {r : SensorReading} (hd : isDie r.die = true)
    (hi : r.index < sensorCount r.die) (hp : powered s r.die = true) : ∃ u, powered u r.die = true
      ∧ sensorOf (thermalSample (rs ++ [r]) s) r.die r.index = sensorOf (takeReading r u) r.die r.index := by
  refine ⟨updates (rs.filter fun r => isDie r.die && decide (r.index < sensorCount r.die)) takeReading s,
    (updates_keeps (fun t => powered t r.die) takeReading (fun a t => powered_takeReading a t r.die) _ s).trans hp, ?_⟩
  have hf : ((rs ++ [r]).filter fun r => isDie r.die && decide (r.index < sensorCount r.die)) =
      (rs.filter fun r => isDie r.die && decide (r.index < sensorCount r.die)) ++ [r] := by
    refine (List.filter_append ..).trans (congrArg (_ ++ ·) (List.filter_cons_of_pos ?_))
    rw [hd, decide_eq_true hi]
    decide
  have hs (t : State) : sensorOf t r.die r.index = tget {} t.power.sensors (4 * r.die + r.index) := rfl
  simp only [thermalSample, hf, hs]
  rw [updates_keeps (fun t => t.power.sensors) _ (fun a t => fence_sensors a false t),
    updates_keeps (fun t => t.power.sensors) _ throttleDie_sensors, updates, List.foldl_append]
  rfl

/-! ### Shutdown -/

theorem trip_powered (cause die celsius : Nat) (hu : s.power.boot ≠ .unpowered) (hs : s.power.boot ≠ .shutdown) :
    trip cause die celsius s = onPower (fun p => { p with
      boot := .shutdown, allOff := false, alertShutdown := true, arraysGated := true
      latch := { cause := cause, die := die, celsius := celsius } }) s := by
  unfold trip
  split
  · contradiction
  · contradiction
  · rfl

/-- What stands when the cool-down has ended. -/
def cooled (s : State) : State := onPower (fun p => { p with alertShutdown := false, allOff := false }) s

theorem cooldown_on (board : BoardStart) (hb : s.power.boot = .shutdown) (ho : s.power.allOff = true)
    (hi : s.power.inA = true ∨ s.power.inB = true) : cooldown board s = powerOn board (cooled s) := by
  simp only [cooldown]
  rw [if_neg (by simp [hb, ho]), if_pos (by simpa [onPower] using hi)]
  rfl

/-- Power-up to standby is journalled. -/
theorem phaseA_journals (s : State) : s.post.journal.next < (phaseA s).post.journal.next := by
  unfold phaseA openEndpoint
  rw [journal_next]
  have h := (readLatch_touches (s := startFirmware s)).steady.next
  exact Nat.lt_succ_of_le (Nat.le_trans (startFirmware_touches (s := s)).steady.next h)

end

/-- Settles O32, row by row. -/
theorem thermalRowsComplete : Obligations.ThermalRowsComplete := by
  refine ⟨fun s rs die index tenths hu hd hi hp hlo hhi => gives_of rfl ⟨_, congrArg Host.Outcome.next (if_pos hu), ?_⟩,
    fun s rs die index tenths hu hd hi hp h => gives_of rfl ⟨_, congrArg Host.Outcome.next (if_pos hu), ?_⟩,
    fun s f hf hh => gives_of rfl ⟨_, (if_neg (Nat.not_le.2 hf)).trans (congrArg Host.Outcome.next (if_pos hh)),
      congrArg FrondPower.thermalLimit (frondPowerOf_onFrondPower ..)⟩,
    fun s f hf hc => gives_of rfl ⟨_, (if_neg (Nat.not_le.2 hf)).trans (congrArg Host.Outcome.next (if_pos hc)),
      congrArg FrondPower.thermalLimit (frondPowerOf_onFrondPower ..)⟩,
    fun s die c hd hc hu hs => gives_of rfl ⟨_, (if_pos hd).trans (congrArg Host.Outcome.next
      ((if_pos hc).trans (trip_powered 1 die (c % 256) hu hs))), rfl, rfl, rfl, rfl, rfl⟩,
    fun s i mv hi hmv hu hs => gives_of rfl ⟨_, (if_pos hi).trans (congrArg Host.Outcome.next
      ((if_neg (Nat.not_le.2 hmv)).trans (trip_powered _ _ _ hu hs))), rfl, rfl, rfl, rfl⟩,
    fun s b hb ho => gives_of rfl ⟨_, congrArg Host.Outcome.next (if_neg (by simp [hb, ho])), rfl, rfl, rfl, rfl, rfl, rfl, rfl⟩,
    fun s board hb ho hi hp => gives_of rfl ⟨_, congrArg Host.Outcome.next
      ((cooldown_on board hb ho hi).trans (powerOn_starts hp _)), ?_⟩,
    fun s board hb ho hi hp => gives_of rfl ⟨_, congrArg Host.Outcome.next
      ((cooldown_on board hb ho hi).trans (powerOn_dead hp _)), rfl, rfl, rfl, rfl⟩,
    fun s command v hb hc hv => gives_of rfl ⟨_, congrArg Host.Outcome.next (if_neg (Classical.not_not.2 hb)), ?_⟩⟩
  · obtain ⟨u, hpu, h⟩ := sensorOf_thermalSample rs (r := { die := die, index := index, tenths := some tenths }) hd hi hp
    exact h.trans (takeReading_inRange hpu rfl hlo hhi)
  · obtain ⟨u, hpu, h⟩ := sensorOf_thermalSample rs (r := { die := die, index := index, tenths := some tenths }) hd hi hp
    exact (congrArg Sensor.condition h).trans (takeReading_outOfRange hpu rfl ‹_›)
  · have hj : s.post.journal.next < _ := phaseA_journals
      (onPower (fun p => { p with supervisorOk := board.supervisorOk, enable := board.enableAbove }) (cooled s))
    obtain ⟨b, h⟩ := phaseA_power
      (onPower (fun p => { p with supervisorOk := board.supervisorOk, enable := board.enableAbove }) (cooled s))
    rw [h]
    exact ⟨rfl, rfl, rfl, rfl, rfl, rfl, hj⟩
  · rw [hv]
    match command, hc with
    | 0, _ => rfl
    | 1, _ => rfl
    | 2, _ => rfl

end Sys2Proof.Rows
end

section
/-! SUPPORT. Errors that the module finds in itself (R389, R390, R394, R406 and the faults of the chapters). -/

namespace Sys2Proof.Rows

open Sys2Proof.Machine Sys2Proof.Safety Sys2Proof.Laws Sys2Proof.Frames

set_option Elab.async false

section
variable {s : State}

theorem failed_of_repairs {x y : Die} (h : repairsOf x = repairsOf y) : x.failed = y.failed := congrArg (fun r => r.2.2.2.2.1) h

theorem mapAdd_journal (es : List (BitVec 64)) (s : State) : (mapAdd es s).post.journal = s.post.journal := by
  simp only [mapAdd, writeMap, if_true]
  split
  · rfl
  · exact (updates_keeps (fun t => t.post.journal) _ (by intros; rfl) _ _).trans rfl

theorem dieOf_mapAdd (es : List (BitVec 64)) (s : State) (d : Nat) : dieOf (mapAdd es s) d = dieOf s d := by
  rw [dieOf, mapAdd_fabric]
  rfl

theorem dieOf_journalFrom (pc : Postcode) (c k p : Nat) (e : Bool) (fs : List Fld) (s : State) (d : Nat) :
    dieOf (journalFrom pc c k p e fs s) d = dieOf s d := by rw [dieOf, journalFrom_fabric]; rfl

theorem dieOf_journal (c k p : Nat) (e : Bool) (fs : List Fld) (s : State) (d : Nat) :
    dieOf (journal c k p e fs s) d = dieOf s d := dieOf_journalFrom ..

theorem dieOf_journalRule (a k p : Nat) (e : Bool) (r : Nat) (fs : List Fld) (s : State) (d : Nat) :
    dieOf (journalRule a k p e r fs s) d = dieOf s d := dieOf_journalFrom ..

theorem next_kept {F : List Part} {t : State} (h : Touches F s t) : s.post.journal.next ≤ t.post.journal.next := h.steady.next

/-! ### Fences -/

/-- The fence of a frond in service is journalled. -/
theorem fence_journals (f : Nat) (mesh : Bool) (hf : (dieOf s f).fenced = false) :
    s.post.journal.next + 1 ≤ (fence f mesh s).post.journal.next := by
  rw [fence, fenceFrond_new mesh hf]
  dsimp only
  rw [modEvent_post, journalFrom_next, mapAdd_journal]
  exact Nat.succ_le_succ (show _ ≤ (fencing f mesh s).post.journal.next from next_kept fencing_touches)

/-- A fence keeps every wire and link. -/
theorem fence_wires (f : Nat) (mesh : Bool) (s : State) (d : Nat) : (dieOf (fence f mesh s) d).badWires = (dieOf s d).badWires
    ∧ (dieOf (fence f mesh s) d).linksOut = (dieOf s d).linksOut := by
  cases hf : (dieOf s f).fenced with
  | false => exact (fenceFrond_die mesh hf).2.2 d
  | true =>
    simp only [fence, fenceFrond, hf, if_true, Machine.when]
    split
    · obtain ⟨hw, hl⟩ := wires_of_repairs (repairs_kept (s := onDie f (fun x => { x with meshOff := true })
        (markDie f false 1 true s)) (frondOff_touches (f := f)) d)
      obtain ⟨hw', hl'⟩ := wires_of_repairs (repairs_kept (s := s) (markDie_touches (d := f)) d)
      rw [hw, hl, ← hw', ← hl']
      by_cases h : d = f
      · rw [h, dieOf_onDie]
        exact ⟨rfl, rfl⟩
      · rw [dieOf_onDie_ne _ _ _ _ h]
        exact ⟨rfl, rfl⟩
    · exact ⟨rfl, rfl⟩

/-- A frond found faulty is journalled and fenced. -/
theorem fenceAfterRecord {f : Nat} (hup : dieUp s f = true) (pc : Postcode) (c k p : Nat) (fs : List Fld) :
    (dieOf (fence f false (journalFrom pc c k p true fs s)) f).fenced = true
      ∧ s.post.journal.next + 2 ≤ (fence f false (journalFrom pc c k p true fs s)).post.journal.next := by
  have hf : (dieOf s f).fenced = false := by
    simp only [dieUp, Bool.and_eq_true, Bool.not_eq_true'] at hup
    exact hup.2
  refine ⟨fence_fenced .., ?_⟩
  have h := fence_journals (s := journalFrom pc c k p true fs s) f false (by rw [dieOf_journalFrom]; exact hf)
  rwa [journalFrom_next] at h

/-! ### Edge dies -/

/-- What a failed edge die held is given up: the rings `rs`, the pigeonholes `hs`, its ports, its state and its packets. -/
def edgeCleared (rs hs : List Nat) (e : Nat) (s : State) : State :=
  s |> markDie (96 + e) false 3 false
    |> updates rs (fun r s =>
        let g := ringOf s r
        s |> journalFrom (ringPc (moduleNumber s) r) 0xA005 2 0 false [u8 g.owner, u16 r, u32 g.head]
          |> postWaiting? g.stopLb 0x0107 eNotFound []
          |> freeRing r)
    |> updates hs (fun h s => losePh h 398 (mgmtPc (moduleNumber s) e) s)
    |> updates ((List.range 6).map (6 * e + ·)) (fun p s => disablePort p s)
    |> clearDie (96 + e)
    |> dropPackets (· == 96 + e)

/-- The failure of an edge die after its record: its repair entry, its host port and its role. -/
def edgeReported (e : Nat) (s : State) : State :=
  s |> modEvent 3
    |> mapAdd [mapEntry 0x08 (96 + e) 0 0 0 0]
    |> when (e == 0) (fun s => unplannedFailover (linkDown 0 s))
    |> when (e == 8) (fun s =>
        let s := linkDown 1 s
        if s.post.onE8 then s else journal 0x4003 2 0 true [] (onPost (fun p => { p with standby := false }) s))

theorem edgeCleared_touches {rs hs : List Nat} {e : Nat} :
    Touches (allBut [.ladder, .rackTime, .boot, .ctxs, .keys, .routeSets, .limit, .number, .mine, .eid, .taps, .repairs]) s
      (edgeCleared rs hs e s) := by
  unfold edgeCleared
  exact dropPackets_touches.after (clearDie_touches.after (.updates (.updates (.updates markDie_touches.widen
    (fun _ _ h => freeRing_touches.after (postWaiting?_touches.after (journalFrom_quiet.after h))))
    (fun _ _ h => losePh_touches.after h)) (fun _ _ h => disablePort_touches.after h)))

theorem edgeReported_touches {e : Nat} :
    Touches (allBut [.ladder, .rackTime, .boot, .ctxs, .keys, .routeSets, .limit, .number, .mine, .eid, .taps, .repairs]) s
      (edgeReported e s) := by
  unfold edgeReported
  exact .when (.when (mapAdd_touches.after modEvent_touches.widen) (fun _ h => unplannedFailover_touches.after (linkDown_touches.after h)))
    (fun _ h => .ite (linkDown_touches.after h) (journal_touches.after (.onPost (linkDown_touches.after h))))

/-- An edge die that fails is failed and journalled. -/
theorem edgeDieFail_new {e : Nat} (hf : (dieOf s (96 + e)).failed = false) : (dieOf (edgeDieFail e s) (96 + e)).failed = true
    ∧ s.post.journal.next < (edgeDieFail e s).post.journal.next := by
  have h : ∃ rs hs, edgeDieFail e s = edgeReported e (journal 0xA005 2 0 true [u8 e]
      (edgeCleared rs hs e (onDie (96 + e) (fun x => { x with failed := true }) s))) := by
    simp only [edgeDieFail, hf, Bool.false_eq_true, if_false]
    exact ⟨_, _, rfl⟩
  obtain ⟨rs, hs, h⟩ := h
  rw [h]
  constructor
  · rw [failed_of_repairs (repairs_kept edgeReported_touches _), dieOf_journal,
      failed_of_repairs (repairs_kept edgeCleared_touches _), dieOf_onDie]
  · refine Nat.lt_of_lt_of_le ?_ (next_kept edgeReported_touches)
    rw [journal_next]
    exact Nat.lt_succ_of_le (next_kept (s := onDie (96 + e) (fun x => { x with failed := true }) s) edgeCleared_touches)

theorem edgeDieFail_failed (e : Nat) (s : State) : (dieOf (edgeDieFail e s) (96 + e)).failed = true := by
  cases hf : (dieOf s (96 + e)).failed with
  | false => exact (edgeDieFail_new hf).1
  | true =>
    rw [edgeDieFail, if_pos hf]
    exact hf

/-! ### Wires -/

theorem linkOut_links (d l : Nat) (s : State) : (dieOf (linkOut d l s) d).linksOut.contains l = true
    ∧ (dieOf (linkOut d l s) d).badWires = (dieOf s d).badWires := by
  have hput (x : Nat × Nat) (s : State) : (dieOf (onDie x.1 (fun y =>
      if y.linksOut.contains x.2 then y else { y with linksOut := x.2 :: y.linksOut }) s) d).badWires = (dieOf s d).badWires
      ∧ ((dieOf s d).linksOut.contains l = true → (dieOf (onDie x.1 (fun y =>
        if y.linksOut.contains x.2 then y else { y with linksOut := x.2 :: y.linksOut }) s) d).linksOut.contains l = true) := by
    by_cases h : d = x.1
    · rw [h, dieOf_onDie]
      split
      · exact ⟨rfl, id⟩
      · exact ⟨rfl, fun hl => by simpa using Or.inr (by simpa using hl)⟩
    · rw [dieOf_onDie_ne _ _ _ _ h]
      exact ⟨rfl, id⟩
  have hown (s : State) : (dieOf (onDie d (fun y =>
      if y.linksOut.contains l then y else { y with linksOut := l :: y.linksOut }) s) d).linksOut.contains l = true := by
    rw [dieOf_onDie]
    split
    next h => exact h
    · simp
  simp only [linkOut]
  split
  next x hx => exact ⟨(hput x _).2 (hown s), ((hput x _).1).trans (hput (d, l) s).1⟩
  · exact ⟨hown s, (hput (d, l) s).1⟩

variable {d l g w : Nat} {i : Bool} {n : Nat × Nat × Bool}

/-- A wire, under the link's one name. -/
def namedWire (n : Nat × Nat × Bool) (g w : Nat) : BadWire := { link := n.2.1, group := g, wire := w, inbound := n.2.2 }

/-- A wire that fails where the group's spare is free takes the spare. -/
theorem wireFail_spare (hn : n = linkName d l i) (hout : (dieOf s n.1).linksOut.contains n.2.1 = false)
    (hused : groupUsed s n.1 n.2.1 g n.2.2 = false) : (dieOf (wireFail d l g w i s) n.1).badWires =
      (dieOf s n.1).badWires ++ [namedWire n g w] ∧ (dieOf (wireFail d l g w i s) n.1).linksOut = (dieOf s n.1).linksOut
      ∧ (wireFail d l g w i s).post.journal.next = s.post.journal.next + 1 := by
  subst hn
  have hnew : (dieOf s (linkName d l i).1).badWires.contains (namedWire (linkName d l i) g w) = false := by
    refine Bool.eq_false_iff.2 fun h => ?_
    have hm := List.contains_iff_mem.1 h
    have hu : groupUsed s (linkName d l i).1 (linkName d l i).2.1 g (linkName d l i).2.2 = true :=
      List.any_eq_true.2 ⟨_, hm, by simp [namedWire]⟩
    exact Bool.false_ne_true (hused.symm.trans hu)
  unfold namedWire at *
  simp only [wireFail, hout, hnew, hused, Bool.false_eq_true, or_self, if_false, badWire]
  rw [dieOf_mapAdd, dieOf_journalRule, dieOf_onDie, mapAdd_journal, journalRule, journal_next]
  exact ⟨rfl, rfl, rfl⟩

/-- A wire that fails where the group's spare is in use takes its link out of service. -/
theorem wireFail_link (hn : n = linkName d l i) (hout : (dieOf s n.1).linksOut.contains n.2.1 = false)
    (hnew : (dieOf s n.1).badWires.contains (namedWire n g w) = false) (hused : groupUsed s n.1 n.2.1 g n.2.2 = true) :
    (dieOf (wireFail d l g w i s) n.1).linksOut.contains n.2.1 = true
      ∧ (dieOf (wireFail d l g w i s) n.1).badWires = (dieOf s n.1).badWires
      ∧ s.post.journal.next < (wireFail d l g w i s).post.journal.next := by
  subst hn
  unfold namedWire at hnew
  obtain ⟨hl, hb⟩ := linkOut_links (linkName d l i).1 (linkName d l i).2.1 s
  simp only [wireFail, hout, hnew, hused, Bool.false_eq_true, or_self, if_false, if_true, badWire]
  have hnext (fs : List Fld) (es : List (BitVec 64)) : s.post.journal.next < (mapAdd es (journalRule 10 2 1 true 21 fs
      (linkOut (linkName d l i).1 (linkName d l i).2.1 s))).post.journal.next := by
    rw [mapAdd_journal, journalRule, journal_next]
    exact Nat.lt_succ_of_le (next_kept linkOut_touches)
  split
  · obtain ⟨hfw, hfl⟩ := fence_wires (linkName d l i).1 true (mapAdd [mapEntry 0x02 (linkName d l i).1 (linkName d l i).2.1 0 0 0]
      (journalRule 10 2 1 true 21 [u8 d, u16 l, u8 g, u8 w] (linkOut (linkName d l i).1 (linkName d l i).2.1 s))) (linkName d l i).1
    rw [hfw, hfl, dieOf_mapAdd, dieOf_journalRule]
    exact ⟨hl, hb, Nat.lt_of_lt_of_le (hnext _ _) (next_kept fence_touches)⟩
  · rw [dieOf_mapAdd, dieOf_journalRule]
    exact ⟨hl, hb, hnext _ _⟩

/-! ### Tiles -/

theorem retireTile_journals (f t : Nat) (s : State) : s.post.journal.next < (retireTile f t s).post.journal.next := by
  simp only [retireTile]
  rw [journalFrom_next, mapAdd_journal]
  have hlaunch (hs : List Nat) (pc : Postcode) : Touches (allBut []) s (updates hs (fun h s => match phOf s h with
        | some p => returnLaunches h (fun x => (logicalAt p f t).any (inLaunch s x)) pc s
        | none => s) (tileMarked f t s)) := by
    refine .updates onDie_repairs.widen fun _ _ h => ?_
    split
    · exact returnLaunches_touches.after h
    · exact h
  refine Nat.lt_succ_of_le (next_kept (F := allBut []) (onDie_repairs.after ?_))
  refine .ite ?_ (.ite ?_ ?_)
  · exact .updates (hlaunch _ _) fun _ _ h => rebindTile_touches.after h
  · exact .updates (hlaunch _ _) fun _ _ h => losePh_touches.after h
  · exact onDie_repairs.after (.updates (hlaunch _ _) fun _ _ h => losePh_touches.after h)

theorem autoRetire_due {f t : Nat} (hr : (dieOf s f).retired.contains t = false)
    (h : 3 ≤ tget 0 (dieOf s f).tileFaults t ∨ foundTwice s f t = true) :
    (dieOf (autoRetire f t s) f).retired.contains t = true ∧ s.post.journal.next < (autoRetire f t s).post.journal.next := by
  unfold autoRetire
  have hdue : ¬ ((dieOf s f).retired.contains t ∨ (tget 0 (dieOf s f).tileFaults t < 3 ∧ !foundTwice s f t)) := by
    rintro (hc | ⟨hlt, hf⟩)
    · exact Bool.false_ne_true (hr.symm.trans hc)
    · rcases h with h | h
      · omega
      · rw [h] at hf
        exact Bool.false_ne_true hf
  rw [if_neg hdue]
  refine ⟨?_, ?_⟩
  · rw [retireTile_retired]
    simp
  · have h (g : Die → Die) : s.post.journal.next < (retireTile f t (onDie f g s)).post.journal.next :=
      retireTile_journals f t (onDie f g s)
    exact h _

/-! ### Parity and the scrub -/

theorem mem_insertOnce (l : List Nat) (i : Nat) : (if l.contains i then l else i :: l).contains i = true := by
  split
  next h => exact h
  · simp

theorem startWalk_pins {d ctx va : Nat} {ats : Bool} {req : WalkFor} {s t : State}
    (h : startWalk d ctx va ats true req s = some t) : t.xlat.pins = s.xlat.pins ∧ t.post = s.post := by
  simp only [startWalk] at h
  split at h
  · cases h
    exact ⟨rfl, rfl⟩
  · rw [if_neg (by simp)] at h
    cases h
    exact ⟨rfl, rfl⟩

/-- A pin hit by a parity error waits for its leaf. -/
theorem refreshPin_pin {i : Nat} {p : Pin} (hp : s.xlat.pins[i]? = some p) (hn : p.programmed = none) :
    (refreshPin i s).xlat.pins[i]? = some { p with leaf := none } ∧ (refreshPin i s).post = s.post := by
  have hlt : i < s.xlat.pins.length := (List.getElem?_eq_some_iff.1 hp).1
  have hset : (s.xlat.pins.set i { p with leaf := none })[i]? = some { p with leaf := none } := by
    rw [List.getElem?_set_self hlt]
  simp only [refreshPin, hp]
  rw [if_neg (by simp [hn])]
  split
  next t ht =>
    obtain ⟨h1, h2⟩ := startWalk_pins ht
    rw [h1, h2]
    exact ⟨hset, rfl⟩
  · exact ⟨hset, rfl⟩

theorem foundUncorrectable_marks (pc : Postcode) (w : Nat) (s : State) :
    (foundUncorrectable pc w s).mem = { s.mem with marks := tset s.mem.marks w .poison }
      ∧ (foundUncorrectable pc w s).post.journal.next = s.post.journal.next + 1 := by
  rw [foundUncorrectable, journalFrom_mem, journalFrom_next]
  exact ⟨rfl, rfl⟩

/-- What the scrub of a word without an error of its own does with each finding. -/
theorem scrub_word {d w : Nat} (hp : powered s d = true) (hf : (dieOf s d).failed = false) (hw : w < otherStores)
    (hm : markOf s w = none) : scrub d w .good s = countScrub d s
      ∧ scrub d w .correctable s = countCorrection d w (clearMark w (countScrub d s))
      ∧ ∀ pc, wordUnit (countScrub d s) w = some pc → scrub d w .uncorrectable s = foundUncorrectable pc w (countScrub d s) := by
  have hm' : markOf (countScrub d s) w = none := by
    unfold countScrub
    split <;> exact hm
  simp only [scrub]
  rw [if_neg (by simp [hp, hf]), if_pos hw, if_neg (by simp [hm']), if_neg (by simp [hp, hf]), if_neg (by simp [hm'])]
  refine ⟨?_, ?_, fun pc hpc => ?_⟩
  · simp only [scrubFinds, hm']
  · simp only [scrubFinds, hm']
  · rw [if_neg (by simp [hp, hf]), if_neg (by simp [hm'])]
    simp only [scrubFinds, hpc]

theorem countScrub_keeps (d : Nat) (s : State) : (countScrub d s).mem = s.mem ∧ (countScrub d s).post = s.post
    ∧ tget 0 (dieOf (countScrub d s) d).ecc 0 = tget 0 (dieOf s d).ecc 0 := by
  unfold countScrub
  split
  · refine ⟨rfl, rfl, ?_⟩
    rw [countEcc, dieOf_onDie, dieOf_onDie]
    exact tget_tset_ne _ _ _ (by decide)
  · exact ⟨rfl, rfl, by rw [dieOf_onDie]⟩

/-- A word of the byte memories has its unit. -/
theorem wordUnit_some {d w : Nat} (hd : wordOnDie d w = true) (hw : w < otherStores) : ∃ pc, wordUnit s w = some pc := by
  simp only [wordOnDie, wordDie] at hd
  simp only [wordUnit]
  split
  · exact ⟨_, rfl⟩
  next h1 =>
    rw [if_neg h1] at hd
    split
    · exact ⟨_, rfl⟩
    next h2 =>
      rw [if_neg h2] at hd
      split
      · exact ⟨_, rfl⟩
      next h3 =>
        rw [if_neg h3] at hd
        exact absurd (of_decide_eq_true hd) (Nat.not_le.2 hw)

end

/-- Settles O31, row by row. -/
theorem faultRowsComplete : Obligations.FaultRowsComplete := by
  refine ⟨fun s die hd => gives_of rfl ⟨_, if_pos hd, ?_⟩,
    fun s die hd => gives_of rfl ⟨_, if_pos ?_, ?_⟩,
    fun s die hd => gives_of rfl ⟨_, if_pos ?_, ?_⟩,
    fun s f hf hup => gives_of rfl ⟨_, (if_neg (Nat.not_le.2 hf)).trans (if_neg (by simp [hup])), fenceAfterRecord hup ..⟩,
    fun s f u hf hu hup => gives_of rfl ⟨_, (if_neg (by simp [hu, hf])).trans (if_neg (by simp [hup])), fenceAfterRecord hup ..⟩,
    fun s die hd hc => gives_of rfl ⟨_, (if_pos hd).trans (congrArg Host.Outcome.next (if_pos hc)), ?_⟩,
    fun s e he hf => gives_of rfl ⟨_, if_pos he, edgeDieFail_new hf⟩,
    fun s die link g w i n hd hl hg hw hn hout hused => gives_of rfl ⟨_, if_pos ⟨hd, hl, hg, hw⟩, wireFail_spare hn hout hused⟩,
    fun s die link g w i n hd hl hg hw hn hout hnew hused =>
      gives_of rfl ⟨_, if_pos ⟨hd, hl, hg, hw⟩, wireFail_link hn hout hnew hused⟩,
    fun s f t hf ht hr h => gives_of rfl ⟨_, if_pos ⟨hf, ht⟩, autoRetire_due hr h⟩,
    fun s hu hn => gives_of rfl ⟨_, congrArg Host.Outcome.next ((if_neg (by simp [hu, hn])).trans (if_neg (by decide))),
      rfl, rfl, rfl⟩,
    fun s slot k h1 h2 hk => gives_of rfl ⟨_, if_neg (by omega), ?_⟩,
    fun s die i hd hi => gives_of rfl ⟨_, if_pos ⟨hd, hi⟩, ?_⟩,
    fun s die i hd hi h160 => gives_of rfl ⟨_, if_pos ⟨hd, hi⟩, ?_⟩,
    fun s die i hd hi => gives_of rfl ⟨_, if_pos ⟨hd, hi⟩, ?_⟩,
    fun s die i hd hi => gives_of rfl ⟨_, if_pos ⟨hd, hi⟩, ?_⟩,
    fun s die i hd hi => gives_of rfl ⟨_, if_pos ⟨hd, Nat.lt_add_right _ hi⟩, ?_⟩,
    fun s die i hd hi => gives_of rfl ⟨_, if_pos ⟨hd, Nat.add_lt_add_left hi _⟩, ?_⟩,
    fun s die i hd hi => gives_of rfl ⟨_, if_pos ⟨hd, hi⟩, ?_⟩,
    fun s die i p hd hi hp hn => gives_of rfl ⟨_, if_pos ⟨hd, hi⟩, ?_⟩,
    fun s die i hd hi => gives_of rfl ⟨_, if_pos ⟨hd, hi⟩, ?_⟩,
    fun s die i r hd hi hr => gives_of rfl ⟨_, if_pos ⟨hd, hi⟩, ?_⟩,
    fun s die i hd hi => gives_of rfl ⟨_, if_pos ⟨hd, hi⟩, ?_⟩,
    fun s die i hd hi => gives_of rfl ⟨_, if_pos ⟨hd, hi⟩, ?_⟩,
    fun s die w hd hw hp hf hlt hs hm => gives_of rfl ⟨_, if_pos (by simp [hd, hw]), ?_⟩,
    fun s die w hd hw hp hf hlt hm => gives_of rfl ⟨_, if_pos (by simp [hd, hw]), ?_⟩,
    fun s die w hd hw hp hf hlt hm => gives_of rfl ⟨_, if_pos (by simp [hd, hw]), ?_⟩⟩
  · rw [contactImbalance, Machine.when, if_neg (by decide), dieOf_journalRule, dieOf_onDie, journalRule, journal_next]
    exact ⟨rfl, rfl, rfl, rfl⟩
  · simp [isDie, isFrond, hd]
  · rw [contactImbalance, Machine.when, if_pos (by decide), fenceDie, if_pos hd]
    exact fence_fenced ..
  · simp [isDie, hd]
  · simp only [isEdge, decide_eq_true_eq] at hd
    have h := edgeDieFail_failed (die - 96) (journalRule 10 2 0 true 24 [u8 die, u8 (b2n false)]
      (onDie die (fun x => { x with contactsBad := true }) s))
    rw [Nat.add_sub_cancel' hd.1] at h
    rw [contactImbalance, Machine.when, if_pos (by decide), fenceDie, if_neg (by omega)]
    exact h
  · rw [dieOf_journalFrom, dieOf_onDie, journalFrom_next]
    exact ⟨rfl, rfl, rfl⟩
  · rw [hk]
    exact tfind_tset_self ..
  · simp only [parityError, dieOf_journalFrom, dieOf_onDie, journalFrom_next]
    exact ⟨mem_insertOnce .., rfl⟩
  · simp only [parityError, keyParity, dieOf_journalFrom, journalFrom_next]
    rw [if_neg (by omega), dieOf_onDie]
    exact ⟨mem_insertOnce .., rfl⟩
  · simp only [parityError, journalFrom_fabric, journalFrom_next]
    exact ⟨mem_insertOnce .., rfl⟩
  · simp only [parityError, dieOf_onDie]
  · rw [parityError, unitOf, journalFrom_xlat, journalFrom_next]
    refine ⟨?_, rfl⟩
    rw [← unitOf, unitOf_onUnit, if_pos hi]
  · rw [parityError, unitOf, journalFrom_xlat, journalFrom_next]
    rw [← unitOf, unitOf_onUnit, if_neg (by omega), Nat.add_sub_cancel_left]
    exact ⟨rfl, rfl, rfl⟩
  · rw [parityError, unitOf, journalFrom_xlat, journalFrom_next]
    rw [← unitOf, unitOf_onUnit]
    exact ⟨rfl, rfl⟩
  · obtain ⟨h1, h2⟩ := refreshPin_pin hp hn
    rw [parityError, journalFrom_xlat, journalFrom_next]
    exact ⟨h1, congrArg (fun p => p.journal.next + 1) h2⟩
  · simp only [parityError, dieOf_onDie]
    exact mem_insertOnce ..
  · simp only [parityError, dropRun, hr]
    rw [dieOf_journalFrom, dieOf_onDie, journalFrom_next]
    exact ⟨rfl, rfl, rfl⟩
  · rw [parityError, dieOf_journalFrom, journalFrom_next, dropHold]
    split
    · rw [dieOf_onDie]
      exact ⟨rfl, rfl⟩
    next hn => exact ⟨(List.eraseIdx_of_length_le (List.getElem?_eq_none_iff.1 hn)).symm, rfl⟩
  · rw [parityError, tallyOf, dieOf_journalFrom, dieOf_onDie, journalFrom_next, tget_tmod_self]
    exact ⟨rfl, rfl⟩
  · rw [(scrub_word hp hf hlt hm).1]
    obtain ⟨h1, h2, -⟩ := countScrub_keeps die s
    refine ⟨?_, h1, h2⟩
    simp only [countScrub]
    rw [if_neg (Nat.not_le.2 hs), dieOf_onDie]
  · obtain ⟨pc, hpc⟩ := wordUnit_some (s := countScrub die s) hw hlt
    obtain ⟨h1, h2, -⟩ := countScrub_keeps die s
    obtain ⟨-, -, hu⟩ := scrub_word hp hf hlt hm
    obtain ⟨hmem, hnext⟩ := foundUncorrectable_marks pc w (countScrub die s)
    rw [hu pc hpc, markOf, hmem, hnext, h1, h2]
    exact ⟨tfind_tset_self .., rfl, rfl⟩
  · rw [(scrub_word hp hf hlt hm).2.1]
    obtain ⟨h1, -, h3⟩ := countScrub_keeps die s
    have h4 : tget 0 (dieOf (clearMark w (countScrub die s)) die).ecc 0 = tget 0 (dieOf s die).ecc 0 := h3
    have hm' (u : State) : (countCorrection die w u).mem = u.mem := rfl
    rw [markOf, hm', clearMark, onMem_mem, h1]
    refine ⟨?_, rfl, tfind_terase_self ..⟩
    rw [← clearMark, countCorrection, countEcc, dieOf_onDie, dieOf_onDie]
    dsimp only
    rw [tcount, tget_tset_self, h4]

end Sys2Proof.Rows
end

section
/-! SUPPORT. Route tables and commits (R271, R272, R286, R287). -/

namespace Sys2Proof.Rows

open Sys2Proof.Machine Sys2Proof.Safety Sys2Proof.Laws Sys2Proof.Frames

set_option Elab.async false

section
variable {s : State}

theorem fabric_postResult (lb e : Nat) (r : List Byte) (s : State) : (postResult lb e r s).fabric = s.fabric := postResult_fabric ..

theorem lbOf_onFabric (f : Fabric → Fabric) (l : Nat) (s : State) : lbOf (onFabric f s) l = lbOf s l := rfl

theorem length_packMapped (f : Nat → Nat) (l : List Nat) : (pack (l.map fun i => u64 (f i))).length = 8 * l.length := by
  have h : (l.map fun i => u64 (f i)) = (l.map f).map u64 := (List.map_map ..).symm
  rw [h, length_packWords, List.length_map]

/-- The staged entries of a ROUTE_STAGE. -/
def stagedBank (s : State) (lb : Nat) : Bank :=
  putEntries (argOf s lb 0x0401 0) (argOf s lb 0x0401 2) ((argFields 0x0401 (cmdArgs (lbOf s lb))).drop 3) s.fabric.staged

theorem routeStage_bank (lb : Nat) (s : State) : routeStage (some lb) (cmdArgs (lbOf s lb)) s =
    .done 0 [] (onFabric (fun x => { x with staged := stagedBank s lb }) s) := by
  simp only [routeStage, ok0, stagedBank, argOf, onFabric]

/-- The ports that a ROUTE_SET_DEFINE names. -/
def definedSet (s : State) (lb : Nat) : List Nat := ((argFields 0x0404 (cmdArgs (lbOf s lb))).drop 2).eraseDups

theorem routeSetDefine_eq (lb : Nat) (s : State) : routeSetDefine (some lb) (cmdArgs (lbOf s lb)) s =
    let t := tset s.fabric.routeSets (argOf s lb 0x0404 0) (definedSet s lb)
    if !setsDisjoint t then err eRouteSet s else ok0 (onFabric (fun x => { x with routeSets := t }) s) := by
  unfold routeSetDefine definedSet argOf
  rfl

/-- The commit that has drained. -/
theorem bankSwap_drained {c : Commit} (hc : s.fabric.commit = some c) (hd : drained s = true) : (bankSwap s).fabric =
    { s.fabric with
      active := swapped c.set_ s.fabric.staged s.fabric.active, staged := swapped c.set_ s.fabric.staged s.fabric.active, commit := none } := by
  simp only [bankSwap, hc, hd, if_true, postWaiting?_fabric]
  rfl

/-- A commit that does not drain ends for its letterbox. -/
theorem drainTimeout_ends {c : Commit} {lb : Nat} (hc : s.fabric.commit = some c) (hd : drained s = false) (hl : c.lb = some lb) :
    drainTimeout s = postWaiting lb 0x0402 eTimeout [] (onFabric (fun x => { x with
      commit := none, flights := tmap (fun _ f => { f with preHold := false }) x.flights }) s) := by
  simp only [drainTimeout, hd, Bool.false_eq_true, if_false, cancelCommit, hc, hl]
  rfl

end

/-- Settles O19, row by row. -/
theorem routeCommandsComplete : Obligations.RouteCommandsComplete := by
  refine ⟨fun s lb h h4 hn => answers_effect (f := routeStage) rfl h (r := []) (routeStage_bank ..) (lbOf_onFabric ..) ?_,
    fun s lb h hc hs => gives_of (x := execRouteCommit lb s) rfl
      ⟨_, runCmd_wait h rfl ((if_neg (by simp [hc])).trans (if_neg (by simp [hs]))) rfl, rfl, ?_, rfl⟩,
    fun s lb h hn h200 => answers_with (f := routeRead) rfl h rfl rfl ?_ fun hdata => ⟨postResult_fabric .., hdata⟩,
    fun s lb cs h hcs hall hd => answers_effect (f := routeSetDefine) (r := []) rfl h
      (s' := onFabric (fun x => { x with routeSets := tset s.fabric.routeSets (argOf s lb 0x0404 0) cs }) s) ?_ rfl ?_,
    fun s lb h => answers_effect (f := fun _ a s => ok0 (onFabric (fun x => { x with deflectLimit := arg 0x0405 a 0 }) s))
      rfl h (r := []) rfl rfl ?_,
    fun s c hc hd => gives_of rfl ⟨_, rfl, ?_⟩,
    fun s c lb hc hd hl hw => gives_of rfl ⟨_, congrArg Host.Outcome.next (drainTimeout_ends hc hd hl), ?_, ?_⟩⟩
  · rw [postResult_fabric, onFabric_fabric]
    exact ⟨by rw [stagedBank], rfl⟩
  · rw [lbOf_onLb]
  · rw [length_packMapped, List.length_range]
    rw [argOf] at h200
    omega
  · rw [routeSetDefine_eq, definedSet, ← hcs]
    dsimp only
    rw [hd]
    rfl
  · rw [postResult_fabric]
    exact tget_tset_self ..
  · rw [postResult_fabric, onFabric_fabric]
    exact ⟨by rw [argOf], rfl⟩
  · rw [bankSwap_drained hc hd]
    exact ⟨rfl, rfl, rfl⟩
  · exact posted_waits hw (lbOf_onFabric ..) [] (by decide)
  · dsimp only
    rw [postWaiting_fabric]
    exact ⟨rfl, rfl⟩

end Sys2Proof.Rows
end

section
/-! SUPPORT. Ports: what Detect, Disabled and a fallback leave of a port, and the port commands (R123, R209, R218, R248, R249). -/

namespace Sys2Proof.Rows

open Sys2Proof.Machine Sys2Proof.Safety Sys2Proof.Laws Sys2Proof.Frames

set_option Elab.async false

section
variable {s : State}

/-! ### Ports -/

/-- A port but for its lanes, its counters and the letterbox that waits on its width. -/
def bare (x : Port) : Port := { x with lanes := [], counters := [], widthLb := none }

theorem portOf_ports {t : State} (h : t.fabric.ports = s.fabric.ports) (p : Nat) : portOf t p = portOf s p := by rw [portOf, h]; rfl

theorem ports_kept {F : List Part} {t : State} (h : Touches F s t) (p : Nat) (hF : F.contains .ports = false := by exact rfl) :
    portOf t p = portOf s p := portOf_ports (h.same .ports hF) p

theorem bare_onPort {f : Port → Port} (hf : ∀ x, bare (f x) = bare x) (p q : Nat) (s : State) :
    bare (portOf (onPort p f s) q) = bare (portOf s q) := by
  by_cases h : q = p
  · rw [h, portOf_onPort, hf]
  · rw [portOf_onPort_ne _ _ _ _ h]

theorem bare_onLane (p l : Nat) (f : Lane → Lane) (q : Nat) (s : State) : bare (portOf (onLane p l f s) q) = bare (portOf s q) :=
  bare_onPort (by intros; rfl) p q s

theorem bare_countPort (p i n q : Nat) (s : State) : bare (portOf (countPort p i n s) q) = bare (portOf s q) :=
  bare_onPort (by intros; rfl) p q s

theorem portOf_emit (o : Out) (s : State) (q : Nat) : portOf (emit o s) q = portOf s q := rfl

theorem bare_sendBeacon (p l q : Nat) (s : State) : bare (portOf (sendBeacon p l s) q) = bare (portOf s q) := by
  simp only [sendBeacon, portOf_emit, bare_onLane]
  split <;> rfl

theorem bare_sendBeacons (p q : Nat) (s : State) : bare (portOf (sendBeacons p s) q) = bare (portOf s q) :=
  updates_keeps (fun t => bare (portOf t q)) _ (fun l s => bare_sendBeacon p l q s) _ s

theorem bare_discardLink (p q : Nat) (s : State) : bare (portOf (discardLink p s) q) = bare (portOf s q) := by
  simp only [discardLink]
  split
  · exact (bare_countPort ..).trans (bare_countPort ..)
  · rfl

theorem bare_widthDone (p q : Nat) (s : State) : bare (portOf (widthDone p s) q) = bare (portOf s q) := by
  unfold widthDone
  split
  · rw [portOf_ports (congrArg Fabric.ports (postWaiting_fabric ..))]
    exact bare_onPort (by intros; rfl) p q s
  · rfl

theorem portOf_journalFallback (p reason : Nat) (s : State) (q : Nat) : portOf (journalFallback p reason s) q = portOf s q :=
  ports_kept journalFallback_touches q

/-- A port that enters Detect. -/
def detecting (x : Port) : Port := { clearLink x with
  state := .detect, idle := false, ready := false, rate := 0, rateOffer := x.rateLimit, attempt := x.attempt + 1, partnerClass := 0
  partnerRate := 0, lanes := tmap (fun _ y => freshLane y) x.lanes }

/-- A port that falls back. -/
def fallen (reason : Nat) (x : Port) : Port := { clearLink x with
  state := .detect, idle := true, ready := false, reason := reason
  failures := if trainingState x.state then x.failures + 1 else x.failures }

/-- A port that is disabled. -/
def disabled (x : Port) : Port := { clearLink x with
  state := .disabled, idle := false, inBackoff := false, failures := 0, ready := false
  lanes := tmap (fun _ y => freshLane y) x.lanes }

theorem bare_detecting (x : Port) : bare (detecting (bare x)) = bare (detecting x) := rfl
theorem bare_fallen (r : Nat) (x : Port) : bare (fallen r (bare x)) = bare (fallen r x) := rfl
theorem bare_disabled (x : Port) : bare (disabled (bare x)) = bare (disabled x) := rfl

theorem fallen_fields {x y : Port} {r : Nat} (h : bare x = bare (fallen r y)) : x.state = .detect ∧ x.idle = true ∧ x.reason = r
    ∧ x.failures = if trainingState y.state then y.failures + 1 else y.failures :=
  ⟨congrArg Port.state h, congrArg Port.idle h, congrArg Port.reason h, congrArg Port.failures h⟩

theorem detecting_fields {x y : Port} (h : bare x = bare (detecting y)) : x.state = .detect ∧ x.idle = false ∧ x.reason = y.reason
    ∧ x.attempt = y.attempt + 1 ∧ x.failures = y.failures :=
  ⟨(congrArg Port.state h :), (congrArg Port.idle h :), (congrArg Port.reason h :), (congrArg Port.attempt h :),
    (congrArg Port.failures h :)⟩

theorem enterDetect_self (p : Nat) (s : State) : bare (portOf (enterDetect p s) p) = bare (detecting (portOf s p)) := by
  rw [enterDetect, bare_widthDone, bare_sendBeacons, portOf_onPort]
  rfl

theorem enterDetect_ne {p q : Nat} (h : q ≠ p) (s : State) : bare (portOf (enterDetect p s) q) = bare (portOf s q) := by
  rw [enterDetect, bare_widthDone, bare_sendBeacons, portOf_onPort_ne _ _ _ _ h]

theorem fallback_self (p r : Nat) (s : State) : bare (portOf (fallback p r s) p) = bare (fallen r (portOf s p)) := by
  have hstate : (portOf (discardLink p s) p).state = (portOf s p).state :=
    (congrArg Port.state (bare_discardLink p p s) : (bare (portOf (discardLink p s) p)).state = (bare (portOf s p)).state)
  rw [fallback, portOf_journalFallback, bare_countPort, portOf_onPort, ← bare_fallen, ← bare_discardLink, bare_fallen, fallen, hstate]

theorem disablePort_self (p : Nat) (s : State) : bare (portOf (disablePort p s) p) = bare (disabled (portOf s p)) := by
  rw [disablePort, bare_widthDone, portOf_onPort, ← bare_disabled, ← bare_discardLink, bare_disabled, disabled]

theorem disablePort_ne {p q : Nat} (h : q ≠ p) (s : State) : bare (portOf (disablePort p s) q) = bare (portOf s q) := by
  rw [disablePort, bare_widthDone, portOf_onPort_ne _ _ _ _ h, bare_discardLink]

theorem portOf_queueControl (p op : Nat) (s : State) : portOf (queueControl p op s) p =
    if (portOf s p).controls.contains op then portOf s p else { portOf s p with controls := (portOf s p).controls ++ [op] } :=
  portOf_onPort ..

theorem portOf_journal (c k o : Nat) (e : Bool) (fs : List Fld) (s : State) (p : Nat) : portOf (journal c k o e fs s) p = portOf s p :=
  portOf_ports (congrArg Fabric.ports (journal_fabric ..)) p

/-- A narrowing takes its lanes at once and waits for its answer. -/
theorem narrowTo_port (p mask trigger : Nat) (s : State) : ∃ cs ct, portOf (narrowTo p mask trigger s) p = { portOf s p with
    mask := mask, narrowing := some { oldMask := (portOf s p).mask, newMask := mask }, resend := [], controls := cs, counters := ct } := by
  unfold narrowTo
  dsimp only
  rw [portOf_queueControl, portOf_journal, countPort, portOf_onPort, portOf_onPort]
  split <;> exact ⟨_, _, rfl⟩

/-! ### Letterboxes -/

theorem lbOf_widthDone {l : Nat} (p : Nat) (hl : (lbOf s l).phase ≠ .waiting) : lbOf (widthDone p s) l = lbOf s l := by
  unfold widthDone
  split
  · exact lbOf_postWaiting _ _ _ _ hl
  · rfl

theorem lbOf_enterDetect {l : Nat} (p : Nat) (hl : (lbOf s l).phase ≠ .waiting) : lbOf (enterDetect p s) l = lbOf s l := by
  have h (f : Port → Port) : lbOf (sendBeacons p (onPort p f s)) l = lbOf s l := lbs_kept (s := onPort p f s) sendBeacons_touches l
  rw [enterDetect, lbOf_widthDone _ (by rwa [h]), h]

theorem lbOf_disablePort {l : Nat} (p : Nat) (hl : (lbOf s l).phase ≠ .waiting) : lbOf (disablePort p s) l = lbOf s l := by
  have h (f : Port → Port) : lbOf (onPort p f (discardLink p s)) l = lbOf s l := lbs_kept discardLink_touches l
  rw [disablePort, lbOf_widthDone _ (by rwa [h]), h]

theorem lbOf_fallback (p r l : Nat) (s : State) : lbOf (fallback p r s) l = lbOf s l := lbs_kept fallback_touches l

theorem lbOf_mapRemove (q : BitVec 64 → Bool) (l : Nat) (s : State) : lbOf (mapRemove q s) l = lbOf s l := by
  simp only [mapRemove]
  split
  · exact mapped_lb ..
  · rfl

/-! ### Retraining -/

theorem retrain_falls {p : Nat} (h : (portOf s p).state ≠ .backoff) : bare (portOf (retrain p s) p) = bare (fallen 0x0D (portOf s p)) := by
  unfold retrain
  split
  · contradiction
  · rw [fallback_self, portOf_onPort]
    rfl
  · exact fallback_self ..

/-- From Back-off a retrain starts Detect at once. -/
def retrainedFromBackoff (p : Nat) (s : State) : State :=
  journalFallback p 0x0D (countPort p 7 1 (onPort p (fun x => { x with reason := 0x0D }) s))

theorem retrain_backoff {p : Nat} (h : (portOf s p).state = .backoff) : retrain p s = enterDetect p (retrainedFromBackoff p s) := by
  simp only [retrain, h, retrainedFromBackoff]

theorem retrain_detects {p : Nat} (h : (portOf s p).state = .backoff) :
    bare (portOf (retrain p s) p) = bare (detecting { portOf s p with reason := 0x0D }) := by
  rw [retrain_backoff h, enterDetect_self, ← bare_detecting, retrainedFromBackoff, portOf_journalFallback, bare_countPort, portOf_onPort,
    bare_detecting]

theorem lbOf_retrain {l : Nat} (p : Nat) (hl : (lbOf s l).phase ≠ .waiting) : lbOf (retrain p s) l = lbOf s l := by
  by_cases h : (portOf s p).state = .backoff
  · have hk : lbOf (retrainedFromBackoff p s) l = lbOf s l := lbs_kept (s := countPort p 7 1 (onPort p (fun x => { x with reason := 0x0D }) s))
      journalFallback_touches l
    rw [retrain_backoff h, lbOf_enterDetect _ (by rwa [hk]), hk]
  · unfold retrain
    split
    · contradiction
    · exact lbOf_fallback ..
    · exact lbOf_fallback ..

/-! ### Commands -/

theorem resultData_prefix {t : State} {lb n m : Nat} (h : n ≤ m) : resultData t lb n = (resultData t lb m).take n := by
  rw [resultData, resultData, tabBytes, tabBytes, ← List.map_take, List.take_range, Nat.min_eq_left h]

theorem pack_portBytes (a b c d e : Nat) : pack [u8 a, u8 b, u8 c, u8 d, u32 e] =
    (leBytes 1 a ++ leBytes 1 b ++ leBytes 1 c ++ leBytes 1 d) ++ leBytes 4 e := by
  simp [pack, packFrom, u8, u32, roundUp]

/-- The first four bytes of PORT_QUERY's answer. -/
def portBytes (x : Port) : List Byte := leBytes 1 (portCode x.state)
  ++ leBytes 1 (if x.state = .pattern ∨ x.state = .lock ∨ x.state = .exchange ∨ x.state = .active ∨ x.state = .keepalive then
      maskWidth x.mask else 0)
  ++ leBytes 1 (laneRate x) ++ leBytes 1 x.reason

theorem portQuery_answer (who : Option Nat) (a : List Byte) (s : State) :
    ∃ n, portQuery who a s = .done 0 (portBytes (portOf s (arg 0x0406 a 0)) ++ leBytes 4 n) s := by
  refine ⟨(match (portOf s (arg 0x0406 a 0)).cap with | some c => c.postcode | none => noPostcode).toNat, ?_⟩
  simp only [portQuery, pack_portBytes]
  refine congrArg (fun d => CmdOut.done 0 (d ++ leBytes 4 _) s) ?_
  unfold portBytes
  cases (portOf s (arg 0x0406 a 0)).state <;> simp

/-- What PORT_SET_WIDTH starts from: the new limit, and its letterbox waiting on the width. -/
def widthAsked (who : Option Nat) (p w : Nat) (s : State) : State :=
  onPort p (fun x => { x with widthLimit := w, widthLb := who })
    (if (portOf s p).widthLimit < w then mapRemove (sameObject 0x06 (96 + p / 6) (p % 6)) s else s)

theorem widthAsked_port (who : Option Nat) (p w : Nat) (s : State) :
    portOf (widthAsked who p w s) p = { portOf s p with widthLimit := w, widthLb := who } := by
  rw [widthAsked, portOf_onPort]
  split
  · rw [portOf_ports (congrArg Fabric.ports (mapRemove_fabric ..))]
  · rfl

theorem widthAsked_lb (who : Option Nat) (p w l : Nat) (s : State) : lbOf (widthAsked who p w s) l = lbOf s l := by
  have h (f : Port → Port) (s : State) : lbOf (onPort p f s) l = lbOf s l := rfl
  rw [widthAsked, h]
  split
  · exact lbOf_mapRemove ..
  · rfl

/-- The letterbox no longer waits on the width. -/
def widthSet (p : Nat) (s : State) : State := onPort p (fun x => { x with widthLb := none }) s

theorem portSetWidth_eq (who : Option Nat) (a : List Byte) (s : State) : portSetWidth who a s =
    let p := arg 0x0407 a 0
    let w := arg 0x0407 a 1
    let x := portOf s p
    let u := widthAsked who p w s
    if x.state = .active ∧ w < maskWidth x.mask then
      .wait (if rewinding x ∨ x.narrowing.isSome then u else narrowTo p (formSet x.mask w) 4 u)
    else if x.state = .disabled ∨ x.state = .diagnostic then ok0 (widthSet p u)
    else if x.state = .backoff then ok0 (retrain p (widthSet p u))
    else .wait (retrain p u) := rfl

theorem portOf_postResult (lb e : Nat) (r : List Byte) (s : State) (p : Nat) : portOf (postResult lb e r s) p = portOf s p :=
  portOf_ports (congrArg Fabric.ports (postResult_fabric ..)) p

theorem portOf_onLb (lb : Nat) (f : Letterbox → Letterbox) (s : State) (p : Nat) : portOf (onLb lb f s) p = portOf s p := rfl

theorem widthSet_port (p : Nat) (s : State) : portOf (widthSet p s) p = { portOf s p with widthLb := none } := portOf_onPort ..

theorem widthSet_lb (p l : Nat) (s : State) : lbOf (widthSet p s) l = lbOf s l := rfl

/-- The three actions of PORT_ADMIN. -/
def disableCmd : Cmd := fun _ a s => ok0 (disablePort (arg 0x0409 a 0) s)

def enableCmd : Cmd := fun _ a s =>
  let p := arg 0x0409 a 0
  let st := (portOf s p).state
  ok0 (clearFailures p s |> when (st == .disabled || st == .diagnostic) (enterDetect p))

def retrainCmd : Cmd := fun _ a s =>
  let p := arg 0x0409 a 0
  ok0 (clearFailures p (if (portOf s p).state = .disabled then s else retrain p s))

theorem retrainCmd_on {lb p : Nat} (hp : p = argOf s lb 0x0409 0) (h : (portOf s p).state ≠ .disabled) :
    retrainCmd (some lb) (cmdArgs (lbOf s lb)) s = ok0 (clearFailures p (retrain p s)) := by
  rw [retrainCmd, ← argOf, ← hp, if_neg h]

theorem diagnostic_ne {x : PortState} (h : x = .disabled ∨ x = .diagnostic) : x ≠ .active := by rcases h with rfl | rfl <;> decide

theorem physicalPort_tset {lp p : Nat} (hl : lp < 96) (hp : p < 96) (t : Tab Nat) (f : Fabric → Fabric)
    (hf : (f s.fabric).logical = tset t lp p) : physicalPort (onFabric f s) lp = some p := by
  simp only [physicalPort, onFabric_fabric, hf, tget_tset_self]
  exact if_pos ⟨hp, hl⟩

/-- The spare takes the port's logical number. -/
def spared (bad spare : Nat) (s : State) : State :=
  s |> disablePort bad |> disablePort spare |> sparePort bad spare
    |> onPort spare (fun x => { x with recorded := (portOf s bad).recorded })
    |> onPort bad (fun x => { x with recorded := none })
    |> mapAdd [mapEntry 0x07 (96 + bad / 6) (bad % 6) 0 0 spare]

theorem portSpare_eq (who : Option Nat) (a : List Byte) (s : State) : portSpare who a s =
    if 96 ≤ logicalOf s (arg 0x0408 a 0) then err eRange s
    else ok0 (enterDetect (arg 0x0408 a 1) (spared (arg 0x0408 a 0) (arg 0x0408 a 1) s)) := rfl

theorem logical_kept {F : List Part} {t : State} (h : Touches F s t) (hF : F.contains .fabric = false := by exact rfl) :
    t.fabric.logical = s.fabric.logical := by
  have h' := h.same .fabric hF
  simp only [Part.Same, Fabric.mk.injEq] at h'
  exact h'.2.2.1

theorem logical_disablePort (p : Nat) (s : State) : (disablePort p s).fabric.logical = s.fabric.logical := by
  have h (f : Port → Port) : (onPort p f (discardLink p s)).fabric.logical = s.fabric.logical := by
    simp only [discardLink]
    split <;> rfl
  exact (logical_kept widthDone_touches).trans (h _)

theorem logical_mapAdd (es : List (BitVec 64)) (s : State) : (mapAdd es s).fabric.logical = s.fabric.logical := by rw [mapAdd_fabric]

theorem logical_enterDetect (p : Nat) (s : State) : (enterDetect p s).fabric.logical = s.fabric.logical :=
  logical_kept enterDetect_touches

theorem logicalOf_logical {t : State} (h : t.fabric.logical = s.fabric.logical) (p : Nat) : logicalOf t p = logicalOf s p := by
  simp only [logicalOf, physicalPort, h]

theorem physicalPort_logical {t : State} (h : t.fabric.logical = s.fabric.logical) (lp : Nat) :
    physicalPort t lp = physicalPort s lp := by
  simp only [physicalPort, h]

theorem physicalPort_onPort (p : Nat) (f : Port → Port) (s : State) (lp : Nat) :
    physicalPort (onPort p f s) lp = physicalPort s lp := rfl

theorem sparePort_names {bad spare : Nat} (h : logicalOf s bad < 96) (hs : spare < 96) :
    physicalPort (sparePort bad spare s) (logicalOf s bad) = some spare := by
  simp only [sparePort]
  rw [if_neg (Nat.not_le.2 h)]
  exact physicalPort_tset h hs _ _ rfl

theorem sparePort_port (bad spare : Nat) (s : State) (q : Nat) : portOf (sparePort bad spare s) q = portOf s q := by
  simp only [sparePort]
  split <;> rfl

theorem bare_recorded (p q : Nat) (r : Option CapInfo) (s : State) :
    { bare (portOf (onPort p (fun x => { x with recorded := r }) s) q) with recorded := none } =
      { bare (portOf s q) with recorded := none } := by
  by_cases h : q = p
  · rw [h, portOf_onPort]
    rfl
  · rw [portOf_onPort_ne _ _ _ _ h]

/-- What PORT_SPARE leaves: the bad port disabled, the spare in Detect under the bad port's logical number. -/
theorem spared_ports {bad spare : Nat} (hne : bad ≠ spare) (hs : spare < 96) (hl : logicalOf s bad < 96) :
    (portOf (enterDetect spare (spared bad spare s)) bad).state = .disabled
      ∧ (portOf (enterDetect spare (spared bad spare s)) spare).state = .detect
      ∧ physicalPort (enterDetect spare (spared bad spare s)) (logicalOf s bad) = some spare := by
  have hdis : logicalOf (disablePort spare (disablePort bad s)) bad = logicalOf s bad :=
    logicalOf_logical ((logical_disablePort ..).trans (logical_disablePort ..)) bad
  have hstate {t u : State} {q : Nat} (h : { bare (portOf t q) with recorded := none } = { bare (portOf u q) with recorded := none }) :
      (portOf t q).state = (portOf u q).state :=
    (congrArg Port.state h : _)
  have hbare {x y : Port} (h : bare x = bare y) : x.state = y.state := (congrArg Port.state h : (bare x).state = (bare y).state)
  refine ⟨?_, hbare (enterDetect_self ..), ?_⟩
  · rw [hbare (enterDetect_ne hne _), spared, portOf_ports (congrArg Fabric.ports (mapAdd_fabric ..)), hstate (bare_recorded ..),
      hstate (bare_recorded ..), sparePort_port, hbare (disablePort_ne hne _), hbare (disablePort_self ..)]
    rfl
  · rw [physicalPort_logical (logical_enterDetect ..), spared, physicalPort_logical (logical_mapAdd ..)]
    have h := sparePort_names (s := disablePort spare (disablePort bad s)) (bad := bad) (by rw [hdis]; exact hl) hs
    rw [hdis] at h
    rw [physicalPort_onPort, physicalPort_onPort, h]

theorem spared_lb {bad spare l : Nat} (hl : (lbOf s l).phase ≠ .waiting) :
    lbOf (enterDetect spare (spared bad spare s)) l = lbOf s l := by
  have hbad := lbOf_disablePort bad hl
  have hspare := lbOf_disablePort (s := disablePort bad s) spare (l := l) (by rwa [hbad])
  have hport (p : Nat) (f : Port → Port) (s : State) : lbOf (onPort p f s) l = lbOf s l := rfl
  have hsp (s : State) : lbOf (sparePort bad spare s) l = lbOf s l := by
    simp only [sparePort]
    split <;> rfl
  have h : lbOf (spared bad spare s) l = lbOf s l := by
    rw [spared, lbOf_mapAdd, hport, hport, hsp, hspare, hbad]
  rw [lbOf_enterDetect _ (by rwa [h]), h]

end

/-- Settles O20, row by row. -/
theorem portCommandsComplete : Obligations.PortCommandsComplete := by
  refine ⟨fun s lb p h hp => ?_, fun s lb p h hp hst => ?_, fun s lb p h hp hst => ?_, fun s lb p h hp hst hw hr hn => ?_,
    fun s lb bad spare h hb hsp hcb hcs hne hlt hl => ?_, fun s lb p h hp hsel => ?_, fun s lb p h hp hsel hst => ?_,
    fun s lb p h hp hsel hst hnb => ?_, fun s lb p h hp hsel hst => ?_⟩
  · obtain ⟨n, hq⟩ := portQuery_answer (some lb) (cmdArgs (lbOf s lb)) s
    rw [← argOf, ← hp] at hq
    have hlen : (portBytes (portOf s p)).length = 4 := by simp [portBytes, length_leBytes]
    refine answers_with (f := portQuery) rfl h hq rfl (by rw [List.length_append, hlen, length_leBytes]; decide)
      fun hdata => ⟨postResult_fabric .., ?_⟩
    rw [List.length_append, hlen, length_leBytes] at hdata
    rw [resultData_prefix (show 4 ≤ 4 + 4 by decide), hdata, List.take_left' hlen]
    rfl
  · have hm : portSetWidth (some lb) (cmdArgs (lbOf s lb)) s = ok0 (widthSet p (widthAsked (some lb) p (argOf s lb 0x0407 1) s)) := by
      rw [portSetWidth_eq, ← argOf, ← argOf, ← hp]
      dsimp only
      rw [if_neg (fun h => diagnostic_ne hst h.1), if_pos hst]
    refine answers_effect (f := portSetWidth) (r := []) rfl h hm ((widthSet_lb ..).trans (widthAsked_lb ..)) ?_
    rw [portOf_postResult, widthSet_port, widthAsked_port]
    exact ⟨rfl, rfl⟩
  · generalize hw : argOf s lb 0x0407 1 = w
    have hm : portSetWidth (some lb) (cmdArgs (lbOf s lb)) s = ok0 (retrain p (widthSet p (widthAsked (some lb) p w s))) := by
      rw [portSetWidth_eq, ← argOf, ← argOf, ← hp, hw]
      dsimp only
      rw [if_neg (by simp [hst]), if_neg (by simp [hst]), if_pos hst]
    have hlb := (widthSet_lb p lb (widthAsked (some lb) p w s)).trans (widthAsked_lb ..)
    have hport := retrain_detects (p := p) (s := widthSet p (widthAsked (some lb) p w s))
      (by rw [widthSet_port, widthAsked_port]; exact hst)
    rw [widthSet_port, widthAsked_port] at hport
    refine answers_effect (f := portSetWidth) (r := []) rfl h hm
      ((lbOf_retrain p (by rw [hlb]; exact phase_of_started h)).trans hlb) ?_
    rw [portOf_postResult]
    exact ⟨congrArg Port.widthLimit hport, congrArg Port.state hport, congrArg Port.reason hport⟩
  · generalize hv : argOf s lb 0x0407 1 = w at hw
    have hm : portSetWidth (some lb) (cmdArgs (lbOf s lb)) s =
        .wait (narrowTo p (formSet (portOf s p).mask w) 4 (widthAsked (some lb) p w s)) := by
      rw [portSetWidth_eq, ← argOf, ← argOf, ← hp, hv]
      dsimp only
      rw [if_pos ⟨hst, hw⟩, if_neg (by simp [hr, hn])]
    have hlb := lbs_kept (narrowTo_touches (p := p) (mask := formSet (portOf s p).mask w) (trigger := 4)
      (s := widthAsked (some lb) p w s)) lb
    refine gives_of (x := execPortSetWidth lb s) rfl ⟨_, runCmd_wait h rfl hm (hlb.trans (widthAsked_lb ..)), ?_⟩
    obtain ⟨cs, ct, hport⟩ := narrowTo_port p (formSet (portOf s p).mask w) 4 (widthAsked (some lb) p w s)
    rw [widthAsked_port] at hport
    rw [portOf_onLb, lbOf_onLb, hport]
    exact ⟨rfl, rfl, rfl, rfl⟩
  · have hm : portSpare (some lb) (cmdArgs (lbOf s lb)) s = ok0 (enterDetect spare (spared bad spare s)) := by
      rw [portSpare_eq, ← argOf, ← argOf, ← hb, ← hsp]
      exact if_neg (Nat.not_le.2 hl)
    refine answers_effect (f := portSpare) (r := []) rfl h hm (spared_lb (phase_of_started h)) ?_
    rw [portOf_postResult, portOf_postResult, physicalPort_logical (congrArg Fabric.logical (postResult_fabric ..))]
    exact spared_ports hne hlt hl
  · refine answers_of (f := disableCmd) (r := []) rfl h hsel (by rw [disableCmd, ← argOf, ← hp]; rfl)
      (lbOf_disablePort p (phase_of_started h)) (by decide) fun _ => ?_
    have hport := disablePort_self p s
    rw [portOf_postResult]
    exact ⟨congrArg Port.state hport, congrArg Port.failures hport, congrArg Port.up hport⟩
  · have hm : enableCmd (some lb) (cmdArgs (lbOf s lb)) s = ok0 (enterDetect p (clearFailures p s)) := by
      rw [enableCmd, ← argOf, ← hp, Machine.when, if_pos (by rcases hst with h | h <;> simp [h])]
    refine answers_of (f := enableCmd) (r := []) rfl h hsel hm (lbOf_enterDetect p (phase_of_started h)) (by decide) fun _ => ?_
    obtain ⟨h1, -, -, h2, h3⟩ := detecting_fields (enterDetect_self p (clearFailures p s))
    rw [clearFailures, portOf_onPort] at h2 h3
    rw [portOf_postResult]
    exact ⟨h1, h2, h3⟩
  · refine answers_of (f := retrainCmd) (r := []) rfl h hsel (retrainCmd_on hp hst)
      (lbOf_retrain p (phase_of_started h)) (by decide) fun _ => ?_
    obtain ⟨h1, h2, h3, -⟩ := fallen_fields (retrain_falls hnb)
    rw [portOf_postResult, clearFailures, portOf_onPort]
    exact ⟨h1, h2, h3, rfl⟩
  · refine answers_of (f := retrainCmd) (r := []) rfl h hsel (retrainCmd_on hp (by simp [hst]))
      (lbOf_retrain p (phase_of_started h)) (by decide) fun _ => ?_
    obtain ⟨hs, hi, hr, -⟩ := detecting_fields (retrain_detects hst)
    rw [portOf_postResult, clearFailures, portOf_onPort]
    exact ⟨hs, hi, hr, rfl⟩

end Sys2Proof.Rows
end

section
/-! SUPPORT. Lanes: what training, LOS and loss of lock leave of a lane (R210 to R222, R445). -/

namespace Sys2Proof.Rows

open Sys2Proof.Machine Sys2Proof.Safety Sys2Proof.Laws Sys2Proof.Frames

set_option Elab.async false

section
variable {s : State} {α : Type}

/-! ### Views of a lane -/

theorem runPort_below {p : Nat} (f : State → State) (hp : p < 96) : runPort p f s = .next (f s) := if_pos hp

theorem runLane_below {p l : Nat} (f : State → State) (hp : p < 96) (hl : l < 4) : runLane p l f s = .next (f s) :=
  (if_pos hl).trans (if_pos hp)

theorem lanes_onPort {f : Port → Port} (hf : ∀ x, (f x).lanes = x.lanes) (p q : Nat) (s : State) :
    (portOf (onPort p f s) q).lanes = (portOf s q).lanes := by
  by_cases h : q = p
  · rw [h, portOf_onPort, hf]
  · rw [portOf_onPort_ne _ _ _ _ h]

theorem laneOf_lanes {x y : Port} (h : x.lanes = y.lanes) (l : Nat) : laneOf x l = laneOf y l := by rw [laneOf, h]; rfl

theorem laneOf_onLane (p l : Nat) (f : Lane → Lane) (s : State) :
    laneOf (portOf (onLane p l f s) p) l = f (laneOf (portOf s p) l) := by
  rw [onLane, portOf_onPort]
  exact tget_tmod_self ..

/-- A view of a lane that an update of a lane keeps. -/
theorem view_onLane {v : Lane → α} {f : Lane → Lane} (hv : ∀ y, v (f y) = v y) (p l q k : Nat) (s : State) :
    v (laneOf (portOf (onLane p l f s) q) k) = v (laneOf (portOf s q) k) := by
  by_cases hq : q = p
  · subst hq
    by_cases hk : k = l
    · rw [hk, laneOf_onLane, hv]
    · rw [onLane, portOf_onPort]
      exact congrArg v (tget_tmod_ne _ _ _ hk)
  · rw [onLane, portOf_onPort_ne _ _ _ _ hq]

theorem view_sendBeacon {v : Lane → α} (hv : ∀ y n, v { y with prbs := n } = v y) (p l q k : Nat) (s : State) :
    v (laneOf (portOf (sendBeacon p l s) q) k) = v (laneOf (portOf s q) k) := by
  have h (n : Nat) (s : State) := view_onLane (v := v) (f := fun y => { y with prbs := n }) (fun y => hv y n) p l q k s
  simp only [sendBeacon, portOf_emit, h]
  split <;> rfl

theorem view_sendBeacons {v : Lane → α} (hv : ∀ y n, v { y with prbs := n } = v y) (p q k : Nat) (s : State) :
    v (laneOf (portOf (sendBeacons p s) q) k) = v (laneOf (portOf s q) k) :=
  updates_keeps (fun t => v (laneOf (portOf t q) k)) _ (fun l s => view_sendBeacon hv p l q k s) _ s

theorem portOf_freshNat (n : Nat) (s : State) (q : Nat) : portOf (freshNat n s).2 q = portOf s q := rfl

theorem portOf_freshTaps (n : Nat) (s : State) (q : Nat) : portOf (freshTaps n s).2 q = portOf s q :=
  ports_kept freshTaps_touches q

theorem view_adapt {v : Lane → α} (hv : ∀ y a b c d, v { y with ctle := a, gain := b, ffe := c, dfe := d } = v y) (p l q k : Nat)
    (s : State) : v (laneOf (portOf (adapt p l s) q) k) = v (laneOf (portOf s q) k) := by
  simp only [adapt]
  rw [view_onLane (fun y => hv y _ _ _ _)]
  split
  · rw [portOf_freshTaps, portOf_freshNat, portOf_freshNat]
  · rw [portOf_freshNat, portOf_freshTaps, portOf_freshNat, portOf_freshNat]

theorem bare_adapt (p l q : Nat) (s : State) : bare (portOf (adapt p l s) q) = bare (portOf s q) := by
  simp only [adapt]
  rw [bare_onLane]
  split
  · rw [portOf_freshTaps, portOf_freshNat, portOf_freshNat]
  · rw [portOf_freshNat, portOf_freshTaps, portOf_freshNat, portOf_freshNat]

theorem lanes_countPort (p i n q : Nat) (s : State) : (portOf (countPort p i n s) q).lanes = (portOf s q).lanes :=
  lanes_onPort (f := fun x => { x with counters := tcount x.counters i n }) (fun _ => rfl) p q s

theorem lanes_discardLink (p q : Nat) (s : State) : (portOf (discardLink p s) q).lanes = (portOf s q).lanes := by
  simp only [discardLink]
  split
  · exact (lanes_countPort ..).trans (lanes_countPort ..)
  · rfl

theorem lanes_widthDone (p q : Nat) (s : State) : (portOf (widthDone p s) q).lanes = (portOf s q).lanes := by
  unfold widthDone
  split
  · rw [portOf_ports (congrArg Fabric.ports (postWaiting_fabric ..))]
    exact lanes_onPort (by intros; rfl) p q s
  · rfl

theorem lanes_fallback (p r q : Nat) (s : State) : (portOf (fallback p r s) q).lanes = (portOf s q).lanes := by
  rw [fallback, portOf_journalFallback, countPort, lanes_onPort (by intros; rfl), lanes_onPort (by intros; rfl), lanes_discardLink]

theorem lanes_narrowTo (p mask trigger : Nat) (s : State) : (portOf (narrowTo p mask trigger s) p).lanes = (portOf s p).lanes := by
  obtain ⟨cs, ct, h⟩ := narrowTo_port p mask trigger s
  rw [h]

theorem tget_tmap {β : Type} {d : β} {f : β → β} (hd : f d = d) (t : Tab β) (k : Nat) :
    tget d (tmap (fun _ y => f y) t) k = f (tget d t k) := by
  induction t with
  | nil => exact hd.symm
  | cons e t ih =>
    obtain ⟨j, v⟩ := e
    by_cases h : j = k <;> simp_all [tmap, tget]

/-- Detect leaves each lane fresh. -/
theorem laneOf_enterDetect {v : Lane → α} (hv : ∀ y n, v { y with prbs := n } = v y) (p l : Nat) (s : State) :
    v (laneOf (portOf (enterDetect p s) p) l) = v (freshLane (laneOf (portOf s p) l)) := by
  rw [enterDetect, laneOf_lanes (lanes_widthDone ..), view_sendBeacons hv, portOf_onPort]
  exact congrArg v (tget_tmap rfl ..)

/-- What of a port is neither lanes nor counters nor the letterbox that waits follows from the port without them. -/
theorem of_bare {x y : Port} (g : Port → α) (hg : ∀ x, g x = g (bare x)) (h : bare x = bare y) : g x = g y := by
  rw [hg, hg y, h]

/-! ### Training -/

/-- A port that is ready with the lanes detected. -/
def readied (kept : Nat) (x : Port) : Port := { x with ready := true, mask := kept }

theorem setReady_eq (p : Nat) (s : State) : setReady p s =
    let kept := lanesMask ((List.range 4).filter (detected (portOf s p)))
    when (kept != 15) (journalRule 6 2 1 false 211 [u8 p, u8 kept]) (sendBeacons p (onPort p (readied kept) s)) := rfl

theorem portOf_setReady (p : Nat) (s : State) : ∃ kept, portOf (setReady p s) p = portOf (sendBeacons p (onPort p (readied kept) s)) p := by
  refine ⟨lanesMask ((List.range 4).filter (detected (portOf s p))), ?_⟩
  rw [setReady_eq]
  dsimp only
  unfold Machine.when
  split
  · exact portOf_journal ..
  · rfl

theorem view_setReady {v : Lane → α} (hv : ∀ y n, v { y with prbs := n } = v y) (p l : Nat) (s : State) :
    v (laneOf (portOf (setReady p s) p) l) = v (laneOf (portOf s p) l) := by
  obtain ⟨kept, h⟩ := portOf_setReady p s
  rw [h, view_sendBeacons hv, laneOf_lanes (lanes_onPort (f := readied kept) (fun _ => rfl) p p s)]

theorem ready_setReady (p : Nat) (s : State) : (portOf (setReady p s) p).ready = true := by
  obtain ⟨kept, h⟩ := portOf_setReady p s
  rw [h, of_bare Port.ready (fun _ => rfl) (bare_sendBeacons ..), portOf_onPort]
  rfl

theorem portOf_mapAdd (es : List (BitVec 64)) (s : State) (q : Nat) : portOf (mapAdd es s) q = portOf s q :=
  portOf_ports (congrArg Fabric.ports (mapAdd_fabric es s)) q

theorem lanes_noteMissing (p set_ m : Nat) (x : Port) (s : State) : (portOf (noteMissing p set_ m x s) p).lanes = (portOf s p).lanes := by
  simp only [noteMissing]
  split
  · rw [portOf_mapAdd, lanes_onPort (by intros; rfl), lanes_onPort (by intros; rfl)]
  · exact lanes_onPort (by intros; rfl) p p s

theorem portOf_sendTraining (p l : Nat) (s : State) (q : Nat) : portOf (sendTraining p l s) q = portOf s q := rfl

theorem lanes_detectPass (p : Nat) (s : State) : (portOf (detectPass p s) p).lanes = (portOf s p).lanes := by
  simp only [detectPass]
  split
  · rw [updates_keeps (fun t => portOf t p) _ (fun l s => portOf_sendTraining p l s p), lanes_noteMissing,
      lanes_onPort (by intros; rfl)]
  · rfl

theorem ready_noteMissing (p set_ m : Nat) (x : Port) (s : State) : (portOf (noteMissing p set_ m x s) p).ready = (portOf s p).ready := by
  simp only [noteMissing]
  split
  · rw [portOf_mapAdd, portOf_onPort, portOf_onPort]
  · rw [portOf_onPort]

theorem ready_detectPass (p : Nat) (s : State) : (portOf (detectPass p s) p).ready = (portOf s p).ready := by
  simp only [detectPass]
  split
  · rw [updates_keeps (fun t => portOf t p) _ (fun l s => portOf_sendTraining p l s p), ready_noteMissing, portOf_onPort]
  · rfl

/-- What a beacon tells of its lane. -/
def heard (y : Lane) : Nat × Bool × Nat := (y.beacons, y.inverted, y.partnerLane)

theorem heard_beacon {p l : Nat} {w v : BitVec 64} {inv : Bool} (hs : (portOf s p).state = .detect) (hi : (portOf s p).idle = false)
    (hw : readBeacon w = some (v, inv)) :
    heard (laneOf (portOf (beacon p l w s) p) l) = ((laneOf (portOf s p) l).beacons + 1, inv, bv v 17 16) := by
  have hwhen (b : Bool) (f : State → State) (hf : ∀ u, heard (laneOf (portOf (f u) p) l) = heard (laneOf (portOf u p) l)) (u : State) :
      heard (laneOf (portOf (when b f u) p) l) = heard (laneOf (portOf u p) l) := by
    unfold Machine.when
    split
    · exact hf u
    · rfl
  unfold beacon
  rw [if_neg (by simp [hs, hi]), hw]
  dsimp only
  rw [laneOf_lanes (lanes_detectPass ..), hwhen _ _ (view_setReady (v := heard) (fun _ _ => rfl) p l),
    hwhen _ _ (fun u => view_sendBeacon (v := heard) (fun _ _ => rfl) p l p l u), laneOf_lanes (lanes_onPort (by intros; rfl) p p _),
    laneOf_onLane]
  rfl

/-- What a training frame leaves of its lane. -/
def learned (y : Lane) : Bool × Nat := (y.trained, y.sequence)

theorem view_nextRequest {v : Lane → α} (hv : ∀ y a b, v { y with ask := a, askSeq := b } = v y) (echo p l q k : Nat) (s : State) :
    v (laneOf (portOf (nextRequest echo p l s) q) k) = v (laneOf (portOf s q) k) := by
  have hfold (l : List Nat) (r : Nat × State) : portOf (l.foldl (fun (r : Nat × State) i =>
      let t := freshNat 3 r.2; (r.1 + t.1 * 2 ^ (2 * i), t.2)) r).2 q = portOf r.2 q := by
    induction l generalizing r with
    | nil => rfl
    | cons i l ih => exact (ih _).trans (portOf_freshNat 3 r.2 q)
  simp only [nextRequest]
  split
  · rfl
  · rw [view_onLane (fun y => hv y _ _), hfold, portOf_freshNat]

/-- A lane whose lock is to be found. -/
def relocking (y : Lane) : Lane := { y with markers := 0, symbolLock := false, bitLock := false, fifo := [] }

theorem learned_patternPass (p l : Nat) (s : State) :
    learned (laneOf (portOf (patternPass p s) p) l) = learned (laneOf (portOf s p) l) := by
  simp only [patternPass]
  split
  · rw [portOf_onPort]
    exact (congrArg learned (tget_tmap (d := ({} : Lane)) (f := relocking) rfl (portOf s p).lanes l)).trans rfl
  · rfl

theorem sequence_applyRequest (cls c : Nat) (y : Lane) : (applyRequest cls c y).sequence = bits c 23 16 := by
  simp only [applyRequest]
  split <;> rfl

theorem learned_trainingFrame {p l : Nat} {control status : BitVec 32} {own : Bool} (hs : (portOf s p).state = .pattern)
    (hm : bit (portOf s p).mask l = true) (hc : trainOk control = true) (ht : trainOk status = true) :
    learned (laneOf (portOf (trainingFrame p l control status own s) p) l) = (own, bits control.toNat 23 16) := by
  have hwhen (b : Bool) (fs : List Fld) (u : State) : portOf (when b (journalRule 6 0 1 false 213 fs) u) p = portOf u p := by
    unfold Machine.when
    split
    · exact portOf_journal ..
    · rfl
  simp only [trainingFrame]
  rw [if_neg (by simp [hs, hm, hc, ht]), learned_patternPass, portOf_sendTraining, hwhen, view_nextRequest (v := learned) (fun _ _ _ => rfl),
    view_adapt (v := learned) (fun _ _ _ _ _ => rfl), laneOf_onLane]
  refine congrArg (Prod.mk own) ?_
  dsimp only
  split
  · exact sequence_applyRequest ..
  next h => exact (by simpa using h : bits control.toNat 23 16 = _).symm

/-- What a marker leaves of its lane. -/
def marked (y : Lane) : Nat × Bool := (y.markers, y.symbolLock)

theorem marked_alignmentMarker {p l : Nat} {w : BitVec 64} (hs : (portOf s p).state = .lock) (hm : bit (portOf s p).mask l = true)
    (hw : markerOk w = true) : marked (laneOf (portOf (alignmentMarker p l w s) p) l) =
      ((laneOf (portOf s p) l).markers + 1, (laneOf (portOf s p) l).symbolLock || decide (4 ≤ (laneOf (portOf s p) l).markers + 1)) := by
  have ha : marked (laneOf (portOf (adapt p l s) p) l) = marked (laneOf (portOf s p) l) :=
    view_adapt (v := marked) (fun _ _ _ _ _ => rfl) p l p l s
  have hma : (laneOf (portOf (adapt p l s) p) l).markers = (laneOf (portOf s p) l).markers := congrArg Prod.fst ha
  have hsa : (laneOf (portOf (adapt p l s) p) l).symbolLock = (laneOf (portOf s p) l).symbolLock := congrArg Prod.snd ha
  simp only [alignmentMarker, hs, hm, hw, Bool.not_true, Bool.false_eq_true, if_false, if_true]
  rw [laneOf_onLane, ← hma, ← hsa]
  rfl

theorem enterExchange_port (p : Nat) (s : State) :
    (portOf (enterExchange p s) p).state = .exchange ∧ (portOf (enterExchange p s) p).mask = (portOf s p).mask := by
  rw [enterExchange, portOf_queueControl, portOf_onPort]
  split <;> exact ⟨rfl, rfl⟩

theorem lockWindow_passes {p skew locked : Nat} (hs : (portOf s p).state = .lock) (hf : (portOf s p).fecBad = false)
    (hk : skew ≤ 64) (hm : (portOf s p).mask &&& locked = (portOf s p).mask)
    (hl : ((maskLanes (portOf s p).mask).all fun l => (laneOf (portOf s p) l).symbolLock) = true) :
    (portOf (lockWindow p false skew locked s) p).state = .exchange
      ∧ (portOf (lockWindow p false skew locked s) p).mask = (portOf s p).mask := by
  have ha (ls : List Nat) (u : State) : (portOf (updates ls (adapt p) u) p).mask = (portOf u p).mask :=
    updates_keeps (fun t => (portOf t p).mask) _ (fun l u => of_bare Port.mask (fun _ => rfl) (bare_adapt p l p u)) ls u
  simp only [lockWindow]
  rw [if_neg (Classical.not_not.2 hs), if_pos ⟨by decide, by simp [hf], hm, hk, hl⟩]
  obtain ⟨h1, h2⟩ := enterExchange_port p (updates (maskLanes (portOf s p).mask) (adapt p) (onPort p (fun x => { x with
    skewBad := decide (64 < skew), fecBad := false
    lanes := (maskLanes (portOf s p).mask).foldl (fun t l => tmod {} t l fun y => { y with bitLock := bit locked l }) x.lanes }) s))
  rw [ha, portOf_onPort] at h2
  exact ⟨h1, h2⟩

theorem training_of_timeout {p r : Nat} (h : timeoutReason s p = some r) : trainingState (portOf s p).state = true := by
  unfold timeoutReason at h
  cases hs : (portOf s p).state <;> simp_all [trainingState]

/-! ### Back-off, LOS and loss of lock -/

theorem idleEnd_backoff {p : Nat} (hi : (portOf s p).idle = true) (hf : 8 ≤ (portOf s p).failures) :
    (portOf (idleEnd p s) p).state = .backoff ∧ (portOf (idleEnd p s) p).idle = false ∧ (portOf (idleEnd p s) p).inBackoff = true := by
  have h : bare (portOf (idleEnd p s) p) = bare { portOf s p with state := .backoff, idle := false, inBackoff := true } := by
    simp only [idleEnd, hi, Bool.not_true, Bool.false_eq_true, if_false]
    rw [if_pos (Or.inr hf), bare_widthDone]
    unfold Machine.when
    split
    · rw [portOf_journal, portOf_onPort]
    · rw [portOf_onPort]
  exact ⟨of_bare Port.state (fun _ => rfl) h, of_bare Port.idle (fun _ => rfl) h, of_bare Port.inBackoff (fun _ => rfl) h⟩

theorem lanes_laneLost (p l a b c : Nat) (s : State) : (portOf (laneLost p l a b c s) p).lanes = (portOf s p).lanes := by
  simp only [laneLost]
  split
  · rfl
  · split
    · exact lanes_fallback ..
    · exact lanes_fallback ..
    · exact lanes_fallback ..
    · exact lanes_fallback ..
    · split
      · exact lanes_fallback ..
      · exact lanes_narrowTo ..
    · rfl

theorem beacons_beaconsLost (p l : Nat) (s : State) : (laneOf (portOf (beaconsLost p l s) p) l).beacons = 0 := by
  simp only [beaconsLost, Machine.when]
  split
  · rw [view_sendBeacon (v := Lane.beacons) (fun _ _ => rfl), laneOf_onLane]
  · rw [laneOf_onLane]

theorem losAssert_lane (p l : Nat) (s : State) : (laneOf (portOf (losAssert p l s) p) l).los = true
    ∧ (laneOf (portOf (losAssert p l s) p) l).bitLock = false ∧ (laneOf (portOf (losAssert p l s) p) l).beacons = 0 := by
  rw [losAssert, laneOf_lanes (lanes_laneLost ..), laneOf_onLane]
  exact ⟨rfl, rfl, beacons_beaconsLost p l s⟩

theorem losClear_lane (p l : Nat) (s : State) : (laneOf (portOf (losClear p l s) p) l).los = false := by
  simp only [losClear, attempt]
  split
  · rw [laneOf_enterDetect (v := Lane.los) (fun _ _ => rfl), laneOf_onLane]
    rfl
  · rw [laneOf_onLane]

theorem lossOfLock_lane (p l : Nat) (s : State) : (laneOf (portOf (lossOfLock p l s) p) l).bitLock = false
    ∧ (laneOf (portOf (lossOfLock p l s) p) l).symbolLock = false := by
  rw [lossOfLock, laneOf_lanes (lanes_laneLost ..), laneOf_onLane]
  exact ⟨rfl, rfl⟩

end

/-- Settles O23, row by row. -/
theorem laneRowsComplete : Obligations.LaneRowsComplete := by
  refine ⟨fun s p l w v inv hp hl hs hi hw => gives_of rfl ⟨_, runLane_below _ hp hl, ?_⟩,
    fun s p hp hs hi hr hd => gives_of rfl ⟨_, runPort_below _ hp, ?_⟩,
    fun s p l control status own hp hl hs hm hc ht => gives_of rfl ⟨_, runLane_below _ hp hl, ?_⟩,
    fun s p l w hp hl hs hm hw => gives_of rfl ⟨_, runLane_below _ hp hl, ?_⟩,
    fun s p skew locked hp hs hf hk hlk hm hl =>
      gives_of rfl ⟨_, (if_pos hlk).trans (runPort_below _ hp), lockWindow_passes hs hf hk hm hl⟩,
    fun s p r hp hr => gives_of rfl ⟨_, runPort_below _ hp, ?_⟩,
    fun s p hp hi hb hf => gives_of rfl ⟨_, runPort_below _ hp, ?_⟩,
    fun s p hp hi hf => gives_of rfl ⟨_, runPort_below _ hp, idleEnd_backoff hi hf⟩,
    fun s p hp hs => gives_of rfl ⟨_, runPort_below _ hp, ?_⟩,
    fun s p l hp hl => gives_of rfl ⟨_, runLane_below _ hp hl, losAssert_lane p l s⟩,
    fun s p l hp hl => gives_of rfl ⟨_, runLane_below _ hp hl, losClear_lane p l s⟩,
    fun s p l hp hl => gives_of rfl ⟨_, runLane_below _ hp hl, lossOfLock_lane p l s⟩,
    fun s p b hp hr hl => gives_of rfl ⟨_, runPort_below _ hp, ?_⟩,
    fun s p b hp hr hl => gives_of rfl ⟨_, runPort_below _ hp, ?_⟩,
    fun s p l hp hl hc => gives_of rfl ⟨_, (if_neg (Classical.not_not.2 hc)).trans (runLane_below _ hp hl), ?_⟩⟩
  · have h := heard_beacon (l := l) hs hi hw
    exact ⟨congrArg (fun r => r.1) h, congrArg (fun r => r.2.1) h, congrArg (fun r => r.2.2) h⟩
  · rw [readyTimer, if_pos ⟨hs, by simp [hi], by simp [hr], hd⟩, ready_detectPass, ready_setReady]
  · have h := learned_trainingFrame (own := own) hs hm hc ht
    exact ⟨congrArg Prod.fst h, congrArg Prod.snd h⟩
  · have h := marked_alignmentMarker hs hm hw
    exact ⟨congrArg Prod.fst h, congrArg Prod.snd h⟩
  · obtain ⟨h1, h2, h3, h4⟩ := fallen_fields (fallback_self p r s)
    rw [if_pos (training_of_timeout hr)] at h4
    rw [trainingTimeout, hr]
    exact ⟨h1, h2, h3, h4⟩
  · obtain ⟨h1, h2, -, h4, -⟩ := detecting_fields (enterDetect_self p s)
    rw [idleEnd]
    rw [if_neg (by simp [hi]), if_neg (by simp [hb]; omega)]
    exact ⟨h1, h2, h4⟩
  · obtain ⟨h1, -, -, h4, -⟩ := detecting_fields (enterDetect_self p s)
    rw [attempt, if_pos hs]
    exact ⟨h1, h4⟩
  · rw [returnCheck]
    rw [if_neg (by simp [hr]), if_pos hl, portOf_onPort]
    exact ⟨rfl, rfl⟩
  · obtain ⟨h1, h2, h3, -⟩ := fallen_fields (fallback_self p 0x0C s)
    rw [returnCheck]
    rw [if_neg (by simp [hr]), if_neg (ne_true_of_eq_false hl)]
    exact ⟨h1, h2, h3⟩
  · rw [journalRule, portOf_journal, journal_next, laneOf_onLane]
    exact ⟨rfl, rfl⟩

end Sys2Proof.Rows
end

section
/-! SUPPORT. The link layer (R231 to R251, R279). -/

namespace Sys2Proof.Rows

open Sys2Proof.Machine Sys2Proof.Safety Sys2Proof.Laws Sys2Proof.Frames

set_option Elab.async false

section
variable {s : State} {α : Type}

/-! ### Sending -/

theorem port_onPort {g : Port → α} {f : Port → Port} (hf : ∀ x, g (f x) = g x) (p q : Nat) (s : State) :
    g (portOf (onPort p f s) q) = g (portOf s q) := by
  by_cases h : q = p
  · rw [h, portOf_onPort, hf]
  · rw [portOf_onPort_ne _ _ _ _ h]

/-- What the sending of a flit leaves of a port. -/
def sendKeeps (x : Port) : List TxFlit × Nat := (x.resend, x.owedCredits)

theorem portOf_updates_emit {β : Type} (l : List β) (f : β → State → State) (hf : ∀ b u q, portOf (f b u) q = portOf u q) (s : State)
    (q : Nat) : portOf (updates l f s) q = portOf s q := updates_keeps (fun t => portOf t q) f (fun b u => hf b u q) l s

theorem sendKeeps_sendMarkers (p q : Nat) (s : State) : sendKeeps (portOf (sendMarkers p s) q) = sendKeeps (portOf s q) := by
  simp only [sendMarkers]
  rw [port_onPort (g := sendKeeps) (by intros; rfl), portOf_updates_emit _ _ (by intros; rfl)]

theorem portOf_sendCodeword (p m q : Nat) (s : State) : portOf (sendCodeword p m s) q = portOf s q :=
  portOf_updates_emit _ _ (by intros; rfl) s q

theorem sendKeeps_emitFlit (p : Nat) (bytes : List Byte) (q : Nat) (s : State) :
    sendKeeps (portOf (emitFlit p bytes s) q) = sendKeeps (portOf s q) := by
  simp only [emitFlit]
  split
  · rw [port_onPort (g := sendKeeps) (by intros; rfl), port_onPort (g := sendKeeps) (by intros; rfl), portOf_emit]
  · rw [port_onPort (g := sendKeeps) (by intros; rfl), portOf_sendCodeword]
    unfold Machine.when
    split
    · rw [sendKeeps_sendMarkers, port_onPort (g := sendKeeps) (by intros; rfl), portOf_emit]
    · rw [port_onPort (g := sendKeeps) (by intros; rfl), portOf_emit]

theorem emitFlit_port (p : Nat) (bytes : List Byte) (s : State) : (portOf (emitFlit p bytes s) p).resend = (portOf s p).resend
    ∧ (portOf (emitFlit p bytes s) p).owedCredits = (portOf s p).owedCredits := by
  have h := sendKeeps_emitFlit p bytes p s
  simpa only [sendKeeps, Prod.mk.injEq] using h

/-- A flit that leaves is put out. -/
theorem emitFlit_out (p : Nat) (bytes : List Byte) (s : State) : s.out.length < (emitFlit p bytes s).out.length := by
  have h : ∃ o f, Touches [.ports, .out] (onPort p f (emit o s)) (emitFlit p bytes s) := by
    simp only [emitFlit]
    exact ⟨_, fun x => { x with txScramble := BitVec.ofNat 58 (scramble (portOf s p).txScramble.toNat bytes).1 },
      .ite onPort_touches.widen (onPort_touches.after (sendCodeword_touches.after (.when .refl fun _ h => sendMarkers_touches.after h)))⟩
  obtain ⟨o, f, h⟩ := h
  have hlen : (onPort p f (emit o s)).out.length = s.out.length + 1 := List.length_append
  have := h.steady.out.length_le
  omega

theorem sendFlit_eq (p k st : Nat) (a b : Bool) (n : Nat) (body : List Byte) (s : State) : ∃ bytes,
    sendFlit p k st a b n body s =
      onPort p (fun x => { x with owedCredits := x.owedCredits - min (portOf s p).owedCredits 255 }) (emitFlit p bytes s) := ⟨_, rfl⟩

theorem sendFlit_port (p k st : Nat) (a b : Bool) (n : Nat) (body : List Byte) (s : State) :
    (portOf (sendFlit p k st a b n body s) p).owedCredits = (portOf s p).owedCredits - min (portOf s p).owedCredits 255
      ∧ s.out.length < (sendFlit p k st a b n body s).out.length := by
  obtain ⟨bytes, h⟩ := sendFlit_eq p k st a b n body s
  obtain ⟨-, ho⟩ := emitFlit_port p bytes s
  rw [h, portOf_onPort]
  dsimp only
  rw [ho, onPort_out]
  exact ⟨rfl, emitFlit_out p bytes s⟩

theorem flitSend_again {p : Nat} {f : TxFlit} {rest : List TxFlit} (hs : (portOf s p).state = .active ∨ (portOf s p).state = .keepalive)
    (hr : (portOf s p).resend = f :: rest) : flitSend p s = onPort p (fun x => { x with resend := rest }) (sendPayload p f s) := by
  simp only [flitSend, hr]
  rw [if_neg (by rcases hs with h | h <;> simp [h])]

/-! ### Receiving -/

/-- The receive numbering of a port. -/
def numbers (x : Port) : Nat × Bool := (x.expected, x.nak)

theorem numbers_ite {c : Prop} [Decidable c] {t u : State} {k : Nat} {n : Nat × Bool} (ht : numbers (portOf t k) = n)
    (hu : numbers (portOf u k) = n) : numbers (portOf (if c then t else u) k) = n := by
  split
  · exact ht
  · exact hu

theorem numbers_onDisc {f : Discovery → Discovery} {t : State} {k : Nat} {n : Nat × Bool} (h : numbers (portOf t k) = n) :
    numbers (portOf (onDisc f t) k) = n := h

theorem numbers_hello (p : Nat) (q : Pkt) (k : Nat) (s : State) : numbers (portOf (hello p q s) k) = numbers (portOf s k) := by
  have hp (n : Neighbour) {u : State} (hu : numbers (portOf u k) = numbers (portOf s k)) :
      numbers (portOf (onPort p (recordNumber n) u) k) = numbers (portOf s k) :=
    (port_onPort (fun x => by unfold recordNumber; split <;> rfl) p k u).trans hu
  have hb (e n : Nat) : numbers (portOf (beginEpoch e n s) k) = numbers (portOf s k) := by rw [ports_kept beginEpoch_touches]
  unfold hello
  exact numbers_ite (numbers_onDisc (numbers_ite (hp _ (numbers_onDisc (numbers_ite (hb ..) rfl))) (numbers_onDisc (numbers_ite (hb ..) rfl))))
    (numbers_ite (hp _ (numbers_onDisc (numbers_ite (hb ..) rfl))) (numbers_onDisc (numbers_ite (hb ..) rfl)))

theorem numbers_discoveryMessage (p : Nat) (q : Pkt) (k : Nat) (s : State) :
    numbers (portOf (discoveryMessage p q s) k) = numbers (portOf s k) := by
  unfold discoveryMessage
  split
  · exact numbers_hello ..
  · rw [ports_kept report_touches]
  · rw [ports_kept assign_touches]
  · rw [ports_kept assignAck_touches]
  · rw [ports_kept commitMsg_touches]
  · rw [ports_kept failMsg_touches]
  · rfl

theorem numbers_freeCredits (p : Nat) (q : Pkt) (b : List Byte) (k : Nat) (s : State) :
    numbers (portOf (freeCredits p q b s) k) = numbers (portOf s k) := by
  unfold freeCredits
  split
  · exact port_onPort (by intros; rfl) p k s
  · rfl

theorem numbers_countPort (p i n k : Nat) (s : State) : numbers (portOf (countPort p i n s) k) = numbers (portOf s k) :=
  port_onPort (by intros; rfl) p k s

theorem portOf_portDead (p r st : Nat) (b : List Byte) (k : Nat) (s : State) : portOf (portDead p r st b s) k = portOf s k :=
  ports_kept portDead_touches k

theorem portOf_addFlight (q : Pkt) (l : Loc) (o : Origin) (k : Nat) (s : State) : portOf (addFlight q l o s) k = portOf s k :=
  ports_kept addFlight_touches k

theorem numbers_packetIn (p st : Nat) (b : List Byte) (k : Nat) (s : State) :
    numbers (portOf (packetIn p st b s) k) = numbers (portOf s k) := by
  have hdead (q : Pkt) (r : Nat) :
      numbers (portOf (freeCredits p q b (portDead p r st b (countPort p 18 1 s))) k) = numbers (portOf s k) := by
    rw [numbers_freeCredits, portOf_portDead, numbers_countPort]
  unfold packetIn
  refine numbers_ite ?_ (numbers_ite (hdead ..) (numbers_ite (hdead ..) ?_))
  · rw [numbers_discoveryMessage, numbers_freeCredits, numbers_countPort]
  · rw [portOf_addFlight, numbers_countPort]

theorem numbers_packetEnd (p st : Nat) (r : RxPkt) (k : Nat) (s : State) :
    numbers (portOf (packetEnd p st r s) k) = numbers (portOf s k) := by
  unfold packetEnd
  split
  · rfl
  · split
    · split
      · exact numbers_packetIn ..
      · rw [portOf_portDead]
    · rw [portOf_portDead]

theorem numbers_acceptFlit (p : Nat) (flit : List Byte) (k : Nat) (s : State) :
    numbers (portOf (acceptFlit p flit s) k) = numbers (portOf s k) := by
  have hend (st : Nat) (r : RxPkt) {f : Port → Port} (hf : ∀ x, numbers (f x) = numbers x) {u : State}
      (hu : numbers (portOf u k) = numbers (portOf s k)) :
      numbers (portOf (packetEnd p st r (onPort p f u)) k) = numbers (portOf s k) :=
    (numbers_packetEnd ..).trans ((port_onPort hf p k u).trans hu)
  have hon {f : Port → Port} (hf : ∀ x, numbers (f x) = numbers x) {u : State} (hu : numbers (portOf u k) = numbers (portOf s k)) :
      numbers (portOf (onPort p f u) k) = numbers (portOf s k) := (port_onPort hf p k u).trans hu
  have hdead (r st : Nat) (b : List Byte) {u : State} (hu : numbers (portOf u k) = numbers (portOf s k)) :
      numbers (portOf (portDead p r st b u) k) = numbers (portOf s k) := (congrArg numbers (portOf_portDead ..)).trans hu
  unfold acceptFlit
  refine numbers_ite ?_ ?_
  · extract_lets u
    have hu : numbers (portOf u k) = numbers (portOf s k) := by
      unfold u
      split
      · exact numbers_ite rfl (hdead _ _ _ rfl)
      · rfl
    split
    · exact numbers_ite (hend _ _ (by intros; rfl) (hdead _ _ _ hu)) (hon (by intros; rfl) (hdead _ _ _ hu))
    · exact numbers_ite (hend _ _ (by intros; rfl) hu) (hon (by intros; rfl) hu)
  · split
    · exact numbers_ite (numbers_ite (hend _ _ (by intros; rfl) (hdead _ _ _ rfl)) (hon (by intros; rfl) (hdead _ _ _ rfl)))
        (numbers_ite (hend _ _ (by intros; rfl) rfl) (hon (by intros; rfl) rfl))
    · exact hdead _ _ _ rfl

/-- A rewind keeps the receive numbering, and so does what follows it, unless the link ends. -/
theorem bare_narrowIfWaiting (p : Nat) (s : State) : numbers (portOf (narrowIfWaiting p s) p) = numbers (portOf s p)
    ∧ (portOf (narrowIfWaiting p s) p).state = (portOf s p).state := by
  have hn (x y : Port) (h : bare x = bare y) : numbers x = numbers y ∧ x.state = y.state :=
    ⟨of_bare numbers (fun _ => rfl) h, of_bare Port.state (fun _ => rfl) h⟩
  simp only [narrowIfWaiting]
  split
  · split
    · obtain ⟨cs, ct, h⟩ := narrowTo_port p (formSet (portOf s p).mask (portOf s p).widthLimit) 4 s
      rw [h]
      exact ⟨rfl, rfl⟩
    · exact hn _ _ (bare_widthDone ..)
  · exact ⟨rfl, rfl⟩

theorem numbers_rewind {p k : Nat} (h : (portOf (rewind p k s) p).state = .active) :
    numbers (portOf (rewind p k s) p) = numbers (portOf s p) := by
  simp only [rewind] at h ⊢
  split at h
  · rw [(fallen_fields (fallback_self ..)).1] at h
    exact absurd h (by decide)
  next hr =>
    rw [if_neg hr, portOf_onPort]
    exact numbers_countPort p 3 1 p s

theorem numbers_takeAck {k : Nat} {x y : Port} (h : takeAck k x = some y) : numbers y = numbers x := by
  simp only [takeAck] at h
  split at h
  · split at h
    · rw [Option.some.inj h]
    · rw [← Option.some.inj h]
      simp only [numbers]
  · split at h
    · cases h
      rfl
    · cases h

theorem numbers_takeHeader {p : Nat} {flit : List Byte} (h : (portOf (takeHeader p flit s) p).state = .active) :
    numbers (portOf (takeHeader p flit s) p) = numbers (portOf s p) := by
  simp only [takeHeader] at h ⊢
  split
  · rw [portOf_onPort]
    rfl
  next hb =>
    rw [if_neg hb] at h
    split
    next hk =>
      rw [hk] at h
      rw [(fallen_fields (fallback_self ..)).1] at h
      exact absurd h (by decide)
    next x hk =>
      rw [hk] at h
      dsimp only at h
      rw [(bare_narrowIfWaiting ..).2] at h
      rw [(bare_narrowIfWaiting ..).1]
      have hx : numbers x = numbers (portOf s p) := (numbers_takeAck hk).trans (by rw [portOf_onPort]; rfl)
      split
      next hc =>
        rw [if_pos hc] at h
        rw [numbers_rewind h, portOf_onPort, hx]
      · rw [portOf_onPort, hx]

theorem exitAnswered_port (p : Nat) (s : State) : (portOf (exitAnswered p s) p).state = (portOf s p).state
    ∧ numbers (portOf (exitAnswered p s) p) = numbers (portOf s p) := by
  rw [exitAnswered, portOf_onPort]
  exact ⟨rfl, rfl⟩

theorem flitReceive_payload {p : Nat} {flit : List Byte} (hs : (portOf s p).state = .active) (hb : flitBad flit false = false)
    (hk : field flit 0 1 % 4 = 1) (hh : (portOf (takeHeader p flit s) p).state = .active) :
    flitReceive p flit false s = payloadFlit p flit (exitAnswered p (takeHeader p flit s)) := by
  have he := (exitAnswered_port p (takeHeader p flit s)).1.trans hh
  simp only [flitReceive, hs, hb, hk]
  simp [hs, he]

theorem payloadFlit_next {p : Nat} {flit : List Byte} (hn : field flit 2 2 = (portOf s p).expected) :
    numbers (portOf (payloadFlit p flit s) p) = (((portOf s p).expected + 1) % 65536, false) := by
  rw [payloadFlit, if_pos hn, numbers_acceptFlit, portOf_onPort]
  rfl

/-- A payload flit in order advances the number that its port expects. -/
theorem flitReceive_advances {p : Nat} {flit : List Byte} (hs : (portOf s p).state = .active) (hb : flitBad flit false = false)
    (hk : field flit 0 1 % 4 = 1) (hh : (portOf (takeHeader p flit s) p).state = .active)
    (hn : field flit 2 2 = (portOf s p).expected) :
    numbers (portOf (flitReceive p flit false s) p) = (((portOf s p).expected + 1) % 65536, false) := by
  have he : (portOf (exitAnswered p (takeHeader p flit s)) p).expected = (portOf s p).expected :=
    (congrArg Prod.fst ((exitAnswered_port ..).2.trans (numbers_takeHeader hh)) :)
  rw [flitReceive_payload hs hb hk hh, payloadFlit_next (hn.trans he.symm), he]

/-! ### The control messages of a link -/

theorem queueControl_contains (p op : Nat) (s : State) : (portOf (queueControl p op s) p).controls.contains op = true := by
  rw [queueControl, portOf_onPort]
  split
  next h => exact h
  · simp

theorem port_queueControl {v : Port → α} (hv : ∀ x l, v { x with controls := l } = v x) (p op q : Nat) (s : State) :
    v (portOf (queueControl p op s) q) = v (portOf s q) := by
  refine port_onPort (fun x => ?_) p q s
  split
  · rfl
  · exact hv ..

/-- What KA_ENTER keeps of a port. -/
theorem port_kaBegin {v : Port → α} (hv : ∀ x l, v { x with controls := l } = v x)
    (hk : ∀ x a b, v { x with controlOnly := a, kaSent := b } = v x) (p q : Nat) (s : State) :
    v (portOf (kaBegin p s) q) = v (portOf s q) := by
  have h (f : Port → Port) (hf : ∀ x, v (f x) = v x) : v (portOf (onPort p f s) q) = v (portOf s q) := port_onPort hf p q s
  unfold kaBegin
  extract_lets x offered
  split
  · rfl
  · split
    · exact (port_queueControl hv p 0x05 q _).trans (h _ fun x => hk x ..)
    · exact h _ fun x => hk x ..

theorem port_tryStart {v : Port → α} (hv : ∀ x l, v { x with controls := l } = v x) (p q : Nat) (s : State) :
    v (portOf (tryStart p s) q) = v (portOf s q) := by
  unfold tryStart
  extract_lets x go
  split
  · exact port_queueControl hv ..
  · rfl

/-- What an operation that may be done keeps. -/
theorem kept_when {v : State → α} {b : Bool} {f : State → State} (hf : ∀ t, v (f t) = v t) (t : State) :
    v (Machine.when b f t) = v t := by
  unfold Machine.when
  split
  · exact hf t
  · rfl

/-- How far the training of a link is. -/
def training (x : Port) : PortState × Bool := (x.state, x.startGot)

theorem training_enterActive (p : Nat) (s : State) :
    training (portOf (enterActive p s) p) = (.active, (portOf s p).startGot) := by
  have hj (c : Nat) (t : State) : training (portOf (journal c 4 1 true [u8 p] t) p) = training (portOf t p) := by rw [portOf_journal]
  unfold enterActive
  extract_lets x v late v' grant
  rw [kept_when (v := fun t => training (portOf t p)) (port_kaBegin (v := training) (by intros; rfl) (by intros; rfl) p p),
    kept_when (v := fun t => training (portOf t p)) (f := onDisc _) (by intros; rfl),
    kept_when (v := fun t => training (portOf t p)) (hj 0x9002)]
  cases v'.2 with
  | some code => exact (hj ..).trans (congrArg training (portOf_onPort ..))
  | none => exact congrArg training (portOf_onPort ..)

theorem startArrive_training {p : Nat} (h : (portOf s p).state = .exchange) : training (portOf (startArrive p s) p) =
    (if (portOf s p).startSent then .active else .exchange, true) := by
  simp only [startArrive]
  rw [if_neg (by simp [h])]
  split
  · rw [training_enterActive, portOf_onPort]
  · rw [portOf_onPort, training, h]

/-! ### The repeat and CAP -/

/-- What the repeat of control messages sets. -/
def repeats (x : Port) : PortState × Bool := (x.state, x.held)

theorem controls_queue {p op c : Nat} (h : (portOf s p).controls.contains c = true) :
    (portOf (queueControl p op s) p).controls.contains c = true := by
  rw [queueControl, portOf_onPort]
  split
  · exact h
  · simp only [List.contains_eq_mem, List.mem_append, decide_eq_true_eq] at h ⊢
    exact .inl h

theorem controls_when {p op c : Nat} (b : Bool) (h : (portOf s p).controls.contains c = true) :
    (portOf (Machine.when b (queueControl p op) s) p).controls.contains c = true := by
  unfold Machine.when
  split
  · exact controls_queue h
  · exact h

theorem controls_tryStart {p c : Nat} (h : (portOf s p).controls.contains c = true) :
    (portOf (tryStart p s) p).controls.contains c = true := by
  unfold tryStart
  extract_lets x go
  split
  · exact controls_queue h
  · exact h

theorem linkRepeat_exchange {p : Nat} (held : Bool) (h : (portOf s p).state = .exchange) :
    repeats (portOf (linkRepeat p held s) p) = (.exchange, held) ∧ (portOf (linkRepeat p held s) p).controls.contains 0x01 = true := by
  simp only [linkRepeat, h]
  refine ⟨?_, controls_tryStart (controls_when _ (queueControl_contains ..))⟩
  rw [port_tryStart (v := repeats) (by intros; rfl), kept_when (v := fun t => repeats (portOf t p))
    (port_queueControl (v := repeats) (by intros; rfl) p 0x02 p), port_queueControl (v := repeats) (by intros; rfl), portOf_onPort]
  simp only [repeats, h]

/-- What a port has of its partner's capabilities. -/
def heardCap (x : Port) : Option CapInfo × Nat := (x.cap, x.partnerToken)

theorem capArrive_early {p : Nat} {b : List Byte} (rtt : Nat) (h : (portOf s p).state = .exchange) (hb : field b 0 1 = 1)
    (hc : capReason b = none) (hn : (portOf s p).samples < 7) :
    heardCap (portOf (capArrive p b rtt s) p) = (some (readCap b), field b 0x1A 2) := by
  simp only [capArrive, hc]
  rw [if_neg (by simp [h, hb])]
  have hlow : ¬ (8 ≤ if echoes (portOf s p) b = true then (portOf s p).samples + 1 else (portOf s p).samples) := by
    split <;> omega
  rw [if_neg (fun hx => hlow (by rw [portOf_onPort] at hx; exact hx.1)), port_tryStart (v := heardCap) (by intros; rfl), portOf_onPort]
  rfl

/-! ### Narrowing -/

/-- The lanes of a link, with what its narrowing waits for and what is to be sent again. -/
def narrowed (x : Port) : Nat × Nat × Option Narrowing × List TxFlit := (x.mask, x.rxMask, x.narrowing, x.resend)

/-- The lanes of a link. -/
def linkLanes (x : Port) : Nat × Nat := (x.mask, x.rxMask)

theorem narrowArrive_takes {p m new : Nat} (hu : isUp (portOf s p) = true) (hg : (portOf s p).narrowGot ≠ some m)
    (hn : new = formSet (ownMask (portOf s p) m &&& (portOf s p).mask) 4) (h0 : new ≠ 0) :
    linkLanes (portOf (narrowArrive p m s) p) = (new, new) ∧ (portOf (narrowArrive p m s) p).controls.contains 0x04 = true := by
  simp only [narrowArrive]
  rw [if_neg (by simp [hu, hg]), ← hn, if_neg h0]
  refine ⟨?_, queueControl_contains ..⟩
  rw [port_queueControl (v := linkLanes) (by intros; rfl), kept_when (v := fun t => linkLanes (portOf t p)), portOf_onPort]
  · rfl
  · intro t
    rw [portOf_journal]
    exact port_onPort (by intros; rfl) p p t

theorem narrowIfWaiting_of_none {p : Nat} (h : (portOf s p).widthLb = none) : narrowIfWaiting p s = s := by
  simp [narrowIfWaiting, h]

theorem narrowAck_takes {p m new : Nat} (hi : (portOf s p).narrowing.isSome = true) (hw : (portOf s p).widthLb = none)
    (hn : new = formSet (ownMask (portOf s p) m &&& (portOf s p).mask) 4) (h0 : new ≠ 0) :
    narrowed (portOf (narrowAck p m s) p) = (new, new, none, (portOf s p).replay) := by
  simp only [narrowAck]
  rw [if_neg (by simp [Option.isNone_iff_eq_none, ← Option.isSome_iff_ne_none, hi]), ← hn, if_neg h0, narrowEnd,
    narrowIfWaiting_of_none (by rw [portOf_onPort]; exact hw),
    kept_when (v := fun t => narrowed (portOf t p)) (port_kaBegin (v := narrowed) (by intros; rfl) (by intros; rfl) p p), portOf_onPort]
  rfl

theorem laneErrors_narrows {p l left : Nat} (unc : Bool) (hs : (portOf s p).state = .active) (hb : bit (portOf s p).mask l = true)
    (hn : left = formSet (lanesMask ((maskLanes (portOf s p).mask).filter (· != l))) 4) (h0 : left ≠ 0) :
    (portOf (laneErrors p l unc s) p).mask = left
      ∧ (portOf (laneErrors p l unc s) p).narrowing = some { oldMask := (portOf s p).mask, newMask := left } := by
  obtain ⟨cs, ct, h⟩ := narrowTo_port p left (if unc = true then 3 else 2) s
  simp only [laneErrors]
  rw [if_neg (by simp [hs, hb]), ← hn, if_pos h0, h]
  exact ⟨rfl, rfl⟩

/-! ### Keep-alive -/

theorem kaSwitch_port (p : Nat) (s : State) : (portOf (kaSwitch p s) p).state = .keepalive ∧ (portOf (kaSwitch p s) p).kaSent = false := by
  rw [kaSwitch, portOf_onPort]
  exact ⟨rfl, rfl⟩

/-- Whether a port is in Active and on its return. -/
def returns (x : Port) : PortState × Bool := (x.state, x.returning)

theorem kaExit_returns {p : Nat} (hs : (portOf s p).state = .keepalive) (he : (portOf s p).exitSent = false) :
    returns (portOf (kaExit p s) p) = (.active, true) ∧ (portOf (kaExit p s) p).controls.contains 0x07 = true := by
  simp only [kaExit]
  rw [if_neg (by simp [he]), if_pos (.inl hs)]
  refine ⟨?_, queueControl_contains ..⟩
  rw [port_queueControl (v := returns) (by intros; rfl), portOf_onPort]
  simp [returns, hs]

end

/-- Settles O24, row by row. -/
theorem linkRowsComplete : Obligations.LinkRowsComplete := by
  refine ⟨fun s p f rest hp hs hr => gives_of rfl ⟨_, runPort_below _ hp, ?_⟩,
    fun s p flit hp hs hb hk hh hn => gives_of rfl ⟨_, if_pos hp, ?_⟩,
    fun s p hp hu ha hr => gives_of rfl ⟨_, if_pos hp, ?_⟩,
    fun s p held hp hs => gives_of rfl ⟨_, runPort_below _ hp, ?_⟩,
    fun s p b rtt hp hs hb hc hn => gives_of rfl ⟨_, runPort_below _ hp, ?_⟩,
    fun s p hp hs => gives_of rfl ⟨_, runPort_below _ hp, ?_⟩,
    fun s p m new hp hu hg hn h0 => gives_of rfl ⟨_, runPort_below _ hp, ?_⟩,
    fun s p m new hp hi hw hn h0 => gives_of rfl ⟨_, runPort_below _ hp, ?_⟩,
    fun s p hp hn => gives_of rfl ⟨_, runPort_below _ hp, ?_⟩,
    fun s p l unc left hp hl hs hb hn h0 => gives_of rfl ⟨_, runLane_below _ hp hl, laneErrors_narrows unc hs hb hn h0⟩,
    fun s p c hp hs he hc hb hk => gives_of rfl ⟨_, runPort_below _ hp, ?_⟩,
    fun s p hp hs hk => gives_of rfl ⟨_, runPort_below _ hp, ?_⟩,
    fun s p hp hs hk => gives_of rfl ⟨_, runPort_below _ hp, ?_⟩,
    fun s p hp hs he => gives_of rfl ⟨_, runPort_below _ hp, ?_⟩,
    fun s p hp hu hc hf => gives_of rfl ⟨_, if_pos hp, ?_⟩⟩
  · obtain ⟨ho, hout⟩ := sendFlit_port p 1 f.stream f.sop f.eop f.seq f.body s
    rw [flitSend_again hs hr, sendPayload, portOf_onPort, onPort_out]
    dsimp only
    exact ⟨rfl, hout, ho⟩
  · have h := flitReceive_advances hs hb hk hh hn
    simp only [Bool.false_and, Machine.when, Bool.false_eq_true, if_false]
    exact ⟨congrArg Prod.fst h, congrArg Prod.snd h⟩
  · dsimp only
    rw [if_pos ⟨hu, ha⟩, rewind, if_neg (by omega), portOf_onPort, countPort, portOf_onPort]
    exact ⟨rfl, rfl⟩
  · obtain ⟨h, hc⟩ := linkRepeat_exchange held hs
    exact ⟨congrArg Prod.snd h, hc, congrArg Prod.fst h⟩
  · have h := capArrive_early rtt hs hb hc hn
    exact ⟨congrArg Prod.fst h, congrArg Prod.snd h⟩
  · have h := startArrive_training hs
    exact ⟨congrArg Prod.snd h, congrArg Prod.fst h⟩
  · obtain ⟨h, hc⟩ := narrowArrive_takes hu hg hn h0
    exact ⟨congrArg Prod.fst h, congrArg Prod.snd h, hc⟩
  · have h := narrowAck_takes hi hw hn h0
    exact ⟨congrArg (fun r => r.1) h, congrArg (fun r => r.2.1) h, congrArg (fun r => r.2.2.1) h, congrArg (fun r => r.2.2.2) h⟩
  · have h := fallback_self p 0x26 s
    obtain ⟨h1, -, h3, -⟩ := fallen_fields h
    rw [if_pos hn]
    exact ⟨h1, h3, (of_bare Port.narrowing (fun _ => rfl) h).trans rfl⟩
  · rw [kaEnter]
    rw [if_neg (by simp [hs, he, hc, hb]), if_pos hk]
    exact kaSwitch_port p s
  · rw [kaSwitchIfSent, if_pos ⟨hs, hk⟩]
    exact kaSwitch_port p s
  · rw [kaSwitchIfSent, if_pos ⟨hs, hk⟩]
    exact kaSwitch_port p s
  · obtain ⟨h, hc⟩ := kaExit_returns hs he
    exact ⟨congrArg Prod.fst h, congrArg Prod.snd h, hc⟩
  · dsimp only
    rw [if_pos ⟨hu, hc, hf⟩, journalRule, journal_next, journal_fabric]
    exact ⟨rfl, rfl⟩

end Sys2Proof.Rows
end

section
/-! SUPPORT. The lane diagnostics (R224 to R228). -/

namespace Sys2Proof.Rows

open Sys2Proof.Machine Sys2Proof.Safety Sys2Proof.Laws Sys2Proof.Frames

set_option Elab.async false

section
variable {s : State} {lb p l v : Nat}

/-! ### Words and eyes -/

theorem bit_succ (w i : Nat) : bit w (i + 1) = bit (w / 2) i := by
  rw [bit, bit, Nat.div_div_eq_div_mul, Nat.pow_succ']

theorem natOf_bitsOf (n w : Nat) : natOf (bitsOf n w) = w % 2 ^ n := by
  induction n generalizing w with
  | zero => simp [bitsOf, natOf, Nat.mod_one]
  | succ n ih =>
    have hs : bitsOf (n + 1) w = bit w 0 :: bitsOf n (w / 2) := by
      simp [bitsOf, List.range_succ_eq_map, Function.comp_def, bit_succ]
    have hb : b2n (bit w 0) = w % 2 := by
      rcases Nat.mod_two_eq_zero_or_one w with h | h <;> simp [b2n, bit, h]
    rw [hs, natOf, List.foldr_cons, ← natOf, ih, hb, Nat.pow_succ', Nat.mod_mul]
    omega

theorem length_packHalves (fs : List Fld) (hf : ∀ f ∈ fs, f.size = 2) : (pack fs).length = 2 * fs.length := by
  have h : ∀ n, (packFrom (2 * n) fs).length = 2 * fs.length := by
    induction fs with
    | nil => intro n; rfl
    | cons f fs ih =>
      intro n
      have hs : f.size = 2 := hf f List.mem_cons_self
      have hr : roundUp (2 * n) 2 = 2 * n := by unfold roundUp; omega
      have h2 : max 1 (min 2 8) = 2 := rfl
      have hn := ih (fun g hg => hf g (List.mem_cons_of_mem _ hg)) (n + 1)
      rw [packFrom, hs, h2, hr, Nat.sub_self, List.replicate_zero, List.nil_append, List.length_append, length_leBytes]
      rw [Nat.mul_add, Nat.mul_one] at hn
      rw [hn, List.length_cons]
      omega
  exact h 0

theorem length_flatMap_eyes (eyes : List EyeReading) : (eyes.flatMap eyeFields).length = 3 * eyes.length := by
  induction eyes with
  | nil => rfl
  | cons e es ih => rw [List.flatMap_cons, List.length_append, ih, eyeFields, List.length_cons]; simp; omega

/-- The eyes of a lane take at most 18 bytes. -/
theorem length_eyes_le (x : Port) (eyes : List EyeReading) : (pack ((eyes.take (eyeCount x)).flatMap eyeFields)).length ≤ 2032 := by
  have hc : eyeCount x ≤ 3 := by
    unfold eyeCount
    split <;> omega
  rw [length_packHalves _ fun f hf => ?_, length_flatMap_eyes, List.length_take]
  · omega
  · obtain ⟨e, -, he⟩ := List.mem_flatMap.1 hf
    simp only [eyeFields, List.mem_cons, List.not_mem_nil, or_false] at he
    rcases he with rfl | rfl | rfl <;> rfl

theorem length_chunks_le {α : Type} (n k : Nat) (xs : List α) : (chunks n k xs).length ≤ k := by
  induction k generalizing xs with
  | zero => simp [chunks]
  | succ k ih =>
    rw [chunks]
    split
    · simp
    · exact Nat.succ_le_succ (ih _)

theorem length_eyeBitmap_le (t : Nat) (errors : List Nat) : (eyeBitmap t errors).length ≤ 2032 := by
  rw [eyeBitmap, List.length_map]
  exact Nat.le_trans (length_chunks_le ..) (by decide)

/-! ### The operations -/

/-- A LANE_DIAG operation on a port and with a parameter that it allows answers with what it does. -/
theorem answers_diag {i : Instr} {n : Nat} {states : PortState → Bool} {param : Nat → Bool} {f : Nat → Nat → Nat → State → CmdOut}
    {r : List Byte} {s' : State} {x : Res} {Q : State → Prop} (hi : exec i s = x)
    (hx : x = diag n states param f lb s) (h : Started s lb 0x040A)
    (hn : diagIs n (cmdArgs (lbOf s lb)) = true) (hp : p = argOf s lb 0x040A 0) (hl : l = argOf s lb 0x040A 1)
    (hv : v = argOf s lb 0x040A 3) (hs : states (portOf s p).state = true) (hpar : param v = true)
    (hf : f p l v s = .done 0 r s') (hlb : lbOf s' lb = lbOf s lb)
    (hQ : (r.length ≤ 2032 → resultData (postResult lb 0 r s') lb r.length = r) → Q (postResult lb 0 r s')) :
    Answers i lb 0 s Q := by
  have hp' : diagPort (cmdArgs (lbOf s lb)) = p := hp.symm
  have hl' : diagLane (cmdArgs (lbOf s lb)) = l := hl.symm
  have hv' : diagParam (cmdArgs (lbOf s lb)) = v := hv.symm
  refine answers_of (hi.trans hx) h hn ?_ hlb (by decide) fun hdata => hQ (hdata (by decide))
  rw [hp', hl', hv', if_pos (by rw [hs, hpar]; rfl), hf]

/-- An operation that sets something on a lane answers. -/
theorem answers_setLane {i : Instr} {n : Nat} {param : Nat → Bool} {f : Nat → Nat → Nat → State → CmdOut} {g : Lane → Lane}
    {x : Res} {Q : State → Prop} (hi : exec i s = x) (hx : x = diag n inDiagnostic param f lb s) (h : Started s lb 0x040A)
    (hn : diagIs n (cmdArgs (lbOf s lb)) = true) (hp : p = argOf s lb 0x040A 0) (hl : l = argOf s lb 0x040A 1)
    (hv : v = argOf s lb 0x040A 3) (hs : (portOf s p).state = .diagnostic) (hpar : param v = true)
    (hf : f p l v s = setLane p l g s) (hQ : ∀ t, laneOf (portOf t p) l = g (laneOf (portOf s p) l) → Q t) : Answers i lb 0 s Q := by
  refine answers_diag hi hx h hn hp hl hv (by rw [hs]; rfl) hpar hf rfl fun _ => hQ _ ?_
  rw [portOf_postResult, laneOf_onLane]

theorem lbOf_laneWords (ws : List (BitVec 64)) (lb : Nat) (s : State) : lbOf (laneWords p l ws s) lb = lbOf s lb :=
  lbs_kept laneWords_touches lb

theorem prbsRead_none (v : Nat) (s : State) : prbsRead [] true p l v s =
    .done 0 (pack [u64 (laneOf (portOf s p) l).errors, u64 (laneOf (portOf s p) l).bitsSeen, u8 (b2n (laneOf (portOf s p) l).checkLock)])
      (if bit v 0 then onLane p l (fun y => { y with errors := 0, bitsSeen := 0 }) s else s) := rfl

theorem streamWords_one (w : BitVec 64) : streamWords w.toNat 1 = [w] := by
  simp [streamWords]

/-- What a checker has counted. -/
def counted (y : Lane) : Nat × Nat := (y.errors, y.bitsSeen)

theorem wordAt_aligned {y : Lane} {w : Nat} (hl : y.last = some w) (hs : y.slip = 0) : wordAt y = some w := by
  unfold wordAt
  rw [hl]
  cases y.prior with
  | none => exact if_pos hs
  | some v => exact congrArg some (if_pos hs)

theorem checkWord_user {y : Lane} {bits : List Bool} (hc : y.check = 8) (hi : y.checkInvert = false) (hs : y.slip = 0) :
    counted (checkWord y bits) = (count48 (y.errors + bitErrors (natOf bits) y.pattern), count48 (y.bitsSeen + 64)) := by
  have hw := wordAt_aligned (y := { y with prior := y.last, last := some (natOf bits) }) rfl hs
  unfold checkWord
  dsimp only
  rw [if_neg (by rw [hc]; decide), if_pos hc, hw]
  simp [counted, hi]

/-- The word that a lane gets when it is not looped back, and what it has after it. -/
theorem laneWord_lane {α : Type} {g : Lane → α} (hg : ∀ y a b, g { y with genReg := a, bitLock := b } = g y)
    (ha : ∀ y a b c d, g { y with ctle := a, gain := b, ffe := c, dfe := d } = g y) {w : BitVec 64}
    (hb : (laneOf (portOf s p) l).loopback = 0) :
    g (laneOf (portOf (laneWord p l w s) p) l) = g (checkWord (laneOf (portOf s p) l) (bitsOf 64 w.toNat)) := by
  unfold laneWord
  extract_lets y rate gw sent none_ got
  have hgot : got = (bitsOf 64 w.toNat, s) := if_pos (by rw [show y.loopback = 0 from hb]; decide)
  rw [view_adapt ha, kept_when (v := fun t => g (laneOf (portOf t p) l)) (f := emit _) (by intros; rfl), laneOf_onLane, hgot]
  exact hg ..

/-- The last word of a lane and its word boundary. -/
def taken (y : Lane) : Option Nat × Nat := (y.last, y.slip)

theorem taken_checkBit (y : Lane) (b : Bool) : taken (checkBit y b) = taken y := by
  have hfound (o : Option Nat) (f : Nat → Lane) (z : Lane) (hf : ∀ q, taken (f q) = taken y) (hz : taken z = taken y) :
      taken (match o with | some q => f q | none => z) = taken y := by
    cases o
    · exact hz
    · exact hf _
  unfold checkBit
  split
  · split
    · rfl
    · exact hfound _ _ _ (fun q => by simp only [taken]) (by simp only [taken])
  · split <;> rfl

theorem taken_checkWord (y : Lane) (bits : List Bool) : taken (checkWord y bits) = (some (natOf bits), y.slip) := by
  have hfold (z : Lane) : taken (bits.foldl checkBit z) = taken z := by
    generalize bits = l
    induction l generalizing z with
    | nil => rfl
    | cons b l ih => exact (ih _).trans (taken_checkBit z b)
  simp only [checkWord]
  split
  · rfl
  · split
    · split <;> rfl
    · exact hfold _

theorem capture_done {w : Nat} (ws : List (BitVec 64)) (h : wordAt (laneOf (portOf (laneWords p l ws s) p) l) = some w) :
    capture ws p l s = .done 0 (pack [u64 w]) (laneWords p l ws s) := by
  simp only [capture, h]

theorem prbsGen_sets (h : patternFits s p v = true) : ∃ n t, (∀ q, portOf t q = portOf s q) ∧ lbOf t lb = lbOf s lb
    ∧ prbsGen p l v s = setLane p l (fun y => { y with gen := v % 16, genInvert := bit v 4, genReg := n }) t := by
  refine ⟨_, _, ?_, ?_, if_pos h⟩
  · intro q
    split
    · rfl
    · exact portOf_freshNat ..
  · split <;> rfl

theorem lbOf_onLane (lb p l : Nat) (f : Lane → Lane) (s : State) : lbOf (onLane p l f s) lb = lbOf s lb := rfl

end

/-- Settles O21, operation by operation. -/
theorem laneDiagnosticRowsComplete : Obligations.LaneDiagnosticRowsComplete := by
  refine ⟨fun s lb p l v h hn hp hl hv h0 => ?_, fun s lb p l v h hn hp hl hv hs hr => ?_,
    fun s lb p l v h hn hp hl hv hs h16 h4 hok => ?_, fun s lb p l v h hn hp hl hv hs h32 h8 hfit => ?_,
    fun s lb p l v h hn hp hl hv hs h32 h8 hfit => ?_, fun s lb p l v h hn hp hl hv hs h1 => ?_,
    fun s lb p l v w h hn hp hl hv hs h0 hc hi hb hsl => ?_, fun s lb p l v h hn hp hl hv hs => ?_,
    fun s lb p l v h hn hp hl hv hs => ?_, fun s lb p l v w h hn hp hl hv hs h0 hw hsl => ?_,
    fun s lb p l v w h hn hp hl hv hs h0 hb hsl => ?_, fun s lb p l v h hn hp hl hv hs h1 h63 => ?_,
    fun s lb p l v h hn hp hl hv hs h2 => ?_, fun s lb p l v eyes h hn hp hl hv hs h0 => ?_,
    fun s lb p l v errors h hn hp hl hv hs he => ?_, fun s lb p l v h hn hp hl hv h1 h3 hr => ?_⟩
  · refine answers_diag (x := execStatus lb s) rfl rfl h hn hp hl hv rfl (by simp [h0]) rfl rfl
      fun hdata => ⟨postResult_fabric .., hdata ?_⟩
    rw [statusBytes, length_pack [1, 1, 1, 1, 1, 1, 1, 1, 1, 1, 1, 1, 1, 1, 1, 1] rfl]
    decide
  · have hr3 : v ≤ 3 := by simp [classRate] at hr; exact hr.1
    refine answers_diag (x := execDiagEnter lb s) rfl rfl h hn hp hl hv (by simp [hs]) (by simp [hr3]) (if_neg (by simp [hr])) rfl
      fun _ => ?_
    rw [portOf_postResult, portOf_onPort]
    exact ⟨rfl, rfl⟩
  · have hb : v / 256 % 256 = v / 256 := Nat.mod_eq_of_lt (by omega)
    refine answers_setLane (x := execTxTapsSet lb s)
      (g := fun y => { y with taps := (laneOf (portOf s p) l).taps.set (v % 256) (signed8 (v / 256)) }) rfl rfl h hn hp hl hv hs
      (by simp [h4]; omega) ?_ fun t ht => congrArg Lane.taps ht
    rw [tapsSet, hb]
    exact if_pos hok
  · obtain ⟨n, t, ht, hlb, hm⟩ := prbsGen_sets (lb := lb) (l := l) hfit
    refine answers_diag (x := execPrbsGen lb s) rfl rfl h hn hp hl hv (by rw [hs]; rfl) (by simp [patternParam, h32, h8]) hm hlb fun _ => ?_
    rw [portOf_postResult, laneOf_onLane]
    exact ⟨rfl, rfl⟩
  · refine answers_setLane (x := execPrbsCheck lb s) rfl rfl h hn hp hl hv hs (by simp [patternParam, h32, h8]) (if_pos hfit)
      fun t ht => ?_
    rw [ht]
    exact ⟨rfl, rfl, rfl, rfl⟩
  · refine answers_diag (x := execPrbsRead lb 0 0 true s) rfl rfl h hn hp hl hv (by rw [hs]; rfl) (by simp [h1]) (prbsRead_none v s)
      (by split <;> rfl) fun hdata => ?_
    have hlen := length_pack (fs := [u64 (laneOf (portOf s p) l).errors, u64 (laneOf (portOf s p) l).bitsSeen,
      u8 (b2n (laneOf (portOf s p) l).checkLock)]) [8, 8, 1] rfl
    have hd := hdata (by rw [hlen]; decide)
    rw [hlen] at hd
    refine ⟨hd.trans ?_, ?_⟩
    · simp [pack, packFrom, u64, u8, roundUp]
    · rw [portOf_postResult]
      obtain rfl | rfl : v = 0 ∨ v = 1 := by omega
      · exact ⟨rfl, rfl⟩
      · rw [if_pos (by decide), laneOf_onLane]
        exact ⟨rfl, rfl⟩
  · refine answers_diag (x := execPrbsRead lb w.toNat 1 true s) rfl rfl h hn hp hl hv (by rw [hs]; rfl) (by simp [h0]) rfl
      ?_ fun _ => ?_
    · rw [streamWords_one, h0]
      exact lbOf_laneWords [w] lb s
    · rw [streamWords_one, h0, portOf_postResult]
      have hw : natOf (bitsOf 64 w.toNat) = w.toNat := (natOf_bitsOf ..).trans (Nat.mod_eq_of_lt w.isLt)
      have hcount := (laneWord_lane (g := counted) (w := w) (by intros; rfl) (by intros; rfl) hb).trans (checkWord_user hc hi hsl)
      rw [hw] at hcount
      exact ⟨congrArg Prod.fst hcount, congrArg Prod.snd hcount⟩
  · exact answers_setLane (x := execPatternLow lb s) rfl rfl h hn hp hl hv hs rfl rfl fun t ht => congrArg Lane.pattern ht
  · exact answers_setLane (x := execPatternHigh lb s) rfl rfl h hn hp hl hv hs rfl rfl fun t ht => congrArg Lane.pattern ht
  · have hm : capture [] p l s = .done 0 (pack [u64 w]) s := capture_done [] (wordAt_aligned hw hsl)
    refine answers_diag (x := execCapture lb [] s) rfl rfl h hn hp hl hv (by rw [hs]; rfl) (by simp [h0]) hm rfl
      fun hdata => ⟨postResult_fabric .., ?_⟩
    rw [length_pack [8] rfl] at hdata
    exact (hdata (by decide)).trans (by simp [pack, packFrom, u64, roundUp])
  · have htaken := (laneWord_lane (g := taken) (w := w) (by intros; rfl) (by intros; rfl) hb).trans (taken_checkWord ..)
    have hlast : (laneOf (portOf (laneWord p l w s) p) l).last = some w.toNat :=
      (congrArg Prod.fst htaken :).trans (congrArg some ((natOf_bitsOf ..).trans (Nat.mod_eq_of_lt w.isLt)))
    have hm : capture [w] p l s = .done 0 (pack [u64 w.toNat]) (laneWords p l [w] s) :=
      capture_done [w] (wordAt_aligned hlast ((congrArg Prod.snd htaken :).trans hsl))
    refine answers_diag (x := execCapture lb [w] s) rfl rfl h hn hp hl hv (by rw [hs]; rfl) (by simp [h0]) hm
      (lbOf_laneWords ..) fun hdata => ?_
    rw [length_pack [8] rfl] at hdata
    exact (hdata (by decide)).trans (by simp [pack, packFrom, u64, roundUp])
  · exact answers_setLane (x := execBitSlip lb s) rfl rfl h hn hp hl hv hs (by simp [h1, h63]) rfl fun t ht => congrArg Lane.slip ht
  · exact answers_setLane (x := execLoopback lb s) rfl rfl h hn hp hl hv hs (by simp [h2]) rfl fun t ht => congrArg Lane.loopback ht
  · exact answers_diag (x := execEyeSummary lb eyes s) rfl rfl h hn hp hl hv hs (by simp [h0]) rfl rfl
      fun hdata => ⟨postResult_fabric .., hdata (length_eyes_le ..)⟩
  · exact answers_diag (x := execEyeScan lb errors s) rfl rfl h hn hp hl hv hs rfl (if_pos he) rfl
      fun hdata => ⟨postResult_fabric .., hdata (length_eyeBitmap_le ..)⟩
  · refine answers_diag (x := execRateLimit lb s) rfl rfl h hn hp hl hv rfl (by simp [h1, h3]) (if_pos hr) rfl fun _ => ?_
    rw [portOf_postResult, portOf_onPort]

end Sys2Proof.Rows
end

section
/-! SUPPORT. Discovery (R368 to R374). -/

namespace Sys2Proof.Rows

open Sys2Proof.Machine Sys2Proof.Safety Sys2Proof.Laws Sys2Proof.Frames

set_option Elab.async false

section
variable {s : State} {p lb : Nat} {b : List Byte}

theorem disc_kept {F : List Part} {t : State} (h : Touches F s t) (hF : spares F [.disc] = true := by rfl) : t.disc = s.disc :=
  h.keeps [.disc] hF

/-! ### Starting an epoch -/

theorem lbOf_onDisc (f : Discovery → Discovery) (l : Nat) (s : State) : lbOf (onDisc f s) l = lbOf s l := rfl

theorem lbOf_abandon {l : Nat} (r : Nat) (h : (lbOf s l).phase ≠ .waiting) : lbOf (abandon r s) l = lbOf s l := by
  have hj (u : State) : lbOf (journal 0x9003 4 2 true [u8 r] u) l = lbOf u l := lbs_kept journal_touches l
  rw [abandon]
  refine (lbOf_postWaiting? _ _ _ _ ?_).trans ?_
  · rw [hj]
    exact h
  · exact hj _

theorem lbOf_beginEpoch {l : Nat} (e k : Nat) (h : (lbOf s l).phase ≠ .waiting) : lbOf (beginEpoch e k s) l = lbOf s l := by
  rw [beginEpoch]
  refine (lbOf_onDisc ..).trans ?_
  split
  · rfl
  · exact lbOf_abandon _ h

theorem beginEpoch_disc (e k : Nat) (s : State) : (beginEpoch e k s).disc.step = .electing
    ∧ (beginEpoch e k s).disc.root = { epoch := e, priority := k, identity := ownIdentity } := ⟨rfl, rfl⟩

theorem abandon_disc (r : Nat) (s : State) : (abandon r s).disc =
    { s.disc with step := .idle, mine := none, held := false, lb := none, plan := [], acks := [] } := by
  rw [abandon]
  exact (disc_kept postWaiting?_touches).trans (disc_kept journal_touches)

theorem rootFail_disc (r : Nat) (s : State) : (rootFail r s).disc.step = .idle ∧ (rootFail r s).disc.number = s.disc.number := by
  rw [rootFail, abandon_disc, disc_kept toChildren_touches]
  exact ⟨rfl, rfl⟩

/-! ### A lone module -/

theorem toChildren_none (op : Nat) (fields : List (Nat × Fld)) (h : children s = []) : toChildren op fields s = s := by
  rw [toChildren, h]
  rfl

theorem electionQuiet_alone (hs : s.disc.step = .electing) (ha : activePorts s = []) (hr : isRoot s = true) (hc : children s = []) :
    (electionQuiet s).disc.step = .computing := by
  have hq : electionQuiet s = checkSubtree (onDisc (fun d => { d with step := .reporting }) s) := by
    rw [electionQuiet, if_pos hs, ha]
    rfl
  have hc' : children (onDisc (fun d => { d with step := .reporting }) s) = [] := hc
  have hr' : isRoot (onDisc (fun d => { d with step := .reporting }) s) = true := hr
  rw [hq, checkSubtree, hc', if_pos ⟨rfl, rfl⟩, if_pos hr']
  rfl

theorem rootCheck_none (mode : Nat) : rootCheck [] mode = none := by
  have hr : rackBad [] = false := by decide
  have ho : opticsBad [] = false := rfl
  have hd : (planOf [] mode none).2.1 = if mode = 0 then (1, 1, 1) else (0, 0, 0) := rfl
  have ht (cs : Coords) : torusBad [] (planOf [] mode none).2.1 cs = false := by
    rw [hd, torusBad]
    split <;> rfl
  have hn : numbersBad [] (planOf [] mode none).1 (racksIn []).length mode = false := by
    rw [show (planOf [] mode none).1 = [] from rfl, numbersBad]
    simp [show (racksIn []).length = 0 from rfl]
  simp [rootCheck, hr, ho, ht, hn]

/-- The number that a module without reports gives itself. -/
def loneAssign (mode : Nat) : Assign := { identity := ownIdentity, number := 0, rack := 0, position := 0, mode := mode
                                          dimX := 1 - mode, dimY := 1 - mode, dimZ := 1 - mode }

/-- The state in which a module without reports has numbered itself. -/
def loneTaken (s : State) : State := onDisc (fun d => { d with acks := [ownIdentity] })
  (takeAssign (loneAssign s.disc.mode) (onDisc (fun d => { d with step := .assigning, plan := [] }) s))

theorem rootCompute_alone (hs : s.disc.step = .computing) (hr : s.disc.reports = []) (hf : refuses s (loneAssign s.disc.mode) = false) :
    rootCompute s = checkAcks (loneTaken s) := by
  have hp : (planOf [] s.disc.mode (rootSeconds s)).1 = [] := rfl
  have hf' : refuses (onDisc (fun d => { d with step := .assigning, plan := [] }) s) (loneAssign s.disc.mode) = false := hf
  rw [rootCompute, if_neg (by simp [hs]), hr, rootCheck_none]
  dsimp only
  rw [hp]
  exact (if_neg (ne_true_of_eq_false hf')).trans rfl

theorem checkAcks_commits (hs : s.disc.step = .assigning) (hr : isRoot s = true) (hp : s.disc.plan = []) (hc : children s = []) :
    checkAcks s = onDisc (fun d => { d with step := .committing, commitAt := s.time.rackTime + ticksUs 1000 }) s := by
  rw [checkAcks, if_pos ⟨hs, hr, by rw [hp]; rfl⟩]
  exact toChildren_none _ _ hc

/-! ### Messages -/

theorem op_readPkt (hk : hdrKind b = 1) : (readPkt b).op = field b 3 1 := by
  have hi : innerBytes b = b := if_neg (by rw [hk]; decide)
  simp only [readPkt, hi, hk, if_true]

/-- A discovery message that passes its checks is acted on by its opcode. -/
theorem onDiscovery_acts {op : Nat} {q : Pkt} {u : State} (hp : p < 96) (hs : (portOf s p).state = .active) (hl : b.length = 64)
    (hk : hdrKind b = 1) (ho : field b 3 1 = op) (hb : stageB (moduleNumber s) (some 2) b = none) (hq : q = readPkt b)
    (hu : q.op = op → discoveryMessage p q s = u) : onDiscovery op p b s = .next u := by
  refine (if_pos hp).trans ?_
  dsimp only
  rw [if_pos (by rw [hs, hl, hk, ho]; simp), hb, ← hq]
  exact congrArg Host.Outcome.next (hu (by rw [hq, op_readPkt hk, ho]))

theorem hello_neighbour (q : Pkt) : ∃ done, tfind (hello p q s).disc.neighbours p = some { readNeighbour q with complete := done } := by
  unfold hello
  extract_lets n u old done v w
  have hv : tfind v.disc.neighbours p = some { n with complete := done } := tfind_tset_self ..
  have hw : w.disc = v.disc := by
    unfold w
    split <;> rfl
  refine ⟨done, ?_⟩
  split
  · exact (congrArg (fun d : Discovery => tfind d.neighbours p) hw :).trans hv
  · rw [hw]
    exact hv

theorem report_root {q : Pkt} (he : ctlArg q 0x28 2 = s.disc.root.epoch) (hn : ctlArg q 0x2A 1 ≠ 0xFF) (hr : isRoot s = true) :
    report p q s = onDisc (fun d => { d with reports := d.reports ++ [readReport q] }) (onDisc (fun d => { d with
      via := ((readReport q).reporter, p) :: d.via.filter fun v => v.1 != (readReport q).reporter }) s) :=
  (if_neg (Classical.not_not.2 he)).trans ((if_neg hn).trans (if_pos hr))

theorem assign_other {q : Pkt} (he : ctlArg q 0x20 2 = s.disc.root.epoch) (hr : isRoot s = false) (hi : ctlArg q 0x18 8 ≠ ownIdentity) :
    assign q s = sendAssign (readAssign q) s :=
  (if_neg (by simp [he, hr])).trans (if_pos hi)

theorem takeAssign_disc (a : Assign) (s : State) : (takeAssign a s).disc =
    { s.disc with mine := some a, held := a.number != s.disc.number } := by
  unfold takeAssign
  extract_lets u
  split
  · split <;> rfl
  · rfl

theorem assign_own {q : Pkt} (he : ctlArg q 0x20 2 = s.disc.root.epoch) (hr : isRoot s = false) (hi : ctlArg q 0x18 8 = ownIdentity)
    (hf : refuses s (readAssign q) = false) :
    (assign q s).disc = { s.disc with mine := some (readAssign q), held := (readAssign q).number != s.disc.number } := by
  have ha : assign q s = sendDiscovery s.disc.parent 0x13 (ackFields s.disc.root.epoch ownIdentity (readAssign q).number
      (b2n (refuses s (readAssign q)))) (if refuses s (readAssign q) = true then s else takeAssign (readAssign q) s) :=
    (if_neg (by simp [he, hr])).trans (if_neg (Classical.not_not.2 hi))
  rw [ha, if_neg (ne_true_of_eq_false hf)]
  exact (disc_kept sendDiscovery_touches).trans (takeAssign_disc ..)

theorem checkAcks_disc (s : State) : (checkAcks s).disc.acks = s.disc.acks
    ∧ ((checkAcks s).disc.step = s.disc.step ∨ (checkAcks s).disc.step = .committing) := by
  unfold checkAcks
  split
  · have hd := disc_kept (toChildren_touches (op := 0x14)
      (fields := [(0x18, u16 s.disc.root.epoch), (0x20, u64 (s.time.rackTime + ticksUs 1000))])
      (s := onDisc (fun d => { d with step := .committing, commitAt := s.time.rackTime + ticksUs 1000 }) s))
    dsimp only
    exact ⟨(congrArg Discovery.acks hd :), .inr ((congrArg Discovery.step hd :))⟩
  · exact ⟨rfl, .inl rfl⟩

theorem assignAck_root {q : Pkt} (he : ctlArg q 0x20 2 = s.disc.root.epoch) (hr : isRoot s = true) (hs : s.disc.step = .assigning)
    (h0 : ctlArg q 0x24 1 = 0) : (assignAck q s).disc.acks.contains (ctlArg q 0x18 8) = true
      ∧ ((assignAck q s).disc.step = .assigning ∨ (assignAck q s).disc.step = .committing) := by
  generalize hi : ctlArg q 0x18 8 = i
  have ha : assignAck q s = checkAcks (onDisc (fun d => { d with acks := if d.acks.contains i then d.acks else i :: d.acks }) s) := by
    unfold assignAck
    rw [hi]
    exact (if_neg (Classical.not_not.2 he)).trans ((if_neg (by simp [hr])).trans ((if_neg (Classical.not_not.2 hs)).trans (if_neg (Classical.not_not.2 h0))))
  obtain ⟨hacks, hstep⟩ := checkAcks_disc (onDisc (fun d => { d with acks := if d.acks.contains i then d.acks else i :: d.acks }) s)
  rw [ha, hacks, onDisc_disc]
  refine ⟨?_, hstep.imp_left fun h => h.trans hs⟩
  dsimp only
  split
  next h => exact h
  · simp

theorem commitMsg_disc {q : Pkt} (he : ctlArg q 0x18 2 = s.disc.root.epoch) (hr : isRoot s = false) :
    (commitMsg q s).disc = { s.disc with step := .committing, commitAt := ctlArg q 0x20 8 } := by
  rw [commitMsg, if_neg (by simp [he, hr])]
  exact disc_kept toChildren_touches

theorem failMsg_disc {q : Pkt} (he : ctlArg q 0x18 2 = s.disc.root.epoch) (hs : s.disc.step ≠ .idle) :
    (failMsg q s).disc.step = .idle ∧ (failMsg q s).disc.mine = none ∧ (failMsg q s).disc.number = s.disc.number := by
  rw [failMsg, if_neg (by simp [he, hs]), abandon_disc, disc_kept toChildren_touches]
  exact ⟨rfl, rfl, rfl⟩

/-! ### The commit -/

theorem adopt_disc (a : Assign) (s : State) : (adopt a s).disc = { s.disc with
    number := a.number, assigned := true, committed := some a, mine := none, held := false, step := .idle, lb := none } := by
  unfold adopt
  extract_lets changed lb u
  have hu : u.disc = { s.disc with
      number := a.number, assigned := true, committed := some a, mine := none, held := false, step := .idle, lb := none } := by
    exact kept_when (v := State.disc) (fun t => disc_kept modEvent_touches) _
  refine (disc_kept postWaiting?_touches).trans ?_
  split
  · exact (disc_kept beginCommit_touches).trans hu
  · exact hu

end

/-- Settles O22, row by row. -/
theorem discoveryRowsComplete : Obligations.DiscoveryRowsComplete := by
  refine ⟨fun s lb h => ?_, fun s => gives_of rfl ⟨_, rfl, rfl⟩,
    fun s hs ha hr hc => gives_of rfl ⟨_, rfl, electionQuiet_alone hs ha hr hc⟩,
    fun s hs hr hroot hf hc => gives_of rfl ⟨_, rfl, ?_⟩,
    fun s p b q hp hs hl hk ho hb hq =>
      gives_of rfl ⟨_, onDiscovery_acts (u := hello p q s) hp hs hl hk ho hb hq fun h => by simp only [discoveryMessage, h], ?_⟩,
    fun s p b q hp hs hl hk ho hb hq he hn hr =>
      gives_of rfl ⟨_, onDiscovery_acts (u := report p q s) hp hs hl hk ho hb hq fun h => by simp only [discoveryMessage, h], ?_⟩,
    fun s p b q hp hs hl hk ho hb hq he hr =>
      gives_of rfl ⟨_, onDiscovery_acts (u := assign q s) hp hs hl hk ho hb hq fun h => by simp only [discoveryMessage, h], ?_⟩,
    fun s p b q hp hs hl hk ho hb hq he hr hst h0 =>
      gives_of rfl ⟨_, onDiscovery_acts (u := assignAck q s) hp hs hl hk ho hb hq fun h => by simp only [discoveryMessage, h], ?_⟩,
    fun s p b q hp hs hl hk ho hb hq he hr =>
      gives_of rfl ⟨_, onDiscovery_acts (u := commitMsg q s) hp hs hl hk ho hb hq fun h => by simp only [discoveryMessage, h], ?_⟩,
    fun s p b q hp hs hl hk ho hb hq he hst =>
      gives_of rfl ⟨_, onDiscovery_acts (u := failMsg q s) hp hs hl hk ho hb hq fun h => by simp only [discoveryMessage, h], ?_⟩,
    fun s a hs ht hc hm => gives_of rfl ⟨_, rfl, ?_⟩, fun s hs hr => gives_of rfl ⟨_, rfl, ?_⟩⟩
  · have hlb := lbOf_beginEpoch (s := s) (l := lb) ((s.disc.highest + 1) % 65536) 0 (phase_of_started h)
    refine gives_of (x := execDiscoveryStart lb s) rfl ⟨_, runCmd_wait h rfl rfl hlb, rfl, rfl, rfl, rfl, ?_⟩
    rw [lbOf_onLb]
  · have ha := checkAcks_commits (s := loneTaken s) rfl hroot rfl hc
    rw [rootCompute_alone hs hr hf, ha]
    exact ⟨rfl, rfl, rfl⟩
  · obtain ⟨done, h⟩ := hello_neighbour (s := s) (p := p) q
    rw [h]
    exact ⟨rfl, rfl⟩
  · rw [report_root he hn hr]
    exact ⟨rfl, rfl⟩
  · refine ⟨assign_other he hr, fun hi hf => ?_⟩
    rw [assign_own he hr hi hf]
    exact ⟨rfl, rfl⟩
  · exact assignAck_root he hr hst h0
  · rw [commitMsg_disc he hr]
    exact ⟨rfl, rfl⟩
  · exact failMsg_disc he hst
  · rw [commitTime, if_pos ⟨hs, ht, by rw [hc]; rfl⟩, hm]
    dsimp only
    rw [adopt_disc]
    exact ⟨rfl, rfl, rfl, rfl, rfl⟩
  · rw [if_pos ⟨hs, hr⟩]
    exact rootFail_disc ..

end Sys2Proof.Rows
end
